-- ==== Sys2Proof/Word.lean ====
section
/-! DEFINITION. The word types and their plainest arithmetic. -/

namespace Sys2Proof

/-- A byte of a packet, a pool block or a frame. -/
abbrev Byte := BitVec 8

/-- A register or payload word (R36: 32 bits). -/
abbrev Word := BitVec 32

/-- The number in bits `lo` to `lo + w - 1` of a word. -/
def Word.fld (x : Word) (lo w : Nat) : Nat := (x.toNat / 2 ^ lo) % 2 ^ w

/-- One bit of a word. -/
def Word.bit (x : Word) (i : Nat) : Bool := x.getLsbD i

/-- A word with the number `v` (modulo its width) put into bits `lo` to `lo + w - 1`. -/
def Word.put (x : Word) (lo w v : Nat) : Word :=
  let m : Word := BitVec.ofNat 32 ((2 ^ w - 1) * 2 ^ lo)
  (x &&& ~~~m) ||| BitVec.ofNat 32 ((v % 2 ^ w) * 2 ^ lo)

/-- A word with one bit set to `b`. -/
def Word.setBit (x : Word) (i : Nat) (b : Bool) : Word := x.put i 1 b.toNat

/-- The signed number that `w` bits spell in two's complement. -/
def signed (w n : Nat) : Int :=
  if 2 ^ (w - 1) ≤ n % 2 ^ w then (n % 2 ^ w : Int) - 2 ^ w else (n % 2 ^ w : Int)

/-- The `w`-bit two's-complement code of a signed number. -/
def unsigned (w : Nat) (x : Int) : Nat := (x % (2 ^ w : Int)).toNat

/-- The signed number in a field of a word. -/
def Word.sfld (x : Word) (lo w : Nat) : Int := signed w (x.fld lo w)

/-- The four bytes of a word, most significant first (R36, R68). -/
def Word.bytes (x : Word) : List Byte :=
  [x.extractLsb' 24 8, x.extractLsb' 16 8, x.extractLsb' 8 8, x.extractLsb' 0 8]

/-- The word that four bytes spell, most significant first. -/
def Word.ofBytes (a b c d : Byte) : Word := a ++ b ++ c ++ d

/-- The whole words of a list of bytes; what is left over of a word is dropped. -/
def wordsOfBytes : List Byte → List Word
  | a :: b :: c :: d :: r => Word.ofBytes a b c d :: wordsOfBytes r
  | _ => []

/-- A count kept at its largest value (saturating counters of the register tables). -/
def satAdd (w : Nat) (n k : Nat) : Nat := min (n + k) (2 ^ w - 1)

end Sys2Proof
end

