-- ==== Sys2Proof/Syntax.lean ====
section
/-! DEFINITION. The commands the module takes: one constructor of `Instr` for each row of spec/opcode_table.json, with
the row's operands. Every command takes first the cycles of the running clock since the command before it (log 1). -/

namespace Sys2Proof

abbrev AxisId := Fin 96
abbrev BankId := Fin 8
/-- A feedback channel. -/
abbrev ChanId := Fin 96
/-- Coil A is 0, coil B is 1. -/
abbrev CoilId := Fin 2
/-- Legs A1, A2, B1, B2. -/
abbrev LegId := Fin 4
/-- Gates GH_A1, GL_A1, GH_A2, GL_A2, GH_B1, GL_B1, GH_B2, GL_B2 (Table 11-7's order). -/
abbrev GateId := Fin 8

/-- The ports, by ID 0 to 3 (Table 1-2). -/
inductive Port where
  | host | a | b | boot
  deriving DecidableEq, Repr

/-- The opcodes of Table 2-6. -/
inductive Op where
  | nop | regRead | regWrite | regWriteKeyed | regReadMulti | axisEnergise | axisRelease | axisDiagOffstate
  | axisSelftestCmp | axisRetire | axisReinstate | moveAbs | moveRel | moveVel | segRun | segAppend | followStart
  | followEnd | setPosition | stop | abort | hold | resume | poolAlloc | poolFree | poolGive | poolWrite | poolRead
  | groupJoin | groupLeave | groupArm | groupStartAt | groupHalt | timeSourceSelect | timeQuery | logRead | logMark
  | plRequest | echo
  deriving DecidableEq, Repr

/-- A packet that has passed its CRC, without its opcode (Tables 2-1 and 2-2): the port, on ports A and B the SRC node,
the flags a request uses, TAG, TARGET, the short stamp and the payload. -/
structure Packet where
  port : Port
  src : BitVec 14
  stamped : Bool
  wantAccept : Bool
  wantStart : Bool
  lastInBurst : Bool
  lateOk : Bool
  tag : BitVec 16
  target : BitVec 16
  stamp : BitVec 40
  words : List Word
  deriving DecidableEq, Repr

/-- The two codes a coil's ADC has for a strobe (R280): at the strobe, and at the midpoint of the last on-time that ended
before it. -/
structure CoilCodes where
  strobe : BitVec 12
  mid : BitVec 12
  deriving DecidableEq, Repr

/-- What a bank tile measures at a strobe (R279, R280): coil codes, the bus code, the leg counts of A1, A2, B1, B2. -/
structure Strobe where
  a : CoilCodes
  b : CoilCodes
  vbus : BitVec 12
  a1 : BitVec 24
  a2 : BitVec 24
  b1 : BitVec 24
  b2 : BitVec 24
  deriving DecidableEq, Repr

/-- The sense cell of a gate's transistor at an SC crossing (R274): its current, 25 µA units. -/
structure SenseHit where
  gate : GateId
  current : Nat
  deriving DecidableEq, Repr

/-- A coil's shunt voltage, magnitude in µV (R276). -/
structure ShuntHit where
  coil : CoilId
  volts : Nat
  deriving DecidableEq, Repr

/-- A coil's sense cell against its shunt (R283, R284): the sense-cell current of the conducting low side, 25 µA units, and
the coil ADC's code. -/
structure SenseCheck where
  coil : CoilId
  current : Nat
  code : BitVec 12
  deriving DecidableEq, Repr

/-- What the off-state diagnostic measures on a leg (Table 11-4): the node 1.5 µs into the pulse of step 5, mV, and the
bootstrap at its end, 5 mV units; the node 1.5 µs into the pulse of step 6, mV; the largest shunt voltage of the pulse of
step 7, µV; whether the self-test of step 8 passes. -/
structure LegMeas where
  node5 : Nat
  boot5 : BitVec 12
  node6 : Nat
  shunt7 : Nat
  cmpOk : Bool
  deriving DecidableEq, Repr

/-- What steps 2 to 4 of the off-state diagnostic measure on a coil (Table 11-4), mV: the difference of the two nodes, the
higher node with both sinks on, the lower node with both sources on. -/
structure CoilMeas where
  diff2 : Nat
  sink3 : Nat
  source4 : Nat
  deriving DecidableEq, Repr

/-- A storage upset of one copy of a triplicated register word (R324): copy 0 to 2, the register's address, the bits. -/
structure Upset where
  copy : Fin 3
  key : Nat
  bits : Word
  deriving DecidableEq, Repr

/-- The kinds of IEEE 1588 message the module handles (Table 14-3). -/
inductive PtpKind where
  | sync | followUp | announce | delayReq | delayResp
  /-- a message that is none of these, which the ordinary clock ignores -/
  | other
  deriving DecidableEq, Repr

/-- An IEEE 1588 message, in the fields the ordinary and the transparent clock use. -/
structure PtpMsg where
  kind : PtpKind
  domain : Byte
  /-- sourcePortIdentity: clockIdentity and port number -/
  src : BitVec 64
  srcPort : BitVec 16
  seq : BitVec 16
  twoStep : Bool
  /-- correctionField, 2^-16 ns -/
  corr : Int
  /-- originTimestamp, preciseOriginTimestamp or receiveTimestamp: seconds and nanoseconds -/
  sec : Nat
  ns : Nat
  /-- Announce: the grandmaster's data set and stepsRemoved -/
  prio1 : Byte
  clockClass : Byte
  accuracy : Byte
  variance : BitVec 16
  prio2 : Byte
  gmId : BitVec 64
  steps : BitVec 16
  /-- Delay_Resp: requestingPortIdentity -/
  reqId : BitVec 64
  reqPort : BitVec 16
  /-- fine ticks since the first bit of the frame's destination address was stamped (R334) -/
  ago : Nat
  deriving DecidableEq, Repr

/-- The levels of the strap lands at step 2 of a Kindling (R423). -/
structure Straps where
  refdly : BitVec 3
  bootsrc : BitVec 2
  nodeAddrDef : Bool
  /-- the kept items that the snapshot lacks or that fail its check (R382): a register's address, 1 for the lock -/
  snapLost : List Nat
  deriving DecidableEq, Repr

/-- The commands. -/
inductive Instr where
  /-- PACKET_CRC_DISCARD (R39). -/
  | packetCrcDiscard (dt : Nat) (port : Port)
  /-- BAD_OPCODE (R43). -/
  | badOpcode (dt : Nat) (version : BitVec 4) (opcode : Byte) (p : Packet)
  /-- NOP (R44). -/
  | nop (dt : Nat) (p : Packet)
  /-- REG_READ (R47). -/
  | regRead (dt : Nat) (p : Packet)
  /-- REG_WRITE (R47). -/
  | regWrite (dt : Nat) (p : Packet)
  /-- REG_WRITE_KEYED (R323). -/
  | regWriteKeyed (dt : Nat) (p : Packet)
  /-- REG_READ_MULTI (R48). -/
  | regReadMulti (dt : Nat) (p : Packet)
  /-- AXIS_ENERGISE (R156). -/
  | axisEnergise (dt : Nat) (p : Packet)
  /-- AXIS_RELEASE (R158). -/
  | axisRelease (dt : Nat) (p : Packet)
  /-- AXIS_DIAG_OFFSTATE (R287). -/
  | axisDiagOffstate (dt : Nat) (p : Packet)
  /-- AXIS_SELFTEST_CMP (R288). -/
  | axisSelftestCmp (dt : Nat) (p : Packet)
  /-- AXIS_RETIRE (R308). -/
  | axisRetire (dt : Nat) (p : Packet)
  /-- AXIS_REINSTATE (R309). -/
  | axisReinstate (dt : Nat) (p : Packet)
  /-- MOVE_ABS (R93). -/
  | moveAbs (dt : Nat) (p : Packet)
  /-- MOVE_REL (R45). -/
  | moveRel (dt : Nat) (p : Packet)
  /-- MOVE_VEL (R99). -/
  | moveVel (dt : Nat) (p : Packet)
  /-- SEG_RUN (R103). -/
  | segRun (dt : Nat) (p : Packet)
  /-- SEG_APPEND (R110). -/
  | segAppend (dt : Nat) (p : Packet)
  /-- FOLLOW_START (R135). -/
  | followStart (dt : Nat) (p : Packet)
  /-- FOLLOW_END (R137). -/
  | followEnd (dt : Nat) (p : Packet)
  /-- SET_POSITION (R102). -/
  | setPosition (dt : Nat) (p : Packet)
  /-- STOP (R112). -/
  | stop (dt : Nat) (p : Packet)
  /-- ABORT (R65). -/
  | abort (dt : Nat) (p : Packet)
  /-- HOLD (R113). -/
  | hold (dt : Nat) (p : Packet)
  /-- RESUME (R114). -/
  | resume (dt : Nat) (p : Packet)
  /-- POOL_ALLOC (R76). -/
  | poolAlloc (dt : Nat) (p : Packet)
  /-- POOL_FREE (R76). -/
  | poolFree (dt : Nat) (p : Packet)
  /-- POOL_GIVE (R76). -/
  | poolGive (dt : Nat) (p : Packet)
  /-- POOL_WRITE (R74). -/
  | poolWrite (dt : Nat) (p : Packet)
  /-- POOL_READ (R69). -/
  | poolRead (dt : Nat) (p : Packet)
  /-- GROUP_JOIN (R354). -/
  | groupJoin (dt : Nat) (p : Packet)
  /-- GROUP_LEAVE (R354). -/
  | groupLeave (dt : Nat) (p : Packet)
  /-- GROUP_ARM (R356). -/
  | groupArm (dt : Nat) (p : Packet)
  /-- GROUP_START_AT (R359). -/
  | groupStartAt (dt : Nat) (p : Packet)
  /-- GROUP_HALT (R362). -/
  | groupHalt (dt : Nat) (p : Packet)
  /-- TIME_SOURCE_SELECT (R349). -/
  | timeSourceSelect (dt : Nat) (p : Packet)
  /-- TIME_QUERY (R44). -/
  | timeQuery (dt : Nat) (p : Packet)
  /-- LOG_READ (R44). -/
  | logRead (dt : Nat) (p : Packet)
  /-- LOG_MARK (R410). -/
  | logMark (dt : Nat) (p : Packet)
  /-- PL_REQUEST (R391). -/
  | plRequest (dt : Nat) (p : Packet)
  /-- ECHO (R44). -/
  | echo (dt : Nat) (p : Packet)
  /-- BURST_BROKEN (R57). -/
  | burstBroken (dt : Nat) (port : Port) (src : BitVec 14)
  /-- STAMPED_COMMAND_DUE (R60). -/
  | stampedCommandDue (dt : Nat) (port : Port) (src : BitVec 14) (tag : BitVec 16)
  /-- QUEUED_COMMAND_TAKEN (R50). -/
  | queuedCommandTaken (dt : Nat) (a : AxisId)
  /-- ENTRY_FETCH (R88). -/
  | entryFetch (dt : Nat) (a : AxisId)
  /-- SEGMENT_COMMIT (R90). -/
  | segmentCommit (dt : Nat) (a : AxisId)
  /-- SPLICE (R91). -/
  | splice (dt : Nat) (a : AxisId)
  /-- SEGMENT_END (R108). -/
  | segmentEnd (dt : Nat) (a : AxisId)
  /-- WAIT_STAMP_REACHED (R105). -/
  | waitStampReached (dt : Nat) (a : AxisId)
  /-- EDGE_SOLVE (R126). -/
  | edgeSolve (dt : Nat) (a : AxisId)
  /-- EDGE_RELEASE (R26). -/
  | edgeRelease (dt : Nat) (a : AxisId)
  /-- SETPOINT_EFFECT (R148). -/
  | setpointEffect (dt : Nat) (a : AxisId) (c : CoilId)
  /-- FOLLOW_PULSE (R136). -/
  | followPulse (dt : Nat) (a : AxisId)
  /-- GRID_INSTANT (R148). -/
  | gridInstant (dt : Nat) (a : AxisId)
  /-- BRAKE_WAIT_END (R156). -/
  | brakeWaitEnd (dt : Nat) (a : AxisId)
  /-- RELEASE_BRAKE_WAIT_END (R158). -/
  | releaseBrakeWaitEnd (dt : Nat) (a : AxisId)
  /-- RELEASE_END (R158). -/
  | releaseEnd (dt : Nat) (a : AxisId)
  /-- HOLD_TIMER_EXPIRY (R153). -/
  | holdTimerExpiry (dt : Nat) (a : AxisId)
  /-- TABLE_LOAD (R172). -/
  | tableLoad (dt : Nat) (port : Port) (a : AxisId) (value : Word)
  /-- TABLE_LOAD_DONE (R172). -/
  | tableLoadDone (dt : Nat) (a : AxisId)
  /-- TABLE_SWAP (R172). -/
  | tableSwap (dt : Nat) (port : Port) (a : AxisId) (value : Word)
  /-- CHOPPER_CROSSING (R160). -/
  | chopperCrossing (dt : Nat) (a : AxisId) (c : CoilId)
  /-- BLANKING_END (R160). -/
  | blankingEnd (dt : Nat) (a : AxisId) (c : CoilId) (above : Bool)
  /-- OFF_TIME_END (R160). -/
  | offTimeEnd (dt : Nat) (a : AxisId) (c : CoilId)
  /-- CARRIER_BOUNDARY (R174). -/
  | carrierBoundary (dt : Nat) (a : AxisId)
  /-- LEG_EDGE (R177). -/
  | legEdge (dt : Nat) (a : AxisId) (l : LegId)
  /-- DUTY_ARRIVAL (R180). -/
  | dutyArrival (dt : Nat) (a : AxisId) (c : CoilId)
  /-- HALF_WRITE (R181). -/
  | halfWrite (dt : Nat) (port : Port) (a : AxisId) (value : Word)
  /-- SAMPLE_STROBE (R186). -/
  | sampleStrobe (dt : Nat) (a : AxisId) (m : Strobe)
  /-- SAMPLE_ARRIVAL (R280). -/
  | sampleArrival (dt : Nat) (a : AxisId)
  /-- ICOIL_BLIND (R212). -/
  | icoilBlind (dt : Nat) (a : AxisId) (c : CoilId)
  /-- STALL (R231). -/
  | stall (dt : Nat) (a : AxisId)
  /-- RTRACK_DONE (R229). -/
  | rtrackDone (dt : Nat) (a : AxisId)
  /-- FROZEN_WINDOW_CLOSE (R233). -/
  | frozenWindowClose (dt : Nat) (a : AxisId)
  /-- FOLLOW_ERR (R210). -/
  | followErr (dt : Nat) (a : AxisId)
  /-- FREEZE_WRITE (R218). -/
  | freezeWrite (dt : Nat) (port : Port) (a : AxisId) (value : Word)
  /-- FREEZE_END (R218). -/
  | freezeEnd (dt : Nat) (a : AxisId) (loop : Fin 7)
  /-- MODECFG_WRITE (R219). -/
  | modecfgWrite (dt : Nat) (port : Port) (a : AxisId) (index : BitVec 10) (value : Word)
  /-- FB_EDGE (R239). -/
  | fbEdge (dt : Nat) (ch : ChanId) (levels : BitVec 3) (fine : Fin 16)
  /-- SPEED_WINDOW_END (R249). -/
  | speedWindowEnd (dt : Nat) (ch : ChanId)
  /-- STANDSTILL_TIMEOUT (R250). -/
  | standstillTimeout (dt : Nat) (ch : ChanId)
  /-- LATCH_TRIGGER (R254). -/
  | latchTrigger (dt : Nat) (ch : ChanId)
  /-- LATTRIG (R253). -/
  | lattrig (dt : Nat) (port : Port) (ch : ChanId) (value : Word)
  /-- ECHO_PULSE (R258). -/
  | echoPulse (dt : Nat) (e : Fin 16)
  /-- FBK_CFG_WRITE (R248). -/
  | fbkCfgWrite (dt : Nat) (port : Port) (ch : ChanId) (wrap : Bool) (value : Word)
  /-- SLOTCFG_WRITE (R252). -/
  | slotcfgWrite (dt : Nat) (port : Port) (slot : Fin 8) (value : Word)
  /-- ECHO_CONFIG_WRITE (R257). -/
  | echoConfigWrite (dt : Nat) (port : Port) (e : Fin 16) (ratio : Bool) (value : Word)
  /-- STP_CFG_WRITE (R124). -/
  | stpCfgWrite (dt : Nat) (port : Port) (a : AxisId) (value : Word)
  /-- CHP_CFG_WRITE (R147). -/
  | chpCfgWrite (dt : Nat) (port : Port) (a : AxisId) (value : Word)
  /-- PRO_PARAM_WRITE (R119). -/
  | proParamWrite (dt : Nat) (port : Port) (a : AxisId) (index : BitVec 5) (value : Word)
  /-- SC_SENSE (R275). -/
  | scSense (dt : Nat) (a : AxisId) (m : SenseHit)
  /-- SHUNT_OC (R276). -/
  | shuntOc (dt : Nat) (a : AxisId) (m : ShuntHit)
  /-- VG_UVLO (R271). -/
  | vgUvlo (dt : Nat) (b : BankId) (code : BitVec 12)
  /-- VG_RECOVERY (R271). -/
  | vgRecovery (dt : Nat) (b : BankId) (code : BitVec 12)
  /-- BOOT_UVLO (R272). -/
  | bootUvlo (dt : Nat) (a : AxisId) (l : LegId) (volts : BitVec 12)
  /-- BOOTSTRAP_REFRESH (R273). -/
  | bootstrapRefresh (dt : Nat) (a : AxisId) (l : LegId)
  /-- PRECHARGE_DONE (R270). -/
  | prechargeDone (dt : Nat) (a : AxisId) (boots : Vector (BitVec 12) 4) (offsets : Vector (BitVec 12) 2)
  /-- SENSE_DISAGREE (R283). -/
  | senseDisagree (dt : Nat) (a : AxisId) (m : SenseCheck)
  /-- NO_CURRENT (R284). -/
  | noCurrent (dt : Nat) (a : AxisId) (m : SenseCheck)
  /-- AUTO_DIAG_DONE (R285). -/
  | autoDiagDone (dt : Nat) (a : AxisId) (continuity abortTrip : Bool) (vbus : BitVec 12)
  /-- SHREF_LOST (R286). -/
  | shrefLost (dt : Nat) (b : BankId) (offset : BitVec 12)
  /-- BUS_OV (R282). -/
  | busOv (dt : Nat) (b : BankId) (code : BitVec 12)
  /-- BUS_UV (R282). -/
  | busUv (dt : Nat) (b : BankId) (code : BitVec 12)
  /-- LINK_CRC (R290). -/
  | linkCrc (dt : Nat) (b : BankId) (sameFrame : Bool)
  /-- LINK_LOST (R290). -/
  | linkLost (dt : Nat) (b : BankId) (up : Bool)
  /-- KILL_MASK_CHANGE (R30). -/
  | killMaskChange (dt : Nat) (b : BankId) (bad : Bool)
  /-- DRVEN_LOW (R266). -/
  | drvenLow (dt ns : Nat)
  /-- DRVEN_CLEARING (R277). -/
  | drvenClearing (dt : Nat) (shunts : List (AxisId × ShuntHit)) (boots : List (AxisId × LegId × BitVec 12))
  /-- TILE_WARM (R289). -/
  | tileWarm (dt : Nat) (b : BankId) (temp : BitVec 12)
  /-- TILE_OT (R289). -/
  | tileOt (dt : Nat) (b : BankId) (temp : BitVec 12)
  /-- OFFSTATE_DIAG_DONE (R287). -/
  | offstateDiagDone (dt : Nat) (a : AxisId) (pulse : Option (BitVec 8)) (legs : Vector LegMeas 4) (coils : Vector CoilMeas 2)
  /-- SELFTEST_DONE (R288). -/
  | selftestDone (dt : Nat) (a : AxisId) (w0 : Word)
  /-- AXIS_READY_CHANGE (R264). -/
  | axisReadyChange (dt : Nat) (a : AxisId)
  /-- GDB_ENABLE_WRITE (R265). -/
  | gdbEnableWrite (dt : Nat) (port : Port) (b : BankId) (value complement : Word)
  /-- TILE_POWER_ON (R454). -/
  | tilePowerOn (dt : Nat) (b : BankId)
  /-- TRIP_ACTIVE (R187). -/
  | tripActive (dt : Nat) (k : Fin 16)
  /-- TRIP_CLEAR (R189). -/
  | tripClear (dt : Nat) (port : Port) (value : Word)
  /-- TRIPMAP_WRITE (R188). -/
  | tripmapWrite (dt : Nat) (port : Port) (a : AxisId) (value complement : Word)
  /-- DELAY_LINE_SWAP (R178). -/
  | delayLineSwap (dt : Nat) (b : BankId) (trim error : Int)
  /-- GUY_HEAD_PULSE (R191). -/
  | guyHeadPulse (dt : Nat)
  /-- GUY_PULSE_ACCEPTED (R192). -/
  | guyPulseAccepted (dt : Nat) (fine : Fin 16)
  /-- GUY_LOST (R192). -/
  | guyLost (dt : Nat)
  /-- CAUSE_RAISED (R300); `disagree`: FLT's two classification paths differ on the item (R299). -/
  | causeRaised (dt : Nat) (source : Fin 22) (disagree : Bool)
  /-- FLUE_WIRE (R292). -/
  | flueWire (dt : Nat) (source : Fin 22)
  /-- FLUE_STUCK (R291). -/
  | flueStuck (dt : Nat) (source : Fin 22)
  /-- SS1_STOP_END (R298). -/
  | ss1StopEnd (dt : Nat) (a : AxisId)
  /-- RETRY_RELEASE (R305). -/
  | retryRelease (dt : Nat) (a : AxisId)
  /-- RETIREMENT_RECORD_WRITTEN (R411). -/
  | retirementRecordWritten (dt : Nat) (a : AxisId)
  /-- EMBER_WRITE_DONE (R303). -/
  | emberWriteDone (dt : Nat) (ok zeroed : Bool)
  /-- AXCTL_CLOSE (R304). -/
  | axctlClose (dt : Nat) (port : Port) (value complement : Word)
  /-- AXCTL_RETIRE (R308). -/
  | axctlRetire (dt : Nat) (port : Port) (value complement : Word)
  /-- AXCTL_REINSTATE (R309). -/
  | axctlReinstate (dt : Nat) (port : Port) (value complement : Word)
  /-- AXCTL_CLOSE_MODULE (R304). -/
  | axctlCloseModule (dt : Nat) (port : Port) (value complement : Word)
  /-- CLASS_WRITE (R294). -/
  | classWrite (dt : Nat) (port : Port) (k : Fin 8) (value complement : Word)
  /-- ERRPIN_WRITE (R310). -/
  | errpinWrite (dt : Nat) (port : Port) (value : Word)
  /-- ERR_PULSE_END (R310). -/
  | errPulseEnd (dt : Nat)
  /-- TMR_SCRUB (R325). -/
  | tmrScrub (dt : Nat) (upsets : List Upset) (pass : Bool)
  /-- KEYED_VALUE_WRITE (R321). -/
  | keyedValueWrite (dt : Nat) (port : Port) (addr value : Word)
  /-- KEYED_COMPLEMENT_WRITE (R321). -/
  | keyedComplementWrite (dt : Nat) (port : Port) (addr value : Word)
  /-- KEYED_WRITE_TIMEOUT (R322). -/
  | keyedWriteTimeout (dt : Nat) (port : Port)
  /-- BIT_ALIAS_WRITE (R320). -/
  | bitAliasWrite (dt : Nat) (port : Port) (addr value : Word)
  /-- REGISTER_WRITE (R316). -/
  | registerWrite (dt : Nat) (port : Port) (addr value : Word)
  /-- PORTCFG_WRITE (R54). -/
  | portcfgWrite (dt : Nat) (port : Port) (which : Fin 3) (value : Word)
  /-- HIF_WRITE (R328). -/
  | hifWrite (dt : Nat) (addr : Word) (words : List Word) (partialWord : Bool)
  /-- HIF_WRITE_KEYED (R323). -/
  | hifWriteKeyed (dt : Nat) (addr : Word) (words : List Word) (partialWord : Bool)
  /-- HIF_READ (R329). -/
  | hifRead (dt : Nat) (addr : Word) (words ready bitNs : Nat) (partialWord : Bool)
  /-- HIF_PUSH (R330). -/
  | hifPush (dt : Nat) (bytes : List Byte) (left : Nat)
  /-- HIF_PULL (R330). -/
  | hifPull (dt : Nat) (words : Nat) (partialWord : Bool)
  /-- HIF_BAD_FRAME (R327). -/
  | hifBadFrame (dt : Nat) (opcode : Byte)
  /-- HOST_WINDOW_WRITE (R73). -/
  | hostWindowWrite (dt : Nat) (addr value : Word)
  /-- HOST_WINDOW_READ (R81). -/
  | hostWindowRead (dt : Nat) (addr : Word)
  /-- POOL_LINK_WRITE (R78). -/
  | poolLinkWrite (dt : Nat) (port : Port) (value : Word)
  /-- BLOCK_ZEROING_DONE (R76). -/
  | blockZeroingDone (dt : Nat) (block : BitVec 15)
  /-- TRACE_ENABLE (R83). -/
  | traceEnable (dt : Nat) (port : Port) (t : Fin 4) (value : Word)
  /-- TRACE_COPY (R84). -/
  | traceCopy (dt : Nat) (t : Fin 4)
  /-- POOL_SCRUB (R80). -/
  | poolScrub (dt : Nat) (upsets : List (BitVec 20 × Bool))
  /-- FRAME_RECEIVED (R340). -/
  | frameReceived (dt : Nat) (port : Fin 2) (bytes : List Byte)
  /-- PORT_LINK_CHANGE (R333). -/
  | portLinkChange (dt : Nat) (port : Fin 2) (up anDone rateBad : Bool)
  /-- NODE_ADDR_WRITE (R338). -/
  | nodeAddrWrite (dt : Nat) (port : Port) (value : Word)
  /-- PTP_MESSAGE (R346). -/
  | ptpMessage (dt : Nat) (port : Fin 2) (msg : PtpMsg)
  /-- PTP_TRANSPARENT_FORWARD (R347). -/
  | ptpTransparentForward (dt : Nat) (port : Fin 2) (msg : PtpMsg)
  /-- PTP_LOST (R350). -/
  | ptpLost (dt : Nat)
  /-- PTP_REQUALIFIED (R351). -/
  | ptpRequalified (dt : Nat)
  /-- SOURCE_COMMIT (R351). -/
  | sourceCommit (dt : Nat)
  /-- SRCSEL_WRITE (R349). -/
  | srcselWrite (dt : Nat) (port : Port) (value complement : Word)
  /-- EPOCH_WRITE (R348). -/
  | epochWrite (dt : Nat) (port : Port) (value : Word)
  /-- GROUP_START_INSTANT (R359). -/
  | groupStartInstant (dt : Nat) (g : BitVec 12)
  /-- GROUP_WITHDRAW (R360). -/
  | groupWithdraw (dt : Nat) (g : BitVec 12)
  /-- REFCLK_MEASURE (R363). -/
  | refclkMeasure (dt : Nat) (meas : BitVec 12)
  /-- PLL_LOCK (R366). -/
  | pllLock (dt : Nat)
  /-- CLOCK_SWITCH_STEP (R368). -/
  | clockSwitchStep (dt : Nat)
  /-- RCPER_MEASURE (R367). -/
  | rcperMeasure (dt : Nat) (per : BitVec 24)
  /-- RC_BAD (R375). -/
  | rcBad (dt : Nat) (bad : Bool)
  /-- CLOCK_LOST (R373). -/
  | clockLost (dt : Nat) (reason : Fin 4) (gap : BitVec 16)
  /-- CLOCK_RETURN (R374). -/
  | clockReturn (dt : Nat)
  /-- CAL_ROUND_DONE (R374). -/
  | calRoundDone (dt : Nat)
  /-- GATE_WRITE (R370). -/
  | gateWrite (dt : Nat) (port : Port) (which : Fin 3) (value : Word)
  /-- KINDLING_COLD (R379). -/
  | kindlingCold (dt : Nat) (straps : Straps)
  /-- NRESET_LOW (R380). -/
  | nresetLow (dt : Nat)
  /-- NRESET_RISE (R379). -/
  | nresetRise (dt : Nat) (straps : Straps)
  /-- WAKE (R397). -/
  | wake (dt : Nat) (high : Bool) (straps : Straps)
  /-- KINDLING_WARM_SUPPLY (R400). -/
  | kindlingWarmSupply (dt : Nat) (straps : Straps)
  /-- KINDLING_STEP_5 (R381). -/
  | kindlingStep5 (dt : Nat)
  /-- BOOT_IMAGE_READ (R386). -/
  | bootImageRead (dt : Nat) (primary fallback : List Byte)
  /-- BOOT_PACKET (R387). -/
  | bootPacket (dt : Nat)
  /-- KINDLING_END (R383). -/
  | kindlingEnd (dt : Nat)
  /-- POWER_FAIL (R398). -/
  | powerFail (dt : Nat)
  /-- VIO_FAIL (R426). -/
  | vioFail (dt : Nat)
  /-- SHUTDOWN_END (R400). -/
  | shutdownEnd (dt : Nat)
  /-- VCORE_UV (R394). -/
  | vcoreUv (dt : Nat)
  /-- PWR_REQ_GO (R391). -/
  | pwrReqGo (dt : Nat) (port : Port) (value : Word)
  /-- VCORE_OK (R392). -/
  | vcoreOk (dt : Nat)
  /-- PL_RAMP_STEP (R392). -/
  | plRampStep (dt : Nat)
  /-- PL_CHANGE_DONE (R391). -/
  | plChangeDone (dt : Nat)
  /-- CEIL_WRITE (R395). -/
  | ceilWrite (dt : Nat) (port : Port) (value complement : Word)
  /-- PL0_VCORE_REMOVAL (R396). -/
  | pl0VcoreRemoval (dt : Nat)
  /-- HEARTH_SWITCHOVER (R401). -/
  | hearthSwitchover (dt : Nat) (toMain : Bool)
  /-- CALENDAR_CYCLE (R403). -/
  | calendarCycle (dt : Nat)
  /-- CALENDAR_MEASURE (R404). -/
  | calendarMeasure (dt : Nat) (freq : BitVec 24)
  /-- CALSET (R405). -/
  | calset (dt : Nat) (port : Port) (value complement : Word)
  /-- RAMDATA_ACCESS (R413). -/
  | ramdataAccess (dt : Nat) (port : Port) (value : Word)
  /-- FAST_DECAY_END (R160). -/
  | fastDecayEnd (dt : Nat) (a : AxisId) (c : CoilId)
  /-- TRIP_INPUT_HIGH (R187). -/
  | tripInputHigh (dt : Nat) (k : Fin 16)
  /-- EXTEST (R424). -/
  | extest (dt : Nat) (code : BitVec 4) (scan : Option (BitVec 459)) (pins : BitVec 459)
  /-- VIO_RISE (R426). -/
  | vioRise (dt : Nat)
  /-- HEARTH_CONTENTS_LOST (R402). -/
  | hearthContentsLost (dt : Nat)
  /-- FLUE_PAIR_RESTORED (R292). -/
  | fluePairRestored (dt : Nat) (source : Fin 22)
  /-- SYNC_INTERVAL (R347). -/
  | syncInterval (dt : Nat) (kind : PtpKind)
  /-- REINSTATEMENT_ENDED (R309). -/
  | reinstatementEnded (dt : Nat) (a : AxisId)
  deriving DecidableEq, Repr

end Sys2Proof
end

