-- ==== Sys2Proof/Config.lean ====
section
/-! DEFINITION. What a module's maker fixes, and the free values: constants without a body, so that no proof can
know them. -/

namespace Sys2Proof.Config

/-- The ordering code's dead-time code, 0 to 2 (R1, R2: fixed at manufacture). Log 3. -/
opaque dtCodeRaw : Nat

/-- ID.REV, per module (R455). Log 3. -/
opaque idRev : BitVec 16

/-- The serial number, per module (R455). Log 3. -/
opaque serialRaw : BitVec 64

/-- The tile revision, the same in the eight tiles (R455). Log 3. -/
opaque tileRev : BitVec 4

/-- The free choice of POOL_ALLOC among the free blocks outside Kindling: the k-th draw (R76). Log 6. -/
opaque allocDraw : Nat → Nat

/-- Which of the two whole pu beside the exact angle `ang` answers (R225: accurate to 1 pu). Log 7. -/
opaque angUp : Int → Int → Bool

/-- What words 1 to 7 of an Ember slot hold after its zeroing was defeated (R407: undefined): the k-th draw. Log 8. -/
opaque emberGarbage : Nat → BitVec 32

/-- A free word where the spec states no value for the operands: the k-th draw. Log 9. -/
opaque freeWord : Nat → BitVec 32

/-- The RC's own rounding of the bridged interval and of the ramp on the RC, fine ticks below one tick: the k-th
draw. Log 9. -/
opaque freeNat : Nat → Nat

/-- Which of the two whole numbers beside a position or velocity that is not whole CPOS or CVEL shows (Table 4-7 states
no rounding): numerator and denominator. Log 10. -/
opaque shownUp : Int → Nat → Bool

/-- How long after a command is taken PRO commits the new plan, ticks, below the bound of Table 4-4: the k-th draw. Log
40. -/
opaque commitDelay : Nat → Nat

/-- What PWR.VMON reads at a timebase tick: the supplies are measured outside the model. Log 11. -/
opaque supplies : Nat → BitVec 32

/-- DTCODE as the identification fields show it: 0, 1 or 2 (R1). -/
def dtCode : Nat := dtCodeRaw % 3

/-- The dead time in ticks of 2.5 ns: 150, 250 or 400 ns (Table 0-1). -/
def deadTicks : Nat := if dtCode = 0 then 60 else if dtCode = 1 then 100 else 160

/-- ID.OPT.DEADTIME, 10 ns units (R1). -/
def deadTime10ns : Nat := if dtCode = 0 then 15 else if dtCode = 1 then 25 else 40

/-- The serial number, whose bits [39:0] are never all zeros nor all ones (R455). -/
def serial : BitVec 64 :=
  if serialRaw.extractLsb' 0 40 = 0 ∨ serialRaw.extractLsb' 0 40 = BitVec.allOnes 40
  then serialRaw ^^^ 1 else serialRaw


/-- A speed formed over a span of 0 fine ticks, 2^-16 counts/s: net event sum and channel (R249, R251: no result is
stated). Log 9. -/
opaque zeroSpanSpeed : Int → Nat → Int

/-- The servo's rate correction after a measurement: the correction in force in parts per 10^9, the offset in 2^-16 ns
(R352 bounds it; its law is left open). Log 15. -/
opaque servoRate : Int → Int → Int

/-- The same, at most 200 ppm either way (R352). -/
def rateOf (old ofs : Int) : Int := max (-200000) (min 200000 (servoRate old ofs))

end Sys2Proof.Config
end

