-- ==== Sys2Proof/Machine/RegMap.lean ====
section
/-! DEFINITION. The register map (Tables 13-8 to 13-10 and the register tables of every chapter): the canonical
address of each register, the bits software writes (RW), the bits a 1 clears (W1C), and the word it holds at reset.
A field that a register table gives as RO and that the model computes from other state is 0 in the stored word. -/

namespace Sys2Proof.Machine

/-- One row of the map: offset in its region, RW bits, W1C bits, reset word. -/
structure RegRow where
  off : Nat
  rw : Word
  w1c : Word
  reset : Word
  deriving DecidableEq, Repr

/-- Canonical address of an axis register (R315). -/
def axisKey (n sub slot : Nat) : Nat := 0x100000 + n * 0x1000 + sub * 0x200 + slot

/-- Canonical address of a bank register (R315). -/
def bankKey (b slot : Nat) : Nat := 0x80000 + b * 0x1000 + slot

namespace Reg
def idPart : Nat := 0x0
def idRev : Nat := 0x4
def idOpt : Nat := 0x8
def idSerLo : Nat := 0xc
def idSerHi : Nat := 0x10
def idCmdver : Nat := 0x14
def hifCfg : Nat := 0x20
def hifStat : Nat := 0x24
def hifIrqstat : Nat := 0x28
def hifIrqen : Nat := 0x2c
def clkRef : Nat := 0x80
def clkStat : Nat := 0x84
def clkGateRun : Nat := 0x88
def clkGateSleep : Nat := 0x8c
def clkGateDeep : Nat := 0x90
def clkRcper : Nat := 0x94
def clkDlstat : Nat := 0x98
def clkDlev : Nat := 0x9c
def clkLoss : Nat := 0xa0
def clkSsgen1 : Nat := 0xc4
def clkSsgen2 : Nat := 0xc8
def clkSsgen3 : Nat := 0xcc
def pwrLevel : Nat := 0x1000
def pwrReq : Nat := 0x1004
def pwrCeil : Nat := 0x1008
def pwrStat : Nat := 0x100c
def pwrKstat : Nat := 0x1010
def pwrBoot : Nat := 0x1014
def pwrBootid : Nat := 0x1018
def pwrVmon : Nat := 0x101c
def hrtStat : Nat := 0x2000
def hrtCalSecLo : Nat := 0x2004
def hrtCalSecHi : Nat := 0x2008
def hrtCalFrac : Nat := 0x200c
def hrtCalsetLo : Nat := 0x2010
def hrtCalsetHi : Nat := 0x2014
def hrtCalctl : Nat := 0x2018
def hrtCaltrim : Nat := 0x201c
def hrtCalmeas : Nat := 0x2020
def hrtLogstat : Nat := 0x2024
def hrtRamaddr : Nat := 0x2028
def hrtRamdata : Nat := 0x202c
def fltAxctl : Nat := 0x3020
def fltErrcfg : Nat := 0x3024
def fltErrpin : Nat := 0x3028
def fltRsel : Nat := 0x302c
def fltRdata : Nat := 0x3030
def fltStat : Nat := 0x3034
def fltTripstat : Nat := 0x3080
def fltTripfilt : Nat := 0x3084
def fltTripev : Nat := 0x3088
def fltOpen0 : Nat := 0x308c
def fltOpen1 : Nat := 0x3090
def fltOpen2 : Nat := 0x3094
def fltFluestat : Nat := 0x3098
def cmdPortcfgH : Nat := 0x4000
def cmdPortcfgA : Nat := 0x4004
def cmdPortcfgB : Nat := 0x4008
def cmdCredstatH : Nat := 0x4010
def cmdCredstatA : Nat := 0x4014
def cmdCredstatB : Nat := 0x4018
def cmdTaguse : Nat := 0x401c
def cmdKeystat : Nat := 0x4020
def cmdCmdstat : Nat := 0x4024
def cmdCrcerr : Nat := 0x4028
def poolFreecnt : Nat := 0x5000
def poolDescSel : Nat := 0x5004
def poolDesc : Nat := 0x5008
def poolLink : Nat := 0x500c
def poolStat : Nat := 0x5010
def poolEccstat : Nat := 0x5014
def poolViol : Nat := 0x5018
def netPcfgA : Nat := 0x6000
def netPcfgB : Nat := 0x6004
def netPstatA : Nat := 0x6008
def netPstatB : Nat := 0x600c
def netRxcntA : Nat := 0x6010
def netRxcntB : Nat := 0x6014
def netDropcntA : Nat := 0x6018
def netDropcntB : Nat := 0x601c
def netNode : Nat := 0x6020
def netTopo : Nat := 0x6024
def netPtpcfg : Nat := 0x6028
def netPtpprio : Nat := 0x602c
def netPtpstat : Nat := 0x6030
def netPtpofs : Nat := 0x6034
def netPtpdelay : Nat := 0x6038
def netTccfg : Nat := 0x603c
def netGmidLo : Nat := 0x6040
def netGmidHi : Nat := 0x6044
def timeSrcsel : Nat := 0x7000
def timeSrcstat : Nat := 0x7004
def timeNowLo : Nat := 0x7008
def timeNowHi : Nat := 0x700c
def timeEpochLo : Nat := 0x7010
def timeEpochHi : Nat := 0x7014
def timeServo : Nat := 0x7018
def timeRate : Nat := 0x701c
def timeDisc : Nat := 0x7020
def timeGrpsel : Nat := 0x7024
def timeGrpdata : Nat := 0x7028
def timeGrpstat : Nat := 0x702c
def timeGrpev : Nat := 0x7030
def timeGuycfg : Nat := 0x7080
def timeGuyofs : Nat := 0x7084
def timeGuyflag : Nat := 0x7088
def timeFbgselH : Nat := 0x70c0
def timeFbgselA : Nat := 0x70c4
def timeFbgselB : Nat := 0x70c8
def timeFbgdataH : Nat := 0x70d0
def timeFbgdataA : Nat := 0x70d4
def timeFbgdataB : Nat := 0x70d8
/-- FLT.CLASSk (Table 12-2's assignments). -/
def fltClass (k : Nat) : Nat := 0x3000 + k * 4
def poolTraceCfg (t : Nat) : Nat := 0x5040 + t * 0x10
def poolTraceAx (t : Nat) : Nat := 0x5044 + t * 0x10
def poolTracePtr (t : Nat) : Nat := 0x5048 + t * 0x10
/-- The registers that three ports have one each of, by port 0 host, 1 A, 2 B. -/
def cmdPortcfg (p : Nat) : Nat := 0x4000 + p * 4
def cmdCredstat (p : Nat) : Nat := 0x4010 + p * 4
def timeFbgsel (p : Nat) : Nat := 0x70c0 + p * 4
def timeFbgdata (p : Nat) : Nat := 0x70d0 + p * 4
/-- The registers that the two network ports have one each of, by 0 A, 1 B. -/
def netPcfg (i : Nat) : Nat := 0x6000 + i * 4
def netPstat (i : Nat) : Nat := 0x6008 + i * 4
def netRxcnt (i : Nat) : Nat := 0x6010 + i * 4
def netDropcnt (i : Nat) : Nat := 0x6018 + i * 4
def proStat (n : Nat) : Nat := axisKey n 0x0 0x0
def proSegnow (n : Nat) : Nat := axisKey n 0x0 0x4
def proPsel (n : Nat) : Nat := axisKey n 0x0 0x8
def proPdata (n : Nat) : Nat := axisKey n 0x0 0xc
def stpCfg (n : Nat) : Nat := axisKey n 0x1 0x0
def stpStat (n : Nat) : Nat := axisKey n 0x1 0x4
def stpEp (n : Nat) : Nat := axisKey n 0x1 0x8
def stpQposLo (n : Nat) : Nat := axisKey n 0x1 0xc
def stpQposHi (n : Nat) : Nat := axisKey n 0x1 0x10
def stpFrem (n : Nat) : Nat := axisKey n 0x1 0x14
def chpCfg (n : Nat) : Nat := axisKey n 0x2 0x0
def chpStat (n : Nat) : Nat := axisKey n 0x2 0x4
def chpPsel (n : Nat) : Nat := axisKey n 0x2 0x8
def chpPdata (n : Nat) : Nat := axisKey n 0x2 0xc
def chpIlim (n : Nat) : Nat := axisKey n 0x2 0x10
def pwmCfg (n : Nat) : Nat := axisKey n 0x3 0x0
def pwmStat (n : Nat) : Nat := axisKey n 0x3 0x4
def pwmTripmap (n : Nat) : Nat := axisKey n 0x3 0x8
def loopWinner (n : Nat) : Nat := axisKey n 0x4 0x0
def loopFreeze (n : Nat) : Nat := axisKey n 0x4 0x4
def loopPsel (n : Nat) : Nat := axisKey n 0x4 0x8
def loopPdata (n : Nat) : Nat := axisKey n 0x4 0xc
def obsPsel (n : Nat) : Nat := axisKey n 0x5 0x0
def obsPdata (n : Nat) : Nat := axisKey n 0x5 0x4
def fbkStat (n : Nat) : Nat := axisKey n 0x6 0x0
def axfState (n : Nat) : Nat := axisKey n 0x7 0x0
def axfRetry (n : Nat) : Nat := axisKey n 0x7 0x4
def gdbEnable (b : Nat) : Nat := bankKey b 0x0
def gdbSccfg (b : Nat) : Nat := bankKey b 0x4
def gdbUvtrim (b : Nat) : Nat := bankKey b 0x8
def gdbStat (b : Nat) : Nat := bankKey b 0xc
def gdbGfault (b : Nat) : Nat := bankKey b 0x10
def gdbVbus (b : Nat) : Nat := bankKey b 0x14
def gdbBuslim (b : Nat) : Nat := bankKey b 0x18
def gdbVg (b : Nat) : Nat := bankKey b 0x1c
def gdbShref (b : Nat) : Nat := bankKey b 0x20
def gdbLink (b : Nat) : Nat := bankKey b 0x24
def gdbDiaginfo (b : Nat) : Nat := bankKey b 0x28
def gdbDiagres0 (b : Nat) : Nat := bankKey b 0x2c
def gdbDiagres1 (b : Nat) : Nat := bankKey b 0x30
def gdbRefresh (b : Nat) : Nat := bankKey b 0x34
def gdbTemp (b : Nat) : Nat := bankKey b 0x38
def gdbEvt (b : Nat) : Nat := bankKey b 0x3c
def gdbCal (b : Nat) : Nat := bankKey b 0x4c
def gdbId (b : Nat) : Nat := bankKey b 0x50
def gdbKill (b : Nat) : Nat := bankKey b 0x54
def gdbDiscfg (b : Nat) : Nat := bankKey b 0x58
def gdbAxstat (b j : Nat) : Nat := bankKey b (0x80 + j * 4)
def gdbSamp (b j : Nat) : Nat := bankKey b (0xc0 + j * 4)

end Reg

def rowsId : List RegRow :=
  [⟨0x0, 0x0, 0x0, 0x19600⟩,
   ⟨0x4, 0x0, 0x0, 0x0⟩,
   ⟨0x8, 0x0, 0x0, 0x0⟩,
   ⟨0xc, 0x0, 0x0, 0x0⟩,
   ⟨0x10, 0x0, 0x0, 0x0⟩,
   ⟨0x14, 0x0, 0x0, 0x1⟩,
   ⟨0x20, 0x3, 0x0, 0x2⟩,
   ⟨0x24, 0x0, 0x1c, 0x0⟩,
   ⟨0x28, 0x0, 0x1dc, 0x0⟩,
   ⟨0x2c, 0x1ff, 0x0, 0x0⟩,
   ⟨0x80, 0x0, 0x0, 0x0⟩,
   ⟨0x84, 0x0, 0x80, 0x0⟩,
   ⟨0x88, 0x7ff, 0x0, 0x7ff⟩,
   ⟨0x8c, 0x7ff, 0x0, 0x207⟩,
   ⟨0x90, 0x3, 0x0, 0x0⟩,
   ⟨0x94, 0x0, 0x0, 0x4000⟩,
   ⟨0x98, 0x0, 0x0, 0x0⟩,
   ⟨0x9c, 0xffffffff, 0x0, 0x0⟩,
   ⟨0xa0, 0xff00, 0x0, 0x0⟩,
   ⟨0xc4, 0x3fff1f, 0x0, 0x0⟩,
   ⟨0xc8, 0x3fff1f, 0x0, 0x0⟩,
   ⟨0xcc, 0x3fff1f, 0x0, 0x0⟩]

def rowsPwr : List RegRow :=
  [⟨0x1000, 0x0, 0x0, 0x0⟩,
   ⟨0x1004, 0x7, 0x0, 0x1⟩,
   ⟨0x1008, 0x3, 0x0, 0x3⟩,
   ⟨0x100c, 0x0, 0x4, 0x0⟩,
   ⟨0x1010, 0x0, 0x0, 0x0⟩,
   ⟨0x1014, 0x0, 0x0, 0x0⟩,
   ⟨0x1018, 0x0, 0x0, 0x0⟩,
   ⟨0x101c, 0x0, 0x0, 0x0⟩]

def rowsHrt : List RegRow :=
  [⟨0x2000, 0x0, 0x18, 0x9⟩,
   ⟨0x2004, 0x0, 0x0, 0x0⟩,
   ⟨0x2008, 0x0, 0x0, 0x0⟩,
   ⟨0x200c, 0x0, 0x0, 0x0⟩,
   ⟨0x2010, 0xffffffff, 0x0, 0x0⟩,
   ⟨0x2014, 0xffffffff, 0x0, 0x0⟩,
   ⟨0x2018, 0x3, 0x0, 0x2⟩,
   ⟨0x201c, 0x7ffffff, 0x0, 0x2000000⟩,
   ⟨0x2020, 0x0, 0x0, 0x0⟩,
   ⟨0x2024, 0x0, 0x0, 0x0⟩,
   ⟨0x2028, 0xfffc, 0x0, 0x0⟩,
   ⟨0x202c, 0xffffffff, 0x0, 0x0⟩]

def rowsFlt : List RegRow :=
  [⟨0x3020, 0x77f, 0x0, 0x0⟩,
   ⟨0x3024, 0x7, 0x0, 0x2⟩,
   ⟨0x3028, 0xff0001, 0x0, 0x1⟩,
   ⟨0x302c, 0x777f, 0x0, 0x0⟩,
   ⟨0x3030, 0x0, 0x0, 0x0⟩,
   ⟨0x3034, 0xff000000, 0x0, 0x0⟩,
   ⟨0x3080, 0x0, 0xffff, 0x0⟩,
   ⟨0x3084, 0xffffffff, 0x0, 0x0⟩,
   ⟨0x3088, 0xff0000, 0xffff, 0x0⟩,
   ⟨0x308c, 0x0, 0x0, 0x0⟩,
   ⟨0x3090, 0x0, 0x0, 0x0⟩,
   ⟨0x3094, 0x0, 0x0, 0x0⟩,
   ⟨0x3098, 0x0, 0x0, 0x0⟩]

def rowsCmd : List RegRow :=
  [⟨0x4000, 0x1ffff, 0x0, 0x2000⟩,
   ⟨0x4004, 0x1ffff, 0x0, 0x3000⟩,
   ⟨0x4008, 0x1ffff, 0x0, 0x3000⟩,
   ⟨0x4010, 0x0, 0x0, 0x0⟩,
   ⟨0x4014, 0x0, 0x0, 0x0⟩,
   ⟨0x4018, 0x0, 0x0, 0x0⟩,
   ⟨0x401c, 0x0, 0x0, 0x0⟩,
   ⟨0x4020, 0xff00, 0x1, 0x0⟩,
   ⟨0x4024, 0x0, 0x7, 0x0⟩,
   ⟨0x4028, 0xffffffff, 0x0, 0x0⟩]

def rowsPool : List RegRow :=
  [⟨0x5000, 0x0, 0x0, 0x0⟩,
   ⟨0x5004, 0x7fff, 0x0, 0x0⟩,
   ⟨0x5008, 0x0, 0x0, 0x0⟩,
   ⟨0x500c, 0x0, 0x0, 0x0⟩,
   ⟨0x5010, 0x0, 0xf, 0x0⟩,
   ⟨0x5014, 0xffffff, 0x0, 0x0⟩,
   ⟨0x5018, 0x0, 0x0, 0x0⟩]

def rowsNet : List RegRow :=
  [⟨0x6000, 0xffff0f, 0x0, 0xc⟩,
   ⟨0x6004, 0xffff0f, 0x0, 0xc⟩,
   ⟨0x6008, 0xff00, 0x8, 0x0⟩,
   ⟨0x600c, 0xff00, 0x8, 0x0⟩,
   ⟨0x6010, 0x0, 0x0, 0x0⟩,
   ⟨0x6014, 0x0, 0x0, 0x0⟩,
   ⟨0x6018, 0xffffffff, 0x0, 0x0⟩,
   ⟨0x601c, 0xffffffff, 0x0, 0x0⟩,
   ⟨0x6020, 0x3fff, 0x0, 0x0⟩,
   ⟨0x6024, 0xfffff01, 0x0, 0x5eeff00⟩,
   ⟨0x6028, 0x1fffffff, 0x0, 0x601001⟩,
   ⟨0x602c, 0xffffffff, 0x0, 0xfef88080⟩,
   ⟨0x6030, 0x0, 0x10000, 0x1⟩,
   ⟨0x6034, 0x0, 0x0, 0x0⟩,
   ⟨0x6038, 0x0, 0x0, 0x0⟩,
   ⟨0x603c, 0xffff0001, 0x0, 0x1⟩,
   ⟨0x6040, 0x0, 0x0, 0x0⟩,
   ⟨0x6044, 0x0, 0x0, 0x0⟩]

def rowsTime : List RegRow :=
  [⟨0x7000, 0xf, 0x0, 0x0⟩,
   ⟨0x7004, 0x0, 0x400, 0x0⟩,
   ⟨0x7008, 0x0, 0x0, 0x0⟩,
   ⟨0x700c, 0x0, 0x0, 0x0⟩,
   ⟨0x7010, 0xffffffff, 0x0, 0x0⟩,
   ⟨0x7014, 0xffffffff, 0x0, 0x0⟩,
   ⟨0x7018, 0x1ff, 0x0, 0x164⟩,
   ⟨0x701c, 0x0, 0x0, 0x0⟩,
   ⟨0x7020, 0xff00, 0x3, 0x0⟩,
   ⟨0x7024, 0x7fff, 0x0, 0x0⟩,
   ⟨0x7028, 0x0, 0x0, 0x0⟩,
   ⟨0x702c, 0xff0000, 0x0, 0x0⟩,
   ⟨0x7030, 0x0, 0x1f, 0x0⟩,
   ⟨0x7080, 0xffffffff, 0x0, 0xa00⟩,
   ⟨0x7084, 0x0, 0x0, 0x0⟩,
   ⟨0x7088, 0x0, 0x6, 0x0⟩,
   ⟨0x70c0, 0x7fff, 0x0, 0x0⟩,
   ⟨0x70c4, 0x7fff, 0x0, 0x0⟩,
   ⟨0x70c8, 0x7fff, 0x0, 0x0⟩,
   ⟨0x70d0, 0x0, 0x0, 0x0⟩,
   ⟨0x70d4, 0x0, 0x0, 0x0⟩,
   ⟨0x70d8, 0x0, 0x0, 0x0⟩]

def rowsAxis : List RegRow :=
  [⟨0x0, 0x0, 0x5f0000, 0x0⟩,
   ⟨0x4, 0x0, 0x0, 0x0⟩,
   ⟨0x8, 0x1f, 0x0, 0x0⟩,
   ⟨0xc, 0x0, 0x0, 0x0⟩,
   ⟨0x200, 0xffffff1f, 0x0, 0x7d01006⟩,
   ⟨0x204, 0xffff0000, 0x700, 0x0⟩,
   ⟨0x208, 0x0, 0x0, 0x0⟩,
   ⟨0x20c, 0x0, 0x0, 0x0⟩,
   ⟨0x210, 0x0, 0x0, 0x0⟩,
   ⟨0x214, 0x0, 0x0, 0x0⟩,
   ⟨0x400, 0x3fff, 0x0, 0x1a8⟩,
   ⟨0x404, 0xff0000, 0x5c0, 0x0⟩,
   ⟨0x408, 0xff, 0x0, 0x0⟩,
   ⟨0x40c, 0x0, 0x0, 0x0⟩,
   ⟨0x410, 0x37fff, 0x0, 0x7fff⟩,
   ⟨0x600, 0xffffffff, 0x0, 0x140fa0⟩,
   ⟨0x604, 0x0, 0x5c, 0x0⟩,
   ⟨0x608, 0xffff, 0x0, 0x0⟩,
   ⟨0x800, 0x0, 0x70000, 0x0⟩,
   ⟨0x804, 0x77f, 0x0, 0x700⟩,
   ⟨0x808, 0x3ff, 0x0, 0x0⟩,
   ⟨0x80c, 0x0, 0x0, 0x0⟩,
   ⟨0xa00, 0xff, 0x0, 0x0⟩,
   ⟨0xa04, 0x0, 0x0, 0x0⟩,
   ⟨0xc00, 0xff0000, 0x7c0, 0x0⟩,
   ⟨0xe00, 0x0, 0x0, 0x0⟩,
   ⟨0xe04, 0xff01ff07, 0x0, 0x32000a03⟩]

def rowsBank : List RegRow :=
  [⟨0x0, 0x1, 0x0, 0x0⟩,
   ⟨0x4, 0x3ffff, 0x0, 0x210cf⟩,
   ⟨0x8, 0x77, 0x0, 0x0⟩,
   ⟨0xc, 0x0, 0x21, 0x0⟩,
   ⟨0x10, 0x0, 0x0, 0x0⟩,
   ⟨0x14, 0xfff0000, 0x0, 0x0⟩,
   ⟨0x18, 0xfff0fff, 0x0, 0xdc00140⟩,
   ⟨0x1c, 0x0, 0x0, 0x0⟩,
   ⟨0x20, 0x0, 0x0, 0x0⟩,
   ⟨0x24, 0xffffff, 0x0, 0x0⟩,
   ⟨0x28, 0x0, 0x0, 0x0⟩,
   ⟨0x2c, 0x0, 0x0, 0x0⟩,
   ⟨0x30, 0x0, 0x0, 0x0⟩,
   ⟨0x34, 0xffffffff, 0x0, 0x0⟩,
   ⟨0x38, 0x0, 0x0, 0x0⟩,
   ⟨0x3c, 0xffffffff, 0x0, 0x0⟩,
   ⟨0x4c, 0x0, 0x0, 0x0⟩,
   ⟨0x50, 0x0, 0x0, 0x0⟩,
   ⟨0x54, 0x0, 0x0, 0x0⟩,
   ⟨0x58, 0xff011f, 0x0, 0x80110⟩]

/-- The rows of each global block (Table 13-8), by block number. -/
def rowsGlobal : Nat → List RegRow
  | 0 => rowsId
  | 1 => rowsPwr
  | 2 => rowsHrt
  | 3 => rowsFlt
  | 4 => rowsCmd
  | 5 => rowsPool
  | 6 => rowsNet
  | 7 => rowsTime
  | _ => []

/-- Reset values of FLT.CLASS0 to CLASS7. -/
def classReset : Nat → Word
  | 0 => 0x32232220
  | 1 => 0x03023333
  | 2 => 0x12121111
  | 3 => 0x00002212
  | 6 => 0x04003333
  | _ => 0

def findRow (rows : List RegRow) (off : Nat) : Option RegRow := rows.find? (fun r => r.off == off)

/-- The row of a register by its canonical address; none for a reserved slot or a complement address (R332). -/
def regRow (k : Nat) : Option RegRow :=
  if k < 0x8000 then
    if 0x3000 ≤ k ∧ k < 0x3020 ∧ k % 4 = 0 then
      some ⟨k, 0x77777777, 0, classReset ((k - 0x3000) / 4)⟩
    else if 0x5040 ≤ k ∧ k < 0x5080 then
      if k % 0x10 = 0 then some ⟨k, 0x07ffffff, 0, 0⟩
      else if k % 0x10 = 4 then some ⟨k, 0x7f, 0, 0x7f⟩
      else if k % 0x10 = 8 then some ⟨k, 0, 0, 0⟩
      else none
    else findRow (rowsGlobal (k / 0x1000)) k
  else if 0x80000 ≤ k ∧ k < 0x88000 then
    let off := k % 0x1000
    if (0x80 ≤ off ∧ off < 0xb0) ∨ (0xc0 ≤ off ∧ off < 0xf0) then
      if off % 4 = 0 then some ⟨off, 0, 0, 0⟩ else none
    else findRow rowsBank off
  else if 0x100000 ≤ k ∧ k < 0x160000 then findRow rowsAxis (k % 0x1000)
  else none

/-! ## Parameters behind the PSEL pairs (Tables 4-7, 6-9, 8-7, 9-3), by kind, owner and index -/

/-- The place of a parameter word: kind 1 PRO, 2 CHP, 3 LOOP, 4 OBS, 5 a channel's FBK items, 6 the global FBK items,
7 the retirement flag of an axis. -/
def paramKey (kind n idx : Nat) : Nat := 0x100000000 + kind * 0x1000000 + n * 0x1000 + idx

def proPar (n idx : Nat) : Nat := paramKey 1 n idx
def chpPar (n idx : Nat) : Nat := paramKey 2 n idx
def loopPar (n idx : Nat) : Nat := paramKey 3 n idx
def obsPar (n idx : Nat) : Nat := paramKey 4 n idx
def fbkPar (ch idx : Nat) : Nat := paramKey 5 ch idx
def fbgPar (idx : Nat) : Nat := paramKey 6 0 idx
/-- The triplicated retirement flag of an axis, in bit 0 (R307). -/
def retFlag (n : Nat) : Nat := paramKey 7 n 0

/-- Table 4-7. -/
def proRow (idx : Nat) : RegRow :=
  if idx = 0x00 then ⟨idx, 0xffffffff, 0, 0x90000000⟩
  else if idx = 0x01 then ⟨idx, 0xffffffff, 0, 0x1⟩
  else if idx = 0x02 ∨ idx = 0x04 then ⟨idx, 0xffffffff, 0, 0xa0000000⟩
  else if idx = 0x03 ∨ idx = 0x05 then ⟨idx, 0xffffffff, 0, 0xf⟩
  else if idx = 0x06 then ⟨idx, 0xffffffff, 0, 0x80000000⟩
  else if idx = 0x07 then ⟨idx, 0xffffffff, 0, 0x3e⟩
  else if idx ≤ 0x0d then ⟨idx, 0xffffffff, 0, 0⟩
  else if idx = 0x0e then ⟨idx, 1, 0, 0⟩
  else ⟨idx, 0, 0, 0⟩

/-- Table 6-9; the shadow table is kept with the axis. -/
def chpRow (idx : Nat) : RegRow :=
  if idx = 0x00 then ⟨idx, 0x7fff, 0, 8192⟩
  else if idx = 0x01 then ⟨idx, 0x7fff, 0, 4096⟩
  else if idx = 0x02 then ⟨idx, 0xffff, 0, 0x1432⟩
  else if idx = 0x03 then ⟨idx, 0x1ffff, 0, 0x3214⟩
  else if idx = 0x04 then ⟨idx, 0xffffffff, 0, 0xa0000000⟩
  else if idx = 0x05 then ⟨idx, 0xffff, 0, 0xf⟩
  else if idx = 0x06 then ⟨idx, 0xffffffff, 0, 0x80000000⟩
  else if idx = 0x07 then ⟨idx, 0xffff, 0, 0xc⟩
  else if idx = 0x08 then ⟨idx, 0xffffffff, 0, 0x11223468⟩
  else if idx = 0x09 then ⟨idx, 0xffffffff, 0, 0⟩
  else if idx = 0x0a then ⟨idx, 0x7fff, 0, 0⟩
  else ⟨idx, 0, 0, 0⟩

/-- Tables 8-7 and 8-8, for axis `n`. -/
def loopRow (n idx : Nat) : RegRow :=
  if idx = 0x000 then ⟨idx, 0x000fff3f, 0, 0x00055400⟩
  else if idx = 0x001 then ⟨idx, 0x7f, 0, BitVec.ofNat 32 n⟩
  else if idx = 0x002 then ⟨idx, 0xffffffff, 0, 0x00010001⟩
  else if idx = 0x003 then ⟨idx, 0xffffffff, 0, 4096⟩
  else if idx = 0x004 then ⟨idx, 0xffff, 0, 1000⟩
  else if idx = 0x005 then ⟨idx, 0x7fff, 0, 8192⟩
  else if idx = 0x007 then ⟨idx, 0xffff0000, 0, 0⟩
  else if 0x100 ≤ idx ∧ idx < 0x170 then
    if idx % 0x10 = 0 then ⟨idx, 0xff, 0, 0⟩
    else if idx % 0x10 = 1 then ⟨idx, 0xffffffff, 0, if idx < 0x130 then 0x7fff8000 else 0x7fff0000⟩
    else if idx = 0x145 then ⟨idx, 0x7fff, 0, 16384⟩
    else if idx = 0x155 then ⟨idx, 0x7fff, 0, 32767⟩
    else if idx = 0x165 then ⟨idx, 0x7fff, 0, 29491⟩
    else ⟨idx, 0, 0, 0⟩
  else if 0x200 ≤ idx ∧ idx < 0x3c0 then ⟨idx, 0x7fff, 0, 0⟩
  else ⟨idx, 0, 0, 0⟩

/-- Table 9-3. -/
def obsRow (idx : Nat) : RegRow :=
  if idx = 0x00 then ⟨idx, 0x00ffff00, 0x1f, 0⟩
  else if idx = 0x01 then ⟨idx, 0x7ff, 0, 0x388⟩
  else if idx = 0x02 then ⟨idx, 0xffff, 0, 0⟩
  else if idx = 0x03 then ⟨idx, 0xffffff, 0, 0⟩
  else if idx = 0x04 then ⟨idx, 0xffff, 0, 0⟩
  else if idx = 0x05 then ⟨idx, 0xffffffff, 0, 102400⟩
  else if idx = 0x06 then ⟨idx, 0x7fff7fff, 0, 0x08002000⟩
  else if idx = 0x07 then ⟨idx, 0xffffff, 0, 0x00141000⟩
  else ⟨idx, 0, 0, 0⟩

/-- Table 10-5. -/
def fbkRow (idx : Nat) : RegRow :=
  if idx = 0x00 then ⟨idx, 0xffff, 0, 0x100⟩
  else if idx = 0x01 then ⟨idx, 0xffffffff, 0, 4096⟩
  else if idx = 0x02 then ⟨idx, 0xffffff, 0, 0x640a⟩
  else if idx = 0x03 then ⟨idx, 0xffffffff, 0, 0⟩
  else if idx = 0x04 then ⟨idx, 0xfff, 0, 0⟩
  else if idx = 0x14 then ⟨idx, 0xffffffff, 0, 0⟩
  else ⟨idx, 0, 0, 0⟩

/-- Table 10-6. -/
def fbgRow (idx : Nat) : RegRow :=
  if 0x40 ≤ idx ∧ idx < 0x48 then ⟨idx, 0x7ff, 0, 0x200⟩
  else if 0x50 ≤ idx ∧ idx < 0x60 then ⟨idx, 0x00ff01ff, 0, 0x280000⟩
  else if 0x60 ≤ idx ∧ idx < 0x70 then ⟨idx, 0xffffffff, 0, 0x10001⟩
  else if idx = 0x70 then ⟨idx, 0, 0xffff, 0⟩
  else if idx = 0x71 then ⟨idx, 0, 3, 0⟩
  else ⟨idx, 0, 0, 0⟩

/-- The row of a parameter word. -/
def paramRow (k : Nat) : RegRow :=
  let j := k - 0x100000000
  let kind := j / 0x1000000
  let n := j % 0x1000000 / 0x1000
  let idx := j % 0x1000
  if kind = 1 then proRow idx
  else if kind = 2 then chpRow idx
  else if kind = 3 then loopRow n idx
  else if kind = 4 then obsRow idx
  else if kind = 5 then fbkRow idx
  else if kind = 6 then fbgRow idx
  else ⟨idx, 0, 0, 0⟩

/-- The row of any register or parameter word; nothing for a reserved slot. -/
def rowOf (k : Nat) : Option RegRow := if k < 0x100000000 then regRow k else some (paramRow k)

/-- What a register or parameter word holds at reset. -/
def regReset (k : Nat) : Word := ((rowOf k).map RegRow.reset).getD 0

/-- Keyed registers (R321). -/
def keyedReg (k : Nat) : Bool :=
  if k < 0x8000 then
    (0x3000 ≤ k && k < 0x3020 && k % 4 == 0) || k == 0x3020 || k == 0x1008 || k == 0x2018 || k == 0x7000
  else if k < 0x88000 then 0x80000 ≤ k && (k % 0x1000 == 0 || k % 0x1000 == 4 || k % 0x1000 == 8)
  else 0x100000 ≤ k && k < 0x160000 && (k % 0x1000 == 0x410 || k % 0x1000 == 0x608 || k % 0x1000 == 0xe04)

/-- Triplicated words (Triplicated fields, R324): trip maps, classes, current limits, UVLO trims, thresholds, retry
configuration, retirement flags. -/
def triplReg (k : Nat) : Bool :=
  if k < 0x100000000 then
    (0x3000 ≤ k && k < 0x3020 && k % 4 == 0) ||
    (0x80000 ≤ k && k < 0x88000 && (k % 0x1000 == 4 || k % 0x1000 == 8)) ||
    (0x100000 ≤ k && k < 0x160000 && (k % 0x1000 == 0x410 || k % 0x1000 == 0x608 || k % 0x1000 == 0xe04))
  else
    let j := k - 0x100000000
    (j / 0x1000000 == 3 && j % 0x1000 == 0x155) || (j / 0x1000000 == 7)

end Sys2Proof.Machine
end

