-- ==== Sys2Proof/Machine/Operands.lean ====
section
/-! DEFINITION. Operand forms: multi-word values, roundings, square roots, the CRC-32C and the angle of a vector. -/

namespace Sys2Proof.Machine

/-- A 48-bit value of its _HI and _LO words (R11, R36), signed. -/
def s48 (hi lo : Word) : Int := signed 48 ((hi.toNat % 0x10000) * 0x100000000 + lo.toNat)

/-- The same, unsigned. -/
def u48 (hi lo : Word) : Nat := (hi.toNat % 0x10000) * 0x100000000 + lo.toNat

/-- _LO word of a signed number. -/
def loWord (x : Int) : Word := BitVec.ofInt 32 x

/-- _HI word of a signed 48-bit number: bits [47:32], bits [31:16] copies of bit 47 (R11). -/
def hiWord48 (x : Int) : Word := BitVec.ofInt 32 (signed 16 (unsigned 48 x / 0x100000000))

/-- _HI word of a 64-bit number. -/
def hiWord64 (x : Nat) : Word := BitVec.ofNat 32 (x / 0x100000000)

def loWord64 (x : Nat) : Word := BitVec.ofNat 32 x

def in48 (x : Int) : Bool := decide (-(2 ^ 47) ≤ x) && decide (x < 2 ^ 47)

/-- The n-th word of a payload, 0 where it is not there. -/
def wordAt (ws : List Word) (i : Nat) : Word := ws.getD i 0

/-- A Q32.16 word pair of a payload, as a rational number. -/
def q16 (ws : List Word) (i : Nat) : Rat := (s48 (wordAt ws i) (wordAt ws (i + 1)) : Rat) / 65536

/-- Ticks in a second. -/
def tickHz : Nat := 400000000

/-- Nearest integer, halves away from zero (R45, R94). -/
def roundAway (x : Rat) : Int :=
  if 0 ≤ x then (x + 1 / 2).floor else -((-x + 1 / 2).floor)

/-- A value as a register shows it in whole units, where no rounding is stated (log 10). -/
def shown (x : Rat) : Int := if x.den ≠ 1 ∧ Config.shownUp x.num x.den then x.floor + 1 else x.floor

/-- Nearest Q32.16 value, halves away from zero (R94). -/
def roundQ16 (x : Rat) : Rat := (roundAway (x * 65536) : Rat) / 65536

/-- Integer square root, bit by bit from 2^k down. -/
def isqrtGo : Nat → Nat → Nat → Nat
  | 0, n, acc => if (acc + 1) * (acc + 1) ≤ n then acc + 1 else acc
  | k + 1, n, acc =>
    let t := acc + 2 ^ (k + 1)
    isqrtGo k n (if t * t ≤ n then t else acc)

/-- floor(√n). -/
def isqrt (n : Nat) : Nat := isqrtGo (n.log2 / 2 + 1) n 0

/-- The first of `n` whole numbers from `m` on that is at least √r − w. -/
def ceilSqrtFrom (r w : Rat) : Nat → Nat → Nat
  | 0, m => m
  | n + 1, m => if 0 ≤ (m : Rat) + w ∧ r ≤ ((m : Rat) + w) * ((m : Rat) + w) then m else ceilSqrtFrom r w n (m + 1)

/-- ⌈√r − w⌉, at least 0. -/
def ceilSqrtSub (r w : Rat) : Nat :=
  let s : Rat := (isqrt r.floor.toNat : Nat)
  ceilSqrtFrom r w 6 ((s - w).floor - 1).toNat

def ceilNat (x : Rat) : Nat := x.ceil.toNat

def sgn (x : Rat) : Int := if 0 < x then 1 else if x < 0 then -1 else 0

def absR (x : Rat) : Rat := if x < 0 then -x else x

/-- One byte of the CRC-32C, bit by bit (R38: reflected, polynomial 0x1EDC_6F41 read from the low end). -/
def crcBits : Nat → BitVec 32 → BitVec 32
  | 0, c => c
  | n + 1, c => crcBits n (if c.getLsbD 0 then (c >>> 1) ^^^ 0x82f63b78#32 else c >>> 1)

def crcStep (c : BitVec 32) (b : Byte) : BitVec 32 := crcBits 8 (c ^^^ b.setWidth 32)

/-- CRC-32C of a list of bytes (R38). -/
def crc32c (bs : List Byte) : BitVec 32 := (bs.foldl crcStep 0xffffffff#32) ^^^ 0xffffffff#32

/-- CRC-32C of words, each most significant byte first (R36). -/
def crcWords (ws : List Word) : BitVec 32 := crc32c (ws.flatMap Word.bytes)

/-- Clamp to Q15 (R199). -/
def sat15 (x : Int) : Int := max (-32768) (min 32767 x)

/-- A Q9.30 value as Q15 (R199). -/
def round15 (y : Int) : Int := sat15 ((y + 16384) / 32768)

/-- A saturating accumulator (R198). -/
def satAcc (x : Int) : Int := max (-(2 ^ 38)) (min (2 ^ 38 - 1) x)

def satS (w : Nat) (x : Int) : Int := max (-(2 ^ (w - 1))) (min (2 ^ (w - 1) - 1) x)

/-- wrap(y) of R225. -/
def wrap12 (y : Int) : Int := (y + 2048) % 4096 - 2048

/-- atan(2^-i) in 2^-40 turns, i from 0 to 23: the angles of the rotations by which `ang` finds its angle. -/
def atanTurns : List Int :=
  [137438953472, 81134951838, 42869480287, 21761217566, 10922836750, 5466743129, 2734038620, 1367102738,
   683561799, 341782203, 170891265, 85445653, 42722829, 21361415, 10680707, 5340354, 2670177, 1335088, 667544,
   333772, 166886, 83443, 41722, 20861]

/-- Rotations that turn (x, y), x ≥ 0, onto the x axis; the sum of their angles. -/
def rotate : Nat → List Int → Int → Int → Int → Int
  | _, [], _, _, z => z
  | i, t :: ts, x, y, z =>
    if 0 ≤ y then rotate (i + 1) ts (x + y / 2 ^ i) (y - x / 2 ^ i) (z + t)
    else rotate (i + 1) ts (x - y / 2 ^ i) (y + x / 2 ^ i) (z - t)

/-- The angle of (c, s) in 2^-40 turns, c along cosine and s along sine. -/
def turns (s c : Int) : Int :=
  let s' := s * 2 ^ 40
  let c' := c * 2 ^ 40
  if 0 ≤ c then rotate 0 atanTurns c' s' 0 else 2 ^ 39 + rotate 0 atanTurns (-c') (-s') 0

/-- ang(x_A, x_B): the electrical angle whose sine goes with x_A and whose cosine with x_B (R225). It is accurate to
1 pu: which of the two whole pu beside the exact angle is answered is left open (log 7). -/
def ang (xa xb : Int) : Int :=
  if xa = 0 ∧ xb = 0 then 0
  else
    let z := turns xa xb
    let lo := z / 2 ^ 28
    (if z % 2 ^ 28 ≠ 0 ∧ Config.angUp xa xb then lo + 1 else lo) % 4096

end Sys2Proof.Machine
end

