-- ==== Sys2Proof/Machine/Store.lean ====
section
/-! DEFINITION. Sparse contents by number, in one canonical form: keys strictly rising, and no entry equal to what an
unlisted key reads as. The registers, the pool, the retained storage and the block descriptors are kept so. -/

namespace Sys2Proof.Machine

/-- Contents by key; `d k` is what an unlisted key `k` reads as. -/
abbrev Store (β : Type) := List (Nat × β)

def storeGet {β : Type} (d : Nat → β) : Store β → Nat → β
  | [], k => d k
  | (k', v) :: m, k => if k = k' then v else storeGet d m k

/-- Put an entry at its place in the order. -/
def storePut {β : Type} : Store β → Nat → β → Store β
  | [], k, v => [(k, v)]
  | (k', v') :: m, k, v =>
    if k < k' then (k, v) :: (k', v') :: m
    else if k = k' then (k, v) :: m
    else (k', v') :: storePut m k v

/-- Drop the entry of a key. -/
def storeDel {β : Type} : Store β → Nat → Store β
  | [], _ => []
  | (k', v') :: m, k => if k = k' then m else (k', v') :: storeDel m k

/-- Write: the value an unlisted key reads as is not listed. -/
def storeSet {β : Type} [DecidableEq β] (d : Nat → β) (m : Store β) (k : Nat) (v : β) : Store β :=
  if v = d k then storeDel m k else storePut m k v

/-- Keys strictly rising from `lo` on, no entry that says what the default says. -/
def storeWfFrom {β : Type} [DecidableEq β] (d : Nat → β) : Nat → Store β → Bool
  | _, [] => true
  | lo, (k, v) :: m => decide (lo ≤ k) && decide (v ≠ d k) && storeWfFrom d (k + 1) m

/-- The canonical form. -/
def storeWf {β : Type} [DecidableEq β] (d : Nat → β) (m : Store β) : Bool := storeWfFrom d 0 m

end Sys2Proof.Machine
end

