-- ==== Sys2Proof/Machine/State.lean ====
section
/-! DEFINITION. The state of the module, as plain data, and the state after reset. -/

namespace Sys2Proof.Machine

/-- Table 2-4's axis states. -/
inductive AxState where
  | off | diag | ready | energising | holding | moving | following | stopping | faulted | retired
  deriving DecidableEq, Repr

/-! ## Work, replies, the tag table (chapters Architecture and Command packets) -/

/-- The statuses of Table 2-8. -/
inductive Status where
  | done | accepted | started | stateRefused | badOpcode | badLength | badTarget | keyMismatch | notOwner
  | alreadyFree | poolEmpty | tagInUse | noCredit | stampPast | outOfRange | aborted | nothingToAbort
  | superseded | axisFaulted | axisRetired | groupMismatch | timeDiverged | tripActive | locked | internalError
  deriving DecidableEq, Repr

/-- What a work item carries of the command that caused it (Table 1-2): PORT, TAG, SEGID and SEGV. -/
structure Hdr where
  port : Nat
  tag : Nat
  segid : Nat
  segv : Bool
  deriving DecidableEq, Repr

/-- Work the module starts on its own (R22). -/
def Hdr.module : Hdr := ⟨7, 0, 0, false⟩

/-- Where an open command is. -/
inductive Place where
  /-- held in the burst of its origin (R56) -/
  | burst
  /-- a STAMPED U or X command before its stamp (R60) -/
  | stamped
  /-- in the axis command queue -/
  | queued
  /-- more than 256 commands are open for the axis: waits in the tag table (Table 2-10) -/
  | excess
  /-- taken, final reply not yet sent -/
  | running
  /-- a motion command suspended by HOLD (R113) -/
  | suspended
  /-- staged for a group start (R358) -/
  | staged
  deriving DecidableEq, Repr

/-- One entry of the tag table. -/
structure Cmd where
  id : Nat
  op : Op
  port : Port
  src : Nat
  tag : Nat
  target : Nat
  stamped : Bool
  wantAccept : Bool
  wantStart : Bool
  /-- the port its packet came on; `port` is the one it was entered against (R343) -/
  came : Port
  /-- network time at the arrival of the last trailer byte -/
  arrival : Nat
  /-- the extended stamp S, or the arrival in CREDIT ordering -/
  stamp : Nat
  /-- due time, by which the axis command queue is ordered (R61) -/
  due : Nat
  words : List Word
  place : Place
  /-- the instant the command was taken -/
  taken : Nat
  /-- the axis state code at the check made when it was taken; none before (Table 2-3) -/
  checked : Option Nat
  deriving DecidableEq, Repr

/-- One reply (R40). -/
structure Reply where
  port : Port
  src : Nat
  /-- OPCODE, and above it 0x100 times what the request's VERSION differs from 1 by (exclusive or) -/
  op : Nat
  tag : Nat
  target : Nat
  stamped : Bool
  stamp : Nat
  credit : Nat
  status : Status
  words : List Word
  deriving DecidableEq, Repr

/-- An open burst of one origin: when its first packet came (R56, R57). -/
structure Burst where
  port : Port
  src : Nat
  since : Nat
  deriving DecidableEq, Repr

/-- A pending keyed write of one port (R322): V waits for its complement, or has expired. -/
structure KeyedPend where
  key : Nat
  value : Word
  at_ : Nat
  expired : Bool
  deriving DecidableEq, Repr

/-! ## Segment pool -/

/-- A block descriptor (Table 3-1). -/
structure Desc where
  owner : Nat
  lender : Nat
  next : Nat
  nextv : Bool
  inuse : Bool
  poison : Bool
  deriving DecidableEq, Repr

/-- A free block (R71). -/
def Desc.free : Desc := ⟨0xff, 3, 0, false, false, false⟩

/-- One traced item: what Table 3-6 takes of its header, and its class-dependent payload. -/
structure TraceItem where
  stamp : Nat
  hdr : Hdr
  axis : Nat
  cls : Nat
  late : Bool
  payload : List Byte
  deriving DecidableEq, Repr

/-- The copying of one trace ring: its chain of blocks, the copy buffer and the next entry number. -/
structure TraceRing where
  chain : List Nat
  buf : List TraceItem
  written : Nat
  /-- the next slot in the chain -/
  slot : Nat
  /-- EN was written 0: what is buffered is still written (R84) -/
  closing : Bool
  deriving DecidableEq, Repr

def TraceRing.empty : TraceRing := ⟨[], [], 0, 0, false⟩

/-- What quarantined blocks wait for: the record of an axis, its opening or its closing Ember entry (R79). -/
structure QuarBlock where
  block : Nat
  axis : Nat
  closing : Bool
  deriving DecidableEq, Repr

/-! ## Profile engine -/

/-- PRO.STAT.PHASE. -/
inductive Phase where
  | rest | move | vel | table | stop | estop | wait | dwell
  deriving DecidableEq, Repr

/-- A WAIT_STAMP entry that holds back the next entry (R105): the stamp W, the entry and the LOOP_TO counters there. -/
structure WaitRec where
  at_ : Nat
  segid : Nat
  block : Nat
  index : Nat
  loops : List (Nat × Nat × Nat)
  deriving DecidableEq, Repr

/-- A committed segment (R87, R90): from `start` for `dur` ticks, from (p0, v0) to (p1, v1), in pu and pu/s. -/
structure Seg where
  start : Nat
  dur : Nat
  p0 : Rat
  v0 : Rat
  p1 : Rat
  v1 : Rat
  flags : Nat
  hdr : Hdr
  /-- of a table's segment: block, entry in it, and the LOOP_TO counters where it was fetched -/
  block : Nat
  index : Nat
  loops : List (Nat × Nat × Nat)
  phase : Phase
  /-- the first segment of a plan: comes into force by SPLICE at its start -/
  splice : Bool
  /-- has come into force -/
  entered : Bool
  /-- the stop onto a soft limit (R100) -/
  soft : Bool
  /-- the target velocity of a MOVE_VEL is reached at its end -/
  last : Bool
  /-- the WAIT_STAMP entries that the axis waits for before its start, in order -/
  wait : List WaitRec
  /-- the whole length before a splice cut it; its cubic stays the same -/
  full : Nat
  deriving DecidableEq, Repr

/-- A phase that is planned and not yet committed: length in ticks, exact end position and velocity, PHASE. -/
structure PlanSeg where
  dur : Nat
  endP : Int
  endV : Rat
  phase : Phase
  soft : Bool
  deriving DecidableEq, Repr

/-- What a motion command asks of the profile engine. -/
inductive PlanReq where
  /-- MOVE_ABS, MOVE_REL: target, V, A, D, NO_REVERSE -/
  | move (target : Int) (v a d : Rat) (noRev : Bool)
  /-- MOVE_VEL: target velocity, A, D, NO_REVERSE -/
  | vel (vt a d : Rat) (noRev : Bool)
  /-- SEG_RUN: first block, FROM_ID -/
  | table (block : Nat) (fromId : Option Nat)
  deriving DecidableEq, Repr

/-- A motion or dwell entry that has been fetched, checked and awaits its commit. -/
structure Fetched where
  block : Nat
  index : Nat
  segid : Nat
  flags : Nat
  dur : Nat
  endP : Rat
  endV : Rat
  dwell : Bool
  loops : List (Nat × Nat × Nat)
  wait : List WaitRec
  deriving DecidableEq, Repr

/-- A SEG_RUN that has been taken (R103 to R109). -/
structure Run where
  cmd : Nat
  hdr : Hdr
  first : Nat
  /-- the next entry to fetch: block, entry (8: the first of the block linked); none once the run's end was fetched -/
  next : Option (Nat × Nat)
  /-- the entry flagged LAST, once fetched -/
  lastAt : Option (Nat × Nat)
  /-- counters of LOOP_TO entries: block, entry, repeats left -/
  loops : List (Nat × Nat × Nat)
  /-- consecutive control entries resolved -/
  controls : Nat
  fetched : List Fetched
  /-- state at the end of the last entry fetched -/
  endP : Rat
  endV : Rat
  /-- end of the last entry committed; at first of what goes before the run's first entry -/
  endT : Nat
  /-- the WAIT_STAMP entries that the next entry will wait for, in order -/
  wait : List WaitRec
  /-- the table entry that came into force last: block, entry, and the LOOP_TO counters there -/
  cur : Option (Nat × Nat × List (Nat × Nat × Nat))
  /-- the run stops after what was fetched, by R109 or a broken chain -/
  bad : Bool
  /-- the class action of a broken chain or a double-bit error ends the run (R78, Table 3-5) -/
  awaits : Bool
  /-- blocks made INUSE by this run -/
  blocks : List Nat
  /-- the move to the rejoin entry is planned or in force; the entry (none: the end of the table), its start position, and
  the counters there -/
  rejoining : Bool
  rejoinAt : Option (Nat × Nat)
  rejoinP : Int
  rejoinLoops : List (Nat × Nat × Nat)
  deriving DecidableEq, Repr

/-- What the trajectory in force is. -/
inductive Motion where
  | idle
  | move (cmd : Nat) (target : Int) (v a d : Rat)
  | vel (cmd : Nat) (vt a d : Rat)
  /-- cruise after a completed MOVE_VEL: target velocity, deceleration limit -/
  | cruise (vt d : Rat)
  /-- a segment table, the move to its rejoin entry included -/
  | table (cmd : Nat)
  | stop (emergency : Bool)
  deriving DecidableEq, Repr

/-- A suspended motion command (R113, R114). -/
inductive Suspended where
  | none
  | move (cmd : Nat) (target : Int) (v a d : Rat)
  | vel (cmd : Nat) (vt a d : Rat)
  | table (cmd : Nat)
  deriving DecidableEq, Repr

/-- The profile engine of an axis. -/
structure Pro where
  /-- commanded position where no segment is in force, pu -/
  pos : Rat
  segs : List Seg
  /-- phases of the plan not yet committed -/
  plan : List PlanSeg
  /-- exact end of what is committed of a velocity move or cruise (R99) -/
  exact : Rat
  motion : Motion
  susp : Suspended
  run : Option Run
  /-- commands that complete when the axis comes to rest, and with which status -/
  atRest : List (Nat × Status)
  /-- the axis ends in FAULTED when it comes to rest (R297) -/
  faultAtRest : Bool
  /-- SLBAD has been acted on (R101) -/
  slbadSeen : Bool
  target : Int
  deriving DecidableEq, Repr

/-! ## Step synthesiser -/

/-- An EDGE item (R129). Instants are in fine ticks of network time. -/
structure Edge where
  instant : Nat
  dir : Bool
  ep : Nat
  q : Int
  hdr : Hdr
  follow : Bool
  fallback : Bool
  /-- nominal instant of a derived microstep (R139), fine ticks -/
  nominal : Nat
  /-- when it entered the queue, ticks -/
  enq : Nat
  deriving DecidableEq, Repr

/-- A pulse of a feedback channel on its way to a follower: instant in fine ticks, direction. -/
structure Pulse where
  instant : Nat
  dir : Bool
  deriving DecidableEq, Repr

/-- Follow mode of an axis (R135 to R143). -/
structure Follow where
  chan : Nat
  upDown : Bool
  num : Nat
  den : Nat
  counting : Bool
  /-- pulses stamped before this tick are not counted -/
  since : Nat
  /-- pulses stamped at or after this tick are not counted -/
  until_ : Option Nat
  lastPulse : Option Nat
  inbox : List Pulse
  /-- derived microsteps that wait for room in the edge queue: nominal instant in fine ticks, direction -/
  derived : List (Nat × Bool)
  hdr : Hdr
  /-- the lag lies above LAGMAX, which has been recorded (R142) -/
  overLag : Bool
  /-- commands that complete with DONE when the last microstep takes effect -/
  enders : List Nat
  deriving DecidableEq, Repr

/-- The step synthesiser of an axis. -/
structure Stp where
  /-- Q and EP at the last edge placed, and at the last edge released -/
  q : Int
  ep : Nat
  qRel : Int
  epRel : Nat
  /-- the look-ahead queue PRO fills and STP solves -/
  segs : List Seg
  /-- how far the head segment is solved, ticks from its start (R126), and the previous edge's instant there -/
  solvedTo : Rat
  prevEdge : Option Rat
  edges : List Edge
  /-- the last edge placed, and the last edge released, fine ticks (R140) -/
  lastEdge : Option Nat
  lastRel : Option Nat
  /-- the last effect instant given to an edge, ticks (Table 1-5) -/
  lastEffect : Nat
  lateEpisode : Bool
  follow : Option Follow
  /-- FREM.REM and FREM.PULSES -/
  rem : Int
  pulses : Nat
  deriving DecidableEq, Repr
/-! ## Gate drive banks -/

/-- The tile's state for one axis. Gates in the order GH_A1, GL_A1, GH_A2, GL_A2, GH_B1, GL_B1, GH_B2, GL_B2. -/
structure TileAxis where
  hard : BitVec 8
  soft : BitVec 8
  bstok : BitVec 4
  shoc : BitVec 2
  sdis : BitVec 2
  nocur : BitVec 2
  prech : Bool
  /-- command lines; each line's last turn-off; since when each that is on has been on, or free of what held its gate;
  fine ticks of the timebase -/
  cmd : BitVec 8
  offAt : Vector Nat 8
  /-- when the gate had turned on, where it was on as its line went off (Table 11-1) -/
  wasOn : Vector (Option Nat) 8
  onSince : Vector (Option Nat) 8
  /-- legs both of whose gates the reflex of a short circuit holds low (R275) -/
  legHold : BitVec 4
  /-- bootstraps last measured below their rising threshold, by leg; of these, the legs whose high side was on and may
  stay on, since the bootstrap is not below the falling one (R272) -/
  bootLow : BitVec 4
  bootBand : BitVec 4
  /-- legs whose high side was latched by BOOT_UVLO (Table 11-2) -/
  bootSoft : BitVec 4
  /-- a bootstrap refresh under way on a leg since this tick (R273) -/
  refresh : Vector (Option Nat) 4
  /-- tick at which the precharge began (R270) -/
  prechAt : Nat
  /-- the offset each coil's ADC subtracts, codes (R279) -/
  offset : Vector Int 2
  /-- failed sense-path checks of each coil in a row, and the strobe of the last check (R283) -/
  failRun : Vector Nat 2
  checked : Vector (Option Nat) 2
  /-- the last NO_CURRENT of each coil, timebase tick (R284) -/
  noCurAt : Vector Nat 2
  /-- the last retry that released a soft hold, timebase tick (R276) -/
  retryAt : Option Nat
  /-- an automatic continuity test of each coil is due, after this cause (R285) -/
  autoDiag : Vector (Option Nat) 2
  deriving DecidableEq, Repr

/-- One bank tile with its barrier link and kill channel. -/
structure Bank where
  /-- kill mask in force in the tile (R30) -/
  kill : BitVec 12
  linkUp : Bool
  /-- the tile holds its gates low: no valid frame came for 2 µs (R290) -/
  linkHold : Bool
  /-- frames failed in a row (Table 11-6) -/
  crcRun : Nat
  /-- a corrupted kill symbol came: the gates are held low until the next valid one (R450) -/
  killBad : Bool
  vgLow : Bool
  shrefLost : Bool
  busOv : Bool
  busUv : Bool
  ot : Bool
  warm : Bool
  axes : Vector TileAxis 12
  /-- the delay lines (R178): the line that serves each of 48 legs and 12 step channels, the spare, the channel
  replaced next, swaps made in this round, withdrawn lines, the last 1 ms boundary -/
  serve : Vector Nat 60
  spare : Nat
  swapAt : Fin 60
  swaps : Nat
  withdrawn : List Nat
  lastSwap : Nat
  /-- the lines calibrated since the last switch to the PLL (R374) -/
  calibrated : BitVec 61
  deriving DecidableEq, Repr

/-! ## Fault collection -/

/-- Where a cause records (R289, R295). -/
inductive Scope where
  | axis (a : Fin 96)
  | bank (b : Fin 8)
  | module
  deriving DecidableEq, Repr

/-- A FAULT item on the Flue (R291), with the class its cause had when it was raised (R294). -/
structure FaultItem where
  source : Nat
  cause : Nat
  sub : Nat
  scope : Scope
  stamp : Nat
  hdr : Hdr
  cls : Nat
  /-- of a bank's or the module's cause: the headers in force on its axes when it was detected (R302) -/
  hdrs : List Hdr
  /-- network time was not UNSET when it was detected (Table 17-1) -/
  timev : Bool
  deriving DecidableEq, Repr

/-- A fault record (Table 12-6). -/
structure Rec where
  first : Nat
  cls : Nat
  opened : Bool
  pending : Bool
  retired : Bool
  sub : Nat
  repeats : Nat
  mask : Nat
  stamp : Nat
  /-- TIMEV of its opening entry -/
  timev : Bool
  hdr : Hdr
  retries : Nat
  seq : Nat
  ember : Nat
  emberv : Bool
  /-- opened under R296 by a share held from another record -/
  shared : Bool
  /-- banks whose bank cause this (module) record holds; all of them for a module-wide cause -/
  banks : BitVec 8
  /-- the bank causes it holds: bank, cause (R304) -/
  pairs : List (Nat × Nat)
  /-- opening timebase tick, for the back-off and STOPMAX -/
  opentb : Nat
  /-- awaits a sub-cause from the automatic test (R285) -/
  awaitSub : Bool
  /-- a retry back-off runs until this timebase tick (R305) -/
  backoff : Option Nat
  /-- timebase tick of the last cause merged -/
  mergedAt : Option Nat
  deriving DecidableEq, Repr

/-- How far a retirement or reinstatement has come (R307 to R309). -/
inductive RetPhase where
  | none
  /-- step 1: the C2 action waits for the end of an SS1 stop -/
  | stopping
  /-- step 5: the record is being written -/
  | writing
  /-- step 6: the closing entry is being written -/
  | closing
  /-- a reinstatement erases the record -/
  | erasing
  deriving DecidableEq, Repr

/-- The fault state of an axis. -/
structure AxFault where
  recs : List Rec
  seq : Nat
  /-- instants of the retries released, timebase ticks, newest first -/
  retries : List Nat
  retPhase : RetPhase
  /-- the AXIS_RETIRE or AXIS_REINSTATE command, or the AXCTL write, that awaits the end of it -/
  retCmd : Option Nat
  retCtl : Bool
  /-- an SS1 stop runs until this timebase tick at the latest (R298) -/
  ss1 : Option Nat
  /-- the source of the cause that began that stop -/
  ss1Src : Nat
  /-- the C1 or C2 action has not yet ended -/
  acting : Bool
  deriving DecidableEq, Repr

/-! ## Hearth domain -/

/-- What asked for an Ember entry. -/
inductive EmberWhy where
  | opening (axis seq : Nat)
  | closing (axis : Nat) (retiring : Bool)
  | notice
  | mark (cmd : Nat)
  | kindling
  | calset
  deriving DecidableEq, Repr

/-- An Ember entry that waits to be written; words 1 and 2, the calendar, are put in at the write, but for CALSET. -/
structure EmberReq where
  why : EmberWhy
  words : List Word
  deriving DecidableEq, Repr

/-- The Hearth domain behind its registers. -/
structure Hearth where
  onMain : Bool
  backupOk : Bool
  calValid : Bool
  /-- the signature word has been lost (R402) -/
  lost : Bool
  sec : Nat
  /-- the fractional accumulator: 24 fraction bits and 16 below them -/
  acc : Nat
  /-- the INC in force (R404) -/
  inc : Nat
  ember : Store Word
  next : Nat
  wrapped : Bool
  written : Nat
  retire : Store Word
  sram : Store Word
  queue : List EmberReq
  /-- the words of the entry that is being written, the first of the queue (R407) -/
  writing : Option (List Word)
  /-- the last notice logged for each cause and axis: code, axis, timebase tick (R303) -/
  notices : List (Nat × Nat × Nat)
  deriving DecidableEq, Repr
/-! ## Coil drive -/

/-- CHP.STAT.AMPST. -/
inductive AmpSt where
  | off | precharge | eramp | brakeWait | run | hramp | hold | release
  deriving DecidableEq, Repr

/-- A ramp of AMP (R154): from, to, number of steps, steps made. -/
structure Ramp where
  a0 : Nat
  a1 : Nat
  k : Nat
  j : Nat
  deriving DecidableEq, Repr

/-- A SETPOINT item on its way to the tile (R148, R149): its instant in fine ticks, s_A and s_B, the fast-decay
fractions, the amplitude, EP, whether an edge caused it, the zero crossings it is, and the modes the coils take. -/
structure Setpoint where
  instant : Nat
  s : Vector Int 2
  frac : Vector Nat 2
  /-- the magnitude of each coil's last change was a fall (R161) -/
  fell : Vector Bool 2
  amp : Nat
  ep : Nat
  edge : Bool
  zc : Vector Bool 2
  mode : Vector (Option Bool) 2
  hdr : Hdr
  /-- taken by the tile, for each coil -/
  done : Vector Bool 2
  deriving DecidableEq, Repr

/-- What the bridge of a coil does (R159). -/
inductive Bridge where
  | off | drive | fast | slow | pwm
  deriving DecidableEq, Repr

/-- One coil: what is in force in its tile. -/
structure Coil where
  /-- setpoint in force, signed Q15, and its DAC code and sign are of it -/
  s : Int
  frac : Nat
  /-- voltage mode -/
  volt : Bool
  bridge : Bridge
  /-- timebase tick at which the present on-time or off-time started -/
  since : Nat
  /-- the lengths latched for it: blanking, off-time, fast decay, in ticks -/
  blank : Nat
  toff : Nat
  tfast : Nat
  /-- the chopper has been compared after blanking in this on-time -/
  armed : Bool
  /-- the magnitude of its last changed setpoint fell; no change since energising counts as none (R161) -/
  fell : Bool
  deriving DecidableEq, Repr

/-- The coil drive of an axis. -/
structure Chp where
  ampst : AmpSt
  /-- amplitude in force -/
  amp : Nat
  ramp : Option Ramp
  /-- the brake: CHP drives BRK (R156) -/
  brk : Bool
  coils : Vector Coil 2
  setpoints : List Setpoint
  /-- EP of the last edge setpoint that took effect -/
  ep : Nat
  /-- last edge released: its instant in fine ticks, none after energising (R166) -/
  prevEdge : Option Nat
  /-- speed and DIR of the last edge released (R166, R203) -/
  edgeSpeed : Rat
  edgeDir : Bool
  /-- hold timer: timebase tick it started at (R153) -/
  holdFrom : Option Nat
  /-- ticks it had run when a moving segment stopped it, and the HOLD_DELAY it started with (R155) -/
  holdAcc : Nat
  holdDelay : Nat
  /-- VBUS code at g0 (R157), and whether the ramp waits for the bus -/
  refBus : Nat
  drooped : Bool
  /-- AMP is to be 0 at the next grid instant -/
  zeroNext : Bool
  /-- waiting for g0 after precharge -/
  awaitG0 : Bool
  /-- the lift happens at the grid instant after the ramp -/
  awaitLift : Bool
  /-- timebase tick the brake wait ends at -/
  brakeEnd : Option Nat
  /-- network-time tick of the last grid instant, and of the last one whose setpoint has been released (R148) -/
  lastGrid : Nat
  gridSent : Nat
  /-- the header of the register write that the next grid setpoint follows from (R149) -/
  gridHdr : Option Hdr
  /-- the setpoint of that grid instant waits for the edge that takes effect in its tick: the header and the mode changes
  it has where no such edge comes (R148) -/
  gridWith : Option (Hdr × Vector (Option Bool) 2)
  /-- last ramp step of a release, network-time tick -/
  releasedAt : Option Nat
  energiseCmd : Option Nat
  releaseCmd : Option Nat
  /-- was FAULTED when the release began -/
  releaseFaulted : Bool
  /-- the 128 entries of the two copies of the current table (R145) -/
  active : Store Nat
  shadow : Store Nat
  load : Option Nat
  /-- a SWAP waits for the end of the load, with the header of its register write (R149, R172) -/
  swapAfter : Option Hdr
  /-- the next grid instant sends a setpoint, with the header of the write that swapped the tables (R149, R172) -/
  resend : Option Hdr
  deriving DecidableEq, Repr

/-! ## PWM -/

/-- A coil duty on its way: U, the sample instant it came of, and its arrival, ticks. -/
structure Duty where
  u : Int
  stamp : Nat
  arrival : Nat
  /-- the header of the sample it was computed from (R21) -/
  hdr : Hdr
  deriving DecidableEq, Repr

/-- The edges of one leg: instants in fine ticks with the level after. -/
structure LegPlan where
  /-- edges still to come -/
  edges : List (Nat × Bool)
  /-- where the leg's edge of each half of the period in progress stands, also one that cancels (R175, R180) -/
  slots : List (Nat × Bool)
  /-- the leg's previous edge, fine ticks -/
  last : Option Nat
  high : Bool
  deriving DecidableEq, Repr

/-- A write of U or HALF whose horizon may still lie beyond the end of the period in progress (R177): its arrival, and
the values in force before it. -/
structure PwmWrite where
  at_ : Nat
  u : Vector Int 2
  half : Nat
  deriving DecidableEq, Repr

/-- The PWM generator of an axis. -/
structure Pwm where
  run : Bool
  /-- next boundary where the counters start (R176) -/
  b : Nat
  /-- centre and end of the period -/
  c : Nat
  e : Nat
  /-- the first boundary has been taken -/
  started : Bool
  halfEff : Nat
  div8 : Nat
  spread : Rat
  u : Vector Int 2
  /-- the writes of U and HALF of the last 112 ticks, oldest first (R177, R180, R181) -/
  writes : List PwmWrite
  duty : Vector (Option Duty) 2
  legs : Vector LegPlan 4
  phaseErr : Int
  phased : Bool
  stretched : Bool
  dropped : Bool
  /-- the strobe of this period: its instant, and whether it has been taken; the previous strobe used (R223), ticks -/
  strobeAt : Nat
  strobed : Bool
  lastStrobe : Option Nat
  deriving DecidableEq, Repr

/-- One SAMPLE item (R280). -/
structure Sample where
  stamp : Nat
  hdr : Hdr
  i : Vector Int 2
  vbus : Nat
  settled : Vector Bool 2
  chop : Vector Bool 2
  /-- n1 − n2 for each coil, ticks, and the interval since the previous strobe -/
  dn : Vector Int 2
  interval : Nat
  /-- what holds at the strobe instant: setpoints in force, coils in voltage mode, PRO's position and velocity, the
  count and the speed (Q32.16) of the axis's feedback channel (R196, R204) -/
  sp : Vector Int 2
  volt : Vector Bool 2
  /-- the low side of each coil's driving diagonal was on (R283) -/
  lowOn : Vector Bool 2
  cpos : Int
  vcmd : Rat
  fbCount : Int
  fbSpeed : Int
  /-- the outer loops are due at this strobe (R195) -/
  outer : Bool
  deriving DecidableEq, Repr
/-! ## Loop engine -/

/-- One loop of Table 8-1. -/
structure LoopUnit where
  /-- Q9.30, 40 bits, saturating (R198) -/
  acc : Int
  out : Int
  err : Int
  sat : Bool
  /-- evaluations it stays frozen for (R218) -/
  frz : Nat
  deriving DecidableEq, Repr

/-- The loop engine of an axis: loops 0 ICOIL_A, 1 ICOIL_B, 2 POS, 3 SPEED, 4 ANGLE, 5 TORQUE, 6 REGEN. -/
structure LoopAxis where
  units : Vector LoopUnit 7
  /-- the outer loops run (R206) -/
  running : Bool
  /-- a mode change presets the loops at the next outer evaluation (R219) -/
  presetDue : Bool
  winner : Nat
  dir : Int
  blind : Bool
  feOver : Bool
  /-- network-time strobe of the first evaluation over the limit (R210) -/
  feSince : Option Nat
  feNoted : Bool
  /-- carrier periods counted towards ODIV from 1, 0 before the first boundary; the ODIV in force (R195, R219) -/
  periods : Nat
  odiv : Nat
  /-- unwrapped count u, the channel count it was last moved by, OFS (R208) -/
  u : Int
  lastCount : Int
  ofs : Int
  selected : Int
  fErr : Int
  pMeas : Int
  vMeas : Int
  /-- unsettled samples in a row of each coil (R212) -/
  unset : Vector Nat 2
  blindNoted : Vector Bool 2
  /-- TQEN and RGEN as the last evaluation saw them (Table 8-4) -/
  tqOn : Bool
  rgOn : Bool
  /-- FB_STILL: the evaluation from which the axis has been commanded at STVMIN or above, and recorded (R260) -/
  stillSince : Option Nat
  stillNoted : Bool
  deriving DecidableEq, Repr
/-! ## Load-angle observer -/

/-- The observer of an axis. -/
structure Obs where
  /-- the sample of the last strobe used (R222) -/
  prev : Option Sample
  /-- leg counts summed over skipped strobes, for each coil (R223) -/
  dnSum : Vector Int 2
  /-- filters, 16 fraction bits below the Q15 LSB -/
  ef : Vector Int 2
  cf : Vector Int 2
  valid : Bool
  /-- good updates in a row, collapse updates in a row -/
  good : Nat
  collapse : Nat
  /-- VALID within the present run of updates that meet the speed condition (R228) -/
  wasValid : Bool
  delta : Int
  margin : Int
  thR : Int
  thI : Int
  ampE : Nat
  ampX : Nat
  /-- PSEL.WARNING, and an excursion already recorded (R230) -/
  warning : Bool
  excursion : Bool
  /-- VALID updates in a row at or below SMARG; armed for a stall (R231) -/
  low : Nat
  armed : Bool
  /-- STALL is due: sub-cause MARGIN or COLLAPSE -/
  stallDue : Option Nat
  /-- resistance tracking: updates, S_v, S_i, the AMP it started with (R229) -/
  trackN : Nat
  trackV : Int
  trackI : Int
  trackAmp : Nat
  /-- the 256th update has been made -/
  trackDue : Bool
  /-- frozen-feedback window: opening network time, D_obs, p_meas at the opening (R233) -/
  window : Option Nat
  dObs : Int
  pOpen : Int
  /-- a window that an outer evaluation has closed: its D_obs and D_fb -/
  windowDue : Option (Int × Int)
  /-- timebase tick of the last tracking result written, and RTRACKED before it (R229) -/
  tracked : Option (Nat × Bool)
  /-- when the last edge took effect, timebase tick (R229) -/
  lastEdge : Nat
  deriving DecidableEq, Repr
/-! ## Feedback interface -/

/-- A trigger of a position latch that was taken (R254). -/
structure Trig where
  /-- stamp, fine ticks -/
  stamp : Nat
  software : Bool
  /-- LSRC at the trigger -/
  src : Nat
  /-- the count with every event stamped at or before the trigger -/
  count : Int
  /-- the speed at the stamp -/
  speed : Int
  deriving DecidableEq, Repr

/-- How the speed of a feedback channel is formed from an instant on (R249 to R252). -/
structure SpeedRef where
  /-- fine ticks -/
  since : Nat
  /-- K of the precision slot that serves the channel -/
  slot : Option Nat
  /-- when the reference was last cleared, fine ticks -/
  cleared : Nat
  /-- the window speed, as it reads while no slot serves the channel -/
  speed : Int
  deriving DecidableEq, Repr

/-- One feedback channel behind its parameters. -/
structure Chan where
  /-- filtered levels of its three pins, before inversion -/
  levels : BitVec 3
  count : Int
  /-- running net event sum (R249) -/
  sum : Int
  /-- the newest 512 events, newest first: stamp in fine ticks, net event sum after it -/
  hist : List (Nat × Int)
  /-- for each pin, the crossing of its last accepted edge, fine ticks of the timebase (R237) -/
  edges : Vector (Option Nat) 3
  /-- the newest 256 values of the count, newest first, with the stamp each holds from (R254) -/
  counts : List (Nat × Int)
  /-- the reference of the window method -/
  ref : Option (Nat × Int)
  /-- last window end formed, ticks -/
  winEnd : Nat
  /-- window speed, 2^-16 counts/s -/
  speed : Int
  /-- how the channel's speed was formed, newest first, of the newest 16 changes -/
  spds : List SpeedRef
  still : Bool
  /-- last valid Hall sector; an invalid code stands -/
  sector : Option Nat
  hallBad : Bool
  /-- an index event has come since the configuration changed (R247) -/
  indexed : Bool
  /-- triggers of the position latch taken and not yet written (R254) -/
  trigs : List Trig
  deriving DecidableEq, Repr

/-- A pulse of an echo output that has been placed (R258). -/
structure EchoPulse where
  /-- rise, fine ticks -/
  rise : Nat
  /-- it waits in the backlog -/
  waits : Bool
  /-- how long it is high, ticks -/
  width : Nat
  deriving DecidableEq, Repr

/-- One echo output (R257, R258). -/
structure Echo where
  acc : Int
  debt : Nat
  /-- pulses placed and still to rise -/
  queue : List EchoPulse
  /-- rise of the last pulse placed -/
  last : Option Nat
  /-- the last pulse emitted -/
  rose : Option EchoPulse
  dropping : Bool
  deriving DecidableEq, Repr

/-! ## Network and time -/

/-- An entry of the duplicate filter (R340): bit i of `window` stands for newest − i. -/
structure Dup where
  src : Nat
  newest : Nat
  window : BitVec 65
  heard : Nat
  deriving DecidableEq, Repr

/-- A frame put on a port's wire. -/
structure TxFrame where
  port : Fin 2
  bytes : List Byte
  /-- the FCS is inverted: every later hop discards it (Table 14-2) -/
  badFcs : Bool
  deriving DecidableEq, Repr

/-- The best master heard on a port. -/
structure Master where
  msg : PtpMsg
  heard : Nat
  deriving DecidableEq, Repr

/-- A PTP message forwarded by the transparent clock or sent by the ordinary clock: egress port, message. -/
structure PtpTx where
  port : Fin 2
  msg : PtpMsg
  deriving DecidableEq, Repr

/-- A message whose residence time is known (R347): source port identity, sequence number, Delay_Req or Sync, the
residence time in 2^-16 ns. -/
structure Residence where
  src : BitVec 64
  srcPort : BitVec 16
  seq : BitVec 16
  delayReq : Bool
  res : Int
  deriving DecidableEq, Repr

/-- The ordinary clock and the transparent clock. -/
structure Ptp where
  masters : Vector (Option Master) 2
  /-- a Sync that awaits its Follow_Up: sequence number, arrival in fine ticks, correctionField -/
  sync : Option (BitVec 16 × Nat × Int)
  /-- the last t2 − t1 − corrections, 2^-16 ns -/
  msDiff : Option Int
  /-- a Delay_Req that awaits its Delay_Resp: sequence number, its departure in fine ticks -/
  req : Option (BitVec 16 × Nat)
  /-- timebase tick of the last Delay_Req sent (LOGDREQ) -/
  reqAt : Option Nat
  /-- the last offset measured, 2^-16 ns -/
  ofs : Int
  /-- a delay measurement has completed with the present master -/
  delayOk : Bool
  /-- pairs in a row within QTOL, up to 8 -/
  good : Nat
  /-- timebase tick of the last valid pair, and of the start of the wait for an Announce -/
  lastPair : Nat
  lastAnn : Nat
  residences : List Residence
  /-- next sequence numbers of the Sync, Announce and Delay_Req it sends -/
  seqSync : BitVec 16
  seqAnn : BitVec 16
  seqReq : BitVec 16
  deriving DecidableEq, Repr

/-- The discipline of network time. -/
structure Servo where
  /-- source in force: 0 LOCAL, 1 PTP, 2 Hearth RC after a clock loss -/
  source : Nat
  ptpQual : Bool
  unset : Bool
  /-- rate correction, parts per 10^9, and the phase correction still to be slewed, 10^-9 tick -/
  rate : Int
  phase : Int
  /-- a requested change: source, the instant r -/
  pend : Option (Nat × Nat)
  /-- the TIME_SOURCE_SELECT command that awaits the commit -/
  selCmd : Option Nat
  /-- a change away from PTP has been committed: PTP qualifies again only after 2 s -/
  away : Bool
  /-- since when the conditions of R350 hold without a break, timebase ticks -/
  heldSince : Option Nat
  deriving DecidableEq, Repr

inductive MemberSt where
  | joined | armed | committed
  deriving DecidableEq, Repr

/-- A member record (Table 14-5); READY is ARMED with the conditions of R358. -/
structure Member where
  group : Nat
  axes : BitVec 96
  st : MemberSt
  refusal : Nat
  tol : Nat
  digest : Word
  start : Option Nat
  at_ : Nat
  /-- its time was within T when that was last checked (R357) -/
  within : Bool
  deriving DecidableEq, Repr

/-- Ports, forwarding, IEEE 1588 and the Guyline. -/
structure Net where
  seq : BitVec 16
  /-- changes of NET.NODE.ADDR a frame may still span: the address before, the timebase tick (R338), newest first -/
  nodes : List (Nat × Nat)
  dups : List Dup
  /-- frames and PTP messages sent during the last step -/
  sent : List TxFrame
  ptpSent : List PtpTx
  ptp : Ptp
  servo : Servo
  members : List Member
  /-- Guyline: ROLE in force, and a change of it with the grid instant it takes effect at -/
  guyRole : Nat
  guyNext : Option (Nat × Nat)
  /-- last grid instant at which a head emitted, ticks -/
  guyHead : Nat
  /-- last accepted pulse, fine ticks of network time and timebase tick; the reference instant, fine ticks -/
  guyAcc : Option (Nat × Nat)
  guyRef : Nat
  guySince : Nat
  guyOff : Bool
  /-- GUY_LOST has been recorded for the present loss -/
  guyMissed : Bool
  /-- rise of the last pulse on SYNC_OUT, fine ticks -/
  syncOut : Option Nat
  deriving DecidableEq, Repr

/-! ## Clocks, power and Kindling -/

/-- A planned switch of the clock source (R368): steps made of 16. -/
structure ClkSw where
  toPll : Bool
  step : Nat
  /-- REFCLK was lost: it goes back to the RC step by step -/
  back : Bool
  at_ : Nat
  deriving DecidableEq, Repr

/-- The clock unit behind its registers. -/
structure Clk where
  sw : Option ClkSw
  /-- REFCLK has been accepted and the PLL is locking; a planned switch follows -/
  locking : Bool
  /-- on the RC after a loss; REFCLK good without a break since this timebase tick -/
  lost : Bool
  goodSince : Option Nat
  /-- RC measured good since this timebase tick -/
  rcGood : Option Nat
  /-- timebase tick at which the calendar measurement in progress began: the last switch to the PLL, or the end of the
  last measurement (R404) -/
  calFrom : Nat
  /-- timebase tick of the last REFCLK measurement and of the last RC measurement -/
  measAt : Nat
  rcAt : Nat
  deriving DecidableEq, Repr

/-- How far a change of performance level has come. -/
inductive ChStage where
  /-- a rise waits for VOK -/
  | vcore
  /-- the divider ramps (PL2 to PL3 and back) -/
  | ramp
  /-- only the completion is left -/
  | last
  /-- entry to PL0: the switch to the RC is under way -/
  | deep
  deriving DecidableEq, Repr

/-- A change of performance level under way (R391, R392). -/
structure Change where
  target : Nat
  stage : ChStage
  at_ : Nat
  cmd : Option Nat
  viaReg : Bool
  deriving DecidableEq, Repr

/-- Where the module stands between supply and run. -/
inductive PwrPhase where
  /-- VIN_L has been below 3.0 V -/
  | unpowered
  | kindling
  | running
  /-- PL0: DONE has been sent, VCORE not yet removed -/
  | entering
  | pl0
  /-- nRESET is low -/
  | held
  | shutdown
  /-- the shutdown has ended; VIN_L has not returned -/
  | waiting
  deriving DecidableEq, Repr

/-- The boot loader (R384 to R389). -/
structure Boot where
  packets : List (List Byte)
  index : Nat
  stopOnErr : Bool
  /-- a packet has been sent and its final reply has not come -/
  waiting : Bool
  fallback : Bool
  ended : Bool
  /-- the read commands sent on the flash bus, oldest first: opcode, address, dummy byte (R384) -/
  reads : List (List Byte)
  deriving DecidableEq, Repr

structure Pwr where
  phase : PwrPhase
  /-- timebase tick at which the phase began -/
  since : Nat
  straps : Straps
  nresetLow : Bool
  /-- VIN_L stands at or above 4.45 V; not so from the end of a shutdown until it has returned (R400) -/
  vinOk : Bool
  wakeHigh : Bool
  /-- VIO has been at or above 3.0 V for 100 µs -/
  vioOk : Bool
  /-- the snapshot of R382 holds the kept items -/
  snapOk : Bool
  /-- a cause at or above ERRCFG.THRESH was raised during Kindling (R383) -/
  errKept : Bool
  change : Option Change
  /-- the divider in force, in eighths (R174, R390) -/
  div8 : Nat
  /-- VCORE, mV (Table 16-5) -/
  vcore : Nat
  boot : Boot
  deriving DecidableEq, Repr
/-! ## The axis and the module -/

/-- One axis. -/
structure Axis where
  st : AxState
  energised : Bool
  /-- the state a diagnostic returns to, its command, and whether it is the comparator self-test -/
  diagFrom : AxState
  diagCmd : Option Nat
  diagKind : Bool
  /-- a diagnostic runs, also where a C1 action has made the axis FAULTED meanwhile (Table 12-4) -/
  diagOn : Bool
  /-- what step 1 of a diagnostic found: VG at or above its rising threshold, the bus code, the bus below BUSLIM.UV
  (Table 11-4) -/
  diagVg : Bool
  diagBus : Nat
  diagLow : Bool
  /-- the test pulses of the diagnostic so far: their gates, and whether a comparator crossed in them (R287) -/
  diagPulses : List (BitVec 8 × Bool)
  pro : Pro
  stp : Stp
  chp : Chp
  pwm : Pwm
  loop : LoopAxis
  obs : Obs
  fault : AxFault
  sample : Option Sample
  deriving DecidableEq, Repr
/-- What has happened to a field in the arbitration window in progress (Table 13-4): the module set it, counted in it,
brought it to at least a number, cleared it, wrote a result into it that a software write discards (R229); software wrote
the word. `old` is what the field held before. -/
inductive WinKind where
  | set
  | count (wraps : Bool) (old : Nat)
  | atLeast (v old : Nat)
  | clear
  | result (old : Nat)
  | soft (v : Word)
  deriving DecidableEq, Repr

/-- A field that was written, and the timebase tick, which stands for the window (log 61). -/
structure WinMark where
  key : Nat
  lo : Nat
  width : Nat
  kind : WinKind
  at_ : Nat
  deriving DecidableEq, Repr

/-- What a gated subsystem still does for a write of one of its registers, once it is clocked (R369). -/
inductive GateAct where
  /-- PRO looks at the soft limits of an axis -/
  | soft (a : AxisId)
  /-- CHP acts on a value of TABCTL, with the header of its write -/
  | table (a : AxisId) (v : Word) (hdr : Hdr)
  /-- OBS clears its estimates: EN has changed -/
  | obs (a : AxisId)
  /-- FBK takes a software trigger -/
  | trigger (c : ChanId)
  /-- FBK acts on CFG (index 0) or WRAP (1) of a channel, which held `old` -/
  | chan (c : ChanId) (idx : Nat) (old : Word)
  /-- FBK acts on a speed slot, whose SLOTCFG held `old` -/
  | slot (k : Fin 8) (old : Word)
  /-- FBK starts an echo output anew -/
  | echo (e : Fin 16)
  deriving DecidableEq, Repr

/-- The whole module. -/
structure State where
  /-- registers and parameters by canonical address (`paramKey` for those behind a PSEL pair) -/
  regs : Store Word
  /-- the second and third copies of the triplicated words (R324) -/
  tmrB : Store Word
  tmrC : Store Word
  /-- the last TMR_MISMATCH of each triplicated word, timebase tick plus 1; 0 none (R325) -/
  tmrAt : Store Nat
  /-- held words of multi-word values (R318) -/
  held : Store Word
  /-- what the arbitration window in progress has seen (R326) -/
  window : List WinMark
  /-- network time in ticks, and its part below a tick -/
  net : Nat
  netFrac : Nat
  /-- ticks of the timebase since power-on, neither stepped nor slewed -/
  tb : Nat
  tbFrac : Nat
  axes : Vector Axis 96
  banks : Vector Bank 8
  tags : List Cmd
  nextId : Nat
  bursts : List Burst
  replies : List Reply
  /-- words the host frame of the last step shifted out -/
  hostOut : List Word
  /-- a READ frame waits for the write of an Ember entry: words still to come, and the address of the next (Table 17-3) -/
  hostWait : Option (Nat × Word)
  /-- the status byte the host frame of the last step shifted out first (Table 13-6) -/
  hostStatus : Byte
  /-- the dummy bytes the host frame of the last step had before its words (HIF.CFG) -/
  hostDummy : Nat
  /-- the HIF ingress buffer: packets pushed that CMD has not yet taken (R330) -/
  ingress : List (List Byte)
  /-- credits still to be returned in excess, and returns still to be withheld, for host, A and B (R54) -/
  creditBonus : Vector Nat 3
  creditHold : Vector Nat 3
  keyed : Vector (Option KeyedPend) 4
  desc : Store Desc
  mem : List Host.Cell
  /-- pool doublewords that hold an error: true where it is a double-bit error (R80, R81) -/
  ecc : List (Nat × Bool)
  /-- blocks that have recorded POOL_ECC_CE in this pass of the scrubber -/
  ceNoted : List Nat
  zeroing : List Nat
  quar : List QuarBlock
  rings : Vector TraceRing 4
  flue : List FaultItem
  /-- for each source, the timebase tick at which its pair went to (0,1) or an item of it was last taken (R291) -/
  flueSince : Vector Nat 22
  broken : BitVec 22
  modRecs : List Rec
  modSeq : Nat
  locked : Bool
  /-- nERR's minimum pulse runs until this timebase tick (R310) -/
  errPulse : Option Nat
  hearth : Hearth
  chans : Vector Chan 96
  echoes : Vector Echo 16
  netw : Net
  clk : Clk
  pwr : Pwr
  drven : Bool
  drvenLowAt : Nat
  /-- TRIP inputs that are active after their filter (R187) -/
  trips : BitVec 16
  extest : Bool
  /-- the test access port: the instruction loaded, the boundary register's update latches, and what the last scan shifted
  out (R424) -/
  tapIr : BitVec 4
  tapCells : BitVec 459
  tapOut : BitVec 459
  /-- free values drawn so far (the model's own: log 9) -/
  draws : Nat
  /-- what gated subsystems have to do, oldest first (R369) -/
  deferred : List GateAct
  /-- commands that wait, first in, first out -/
  pending : List Instr
  deriving DecidableEq, Repr

/-- Why a step can stop with a fault. No command of this block does: every meaning answers a next state. -/
inductive Fault where
  /-- raised by no meaning; safe -/
  | never
  deriving DecidableEq, Repr

/-- Why a step can be refused. -/
inductive Refusal where
  /-- an arm of `exec` whose command has no meaning yet; safe -/
  | notModelled (mnemonic : String)
  deriving DecidableEq, Repr

/-! ## After reset -/

def Pro.reset : Pro :=
  { pos := 0, segs := [], plan := [], exact := 0, motion := .idle, susp := .none, run := none, atRest := []
    faultAtRest := false, slbadSeen := false, target := 0 }

def Stp.reset : Stp :=
  { q := 0, ep := 0, qRel := 0, epRel := 0, segs := [], solvedTo := 0, prevEdge := none, edges := []
    lastEdge := none, lastRel := none, lastEffect := 0, lateEpisode := false, follow := none, rem := 0, pulses := 0 }

def Coil.reset : Coil :=
  { s := 0, frac := 0, volt := false, bridge := .off, since := 0, blank := 0, toff := 0, tfast := 0, armed := false
    fell := false }

def Chp.reset : Chp :=
  { ampst := .off, amp := 0, ramp := none, brk := false, coils := Vector.replicate 2 Coil.reset, setpoints := []
    ep := 0, prevEdge := none, edgeSpeed := 0, edgeDir := true, holdFrom := none, holdAcc := 0, holdDelay := 0, refBus := 0, drooped := false
    zeroNext := false, awaitG0 := false, awaitLift := false, brakeEnd := none, lastGrid := 0, gridSent := 0, gridHdr := none, gridWith := none, releasedAt := none
    energiseCmd := none, releaseCmd := none, releaseFaulted := false, active := [], shadow := [], load := none
    swapAfter := none, resend := none }

def LegPlan.reset : LegPlan := ⟨[], [], none, false⟩

def Pwm.reset : Pwm :=
  { run := false, b := 0, c := 0, e := 0, started := false, halfEff := 4000, div8 := 8, spread := 0, u := #v[0, 0]
    writes := [], duty := #v[none, none], legs := Vector.replicate 4 LegPlan.reset, phaseErr := 0, phased := false
    stretched := false, dropped := false, strobeAt := 0, strobed := false, lastStrobe := none }

def LoopUnit.reset : LoopUnit := ⟨0, 0, 0, false, 0⟩

def LoopAxis.reset : LoopAxis :=
  { units := Vector.replicate 7 LoopUnit.reset, running := false, presetDue := false, winner := 0, dir := 0, blind := false
    feOver := false, feSince := none, feNoted := false, periods := 0, odiv := 1, u := 0, lastCount := 0, ofs := 0
    selected := 0, fErr := 0, pMeas := 0, vMeas := 0, unset := #v[0, 0]
    blindNoted := #v[false, false], tqOn := false, rgOn := false, stillSince := none, stillNoted := false }

def Obs.reset : Obs :=
  { prev := none, dnSum := #v[0, 0], ef := #v[0, 0], cf := #v[0, 0], valid := false, good := 0, collapse := 0
    wasValid := false, delta := 0, margin := 0, thR := 0, thI := 0, ampE := 0, ampX := 0, warning := false
    excursion := false, low := 0, armed := true, stallDue := none, trackN := 0, trackV := 0, trackI := 0
    trackAmp := 0, trackDue := false, window := none, dObs := 0, pOpen := 0, windowDue := none, tracked := none, lastEdge := 0 }

def AxFault.reset : AxFault := ⟨[], 0, [], .none, none, false, none, 0, false⟩

def Axis.reset : Axis :=
  { st := .off, energised := false, diagFrom := .off, diagCmd := none, diagKind := false, diagOn := false
    diagVg := false, diagBus := 0, diagLow := false, diagPulses := [], pro := Pro.reset
    stp := Stp.reset, chp := Chp.reset, pwm := Pwm.reset, loop := LoopAxis.reset, obs := Obs.reset
    fault := AxFault.reset, sample := none }

def TileAxis.reset : TileAxis :=
  { hard := 0, soft := 0, bstok := 0, shoc := 0, sdis := 0, nocur := 0, prech := false, cmd := 0
    offAt := Vector.replicate 8 0, wasOn := Vector.replicate 8 none, onSince := Vector.replicate 8 none, legHold := 0, bootLow := 0, bootBand := 0
    bootSoft := 0, refresh := Vector.replicate 4 none, prechAt := 0, offset := #v[0, 0], failRun := #v[0, 0]
    checked := #v[none, none], noCurAt := #v[0, 0], retryAt := none, autoDiag := #v[none, none] }

/-- A bank tile: its link is down, so it holds every gate low (R290). -/
def Bank.reset : Bank :=
  { kill := 0, linkUp := false, linkHold := true, crcRun := 0, killBad := false, vgLow := true, shrefLost := false, busOv := false
    busUv := false, ot := false, warm := false, axes := Vector.replicate 12 TileAxis.reset
    serve := Vector.ofFn fun i => i.val, spare := 60, swapAt := 0, swaps := 0, withdrawn := [], lastSwap := 0, calibrated := 0 }

/-- The Hearth domain after a loss of its contents (R402, the reset values of chapter 17). -/
def Hearth.reset : Hearth :=
  { onMain := true, backupOk := false, calValid := false, lost := true, sec := 0, acc := 0, inc := 0x2000000
    ember := [], next := 0, wrapped := false, written := 0, retire := [], sram := [], queue := [], writing := none, notices := [] }

def Chan.reset : Chan :=
  { levels := 7, count := 0, sum := 0, hist := [], edges := #v[none, none, none], counts := [], ref := none, winEnd := 0
    speed := 0, spds := []
    still := false, sector := none, hallBad := false, indexed := false, trigs := [] }

def Echo.reset : Echo := ⟨0, 0, [], none, none, false⟩

def Ptp.reset : Ptp :=
  { masters := #v[none, none], sync := none, msDiff := none, req := none, reqAt := none, ofs := 0, delayOk := false, good := 0, lastPair := 0
    lastAnn := 0, residences := [], seqSync := 0, seqAnn := 0, seqReq := 0 }

def Servo.reset : Servo :=
  { source := 0, ptpQual := false, unset := true, rate := 0, phase := 0, pend := none, selCmd := none, away := false
    heldSince := none }

def Net.reset : Net :=
  { seq := 0, nodes := [], dups := [], sent := [], ptpSent := [], ptp := Ptp.reset, servo := Servo.reset, members := []
    guyRole := 0, guyNext := none, guyHead := 0, guyAcc := none, guyRef := 0, guySince := 0, guyOff := false, guyMissed := false
    syncOut := none }

def Clk.reset : Clk :=
  { sw := none, locking := false, lost := false, goodSince := none, rcGood := none, calFrom := 0, measAt := 0
    rcAt := 0 }

def Boot.reset : Boot := ⟨[], 0, false, false, false, false, []⟩

def Pwr.reset : Pwr :=
  { phase := .unpowered, since := 0, straps := ⟨0, 0, false, []⟩, nresetLow := false, vinOk := true, wakeHigh := false, vioOk := true
    snapOk := false, errKept := false, change := none, div8 := 8, vcore := 0, boot := Boot.reset }

/-- The module as its supply comes: every register at its reset value, every gate low, every brake engaged; a COLD
Kindling is the first thing to happen (log 5). -/
def State.reset : State :=
  { regs := [], tmrB := [], tmrC := [], tmrAt := [], held := [], window := [], net := 0, netFrac := 0, tb := 0, tbFrac := 0
    axes := Vector.replicate 96 Axis.reset, banks := Vector.replicate 8 Bank.reset, tags := [], nextId := 0
    bursts := [], replies := [], hostOut := [], hostWait := none, hostStatus := 0, hostDummy := 0, ingress := []
    creditBonus := #v[0, 0, 0], creditHold := #v[0, 0, 0]
    keyed := Vector.replicate 4 none, desc := [], mem := [], ecc := [], ceNoted := [], zeroing := [], quar := []
    rings := Vector.replicate 4 TraceRing.empty, flue := [], flueSince := Vector.replicate 22 0, broken := 0, modRecs := [], modSeq := 0
    locked := false, errPulse := none, hearth := Hearth.reset, chans := Vector.replicate 96 Chan.reset
    echoes := Vector.replicate 16 Echo.reset, netw := Net.reset, clk := Clk.reset
    pwr := Pwr.reset, drven := false, drvenLowAt := 0, trips := 0, extest := false
    tapIr := 15, tapCells := 0, tapOut := 0, draws := 0, deferred := [], pending := [] }

end Sys2Proof.Machine
end

