-- ==== Sys2Proof/Machine/Flags.lean ====
section
/-! DEFINITION. Register words, their fields, flags and counters: the one place where a register is read and written
(R13, R316, R324). -/

namespace Sys2Proof.Machine

/-- Bit-by-bit majority of three copies (R324). -/
def vote (a b c : Word) : Word := (a &&& b) ||| (b &&& c) ||| (a &&& c)

/-- The word of a register or parameter; of a triplicated one, the vote of its copies. -/
def State.reg (s : State) (k : Nat) : Word :=
  let a := storeGet regReset s.regs k
  if triplReg k then vote a (storeGet regReset s.tmrB k) (storeGet regReset s.tmrC k) else a

/-- Write a register or parameter word; a triplicated one in its three copies. -/
def State.setReg (s : State) (k : Nat) (v : Word) : State :=
  if triplReg k then
    { s with
      regs := storeSet regReset s.regs k v
      tmrB := storeSet regReset s.tmrB k v
      tmrC := storeSet regReset s.tmrC k v }
  else { s with regs := storeSet regReset s.regs k v }

/-- The number in a field of a register. -/
def State.fld (s : State) (k lo w : Nat) : Nat := (s.reg k).fld lo w

def State.sfld (s : State) (k lo w : Nat) : Int := (s.reg k).sfld lo w

def State.bit (s : State) (k i : Nat) : Bool := (s.reg k).bit i

/-- Write one field of a register. -/
def State.setFld (s : State) (k lo w v : Nat) : State := s.setReg k ((s.reg k).put lo w v)

def State.setBit (s : State) (k i : Nat) (b : Bool) : State := s.setReg k ((s.reg k).setBit i b)

/-- Note what happens to a field in this window (Table 13-4). -/
def State.mark (s : State) (k lo w : Nat) (kind : WinKind) : State :=
  { s with window := (s.window.filter fun m => m.at_ == s.tb) ++ [⟨k, lo, w, kind, s.tb⟩] }

/-- Set a W1C status flag: the module's set of a flag (Table 13-4). -/
def State.flag (s : State) (k i : Nat) : State := (s.setBit k i true).mark k i 1 .set

/-- Set a W1C bit of HIF.IRQSTAT (R331). -/
def State.irq (s : State) (i : Nat) : State := s.flag Reg.hifIrqstat i

/-- Count an event in a counter field that saturates. -/
def State.bump (s : State) (k lo w : Nat) : State :=
  (s.setFld k lo w (satAdd w (s.fld k lo w) 1)).mark k lo w (.count false (s.fld k lo w))

/-- Count an event in a counter field that wraps. -/
def State.bumpMod (s : State) (k lo w : Nat) : State :=
  (s.setFld k lo w (s.fld k lo w + 1)).mark k lo w (.count true (s.fld k lo w))

/-- Bring a field that shows the largest number since it was written to at least `v`. -/
def State.peak (s : State) (k lo w v : Nat) : State :=
  (s.setFld k lo w (max v (s.fld k lo w))).mark k lo w (.atLeast v (s.fld k lo w))

/-- The module's own update of a field, again, after a software write in the same window (Table 13-4). A count is made again
only in a field that the write could change; a result that the write discards is not. -/
def State.again (s : State) (m : WinMark) : State :=
  match m.kind with
  | .set => (s.setFld m.key m.lo m.width (2 ^ m.width - 1)).mark m.key m.lo m.width .set
  | .count wraps _ =>
    if (((rowOf m.key).map RegRow.rw).getD 0).bit m.lo then
      (if wraps then s.bumpMod m.key m.lo m.width else s.bump m.key m.lo m.width)
    else s.mark m.key m.lo m.width m.kind
  | .atLeast v _ => s.peak m.key m.lo m.width v
  | .clear => (s.setFld m.key m.lo m.width 0).mark m.key m.lo m.width .clear
  | .result _ => s
  | .soft v => s.mark m.key m.lo m.width (.soft v)

/-- The marks of this window on a register. -/
def State.marks (s : State) (k : Nat) : List WinMark := s.window.filter fun m => m.key == k && m.at_ == s.tb

/-- A software write of a register has landed: the module's updates of the same window come after it (R326). -/
def State.landed (s : State) (k : Nat) (v : Word) : State :=
  let rest := { s with window := s.window.filter fun m => !(m.key == k && m.at_ == s.tb) }
  ((s.marks k).foldl State.again rest).mark k 0 32 (.soft v)

/-- The state with a word as it was before the module's own counts, peaks and results of this window: what a software write
of that window finds there (Table 13-4). -/
def State.unwound (s : State) (k : Nat) : State :=
  (s.marks k).foldr (fun m s =>
    match m.kind with
    | .count _ old | .atLeast _ old | .result old => s.setFld m.key m.lo m.width old
    | .set | .clear | .soft _ => s) s

/-- Software has written the word in this window. -/
def State.justWritten (s : State) (k : Nat) : Bool :=
  (s.marks k).any fun m => match m.kind with | .soft _ => true | _ => false

/-- Software has written 1 to a bit in this window. -/
def State.softOne (s : State) (k i : Nat) : Bool :=
  (s.marks k).any fun m => match m.kind with | .soft v => v.bit i | _ => false

/-- A signed 48-bit value of two register words (R11). -/
def State.val48 (s : State) (klo khi : Nat) : Int := s48 (s.reg khi) (s.reg klo)

/-- A software write of value `v`: RW bits take it, a 1 clears a W1C bit, every other bit stays (Table 0-6). -/
def swWord (r : RegRow) (old v : Word) : Word := ((old &&& ~~~r.rw) ||| (v &&& r.rw)) &&& ~~~(v &&& r.w1c)

/-- The plain software write of a register that does nothing else (R326); a reserved slot ignores it (R317). -/
def State.plainWrite (s : State) (k : Nat) (v : Word) : State :=
  match rowOf k with
  | some r => (s.setReg k (swWord r (s.reg k) v)).landed k v
  | none => s

end Sys2Proof.Machine
end

