-- ==== Sys2Proof/Machine/Ops.lean ====
section
/-! DEFINITION. The named operations over the state: axes and banks, memory, replies and the tag table, faults put on
the Flue, items copied to trace rings. -/

namespace Sys2Proof.Machine

/-- A meaning's answer. -/
abbrev Res := Host.Outcome State Fault Refusal

/-! ## Axes and banks -/

def State.ax (s : State) (a : AxisId) : Axis := s.axes.get a

def State.setAx (s : State) (a : AxisId) (x : Axis) : State := { s with axes := s.axes.set a x }

def State.modAx (s : State) (a : AxisId) (f : Axis → Axis) : State := s.setAx a (f (s.ax a))

def State.setPro (s : State) (a : AxisId) (p : Pro) : State := s.modAx a fun x => { x with pro := p }
def State.setStp (s : State) (a : AxisId) (p : Stp) : State := s.modAx a fun x => { x with stp := p }
def State.setChp (s : State) (a : AxisId) (p : Chp) : State := s.modAx a fun x => { x with chp := p }
def State.setPwm (s : State) (a : AxisId) (p : Pwm) : State := s.modAx a fun x => { x with pwm := p }
def State.setLoop (s : State) (a : AxisId) (p : LoopAxis) : State := s.modAx a fun x => { x with loop := p }
def State.setObs (s : State) (a : AxisId) (p : Obs) : State := s.modAx a fun x => { x with obs := p }
def State.setFault (s : State) (a : AxisId) (p : AxFault) : State := s.modAx a fun x => { x with fault := p }
def State.setSt (s : State) (a : AxisId) (p : AxState) : State := s.modAx a fun x => { x with st := p }

/-- Axis a belongs to bank floor(a/12) (R5). -/
def bankOf (a : AxisId) : BankId := ⟨a.val / 12, by omega⟩

/-- The local axis of an axis in its bank. -/
def locOf (a : AxisId) : Fin 12 := ⟨a.val % 12, by omega⟩

/-- Axis j of bank b. -/
def axisOf (b : BankId) (j : Fin 12) : AxisId := ⟨b.val * 12 + j.val, by omega⟩

def State.bank (s : State) (b : BankId) : Bank := s.banks.get b

def State.setBank (s : State) (b : BankId) (x : Bank) : State := { s with banks := s.banks.set b x }

def State.tile (s : State) (a : AxisId) : TileAxis := (s.bank (bankOf a)).axes.get (locOf a)

def State.setTile (s : State) (a : AxisId) (t : TileAxis) : State :=
  let b := s.bank (bankOf a)
  s.setBank (bankOf a) { b with axes := b.axes.set (locOf a) t }

/-- An axis number of a register or packet: 96 to 127 stand for the value less 64. -/
def axisNum (n : Nat) : AxisId :=
  let m := n % 128
  if h : m < 96 then ⟨m, h⟩ else ⟨(m - 64) % 96, Nat.mod_lt _ (by omega)⟩

/-- Do something for every axis in turn. -/
def State.eachAx (s : State) (f : State → AxisId → State) : State := (List.finRange 96).foldl f s

/-- Do something for every axis of a bank in turn. -/
def State.eachOf (s : State) (b : BankId) (f : State → AxisId → State) : State :=
  (List.finRange 12).foldl (fun s j => f s (axisOf b j)) s

/-- Table 2-4. -/
def AxState.code : AxState → Nat
  | .off => 0 | .diag => 1 | .ready => 2 | .energising => 3 | .holding => 4 | .moving => 5 | .following => 6
  | .stopping => 7 | .faulted => 8 | .retired => 9

/-- Draw a free value. -/
def State.drawNat (s : State) : Nat × State := (Config.freeNat s.draws, { s with draws := s.draws + 1 })

/-! ## Pool memory and block descriptors -/

def memDefault : Nat → Byte := fun _ => 0

def descDefault : Nat → Desc := fun _ => Desc.free

/-- A byte of the pool (R67). -/
def State.byte (s : State) (o : Nat) : Byte := storeGet memDefault s.mem o

def State.setByte (s : State) (o : Nat) (v : Byte) : State := { s with mem := storeSet memDefault s.mem o v }

/-- The word at a word-aligned offset, most significant byte first (R68). -/
def State.word (s : State) (o : Nat) : Word :=
  Word.ofBytes (s.byte o) (s.byte (o + 1)) (s.byte (o + 2)) (s.byte (o + 3))

def State.setWord (s : State) (o : Nat) (v : Word) : State :=
  (((s.setByte o (v.extractLsb' 24 8)).setByte (o + 1) (v.extractLsb' 16 8)).setByte (o + 2)
    (v.extractLsb' 8 8)).setByte (o + 3) (v.extractLsb' 0 8)

/-- The pool memory's canonical form. -/
def Memory.wf (m : List Host.Cell) : Bool := storeWf memDefault m

def State.blk (s : State) (k : Nat) : Desc := storeGet descDefault s.desc k

def State.setBlk (s : State) (k : Nat) (d : Desc) : State := { s with desc := storeSet descDefault s.desc k d }

/-- Set all 256 bytes of a block to 0. -/
def State.zeroBlock (s : State) (k : Nat) : State :=
  { s with
    mem := s.mem.filter fun c => decide (c.1 / 256 ≠ k)
    ecc := s.ecc.filter fun c => decide (c.1 / 32 ≠ k) }

/-! ## Trace rings -/

/-- Copy an item into each enabled ring whose filters it matches; a ring without room counts it as lost (R84) (DESIGN
CHOICE, log 17). -/
def State.trace (s : State) (it : TraceItem) : State :=
  (List.finRange 4).foldl (fun s t =>
    let cfg := s.reg (Reg.poolTraceCfg t.val)
    let ax := s.fld (Reg.poolTraceAx t.val) 0 7
    let r := s.rings.get t
    if cfg.bit 15 && cfg.bit (16 + it.cls) && (ax == 127 || ax == it.axis) && !r.closing then
      if r.buf.length < 64 then { s with rings := s.rings.set t { r with buf := r.buf ++ [it] } }
      else s.bump (Reg.poolTracePtr t.val) 16 16
    else s) s

def bytesOf : Nat → Nat → List Byte
  | 0, _ => []
  | n + 1, v => BitVec.ofNat 8 (v / 256 ^ n) :: bytesOf n v

def bytesS (n : Nat) (v : Int) : List Byte := bytesOf n (unsigned (8 * n) v)

/-! ## Commands and replies -/

/-- Table 2-8. -/
def Status.code : Status → Nat
  | .done => 0x00 | .accepted => 0x01 | .started => 0x02 | .stateRefused => 0x10 | .badOpcode => 0x11
  | .badLength => 0x12 | .badTarget => 0x13 | .keyMismatch => 0x14 | .notOwner => 0x15 | .alreadyFree => 0x16
  | .poolEmpty => 0x17 | .tagInUse => 0x18 | .noCredit => 0x19 | .stampPast => 0x1a | .outOfRange => 0x1b
  | .aborted => 0x20 | .nothingToAbort => 0x21 | .superseded => 0x22 | .axisFaulted => 0x30 | .axisRetired => 0x31
  | .groupMismatch => 0x32 | .timeDiverged => 0x33 | .tripActive => 0x34 | .locked => 0x3e | .internalError => 0x3f

def portId : Port → Nat
  | .host => 0 | .a => 1 | .b => 2 | .boot => 3

/-- The credit account of a port; the boot loader uses the host's (Tags and credits) (DEDUCED, log 24). -/
def portAcct : Port → Fin 3
  | .host => 0 | .a => 1 | .b => 2 | .boot => 0

/-- Table 2-6's codes. -/
def opCode : Op → Nat
  | .nop => 0x00 | .regRead => 0x01 | .regWrite => 0x02 | .regWriteKeyed => 0x03 | .regReadMulti => 0x04
  | .axisEnergise => 0x10 | .axisRelease => 0x11 | .axisDiagOffstate => 0x12 | .axisSelftestCmp => 0x13
  | .axisRetire => 0x14 | .axisReinstate => 0x15 | .moveAbs => 0x20 | .moveRel => 0x21 | .moveVel => 0x22
  | .segRun => 0x23 | .segAppend => 0x24 | .followStart => 0x25 | .followEnd => 0x26 | .setPosition => 0x27
  | .stop => 0x28 | .abort => 0x29 | .hold => 0x2a | .resume => 0x2b | .poolAlloc => 0x30 | .poolFree => 0x31
  | .poolGive => 0x32 | .poolWrite => 0x33 | .poolRead => 0x34 | .groupJoin => 0x40 | .groupLeave => 0x41
  | .groupArm => 0x42 | .groupStartAt => 0x43 | .groupHalt => 0x44 | .timeSourceSelect => 0x50 | .timeQuery => 0x51
  | .logRead => 0x60 | .logMark => 0x61 | .plRequest => 0x70 | .echo => 0x7f

/-- The bits of a reply's CREDIT field come of three parts (R53, R54): one for a final reply, what a raise of CREDITS
owes, and nothing while returns are withheld for a lowering, which an entry refusal never is. A boot reply goes to no
host. -/
def State.credit (s : State) (p : Port) (final entered : Bool) : Nat × State :=
  let i := portAcct p
  let bonus := s.creditBonus.get i
  let held := s.creditHold.get i
  let s0 := s
  let s := { s with creditBonus := s.creditBonus.set i 0 }
  if p = .boot then (final.toNat, s0)
  else if !final then (bonus, s)
  else if entered && decide (0 < held) then (bonus, { s with creditHold := s.creditHold.set i (held - 1) })
  else (bonus + 1, s)

/-- Queue a reply (R40), and its REPLY item for the trace rings. -/
def State.reply (s : State) (p : Port) (src op tag target : Nat) (stamped : Bool) (st : Status) (words : List Word)
    (stamp : Nat) (final entered : Bool) : State :=
  let (cr, s) := s.credit p final entered
  let s := { s with replies := s.replies ++ [({
    port := p, src := src, op := op, tag := tag, target := target, stamped := stamped, stamp := stamp % 2 ^ 40
    credit := cr, status := st, words := words } : Reply)] }
  s.trace ⟨stamp, ⟨portId p, tag, 0, false⟩, if target < 96 then target else 127, 8, false, List.replicate 16 0⟩

/-- The detail word of Table 2-3. -/
def detail (state index tagref : Nat) : Word :=
  BitVec.ofNat 32 (state % 16 * 0x10000000 + index % 256 * 0x10000 + tagref % 0x10000)

/-- The header of a command's own items (Table 1-2). -/
def Cmd.hdr (c : Cmd) : Hdr := ⟨portId c.port, c.tag, 0, false⟩

/-- AXIS of an item of a command: its target, or 127 for the module and groups. -/
def Cmd.itemAxis (c : Cmd) : Nat := if c.target < 96 then c.target else 127

/-- A request to the pool: its POOL item, stamped when it arrives (Table 1-3) (DESIGN CHOICE, log 56). -/
def State.poolItem (s : State) (h : Hdr) (axis : Nat) : State := s.trace ⟨s.net, h, axis, 7, false, List.replicate 16 0⟩

def State.cmd (s : State) (id : Nat) : Option Cmd := s.tags.find? fun c => c.id == id

def State.setCmd (s : State) (c : Cmd) : State :=
  { s with tags := s.tags.map fun d => if d.id = c.id then c else d }

/-- A command's target as an axis. -/
def Cmd.axis? (c : Cmd) : Option AxisId := if h : c.target < 96 then some ⟨c.target, h⟩ else none

def Cmd.on (c : Cmd) (a : AxisId) : Bool := c.target == a.val

/-- The axis state code at a check of a command (Table 2-3). -/
def State.stateOf (s : State) (target : Nat) : Nat :=
  if h : target < 96 then (s.ax ⟨target, h⟩).st.code else 0xe

/-- Let the oldest command that waits in the tag table into the axis queue, while it holds fewer than 256. -/
def State.promote (s : State) (target : Nat) : State :=
  if (s.tags.filter fun c => c.target == target && c.place == Place.queued).length < 256 then
    match s.tags.find? fun c => c.target == target && c.place == Place.excess with
    | some c => s.setCmd { c with place := .queued }
    | none => s
  else s

/-- The final reply of an open command: the tag is closed (R42). -/
def State.finish (s : State) (id : Nat) (st : Status) (words : List Word) (stamp : Nat) : State :=
  match s.cmd id with
  | none => s
  | some c =>
    let s := { s with tags := s.tags.filter fun d => d.id != id }
    (s.reply c.port c.src (opCode c.op) c.tag c.target c.stamped st words stamp true true).promote c.target

/-- A final reply with a status of 0x10 or above: its detail word, with the state at the check made when the command was
taken, or the state now of one never taken (Table 2-3; DEDUCED, log 21). -/
def State.fail (s : State) (id : Nat) (st : Status) (index tagref : Nat) (stamp : Nat) : State :=
  match s.cmd id with
  | none => s
  | some c => s.finish id st [detail (c.checked.getD (s.stateOf c.target)) index tagref] stamp

/-- The final reply DONE without payload, now. -/
def State.done (s : State) (id : Nat) : State := s.finish id .done [] s.net

/-- STARTED, if the command asked for it (R42). -/
def State.sendStarted (s : State) (id : Nat) : State :=
  match s.cmd id with
  | none => s
  | some c => if c.wantStart then s.reply c.port c.src (opCode c.op) c.tag c.target c.stamped .started [] s.net false true
              else s

def State.finishAll (s : State) (ids : List Nat) (st : Status) : State :=
  ids.foldl (fun s id => s.fail id st 0 0 s.net) s

def State.tagOf (s : State) (id : Nat) : Nat := ((s.cmd id).map Cmd.tag).getD 0

/-! ## Faults -/

/-- Whether an opcode is a motion command. -/
def opMotion : Op → Bool
  | .moveAbs | .moveRel | .moveVel | .segRun => true
  | _ => false

/-- The header in force on an axis: the command running on it, or PORT 7 and TAG 0; the segment in force (R302). -/
def State.axisHdr (s : State) (a : AxisId) : Hdr :=
  let x := s.ax a
  let seg : Hdr := match x.pro.segs with
    | g :: _ => if g.entered then g.hdr else Hdr.module
    | [] => Hdr.module
  match s.tags.find? fun c => c.on a && c.place == Place.running && opMotion c.op with
  | some c => ⟨portId c.port, c.tag, seg.segid, seg.segv⟩
  | none =>
    match s.tags.find? fun c => c.on a && c.place == Place.running with
    | some c => ⟨portId c.port, c.tag, seg.segid, seg.segv⟩
    | none => ⟨7, 0, seg.segid, seg.segv⟩

/-- The class assigned to a cause (R294). -/
def State.classOf (s : State) (cause : Nat) : Nat := min 4 (s.fld (Reg.fltClass (cause / 8)) (4 * (cause % 8)) 3)

/-- The class a fixed cause keeps (R293); FLUE_WIRE has none of its own. -/
def fixedClass (c : Nat) : Option Nat :=
  if c = 0x1a then some 2 else if c = 0x31 ∨ c = 0x33 then some 3 else if c = 0x36 then some 4 else none

/-- The class of a cause at this moment (R293, R294). -/
def State.causeClass (s : State) (c : Nat) : Nat := (fixedClass c).getD (s.classOf c)

/-- The header a cause of a scope is raised with (R302). -/
def State.scopeHdr (s : State) : Scope → Hdr
  | .axis a => s.axisHdr a
  | _ => Hdr.module

/-- The headers in force on the axes of a scope that a bank's or the module's cause may reach (R302). -/
def State.scopeHdrs (s : State) : Scope → List Hdr
  | .axis _ => []
  | .bank b => (List.finRange 12).map fun j => s.axisHdr (axisOf b j)
  | .module => (List.finRange 96).map s.axisHdr

/-- Network time has been set from a source since Kindling. -/
def State.timeValid (s : State) : Bool := !s.netw.servo.unset

/-- The FAULT item of a cause detected now. -/
def State.item (s : State) (source cause sub : Nat) (sc : Scope) (cls : Nat) : FaultItem :=
  ⟨source, cause, sub, sc, s.net, s.scopeHdr sc, cls, s.scopeHdrs sc, s.timeValid⟩

/-- The header of an item on an axis that it reaches (R302). -/
def FaultItem.hdrOn (it : FaultItem) (a : AxisId) : Hdr :=
  match it.scope with
  | .axis _ => it.hdr
  | .bank _ => it.hdrs.getD (locOf a).val it.hdr
  | .module => it.hdrs.getD a.val it.hdr

/-- Put a FAULT item on the Flue (R291) (DEDUCED, log 34). -/
def State.raiseItem (s : State) (it : FaultItem) : State :=
  let axis := match it.scope with | .axis a => a.val | _ => 127
  let waits := s.flue.any fun i => i.source == it.source
  ({ s with
    flue := s.flue ++ [it]
    flueSince := Vector.ofFn fun i => if !waits && i.val == it.source then s.tb else s.flueSince.get i }).trace
      ⟨it.stamp, it.hdr, axis, 6, false, List.replicate 16 0⟩

/-- A cause of any scope, at a class. -/
def State.raiseAt (s : State) (source cause sub : Nat) (sc : Scope) (cls : Nat) : State :=
  s.raiseItem (s.item source cause sub sc cls)

/-- A cause of any scope, at the class assigned to it now (R294). -/
def State.raiseSc (s : State) (source cause : Nat) (sc : Scope) : State := s.raiseAt source cause 0 sc (s.causeClass cause)

/-- A cause against an axis, at the class assigned to it now. -/
def State.raiseAx (s : State) (source cause sub : Nat) (a : AxisId) : State :=
  s.raiseAt source cause sub (.axis a) (s.causeClass cause)

/-- A cause of a bank (R289). -/
def State.raiseBank (s : State) (cause : Nat) (b : BankId) : State := s.raiseSc b.val cause (.bank b)

/-- A cause against the module. -/
def State.raiseMod (s : State) (source cause : Nat) : State := s.raiseSc source cause .module

/-- A cause that its rule records at C0, whatever class is assigned to it (DEDUCED, log 35). -/
def State.raiseC0 (s : State) (source cause : Nat) (sc : Scope) : State := s.raiseAt source cause 0 sc 0

end Sys2Proof.Machine
end

