-- ==== Sys2Proof/Machine/Time.lean ====
section
/-! DEFINITION. The passing of time (R35, R352, R367): network time, the timebase, and what is clocked. -/

namespace Sys2Proof.Machine

/-- Parts of a tick in which network time is kept: 1/(4096 · 10^9), so that an RC cycle of RCPER/256 fine ticks and a
PLL cycle corrected in parts per 10^9 are both whole numbers of them. -/
def netUnit : Nat := 4096000000000

/-- The clocked logic runs on the PLL (CLK.STAT.SRC). -/
def State.onPll (s : State) : Bool := s.bit Reg.clkStat 0

/-- A clock runs: the Hearth RC while VIN_L is present, in PL0 with GATE_DEEP.HRC (R367, R369, Table 17-4). -/
def State.clocked (s : State) : Bool :=
  s.hearth.onMain && match s.pwr.phase with
  | .unpowered => false
  | .pl0 => s.bit Reg.clkGateDeep 1
  | _ => true

/-- The time after `n` cycles of the clock in use (R352, R367). -/
def State.pass (s : State) (n : Nat) : State :=
  if !s.clocked then s
  else if s.onPll then
    let v := s.netw.servo
    let used := min v.phase.natAbs (n * 50000)
    let units := s.netFrac + 4096 * ((n : Int) * (1000000000 + v.rate) + v.phase.sign * used).toNat
    { s with
      net := s.net + units / netUnit
      netFrac := units % netUnit
      tb := s.tb + n
      netw := { s.netw with servo := { v with phase := v.phase - v.phase.sign * used } } }
  else
    let per := s.fld Reg.clkRcper 0 24
    let units := s.netFrac + n * per * 1000000000
    let sub := s.tbFrac + n * per
    { s with net := s.net + units / netUnit, netFrac := units % netUnit, tb := s.tb + sub / 4096, tbFrac := sub % 4096 }

/-- What every command does first: `dt` cycles pass (log 1), and what the last step sent has left the module. -/
def State.advance (s : State) (dt : Nat) : State :=
  let s := s.pass dt
  { s with hostOut := [], hostStatus := 0, hostDummy := 0, netw := { s.netw with sent := [], ptpSent := [] } }

/-- Network time in fine ticks. -/
def State.fine (s : State) : Nat := s.net * 16 + s.netFrac * 16 / netUnit

/-- The timebase in fine ticks. -/
def State.tbFine (s : State) : Nat := s.tb * 16 + s.tbFrac * 16 / 4096

/-- Where an output due at `t` fine ticks changes: there on the PLL, at the first RC edge from there on while the module
runs on the RC (R367). -/
def State.outAt (s : State) (t : Nat) : Nat :=
  if s.onPll then t
  else
    let now : Int := s.net * netUnit + s.netFrac
    let per : Int := (s.fld Reg.clkRcper 0 24 : Int) * 1000000000
    let edge := now - (now - (t : Int) * netUnit / 16) / per * per
    (edge * 16 / netUnit).toNat

/-- The level in force (R390). -/
def State.level (s : State) : Nat := s.fld Reg.pwrLevel 0 2

/-- The figures of PL2 apply: PL2, and from the start to the end of a change between PL2 and PL3 (R393). -/
def State.slowLevel (s : State) : Bool :=
  s.level == 2 || (match s.pwr.change with
    | some c => (s.level == 3 && c.target == 2) || (s.level == 2 && c.target == 3)
    | none => false)

/-- Planning lead in ticks (R31): 4 µs at PL3, 8 µs at PL2. -/
def State.lead (s : State) : Nat := if s.slowLevel then 3200 else 1600

/-- The level whose gating register is in force: in a change, that of the new level once VCORE allows it (R371, R392). -/
def State.clockLevel (s : State) : Nat :=
  match s.pwr.change with
  | some c => if c.stage == .vcore || c.target == 0 then s.level else c.target
  | none => s.level

/-- Whether subsystem `i` of the map of R369 is clocked by the register in force. -/
def State.gateOn (s : State) (i : Nat) : Bool :=
  match s.pwr.phase with
  | .running => if s.clockLevel ≤ 1 then s.bit Reg.clkGateSleep i else s.bit Reg.clkGateRun i
  | .kindling => true
  | _ => false

/-- The subsystem that acts. -/
def GateAct.unit : GateAct → Nat
  | .soft _ => 3
  | .table .. => 5
  | .obs _ => 8
  | .trigger _ | .chan .. | .slot .. | .echo _ => 9

/-- A write makes a subsystem act: now, or once it is clocked (R369) (DEDUCED, log 65). -/
def State.whenClocked (s : State) (g : GateAct) (f : State → State) : State :=
  if s.gateOn g.unit then f s else { s with deferred := s.deferred ++ [g] }

/-- The module has ended Kindling and runs. -/
def State.up (s : State) : Bool := s.pwr.phase == PwrPhase.running || s.pwr.phase == PwrPhase.entering

/-- CMD takes nothing: nRESET is low, or the module is in PL0 or shuts down (R380, R396, R398). -/
def State.resting (s : State) : Bool := !s.up && s.pwr.phase != PwrPhase.kindling

/-- Whether a port takes packets and writes (R369, R380, R387). -/
def State.portOpen (s : State) (p : Port) : Bool :=
  match p with
  | .host => s.up && s.gateOn 0
  | .a => s.up && s.gateOn 1
  | .b => s.up && s.gateOn 2
  | .boot => s.pwr.phase == PwrPhase.kindling

/-! ## Keyed writes that are pending (R322) -/

/-- A port as an index of its pending keyed write. -/
def portIx (p : Port) : Fin 4 := match p with | .host => 0 | .a => 1 | .b => 2 | .boot => 3

def State.setPend (s : State) (p : Port) (x : Option KeyedPend) : State := { s with keyed := s.keyed.set (portIx p) x }

/-- A cancellation is recorded (R322). -/
def State.keyFail (s : State) (p : Port) (cause : Nat) : State :=
  let s := s.flag Reg.cmdKeystat 0
  let s := (s.setFld Reg.cmdKeystat 1 2 cause).setFld Reg.cmdKeystat 4 2 (portId p)
  s.bump Reg.cmdKeystat 8 8

/-- The pending keyed write has passed its limit of 256 ticks. -/
def KeyedPend.late (x : KeyedPend) (now : Nat) : Bool := decide (x.at_ + 256 < now)

/-- The limit of a pending keyed write passes: CAUSE 3, once (R322). -/
def State.expire (s : State) (p : Port) : State :=
  match s.keyed.get (portIx p) with
  | some x => if !x.expired && x.late s.tb then (s.keyFail p 3).setPend p (some { x with expired := true }) else s
  | none => s

/-- Any other write of the port cancels its pending keyed write with CAUSE 2; nothing more of one that has expired. -/
def State.cancel (s : State) (p : Port) : State :=
  let s := s.expire p
  match s.keyed.get (portIx p) with
  | some x => (if x.expired then s else s.keyFail p 2).setPend p none
  | none => s

/-- A port's write of a register that is not keyed: nothing while the module is locked; it cancels the port's pending
keyed write (Table 13-2). -/
def State.portWrite (s : State) (p : Port) (f : State → State) : State :=
  if s.portOpen p && !s.locked then f (s.cancel p) else s

/-- The largest multiple of `p` that is at most `t`. -/
def gridAt (p t : Nat) : Nat := t / p * p

/-- The extension of a short stamp to 64 bits (R63). -/
def extend (now : Nat) (stamp : Nat) : Nat :=
  let m := 2 ^ 40
  let base := now / m * m + stamp
  if base + m / 2 ≤ now then base + m
  else if now + m / 2 < base ∧ m ≤ base then base - m
  else base

end Sys2Proof.Machine
end

