-- ==== Sys2Proof/Machine/Traj.lean ====
section
/-! DEFINITION. The commanded trajectory: a segment's cubic (R87) and the position and velocity in force. -/

namespace Sys2Proof.Machine

/-- Position and velocity of a segment `t` ticks from its start (R87). A segment cut by a splice keeps its cubic. -/
def Seg.eval (g : Seg) (t : Rat) : Rat × Rat :=
  if g.full = 0 then (g.p0, g.v0)
  else
    let ft : Rat := (g.full : Rat) / tickHz
    let x := t / tickHz
    let d := g.p1 - g.p0
    let c2 := (3 * d - (2 * g.v0 + g.v1) * ft) / (ft * ft)
    let c3 := ((g.v0 + g.v1) * ft - 2 * d) / (ft * ft * ft)
    (g.p0 + g.v0 * x + c2 * x * x + c3 * x * x * x, g.v0 + 2 * c2 * x + 3 * c3 * x * x)

/-- Its velocity is not identically 0 (R153). -/
def Seg.moving (g : Seg) : Bool := !(decide (g.p0 = g.p1) && decide (g.v0 = 0) && decide (g.v1 = 0))

def Seg.endTick (g : Seg) : Nat := g.start + g.dur

/-- State at the end of a segment. -/
def Seg.endState (g : Seg) : Rat × Rat := if g.dur = g.full then (g.p1, g.v1) else g.eval g.dur

/-- Position and velocity along a chain of segments at a tick; before the chain, and in a wait, at rest. -/
def trajOf (pos : Rat) : List Seg → Nat → Rat × Rat
  | [], _ => (pos, 0)
  | g :: r, t =>
    if t < g.start then (pos, 0)
    else if t ≤ g.endTick then g.eval ((t - g.start : Nat) : Rat)
    else trajOf g.endState.1 r t

/-- Commanded position and velocity at a tick of network time. -/
def Pro.at (p : Pro) (t : Nat) : Rat × Rat := trajOf p.pos p.segs t

/-- A pulse of a tick counts (R135, R137). -/
def Follow.counts (f : Follow) (tick : Nat) : Bool :=
  decide (f.since ≤ tick) && (f.counting || f.until_.any fun t => decide (tick < t))

/-- The axis follows pulses, or still emits the microsteps of a following that ends (R135, R137). -/
def Axis.follows (x : Axis) : Bool := x.st == AxState.following || x.stp.follow.isSome

/-- Commanded position and velocity of an axis now; while it follows, Q and 0 (R135). -/
def State.traj (s : State) (a : AxisId) : Rat × Rat :=
  let x := s.ax a
  if x.follows then ((x.stp.qRel : Rat), 0) else x.pro.at s.net

/-- No segment of non-zero velocity is in force or committed: the axis's commanded position is at rest. -/
def Pro.atRestNow (p : Pro) (t : Nat) : Bool := p.segs.isEmpty && decide ((p.at t).2 = 0)

/-- v_cmd of R204: CVEL, and in FOLLOWING the speed of the last released edge with its direction. -/
def State.vcmd (s : State) (a : AxisId) : Rat :=
  let x := s.ax a
  if x.follows then (if x.chp.edgeDir then x.chp.edgeSpeed else -x.chp.edgeSpeed)
  else (x.pro.at s.net).2

end Sys2Proof.Machine
end

