-- ==== Sys2Proof/Machine/Observer.lean ====
section
/-! DEFINITION. The load-angle observer (chapter 09): the update at a sample, the warning, the stall, resistance
tracking and the frozen-feedback check. -/

namespace Sys2Proof.Machine

/-- An observer whose filters, counters and window are cleared (R224, Table 9-2). -/
def Obs.cleared (o : Obs) : Obs :=
  { o with
    prev := none, dnSum := #v[0, 0], ef := #v[0, 0], cf := #v[0, 0], valid := false, good := 0, collapse := 0
    wasValid := false, warning := false, low := 0, stallDue := none, trackN := 0, trackV := 0, trackI := 0
    trackDue := false, window := none, dObs := 0, windowDue := none }

/-- OBS parameters in force. -/
structure ObsCfg where
  en : Bool
  fsh : Nat
  stcnt : Nat
  stallen : Bool
  fzen : Bool
  rtrack : Bool
  rpu : Int
  lt : Int
  ke : Nat
  von : Nat
  wmarg : Int
  smarg : Int
  deriving DecidableEq, Repr

def State.obsCfg (s : State) (a : AxisId) : ObsCfg :=
  let c := s.reg (obsPar a 1)
  let n := c.fld 4 4
  { en := c.bit 0, fsh := c.fld 1 3, stcnt := if n = 0 then 16 else n, stallen := c.bit 8, fzen := c.bit 9
    rtrack := c.bit 10, rpu := s.fld (obsPar a 2) 0 16, lt := s.fld (obsPar a 3) 0 24, ke := s.fld (obsPar a 4) 0 16
    von := s.fld (obsPar a 5) 0 32, wmarg := s.fld (obsPar a 6) 0 15, smarg := s.fld (obsPar a 6) 16 15 }

/-- In the frame of the current table (R222): with DIRINV the coil-B quantities are negated. -/
def frameB (inv : Bool) (v : Vector Int 2) : Vector Int 2 := if inv then v.set 1 (-(v.get 1)) else v

/-- Saturate an extended filter state to Q15 (R224). -/
def satExt (x : Int) : Int := max (-(2 ^ 31)) (min (2 ^ 31 - 1) x)

/-- One coil of the estimate (The estimate): applied voltage, mean current, and the filters' new values. -/
def estimate (c : ObsCfg) (vb : Int) (dn i j ef cf dt : Int) : Int × Int × Int × Int :=
  let im := (i + j) / 2
  let v := dn * vb / dt
  let e := v - c.rpu * im / 32768 - c.lt * (i - j) / dt
  (v, im, satExt (ef + (e * 65536 - ef) / 2 ^ c.fsh), satExt (cf + (im * 65536 - cf) / 2 ^ c.fsh))

/-- Whether the conditions of resistance tracking hold (R229). -/
def State.mayTrack (s : State) (a : AxisId) : Bool :=
  let x := s.ax a
  (s.obsCfg a).rtrack && x.st == AxState.holding && x.pro.segs.isEmpty && decide (4000000 ≤ s.tb - x.obs.lastEdge)

/-- Resistance tracking at an update (R229). -/
def trackStep (s : State) (a : AxisId) (v i : Vector Int 2) (o : Obs) : Obs :=
  let amp := (s.ax a).chp.amp
  if o.trackDue then o
  else if !s.mayTrack a then { o with trackN := 0, trackV := 0, trackI := 0 }
  else
    let o := if o.trackN = 0 ∨ o.trackAmp ≠ amp then { o with trackN := 0, trackV := 0, trackI := 0, trackAmp := amp } else o
    let sv := v.get 0 * (i.get 0).sign + v.get 1 * (i.get 1).sign
    let si := (i.get 0).natAbs + (i.get 1).natAbs
    let n := o.trackN + 1
    { o with trackN := n, trackV := o.trackV + sv, trackI := o.trackI + (si : Nat), trackDue := n == 256 }

/-- What an update finds for the margin: warning and stall counting (R230, R231). -/
def warnStep (c : ObsCfg) (o : Obs) : Obs × Bool :=
  if !o.valid then ({ o with low := 0 }, false)
  else
    let warn := decide (o.margin ≤ c.wmarg)
    let newExc := warn && !o.excursion
    let exc := if warn then true else if c.wmarg + 1024 < o.margin then false else o.excursion
    let armed := o.armed || !warn
    let low := if armed && decide (o.margin ≤ c.smarg) then o.low + 1 else 0
    let due := if armed && decide (c.stcnt ≤ low) then some 5 else o.stallDue
    ({ o with warning := warn, excursion := exc, armed := armed, low := low, stallDue := due }, newExc)

/-- The observer's update at a sample (R221 to R231). A sample with an unsettled coil in voltage mode makes none. -/
def State.observe (s : State) (a : AxisId) (m : Sample) : State :=
  let x := s.ax a
  let o := x.obs
  let c := s.obsCfg a
  let inv := s.bit (Reg.chpCfg a) 13
  if !(x.pwm.run && c.en) then s
  else
    let dn := frameB inv (Vector.ofFn fun k => o.dnSum.get k + m.dn.get k)
    let skip := (m.volt.get 0 && !m.settled.get 0) || (m.volt.get 1 && !m.settled.get 1)
    if skip then s.setObs a { o with dnSum := Vector.ofFn fun k => o.dnSum.get k + m.dn.get k }
    else
      match o.prev with
      | none => s.setObs a { o with prev := some m, dnSum := #v[0, 0] }
      | some j =>
        let dt : Int := (m.stamp : Int) - j.stamp
        if dt ≤ 0 then s.setObs a { o with prev := some m, dnSum := #v[0, 0] }
        else
          let vb : Int := ((m.vbus : Int) + j.vbus) / 2
          let ik := frameB inv m.i
          let ij := frameB inv j.i
          let ra := estimate c vb (dn.get 0) (ik.get 0) (ij.get 0) (o.ef.get 0) (o.cf.get 0) dt
          let rb := estimate c vb (dn.get 1) (ik.get 1) (ij.get 1) (o.ef.get 1) (o.cf.get 1) dt
          let ea := ra.2.2.1
          let eb := rb.2.2.1
          let vabs := absR m.vcmd
          let dir := sgn m.vcmd
          let ampE := min 32767 (isqrt ((ea * ea + eb * eb).toNat / 2 ^ 32))
          let ampX := ((c.ke : Rat) * vabs / 2 ^ 20).floor.toNat
          let thI := ang ra.2.2.2 rb.2.2.2
          let thR := (ang ea eb - 1024 * dir) % 4096
          let dl := wrap12 (thI - thR)
          let mg := sat15 (32768 - 32 * dl * dir)
          let speed := decide (((if o.valid then 7 * c.von / 8 else c.von : Nat) : Rat) ≤ vabs)
          let emf := decide (ampX / 4 ≤ ampE)
          let base := decide (c.ke ≠ 0) && speed && decide (vabs * dt < 1024 * 400000000)
          let good := if base && emf then o.good + 1 else 0
          let settle := 4 * 2 ^ c.fsh
          let valid := base && emf && (o.valid || decide (settle ≤ good))
          let col := if base && !emf then (if o.armed then o.collapse + 1 else o.collapse) else 0
          let was := if speed then o.wasValid || valid else false
          let limit := if was then c.stcnt else 4 * settle + c.stcnt
          let colHit := base && !emf && o.armed && decide (limit ≤ col)
          let dObs := if valid && o.valid && o.window.isSome then o.dObs + wrap12 (thR - o.thR) else o.dObs
          let o' : Obs := { o with
            prev := some m, dnSum := #v[0, 0], ef := #v[ea, eb], cf := #v[ra.2.2.2, rb.2.2.2], valid := valid
            good := good, collapse := if colHit then 0 else col, wasValid := was
            delta := if valid then dl else o.delta, margin := if valid then mg else o.margin
            thR := if valid then thR else o.thR, thI := thI, ampE := ampE, ampX := ampX
            stallDue := if colHit then some 6 else o.stallDue
            window := if valid then o.window else none, dObs := if valid then dObs else 0 }
          let (o', exc) := warnStep c o'
          let o' := trackStep s a #v[ra.1, rb.1] #v[ra.2.1, rb.2.1] o'
          let s := s.setObs a o'
          let s := if colHit then s.flag (obsPar a 0) 2 else s
          let s := if o'.valid && o'.warning then (s.flag (obsPar a 0) 0).bump (obsPar a 0) 16 8 else s
          if exc then s.raiseC0 15 0x24 (.axis a) else s

/-- The frozen-feedback window at the outer evaluation of a strobe (R233): one that closes leaves D_obs and D_fb to be
judged, and the next one opens. -/
def State.fzWindow (s : State) (a : AxisId) (strobe : Nat) (pMeas : Int) (encoder : Bool) : State :=
  let o := (s.ax a).obs
  let c := s.obsCfg a
  if !(c.en && c.fzen && encoder) then s.setObs a { o with window := none, dObs := 0 }
  else if !o.valid then s
  else
    let fresh := { o with window := some strobe, dObs := 0, pOpen := pMeas }
    match o.window with
    | none => s.setObs a fresh
    | some w =>
      let win := s.fld (obsPar a 7) 16 8
      if w + (if win = 0 then 1 else win) * 400000 ≤ strobe then
        s.setObs a { fresh with windowDue := some (o.dObs, pMeas - o.pOpen) }
      else s

/-- A new motion command taken for the axis re-arms the stall detection (R231). -/
def State.rearm (s : State) (a : AxisId) : State := s.setObs a { (s.ax a).obs with armed := true }

/-- STALL (R231): flag, count and, with STALLEN, the cause. -/
def execStall (dt : Nat) (a : AxisId) (s : State) : Res :=
  .next <|
    let s := s.advance dt
    let o := (s.ax a).obs
    match o.stallDue with
    | none => s
    | some sub =>
      let s := s.setObs a { o with stallDue := none, armed := false, low := 0 }
      let s := (s.flag (obsPar a 0) 1).bump (obsPar a 0) 8 8
      if (s.obsCfg a).stallen then s.raiseAx 15 0x15 sub a else s

/-- RTRACK_DONE (R229): RPU from the sums of 256 updates; nothing where software has written RPU in this window. -/
def execRtrackDone (dt : Nat) (a : AxisId) (s : State) : Res :=
  .next <|
    let s := s.advance dt
    let o := (s.ax a).obs
    if !o.trackDue || !s.gateOn 8 then s
    else
      let s := s.setObs a { o with trackDue := false, trackN := 0, trackV := 0, trackI := 0 }
      if 256 * 4096 ≤ o.trackI ∧ s.mayTrack a ∧ s.justWritten (obsPar a 2) = false then
        let r := max 0 (min 65535 (32768 * o.trackV / o.trackI))
        let s := s.setObs a { (s.ax a).obs with tracked := some (s.tb, s.bit (obsPar a 0) 4) }
        let old := s.fld (obsPar a 2) 0 16
        ((s.setFld (obsPar a 2) 0 16 r.toNat).mark (obsPar a 2) 0 16 (.result old)).flag (obsPar a 0) 4
      else s

/-- A software write of RPU discards a tracking result written in its window, with its flag (R229, Table 9-2). -/
def State.writeRpu (s : State) (a : AxisId) (v : Word) : State :=
  let o := (s.ax a).obs
  let s := s.plainWrite (obsPar a 2) v
  match o.tracked with
  | some (t, false) => if t = s.tb then s.setBit (obsPar a 0) 4 false else s
  | _ => s

/-- FROZEN_WINDOW_CLOSE (R233): the window that has closed is judged. -/
def execFrozenWindowClose (dt : Nat) (a : AxisId) (s : State) : Res :=
  .next <|
    let s := s.advance dt
    let o := (s.ax a).obs
    match o.windowDue with
    | none => s
    | some (dObs, dFb) =>
      let dist := s.fld (obsPar a 7) 0 16
      let frozen := decide (dist ≤ dObs.natAbs) && decide (8 * dFb.natAbs < dObs.natAbs)
      let s := s.setObs a { o with windowDue := none }
      if frozen then (s.flag (obsPar a 0) 3).raiseAx 15 0x16 0 a else s

end Sys2Proof.Machine
end

