-- ==== Sys2Proof/Machine/Loop.lean ====
section
/-! DEFINITION. The count and speed of a feedback channel (chapter 10) and the loop engine (chapter 08): the evaluation of
a loop, the outer loops and their selection, the current loops, freezes and the mode configuration. -/

namespace Sys2Proof.Machine

/-! ## What a feedback channel answers -/

def State.chan (s : State) (c : ChanId) : Chan := s.chans.get c

/-- The precision slot that serves a channel (R251). -/
def State.slotOf (s : State) (c : ChanId) : Option (Fin 8) :=
  (List.finRange 8).find? fun k =>
    let w := s.reg (fbgPar (0x40 + k.val))
    w.bit 7 && axisNum (w.fld 0 7) == c

/-- A net sum of events over a span of fine ticks, as Q32.16 counts/s (R249). -/
def speedOver (c : ChanId) (n : Int) (span : Nat) : Int :=
  if span = 0 then Config.zeroSpanSpeed n c.val
  else roundAway (((n * 65536 * 400000000 * 16 : Int) : Rat) / (span : Rat))

/-- How the speed of a channel is formed at an instant, in fine ticks. -/
def Chan.method (x : Chan) (t : Nat) : SpeedRef := (x.spds.find? fun r => decide (r.since ≤ t)).getD ⟨0, none, 0, 0⟩

/-- A change of how the speed of a channel is formed. -/
def Chan.change (x : Chan) (f : SpeedRef → SpeedRef) : Chan :=
  { x with spds := (f (x.spds.headD ⟨0, none, 0, 0⟩) :: x.spds).take 16 }

/-- The speed of a channel at an instant, in fine ticks: formed as it was then (R249 to R252, R254). -/
def State.speedAt (s : State) (c : ChanId) (now : Nat) : Int :=
  let x := s.chan c
  let m := x.method now
  match m.slot with
  | none => m.speed
  | some k =>
    let past := x.hist.filter fun e => decide (e.1 ≤ now)
    let j := min (past.filter fun e => decide (m.cleared < e.1)).length (k + 1)
    if j < 2 then 0
    else
      let last := past.getD 0 (0, 0)
      let first := past.getD (j - 1) last
      speedOver c (last.2 - first.2) (max (last.1 - first.1) (now - last.1))

/-- The count that includes every event stamped at or before an instant, in fine ticks (R247, R254). -/
def Chan.countAt (x : Chan) (t : Nat) : Int :=
  match x.counts.find? fun e => decide (e.1 ≤ t) with
  | some e => e.2
  | none => if x.counts.length < 256 then 0 else (x.counts.getLast?.map Prod.snd).getD 0

/-! ## Parameters -/

/-- LOOP parameters of an axis in force. -/
structure LoopCfg where
  mode : Nat
  icen : Bool
  tqen : Bool
  rgen : Bool
  mon : Bool
  odiv : Nat
  pesh : Nat
  vsh : Nat
  fbch : Nat
  fbn : Int
  fbd : Nat
  deriving DecidableEq, Repr

/-- MODECFG, FBCFG and FBRATIO (Table 8-7). -/
def State.loopCfg (s : State) (a : AxisId) : LoopCfg :=
  let w := s.reg (loopPar a 0)
  let r := s.reg (loopPar a 2)
  let m := w.fld 0 2
  let o := w.fld 8 4
  { mode := if m = 3 then 0 else m, icen := w.bit 2, tqen := w.bit 3, rgen := w.bit 4, mon := w.bit 5
    odiv := if o = 0 then 16 else o, pesh := w.fld 12 4, vsh := w.fld 16 4
    fbch := (axisNum (s.fld (loopPar a 1) 0 7)).val, fbn := r.sfld 16 16, fbd := r.fld 0 16 }

/-- The axis uses its feedback channel: ENCODER mode or MON = 1 (R208). -/
def LoopCfg.encoder (c : LoopCfg) : Bool := c.mode == 2 || c.mon

/-- The state in which the outer loops and the supervisor can run (R194, R210). -/
def AxState.driven : AxState → Bool
  | .holding | .moving | .following | .stopping => true
  | _ => false

/-- R151 case 3: closed mode and a driven axis; a release that has begun ends it (R158). -/
def State.closedMode (s : State) (a : AxisId) : Bool :=
  (s.loopCfg a).mode != 0 && (s.ax a).st.driven && (s.ax a).energised && (s.ax a).chp.ampst != AmpSt.release

def LoopAxis.unit (l : LoopAxis) (i : Fin 7) : LoopUnit := l.units.get i

def LoopAxis.setUnit (l : LoopAxis) (i : Fin 7) (u : LoopUnit) : LoopAxis := { l with units := l.units.set i u }

/-- Gain interpolation between table entries (R200). -/
def State.gain (s : State) (a : AxisId) (base : Nat) (e : Int) : Int :=
  let m := e.natAbs
  let k := min 31 (m / 1024)
  let f : Int := (m % 1024 : Nat)
  let g (i : Nat) : Int := (s.fld (loopPar a (base + i)) 0 15 : Nat)
  if k = 31 then g 31 else g k + ((g (k + 1) - g k) * f + 512) / 1024

/-- OMIN and OMAX of a loop (R201). -/
def State.olim (s : State) (a : AxisId) (l : Fin 7) : Int × Int :=
  let w := s.reg (loopPar a (0x101 + 0x10 * l.val))
  let hi := w.sfld 16 16
  let lo := w.sfld 0 16
  (if hi < lo then hi else lo, hi)

/-- One evaluation of loop `l` with error `e` (R201); a frozen loop uses up one of its evaluations (R218). -/
def State.evalLoop (s : State) (a : AxisId) (l : Fin 7) (e : Int) (integrating : Bool) (u : LoopUnit) : LoopUnit :=
  if 0 < u.frz then { u with frz := u.frz - 1 }
  else
    let sh := s.reg (loopPar a (0x100 + 0x10 * l.val))
    let gp := s.gain a (0x200 + 0x40 * l.val) e
    let gi := s.gain a (0x220 + 0x40 * l.val) e
    let lim := s.olim a l
    let p := satAcc (e * gp * 2 ^ (sh.fld 0 4))
    let o := round15 (satAcc (u.acc + p))
    let sat := decide (o < lim.1) || decide (lim.2 < o)
    let o := min (max o lim.1) lim.2
    let acc := if !sat && integrating then satAcc (u.acc + satAcc (e * gi * 2 ^ (sh.fld 4 4))) else u.acc
    { u with acc := acc, out := o, err := e, sat := sat }

/-- The regulating candidate: SPEED in ENCODER mode, ANGLE in ANGLE mode. -/
def regulating (mode : Nat) : Nat := if mode = 2 then 3 else 4

/-- CPOS: the commanded position in whole pu (R204, log 10). -/
def State.cposNow (s : State) (a : AxisId) : Int := shown (s.traj a).1

/-- The scaled count of R208, without OFS. -/
def scaled (c : LoopCfg) (u : Int) : Int := if c.fbd = 0 then 0 else u * c.fbn / c.fbd

/-- The commanded position in whole pu as the loops take it: the nearest, halves away from zero (R204). -/
def State.cposAt (s : State) (a : AxisId) (t : Nat) : Int :=
  let x := s.ax a
  if x.follows then x.stp.qRel else roundAway (x.pro.at t).1

/-- v_cmd of R204 at a tick: CVEL, and in FOLLOWING the speed of the last released edge with its direction. -/
def State.vcmdAt (s : State) (a : AxisId) (t : Nat) : Rat :=
  let x := s.ax a
  if x.follows then s.vcmd a else (x.pro.at t).2

/-- The change of a channel's count since the last one taken: in ROTARY mode in (−W/2, W/2] (R208). -/
def State.countDelta (s : State) (ch : ChanId) (old new : Int) : Int :=
  if (s.reg (fbkPar ch 0)).bit 3 then
    let w : Int := (max 2 (min 2147483648 (s.reg (fbkPar ch 1)).toNat) : Nat)
    let r := (new - old) % w
    if w < 2 * r then r - w else r
  else new - old

/-- The unwrapped count u takes the channel's count as it stands (R208). -/
def State.unwrapTo (s : State) (ch : ChanId) (n : Int) (l : LoopAxis) : LoopAxis :=
  { l with u := satS 64 (l.u + s.countDelta ch l.lastCount n), lastCount := n }

/-- Table 8-4: the presets at a start of the outer loops; in ENCODER mode the measured position becomes cpos, with the count
`n` that goes with it (R206). -/
def State.presetOuter (s : State) (a : AxisId) (amp : Nat) (cpos n : Int) (l : LoopAxis) : LoopAxis :=
  let c := s.loopCfg a
  let u0 (acc : Int) : LoopUnit := ⟨acc, 0, 0, false, 0⟩
  let ab : Int := (s.fld (loopPar a 5) 0 15 : Nat)
  let tq : Int := (s.fld (loopPar a 0x155) 0 15 : Nat)
  let keep (i : Fin 7) (acc : Int) (l : LoopAxis) : LoopAxis := l.setUnit i { u0 acc with frz := (l.unit i).frz }
  let l := if c.mode = 2 then s.unwrapTo (axisNum c.fbch) n l else l
  let l := keep 6 (32767 * 32768) (keep 5 (tq * 32768) (keep 4 (ab * 32768) (keep 3 ((amp : Int) * 32768) (keep 2 0 l))))
  { l with running := true, presetDue := false, winner := regulating c.mode, dir := 1
           tqOn := c.tqen, rgOn := c.rgen, feOver := false, feSince := none, feNoted := false
           ofs := if c.mode = 2 then cpos - scaled c l.u else l.ofs }

/-- The outer loops start: the axis becomes HOLDING in a closed mode, or a mode change takes effect (R206). The first
evaluation falls in the first period after that: a sample on its way is not evaluated (R195). Until then the demand is the
AMP in force at the start: the spec does not say which it is (DESIGN CHOICE, log 64). -/
def State.startOuter (s : State) (a : AxisId) : State :=
  let x := s.ax a
  let l := s.presetOuter a x.chp.amp (s.cposAt a s.net) (s.chan (axisNum (s.loopCfg a).fbch)).count x.loop
  s.modAx a fun x => { x with
    loop := { l with periods := 0, selected := x.chp.amp, blind := false }
    sample := x.sample.map fun m => { m with outer := false } }

/-- The supervisor's state is cleared. -/
def LoopAxis.calm (l : LoopAxis) : LoopAxis := { l with feOver := false, feSince := none, feNoted := false }

/-- Every FREEZE bit is cleared with its count (R218). -/
def State.clearFreeze (s : State) (a : AxisId) : State :=
  let l := (s.ax a).loop
  ((s.setFld (Reg.loopFreeze a) 0 7 0).mark (Reg.loopFreeze a) 0 7 .clear).setLoop a { l with units := l.units.map fun u => { u with frz := 0 } }

/-- The outer loops stop (R206): accumulators and outputs of loops 2 to 6 are cleared, and every FREEZE bit (R218). Their
SAT bits and last errors are cleared as well, which R206 does not say (DESIGN CHOICE, log 64). -/
def State.stopOuter (s : State) (a : AxisId) : State :=
  let s := s.clearFreeze a
  let l := (s.ax a).loop
  let z : LoopUnit := ⟨0, 0, 0, false, 0⟩
  let l := ((((l.setUnit 2 z).setUnit 3 z).setUnit 4 z).setUnit 5 z).setUnit 6 z
  s.setLoop a { l.calm with
    running := false, presetDue := false, winner := 0, blind := false, selected := 0, periods := 0 }

/-- A kill-mask bit stops every loop and clears every FREEZE bit (R206, R218). -/
def State.stopLoops (s : State) (a : AxisId) : State :=
  let s := s.stopOuter a
  let z : LoopUnit := ⟨0, 0, 0, false, 0⟩
  let l := (s.ax a).loop
  s.setLoop a { (l.setUnit 0 z).setUnit 1 z with unset := #v[0, 0], blindNoted := #v[false, false] }

/-- The supervisor runs (R210): in ENCODER mode with the outer loops, in the other modes with MON = 1 on a driven axis;
never with FETIME = 0. -/
def State.supervised (s : State) (a : AxisId) : Bool :=
  let c := s.loopCfg a
  let x := s.ax a
  s.fld (loopPar a 4) 0 16 != 0 && (if c.mode == 2 then x.loop.running else c.mon && x.st.driven)

/-- Start or stop the outer loops where R151 case 3 has begun or ceased to apply, and the supervisor with it. -/
def State.syncLoops (s : State) (a : AxisId) : State :=
  let l := (s.ax a).loop
  let s := if s.closedMode a then (if l.running then s else s.startOuter a)
    else if l.running then s.stopOuter a else s
  if s.supervised a then s else s.setLoop a (s.ax a).loop.calm

/-- dir of R203. -/
def nextDir (st : AxState) (mode : Nat) (edgeDir : Bool) (vcmd : Rat) (fErr : Int) (valid : Bool) (delta prev : Int) : Int :=
  if st = .following then (if edgeDir then 1 else -1)
  else if vcmd ≠ 0 then sgn vcmd
  else if mode = 2 ∧ fErr ≠ 0 then fErr.sign
  else if mode = 1 ∧ valid ∧ delta ≠ 0 then delta.sign
  else prev

/-- The lowest of the enabled candidates, the earlier of equals (R205): demand and loop code. -/
def lowest : List (Nat × Int) → Option (Nat × Int)
  | [] => none
  | c :: r =>
    match lowest r with
    | none => some c
    | some d => if d.2 < c.2 then some d else some c

/-- The measured position and speed at a strobe (R208). -/
def State.measure (s : State) (a : AxisId) (m : Sample) (l : LoopAxis) : LoopAxis :=
  let c := s.loopCfg a
  let l := s.unwrapTo (axisNum c.fbch) m.fbCount l
  let v := if c.fbd = 0 then 0 else roundAway ((m.fbSpeed : Rat) * c.fbn / c.fbd)
  let p := scaled c l.u + l.ofs
  { l with pMeas := p, vMeas := v, fErr := m.cpos - p }

/-- The following-error supervisor at an outer evaluation (R210). -/
def State.supervise (s : State) (a : AxisId) (m : Sample) (l : LoopAxis) : LoopAxis :=
  let fel : Int := ((s.reg (loopPar a 3)).toNat : Nat)
  if (l.fErr.natAbs : Int) ≤ fel then l.calm
  else { l with feOver := true, feSince := some (l.feSince.getD m.stamp) }

/-- FB_STILL at an outer evaluation (R260): every evaluation is looked at, and the cause is recorded only for an axis that
uses the channel. -/
def State.stillCheck (s : State) (a : AxisId) (m : Sample) : State :=
  let x := s.ax a
  let c := s.loopCfg a
  let ch := axisNum c.fbch
  let stv := (s.reg (fbkPar ch 3)).toNat
  let stto := s.fld (fbkPar ch 2) 8 16
  let moving := x.st == AxState.moving || x.st == AxState.following || x.st == AxState.stopping
  if stv = 0 ∨ stto = 0 ∨ !moving ∨ absR m.vcmd < stv then
    s.setLoop a { x.loop with stillSince := none, stillNoted := false }
  else
    let since := x.loop.stillSince.getD m.stamp
    let quiet := match (s.chans.get ch).hist with
      | [] => true
      | (t, _) :: _ => decide (t / 16 + stto * 40000 ≤ m.stamp)
    let hit := c.encoder && quiet && decide (since + stto * 40000 ≤ m.stamp)
    let s := s.setLoop a { x.loop with stillSince := some since, stillNoted := hit }
    if hit && !x.loop.stillNoted then s.raiseAx 16 0x17 0 a else s

/-- The outer loops at a strobe (R203 to R207). -/
def State.outerLoops (s : State) (a : AxisId) (m : Sample) (l : LoopAxis) : LoopAxis :=
  let x := s.ax a
  let c := s.loopCfg a
  let o := x.obs
  let dir := nextDir x.st c.mode x.chp.edgeDir m.vcmd l.fErr o.valid o.delta l.dir
  let prev := l.winner
  let tq : Int := (s.fld (loopPar a 0x155) 0 15 : Nat)
  let l := if c.tqen && !l.tqOn then l.setUnit 5 { l.unit 5 with acc := tq * 32768 } else l
  let l := if c.rgen && !l.rgOn then l.setUnit 6 { l.unit 6 with acc := 32767 * 32768 } else l
  let ab : Int := (s.fld (loopPar a 5) 0 15 : Nat)
  let l := if c.mode = 2 then
      let pos := s.evalLoop a 2 (sat15 (l.fErr * dir * 2 ^ c.pesh)) (!(l.unit 3).sat && prev == 3) (l.unit 2)
      let slip := (((l.vMeas : Rat) / 65536 - m.vcmd) * dir / 2 ^ c.vsh).floor
      let spd := s.evalLoop a 3 (sat15 (pos.out - sat15 slip)) (prev == 3) (l.unit 3)
      { (l.setUnit 2 pos).setUnit 3 spd with blind := false }
    else if o.valid then
      let e := sat15 ((s.fld (loopPar a 0x145) 0 15 : Nat) - o.margin)
      { l.setUnit 4 (s.evalLoop a 4 e (prev == 4) (l.unit 4)) with blind := false }
    else { l.setUnit 4 { l.unit 4 with acc := ab * 32768 } with blind := true }
  let am : Int := (min 32767 (isqrt ((m.i.get 0) ^ 2 + (m.i.get 1) ^ 2).toNat) : Nat)
  let l := if c.tqen then l.setUnit 5 (s.evalLoop a 5 (sat15 (tq - am)) (prev == 5) (l.unit 5)) else l
  let rl : Int := (s.fld (loopPar a 0x165) 0 15 : Nat)
  let l := if c.rgen then l.setUnit 6 (s.evalLoop a 6 (sat15 (rl - m.vbus)) (prev == 6) (l.unit 6)) else l
  let reg : Nat × Int := if c.mode = 2 then (3, (l.unit 3).out) else (4, if l.blind then ab else (l.unit 4).out)
  let cands := [reg] ++ (if c.tqen then [(5, (l.unit 5).out)] else []) ++ (if c.rgen then [(6, (l.unit 6).out)] else [])
  let best := (lowest cands).getD reg
  { l with dir := dir, winner := best.1, selected := best.2, tqOn := c.tqen, rgOn := c.rgen }

/-- An outer evaluation (R195, R204 to R210, R233, R260). -/
def State.outerEval (s : State) (a : AxisId) (m : Sample) : State :=
  let c := s.loopCfg a
  let x := s.ax a
  if !x.st.driven then s
  else
    let l := x.loop
    let l := if l.presetDue && l.running then s.presetOuter a x.chp.amp m.cpos m.fbCount l else l
    let l := if c.encoder then s.measure a m l else { l with lastCount := m.fbCount }
    let l := if l.running then s.outerLoops a m l else l
    let l := if s.supervised a then s.supervise a m l else l.calm
    ((s.setLoop a l).stillCheck a m).fzWindow a m.stamp l.pMeas c.encoder

/-- A sample of a coil in voltage mode shows in UNSET_A or UNSET_B that it is not SETTLED, and counts in the run of such
samples (R212). -/
def State.unsettled (s : State) (a : AxisId) (m : Sample) (k : CoilId) : State :=
  let l := (s.ax a).loop
  if m.settled.get k then s.setLoop a { l with unset := l.unset.set k 0, blindNoted := l.blindNoted.set k false }
  else
    let n := if m.sp.get k = 0 then 0 else l.unset.get k + 1
    (s.flag (Reg.loopWinner a) (16 + k.val)).setLoop a { l with
      unset := l.unset.set k n, blindNoted := if n = 0 then l.blindNoted.set k false else l.blindNoted }

/-- The evaluation of one current loop at a sample (R211): the duty is on its way to PWM. A sample that is not SETTLED
starts none (R212), but for those before the coil's legs switch: Table 6-6 has the loop start with the first of them and
the legs with its duty. Such a sample sets UNSET and is not integrated (R202) (DEDUCED, log 60). -/
def State.icoil (s : State) (a : AxisId) (m : Sample) (k : CoilId) : State :=
  let x := s.ax a
  let lk : Fin 7 := ⟨k.val, by omega⟩
  if !(m.volt.get k && (x.chp.coils.get k).volt && (s.loopCfg a).icen) then s
  else
    let s := s.unsettled a m k
    if !m.settled.get k && (x.chp.coils.get k).bridge == Bridge.pwm then s
    else
      let l := (s.ax a).loop
      let u := s.evalLoop a lk (sat15 (m.sp.get k - m.i.get k)) (m.settled.get k) (l.unit lk)
      let early := if s.slowLevel then 480 else 320
      let s := s.setLoop a (l.setUnit lk u)
      s.setPwm a { x.pwm with duty := x.pwm.duty.set k (some ⟨u.out, m.stamp, m.stamp + early, m.hdr⟩) }

/-- ICOIL_BLIND after 16 unsettled samples in a row (R212). -/
def execIcoilBlind (dt : Nat) (a : AxisId) (c : CoilId) (s : State) : Res :=
  .next <|
    let s := s.advance dt
    let l := (s.ax a).loop
    if 16 ≤ l.unset.get c ∧ l.blindNoted.get c = false then
      (s.setLoop a { l with blindNoted := l.blindNoted.set c true }).raiseC0 14 0x25 (.axis a)
    else s

/-- FOLLOW_ERR when the supervisor's timer reaches FETIME (R210). -/
def execFollowErr (dt : Nat) (a : AxisId) (s : State) : Res :=
  .next <|
    let s := s.advance dt
    let l := (s.ax a).loop
    let lim := s.fld (loopPar a 4) 0 16
    match l.feSince with
    | none => s
    | some t =>
      if s.supervised a ∧ l.feNoted = false ∧ t + lim * 40000 ≤ s.net then
        (s.setLoop a { l with feNoted := true }).raiseAx 14 0x14 0 a
      else s

/-- A write of LOOP.FREEZE (R218): a 1 starts or restarts the count of its loop, a 0 ends the freeze. -/
def State.writeFreeze (s : State) (a : AxisId) (v : Word) : State :=
  let s := s.plainWrite (Reg.loopFreeze a) v
  let n := s.fld (Reg.loopFreeze a) 8 3 + 1
  let l := (s.ax a).loop
  s.setLoop a { l with units := Vector.ofFn fun i => { l.unit i with frz := if s.bit (Reg.loopFreeze a) i.val then n else 0 } }

def execFreezeWrite (dt : Nat) (port : Port) (a : AxisId) (value : Word) (s : State) : Res :=
  .next <|
    let s := s.advance dt
    s.portWrite port fun s => s.writeFreeze a value

/-- FREEZE_END: a count used up clears its FRZ bit (R218). -/
def execFreezeEnd (dt : Nat) (a : AxisId) (loop : Fin 7) (s : State) : Res :=
  .next <|
    let s := s.advance dt
    if ((s.ax a).loop.unit loop).frz = 0 then s.setBit (Reg.loopFreeze a) loop.val false else s

/-- MODE, FBCH and FBRATIO may change: OFF, READY, or HOLDING with nothing committed (R219). -/
def State.modeFree (s : State) (a : AxisId) : Bool :=
  let x := s.ax a
  x.st == AxState.off || x.st == AxState.ready ||
  (x.st == AxState.holding && x.pro.segs.isEmpty)

/-- A command of the axis is staged for a group start (R358). -/
def State.staged (s : State) (a : AxisId) : Bool := s.tags.any fun t => t.on a && t.place == Place.staged

end Sys2Proof.Machine
end

