-- ==== Sys2Proof/Machine/Tile.lean ====
section
/-! DEFINITION. The bank tiles' gates: command lines, dead time, holds and the kill mask (R30, R264, R266, R267, R296). -/

namespace Sys2Proof.Machine

/-! ## Shares of the kill mask -/

/-- The open record among the slots of an axis or of the module (R300). -/
def openRec (rs : List Rec) : Option Rec := rs.find? Rec.opened

def Axis.rec? (x : Axis) : Option Rec := openRec x.fault.recs

def Axis.hasRec (x : Axis) : Bool := x.rec?.isSome

/-- The retirement flag, voted (R307). -/
def State.retired (s : State) (a : AxisId) : Bool := s.bit (retFlag a) 0

/-- Own share (R296). -/
def State.ownShare (s : State) (a : AxisId) : Bool :=
  let x := s.ax a
  s.retired a || x.st == AxState.retired ||
    (match x.rec? with
     | some r => decide (2 ≤ r.cls) && (x.fault.ss1.isNone || decide (3 ≤ r.cls))
     | none => false)

/-- An open record of class C3 or above of an axis of the bank, or the module record at C3 for the bank (R296). -/
def State.bankShare (s : State) (b : BankId) : Bool :=
  (List.finRange 12).any (fun j => match (s.ax (axisOf b j)).rec? with
    | some r => decide (3 ≤ r.cls)
    | none => false) ||
  (match openRec s.modRecs with
   | some r => decide (3 ≤ r.cls) && r.banks.getLsbD b.val
   | none => false)

/-- Trip share: a latched trip mapped to the axis is set (R188). -/
def State.tripShare (s : State) (a : AxisId) : Bool :=
  (s.reg Reg.fltTripstat &&& s.reg (Reg.pwmTripmap a) &&& 0xffff) != 0

/-- The kill-mask bit the shares call for (R296). -/
def State.killWanted (s : State) (a : AxisId) : Bool :=
  s.ownShare a || s.bankShare (bankOf a) || s.locked || s.tripShare a

/-- The kill mask the logic side sends to a bank. -/
def State.killMask (s : State) (b : BankId) : BitVec 12 :=
  (List.finRange 12).foldl (fun m j => if s.killWanted (axisOf b j) then m ||| (1#12 <<< j.val) else m) 0

/-! ## Gates -/

/-- DRVEN acts as high: the pin is high and no EXTEST is in force (R266, R424). -/
def State.drvenHigh (s : State) : Bool := s.drven && !s.extest

/-- What holds every gate of a bank low: DRVEN, VG, the link (R266, R271, R290), and nRESET, Kindling or a shutdown
(R380, R398), or a corrupted kill symbol (R450). -/
def State.bankHeld (s : State) (b : BankId) : Bool :=
  let k := s.bank b
  !s.up || !s.drvenHigh || k.vgLow || k.linkHold || !k.linkUp || k.killBad

/-- The command lines of the four high sides, by leg. -/
def highLines (cmd : BitVec 8) : BitVec 4 :=
  BitVec.ofBool (cmd.getLsbD 6) ++ BitVec.ofBool (cmd.getLsbD 4) ++ BitVec.ofBool (cmd.getLsbD 2) ++ BitVec.ofBool (cmd.getLsbD 0)

/-- The other gate of a gate's leg. -/
def partner (g : GateId) : GateId := ⟨if g.val % 2 = 0 then g.val + 1 else g.val - 1, by split <;> omega⟩

/-- A bootstrap refresh runs on a leg (R273): off, dead time, low side on for 400 ns, dead time. -/
def TileAxis.refreshing (t : TileAxis) (leg : LegId) (now : Nat) : Bool :=
  match t.refresh.get leg with
  | some r => decide (now < r + 160 + 2 * Config.deadTicks)
  | none => false

/-- The refresh's pulse on the low side. -/
def TileAxis.refreshPulse (t : TileAxis) (leg : LegId) (now : Nat) : Bool :=
  match t.refresh.get leg with
  | some r => decide (r + Config.deadTicks ≤ now) && decide (now < r + Config.deadTicks + 160)
  | none => false

/-- The leg of a gate. -/
def legOfGate (g : GateId) : LegId := ⟨g.val / 2, by omega⟩

/-- When a gate that is on at `now` turned on, were nothing to hold it: a dead time after its partner's turn-off at the
earliest (R267), and after the leg's last refresh; during a refresh, the low side's pulse (R273). Fine ticks of the
timebase. -/
def TileAxis.turnOn (t : TileAxis) (g : GateId) (now : Nat) : Nat :=
  let line := max ((t.onSince.get g).getD 0) (t.offAt.get (partner g) + Config.deadTicks * 16)
  match t.refresh.get (legOfGate g) with
  | some r =>
    let end_ := (r + 160 + 2 * Config.deadTicks) * 16
    if now < end_ then (r + Config.deadTicks) * 16 else max line end_
  | none => line

/-- What holds a gate low in the tile: a latch of its own, the reflex on its leg, a low bootstrap (R267, R272, R275). -/
def TileAxis.holds (t : TileAxis) (g : GateId) : Bool :=
  let leg := legOfGate g
  t.soft.getLsbD g.val || t.hard.getLsbD g.val || t.legHold.getLsbD leg.val ||
  (g.val % 2 == 0 && t.bootLow.getLsbD leg.val && !t.bootBand.getLsbD leg.val)

/-- A gate's command line has turned it on, as far as its leg goes: its partner's line is off and its dead time over, no
refresh has its leg, nothing of the tile holds it (R267). -/
def TileAxis.lineOn (t : TileAxis) (g : GateId) (now : Nat) : Bool :=
  t.cmd.getLsbD g.val && !t.cmd.getLsbD (partner g).val && decide (t.turnOn g now ≤ now) &&
  !t.refreshing (legOfGate g) (now / 16) && !t.holds g

/-- Change the command lines of a coil's four gates at `now`, fine ticks of the timebase; a line that goes off starts
its partner's dead time (R267). -/
def TileAxis.command (t : TileAxis) (k : CoilId) (pat : BitVec 4) (now : Nat) : TileAxis :=
  let pos := 4 * k.val
  let wide : BitVec 8 := (pat.setWidth 8) <<< pos
  let mask : BitVec 8 := 0xf#8 <<< pos
  let new := (t.cmd &&& ~~~mask) ||| wide
  let fallen := t.cmd &&& ~~~new
  let risen := new &&& ~~~t.cmd
  { t with
    cmd := new
    wasOn := Vector.ofFn fun g =>
      if fallen.getLsbD g.val then (if t.lineOn g now then some (t.turnOn g now) else none) else t.wasOn.get g
    offAt := Vector.ofFn fun i => if fallen.getLsbD i.val then now else t.offAt.get i
    onSince := Vector.ofFn fun g =>
      if risen.getLsbD g.val then some now else if new.getLsbD g.val then t.onSince.get g else none
    bootBand := t.bootBand &&& highLines new }

/-- Change one leg's two command lines: high side, low side. -/
def TileAxis.commandLeg (t : TileAxis) (l : LegId) (hi lo : Bool) (now : Nat) : TileAxis :=
  let k : CoilId := ⟨l.val / 2, by omega⟩
  let cur : BitVec 4 := t.cmd.extractLsb' (4 * k.val) 4
  let sh := 2 * (l.val % 2)
  let pat := (cur &&& ~~~(3#4 <<< sh)) ||| ((BitVec.ofBool lo ++ BitVec.ofBool hi).setWidth 4 <<< sh)
  t.command k pat now

/-- Every gate of a coil counts as turned off now: each waits out the dead time before it can turn on. -/
def TileAxis.restCoil (t : TileAxis) (k : CoilId) (now : Nat) : TileAxis :=
  { t with
    offAt := Vector.ofFn fun i => if i.val / 4 = k.val then now else t.offAt.get i
    wasOn := Vector.ofFn fun i => if i.val / 4 = k.val ∧ t.offAt.get i ≠ now then none else t.wasOn.get i }

def State.commandCoil (s : State) (a : AxisId) (k : CoilId) (pat : BitVec 4) : State :=
  s.setTile a ((s.tile a).command k pat s.tbFine)

/-- All eight command lines of an axis off. -/
def State.gatesOff (s : State) (a : AxisId) : State :=
  s.setTile a (((s.tile a).command 0 0 s.tbFine).command 1 0 s.tbFine)

/-- Whether a gate is on, by every condition of R267. -/
def State.gateLevel (s : State) (a : AxisId) (g : GateId) : Bool :=
  let t := s.tile a
  let leg := legOfGate g
  (if t.refreshing leg s.tb then g.val % 2 == 1 && t.refreshPulse leg s.tb
   else t.cmd.getLsbD g.val && !t.cmd.getLsbD (partner g).val &&
     decide (t.offAt.get (partner g) + Config.deadTicks * 16 ≤ s.tbFine)) &&
  !t.holds g && !(s.bank (bankOf a)).kill.getLsbD (locOf a).val && !s.bankHeld (bankOf a)

/-- The low side of a coil's driving diagonal (R283): by the sign of the duty in voltage mode, of the setpoint in chopper
mode. -/
def State.lowSide (s : State) (a : AxisId) (k : CoilId) : GateId :=
  let q := (s.ax a).chp.coils.get k
  let neg := if q.volt then decide ((s.ax a).pwm.u.get k < 0) else decide (q.s < 0)
  ⟨4 * k.val + (if neg then 1 else 3), by split <;> omega⟩

/-- What held the gates of a tile axis low has ended: those commanded on count as on from now (R272, R273). -/
def TileAxis.freed (t : TileAxis) (now : Nat) : TileAxis :=
  { t with onSince := t.onSince.map fun o => o.map fun _ => now, wasOn := Vector.replicate 8 none, bootBand := 0 }

/-- Any gate of the axis is commanded on. -/
def State.anyGate (s : State) (a : AxisId) : Bool := (s.tile a).cmd != 0

/-! ## READY -/

/-- VBUS_b lies between UV and OV (R264). -/
def State.busOk (s : State) (b : BankId) : Bool :=
  let c := s.fld (Reg.gdbVbus b) 0 12
  decide (s.fld (Reg.gdbBuslim b) 0 12 ≤ c) && decide (c < s.fld (Reg.gdbBuslim b) 16 12)

/-- The thresholds of VG in 5 mV codes: falling and rising, shifted by UVTRIM.VGT (R271). -/
def State.vgThreshold (s : State) (b : BankId) (rising : Bool) : Int :=
  (if rising then 1840 else 1720) + 20 * s.sfld (Reg.gdbUvtrim b) 0 3

/-- VG_b is at or above its rising threshold (R264, R271) (DEDUCED, log 51). -/
def State.vgOk (s : State) (b : BankId) : Bool := decide (s.vgThreshold b true ≤ (s.fld (Reg.gdbVg b) 0 12 : Int))

/-- Every condition of R264, and no bank or module share (R296). -/
def State.readyOk (s : State) (a : AxisId) : Bool :=
  let b := bankOf a
  s.bit (Reg.gdbEnable b) 0 && s.drvenHigh && s.vgOk b && s.busOk b && (s.bank b).linkUp && !(s.bank b).ot &&
  (s.tile a).hard == 0 && !s.bankShare b && !s.locked && s.up

/-- READY or OFF, as the conditions decide, of an axis that is either (R264). -/
def State.syncReady (s : State) (a : AxisId) : State :=
  let x := s.ax a
  if x.st = .off ∨ x.st = .ready then s.setSt a (if s.readyOk a then .ready else .off) else s

/-- The axes of a bank that are energised or in DIAG. -/
def State.activeAx (s : State) (a : AxisId) : Bool := (s.ax a).energised || (s.ax a).st == AxState.diag

def State.anyActive (s : State) (b : BankId) : Bool := (List.finRange 12).any fun j => s.activeAx (axisOf b j)

/-! ## What a kill-mask bit ends on the logic side -/

/-- Both coils in chopper mode, at rest, no setpoint on its way (Table 6-8, R23). EP is that of the last edge released:
an edge that has been emitted is not recalled (Table 1-5, R123). -/
def Chp.silenced (c : Chp) : Chp :=
  let off (k : CoilId) : Coil := { c.coils.get k with volt := false, bridge := .off, armed := false, s := 0, fell := false }
  { c with ampst := .off, amp := 0, ramp := none, brk := false, coils := #v[off 0, off 1], setpoints := []
           ep := ((c.setpoints.filter Setpoint.edge).getLast?.map Setpoint.ep).getD c.ep
           holdFrom := none, holdAcc := 0, energiseCmd := none, releaseCmd := none, drooped := false, zeroNext := false, awaitG0 := false, awaitLift := false
           brakeEnd := none, releasedAt := none, gridWith := none, prevEdge := none, edgeSpeed := 0 }

/-- The generator stopped (R176). -/
def Pwm.stopped (p : Pwm) : Pwm :=
  { p with run := false, started := false, u := #v[0, 0], writes := [], duty := #v[none, none], legs := Vector.replicate 4 LegPlan.reset
           strobed := false, lastStrobe := none, phased := false }

/-- The kill-mask bit of an axis: gates low, AMP 0, brake released, loops and observer stopped (R151, R206, R224). -/
def State.killAxis (s : State) (a : AxisId) : State :=
  let s := (s.gatesOff a).stopLoops a
  s.modAx a fun x =>
    { x with energised := false, chp := x.chp.silenced, pwm := x.pwm.stopped, obs := x.obs.cleared, sample := none }

end Sys2Proof.Machine
end

