-- ==== Sys2Proof/Machine/Pool.lean ====
section
/-! DEFINITION. The segment pool (chapter 03): ownership, error correction, quarantine, host window and trace rings. -/

namespace Sys2Proof.Machine

/-- Owner ID of a caller (Table 3-2). -/
def callerId (p : Port) : Nat := portId p

/-- Owner ID of an axis. -/
def axisOwner (a : AxisId) : Nat := 0x10 + a.val

def isAxisOwner (o : Nat) : Bool := decide (0x10 ≤ o) && decide (o ≤ 0x6f)

/-- A caller controls a block (R73). -/
def State.controls (s : State) (caller k : Nat) : Bool :=
  let d := s.blk k
  d.owner == caller || (isAxisOwner d.owner && d.lender == caller && !d.inuse)

/-- A block is free, or being zeroed (its OWNER reads 0xFF). -/
def State.isFree (s : State) (k : Nat) : Bool := (s.blk k).owner == 0xff

def insertNat (k : Nat) : List Nat → List Nat
  | [] => [k]
  | j :: r => if k < j then k :: j :: r else if k = j then j :: r else j :: insertNat k r

/-- Numbers of the blocks that cannot be allocated, rising. -/
def State.takenBlocks (s : State) : List Nat := s.zeroing.foldr insertNat (s.desc.map Prod.fst)

/-- Free blocks whose zeroing is complete (POOL.FREECNT). A free block in which a double-bit error was found keeps OWNER
0xFF with POISON 1: it is left out of FREE, since it is never allocated (R82), and counts neither in QUAR nor in POISONED
(DESIGN CHOICE, log 58). -/
def State.freeCount (s : State) : Nat := 32768 - s.takenBlocks.length

/-- Quarantined blocks, the poisoned ones included (POOL.FREECNT). -/
def State.quarCount (s : State) : Nat := (s.desc.filter fun d => d.2.owner == 0xf0).length

/-- Record an ownership violation (R75). -/
def State.violation (s : State) (caller k : Nat) : State :=
  let s := s.setFld Reg.poolViol 0 15 k
  let s := s.setFld Reg.poolViol 16 8 caller
  let s := s.bump Reg.poolViol 24 8
  s.raiseC0 9 0x2c .module

/-- The m-th number that is not in a rising list. -/
def nthFree : List Nat → Nat → Nat
  | [], m => m
  | t :: r, m => if t ≤ m then nthFree r (m + 1) else m

/-- One free block: the lowest in Kindling (R388), otherwise any (R76, log 6). -/
def State.pickFree (s : State) : Nat × State :=
  if s.up then
    (nthFree s.takenBlocks (Config.allocDraw s.draws % s.freeCount), { s with draws := s.draws + 1 })
  else (nthFree s.takenBlocks 0, s)

/-- Allocate `n` blocks to an owner: owner, LENDER (R76, R77). -/
def State.allocBlocks : Nat → Nat → Nat → State → List Nat × State
  | 0, _, _, s => ([], s)
  | n + 1, owner, lender, s =>
    let (k, s) := s.pickFree
    let s := s.setBlk k { Desc.free with owner := owner, lender := lender }
    let (r, s) := State.allocBlocks n owner lender s
    (k :: r, s)

/-- A ring without one of its blocks: it goes on in the others. -/
def TraceRing.without (r : TraceRing) (k : Nat) : TraceRing :=
  let i := r.chain.idxOf k
  let n := 8 * (r.chain.length - 1)
  { r with
    chain := r.chain.erase k
    slot := if r.slot < 8 * i then r.slot else if r.slot < 8 * i + 8 then 8 * i % n else r.slot - 8 }

/-- A block leaves the enabled ring it is in, since its owner frees it or gives it away: the ring goes on without it, and
one that has lost its last block ends (R73 allows it, and no rule says what becomes of the ring: DESIGN CHOICE, log 58). -/
def State.leaveRings (s : State) (k : Nat) : State :=
  (List.finRange 4).foldl (fun s t =>
    let r := s.rings.get t
    if !r.chain.contains k then s
    else if r.chain.length = 1 then
      { s with rings := s.rings.set t TraceRing.empty }.setBit (Reg.poolTraceCfg t.val) 15 false
    else { s with rings := s.rings.set t (r.without k) }) s

/-- Free a block: its descriptor is cleared and its zeroing starts; a poisoned one is withdrawn (R76, R82). -/
def State.freeBlock (s : State) (k : Nat) : State :=
  let d := s.blk k
  if d.owner = 0xff then s
  else if d.poison then
    (s.setBlk k { Desc.free with owner := 0xf0, poison := true }).bump Reg.poolEccstat 24 8
  else { s.setBlk k Desc.free with zeroing := s.zeroing ++ [k] }

/-- POOL_FREE of one block: a block that the same packet named before and that has been withdrawn stays so (R82). -/
def State.portFree (s : State) (k : Nat) : State :=
  if (s.blk k).owner = 0xf0 then s else (s.leaveRings k).freeBlock k

def State.setInuse (s : State) (ks : List Nat) (b : Bool) : State :=
  ks.foldl (fun s k => s.setBlk k { s.blk k with inuse := b }) s

/-- The blocks of a chain that the axis owns, from a block on. -/
def State.chainOf (s : State) (a : AxisId) : Nat → List Nat → Nat → List Nat
  | 0, seen, _ => seen
  | n + 1, seen, k =>
    if seen.contains k || (s.blk k).owner != axisOwner a then seen
    else
      let d := s.blk k
      if d.nextv then s.chainOf a n (seen ++ [k]) d.next else seen ++ [k]

/-- The blocks that have come to the chain of an axis's run are in use (R72). -/
def State.rechain (s : State) (a : AxisId) : State :=
  let p := (s.ax a).pro
  match p.run with
  | none => s
  | some r =>
    let ks := s.chainOf a 32768 [] r.first
    (s.setInuse ks true).setPro a { p with run := some { r with blocks := ks } }

/-- POOL_GIVE of one block to a new owner (R76); a block given to an axis may go on the chain of its run (R72). -/
def State.giveBlock (s : State) (caller owner k : Nat) : State :=
  let keeps := (s.blk k).owner == owner
  let s := if keeps then s else s.leaveRings k
  let d := s.blk k
  let s := s.setBlk k { d with
    owner := owner, lender := if isAxisOwner owner then caller else 3, inuse := d.inuse && keeps }
  if isAxisOwner owner then s.rechain (axisNum (owner - 0x10)) else s

/-- Every block of an axis passes to quarantine (R79). -/
def State.quarantine (s : State) (a : AxisId) (closing : Bool) : State :=
  let mine := s.desc.filter fun d => d.2.owner == axisOwner a
  mine.foldl (fun s d =>
    { s.setBlk d.1 { d.2 with owner := 0xf0, inuse := false } with quar := s.quar ++ [⟨d.1, a.val, closing⟩] }) s

/-- Free the quarantined blocks of an axis that an entry has been awaited for (R79, R303, R307). -/
def State.freeQuar (s : State) (a : Nat) (closing : Bool) : State :=
  let (now, later) := s.quar.partition fun q => q.axis == a && q.closing == closing
  now.foldl (fun s q => s.freeBlock q.block) { s with quar := later }

/-! ## Error correction -/

/-- A doubleword is read: a single-bit error is corrected, counted and noticed; true for a double-bit error, which
poisons its block (R80, R81). -/
def State.eccRead (s : State) (dw : Nat) : Bool × State :=
  match s.ecc.find? fun e => e.1 == dw with
  | none => (false, s)
  | some (_, false) =>
    let s := { s with ecc := s.ecc.filter fun e => e.1 != dw }
    let s := s.bump Reg.poolEccstat 0 16
    if s.ceNoted.contains (dw / 32) then (false, s)
    else (false, ({ s with ceNoted := s.ceNoted ++ [dw / 32] }).raiseC0 9 0x2d .module)
  | some (_, true) =>
    let s := s.bump Reg.poolEccstat 16 8
    (true, s.setBlk (dw / 32) { s.blk (dw / 32) with poison := true })

/-- Read doublewords `dw` to `dw + n - 1`. -/
def State.eccReads : Nat → Nat → State → Bool × State
  | 0, _, s => (false, s)
  | n + 1, dw, s =>
    let (b, s) := s.eccRead dw
    let (c, s) := State.eccReads n (dw + 1) s
    (b || c, s)

/-- Write a word by read-modify-write; not made in a doubleword with a double-bit error (R80, R81). -/
def State.poolPut (s : State) (o : Nat) (v : Word) : Bool × State :=
  let (bad, s) := s.eccRead (o / 8)
  if bad then (true, s) else (false, s.setWord o v)

def State.poolPuts : List Word → Nat → State → Bool × State
  | [], _, s => (false, s)
  | v :: r, o, s =>
    let (b, s) := s.poolPut o v
    let (c, s) := State.poolPuts r (o + 4) s
    (b || c, s)

/-- Bytes from an offset on. -/
def State.bytes (s : State) (o : Nat) : Nat → List Byte
  | 0 => []
  | n + 1 => s.byte o :: s.bytes (o + 1) n

def State.setBytes (s : State) : Nat → List Byte → State
  | _, [] => s
  | o, b :: r => (s.setByte o b).setBytes (o + 1) r

/-! ## Commands of the pool -/

/-- BLOCK_ZEROING_DONE (R76). -/
def execBlockZeroingDone (dt : Nat) (block : BitVec 15) (s : State) : Res :=
  .next <|
    let s := s.advance dt
    if s.zeroing.contains block.toNat then
      ({ s with zeroing := s.zeroing.filter fun k => k != block.toNat }).zeroBlock block.toNat
    else s

/-- A write of POOL.LINK (R78) (DEDUCED, log 52). -/
def State.writeLink (s : State) (p : Port) (v : Word) : State :=
  let k := v.fld 0 15
  let d := s.blk k
  let caller := callerId p
  if s.controls caller k && !isAxisOwner d.owner && !d.inuse then
    s.setBlk k { d with next := v.fld 16 15, nextv := v.bit 15 }
  else
    (s.flag Reg.poolStat 0).violation caller k

def execPoolLinkWrite (dt : Nat) (port : Port) (value : Word) (s : State) : Res :=
  .next <|
    let s := s.advance dt
    s.portWrite port fun s => s.writeLink port value

/-- A host-window write (R69, R73, R75). -/
def State.windowWrite (s : State) (addr : Word) (v : Word) : State :=
  let o := addr.fld 0 23 / 4 * 4
  let s := s.poolItem ⟨0, 0, 0, false⟩ 127
  if (s.blk (o / 256)).owner = 0 then (s.poolPut o v).2
  else (s.flag Reg.poolStat 1).violation 0 (o / 256)

/-- A host-window read (R69, R81). -/
def State.windowRead (s : State) (addr : Word) : Word × State :=
  let o := addr.fld 0 23 / 4 * 4
  let (bad, s) := (s.poolItem ⟨0, 0, 0, false⟩ 127).eccRead (o / 8)
  if bad then (0, (s.flag Reg.poolStat 2).raiseC0 9 0x1b .module) else (s.word o, s)

/-- An address in the pool window: bit 29 = 0 and bit 24 = 1. -/
def inWindow (addr : Word) : Bool := !addr.bit 29 && addr.bit 24

def execHostWindowWrite (dt : Nat) (addr value : Word) (s : State) : Res :=
  .next <|
    let s := s.advance dt
    if inWindow addr then s.portWrite .host fun s => s.windowWrite addr value else s

def execHostWindowRead (dt : Nat) (addr : Word) (s : State) : Res :=
  .next <|
    let s := s.advance dt
    if s.portOpen .host && inWindow addr then
      let (w, s) := s.windowRead addr
      { s with hostOut := [w] }
    else s

/-- POOL_SCRUB: a pass over every doubleword; `upsets` are the errors that arise after it, true for a double-bit one
(DEDUCED, log 46). -/
def execPoolScrub (dt : Nat) (upsets : List (BitVec 20 × Bool)) (s : State) : Res :=
  .next <|
    let s := s.advance dt
    let s := s.ecc.foldl (fun s e =>
      let (bad, s) := s.eccRead e.1
      if bad then s.raiseC0 9 0x1b .module else s) { s with ceNoted := [] }
    upsets.foldl (fun s u =>
      let rest := s.ecc.filter fun e => e.1 != u.1.toNat
      { s with ecc := rest ++ [(u.1.toNat, u.2 || s.ecc.contains (u.1.toNat, true))] }) s

/-! ## Trace rings -/

/-- The chain from a block on, as long as it is closed within `n` blocks (R83). -/
def State.ringChain (s : State) (first : Nat) : Nat → Nat → Option (List Nat)
  | 0, _ => none
  | n + 1, k =>
    let d := s.blk k
    if !d.nextv then none
    else if d.next = first then some [k]
    else (s.ringChain first n d.next).map fun r => k :: r

/-- Take down a ring. -/
def State.dropRing (s : State) (t : Fin 4) : State :=
  let s := s.setInuse (s.rings.get t).chain false
  { s with rings := s.rings.set t TraceRing.empty }

/-- A write of POOL.TRACE_CFGt (R83, R84). EN = 1 of a ring that is enabled, or still writes what it has buffered, drops
it with its buffered items and walks the chain anew; WRITTEN and the sequence number start at 0 at each enable, LOST is
kept: the spec states neither. A ring that still writes what it has buffered counts among the others that are enabled: its
blocks stay INUSE, and no other ring takes them (DESIGN CHOICE, log 58). -/
def State.writeTrace (s : State) (p : Port) (t : Fin 4) (v : Word) : State :=
  let key := Reg.poolTraceCfg t.val
  let r := s.rings.get t
  let s := s.setReg key (v &&& 0x07ff7fff)
  if !v.bit 15 then
    if r.buf.isEmpty then s.dropRing t else { s with rings := s.rings.set t { r with closing := true } }
  else
    let s := s.dropRing t
    let first := v.fld 0 15
    match s.ringChain first 256 first with
    | none => s.flag Reg.poolStat 3
    | some ks =>
      let others := (List.finRange 4).flatMap fun u => if u = t then [] else (s.rings.get u).chain
      if ks.all (fun k => (s.blk k).owner == callerId p && !others.contains k) then
        let s := (s.setInuse ks true).setBit key 15 true
        let s := s.setFld (Reg.poolTracePtr t.val) 0 16 0
        { s with rings := s.rings.set t ⟨ks, [], 0, 0, false⟩ }
      else s.flag Reg.poolStat 3

def execTraceEnable (dt : Nat) (port : Port) (t : Fin 4) (value : Word) (s : State) : Res :=
  .next <|
    let s := s.advance dt
    s.portWrite port fun s => s.writeTrace port t value

/-- A trace entry (Table 3-6). -/
def TraceItem.bytes (i : TraceItem) (seq : Nat) : List Byte :=
  bytesOf 8 i.stamp ++ bytesOf 2 i.hdr.tag ++ bytesOf 2 i.hdr.segid ++
  bytesOf 1 (i.hdr.segv.toNat * 128 + i.axis % 128) ++
  bytesOf 1 (i.hdr.port % 8 * 32 + i.cls % 16 * 2 + i.late.toNat) ++ bytesOf 2 seq ++
  (i.payload ++ List.replicate 16 0).take 16

/-- TRACE_COPY: the oldest buffered item is written to the ring (R84), in the blocks the ring still has (log 58). The write
covers four whole doublewords, so it reads none, and an error that stood in one of them is gone without a count or a notice
(DESIGN CHOICE, log 64). Copying forms no item of its own (DESIGN CHOICE, log 64). -/
def execTraceCopy (dt : Nat) (t : Fin 4) (s : State) : Res :=
  .next <|
    let s := s.advance dt
    let r := s.rings.get t
    match r.buf with
    | [] => s
    | i :: rest =>
      let o := r.chain.getD (r.slot / 8) 0 * 256 + r.slot % 8 * 32
      let s := { s with ecc := s.ecc.filter fun e => e.1 / 4 != o / 32 }
      let s := s.setBytes o (i.bytes r.written)
      let s := s.bumpMod (Reg.poolTracePtr t.val) 0 16
      let r := { r with buf := rest, written := (r.written + 1) % 65536, slot := (r.slot + 1) % (8 * r.chain.length) }
      let s := { s with rings := s.rings.set t r }
      if rest.isEmpty && r.closing then s.dropRing t else s

end Sys2Proof.Machine
end

