-- ==== Sys2Proof/Machine/Coil.lean ====
section
/-! DEFINITION. The coil drive (chapter 06): setpoints from the electrical position, the amplitude, energising and
releasing, the chopper and the hand-over between the modes. -/

namespace Sys2Proof.Machine

/-! ## Setpoints -/

/-- round(32,767 · sin(π · k / 256)), halves up, for k from 0 to 127 (R145). -/
def sine0 : List Nat :=
  [0, 402, 804, 1206, 1608, 2009, 2410, 2811, 3212, 3612, 4011, 4410, 4808, 5205, 5602, 5998]

def sine1 : List Nat :=
  [6393, 6786, 7179, 7571, 7962, 8351, 8739, 9126, 9512, 9896, 10278, 10659, 11039, 11417, 11793, 12167]

def sine2 : List Nat :=
  [12539, 12910, 13279, 13645, 14010, 14372, 14732, 15090, 15446, 15800, 16151, 16499, 16846, 17189, 17530, 17869]

def sine3 : List Nat :=
  [18204, 18537, 18868, 19195, 19519, 19841, 20159, 20475, 20787, 21096, 21403, 21705, 22005, 22301, 22594, 22884]

def sine4 : List Nat :=
  [23170, 23452, 23731, 24007, 24279, 24547, 24811, 25072, 25329, 25582, 25832, 26077, 26319, 26556, 26790, 27019]

def sine5 : List Nat :=
  [27245, 27466, 27683, 27896, 28105, 28310, 28510, 28706, 28898, 29085, 29268, 29447, 29621, 29791, 29956, 30117]

def sine6 : List Nat :=
  [30273, 30424, 30571, 30714, 30852, 30985, 31113, 31237, 31356, 31470, 31580, 31685, 31785, 31880, 31971, 32057]

def sine7 : List Nat :=
  [32137, 32213, 32285, 32351, 32412, 32469, 32521, 32567, 32609, 32646, 32678, 32705, 32728, 32745, 32757, 32765]

/-- The table after power-on Kindling. -/
def sineTable : List Nat := sine0 ++ sine1 ++ sine2 ++ sine3 ++ sine4 ++ sine5 ++ sine6 ++ sine7

def sineDefault (k : Nat) : Nat := sineTable.getD k 0

/-- Entry k of a current table. -/
def tabGet (t : Store Nat) (k : Nat) : Nat := storeGet sineDefault t k

/-- The value of a quarter wave (R146). -/
def wave (t : Store Nat) (u : Nat) : Int :=
  if u = 1024 then 32767
  else
    let k := u / 8
    let w : Int := tabGet t k
    let upper : Int := if k = 127 then 32767 else tabGet t (k + 1)
    w + ((upper - w) * (u % 8 : Nat) + 4) / 8

/-- The folded index of an electrical angle, 0 at the zero crossing to 1,024 at the peak (R146). -/
def folded (theta : Nat) : Nat :=
  let th := theta % 4096
  let q := th % 1024
  if th / 1024 % 2 = 0 then q else 1024 - q

/-- The signed coil value (R146). -/
def coilVal (t : Store Nat) (theta : Nat) : Int :=
  let v := wave t (folded theta)
  if 2 ≤ theta % 4096 / 1024 then -v else v

/-- One setpoint of an amplitude (R147). -/
def setpointOf (c : Int) (amp : Nat) : Int := c.sign * ((c.natAbs * amp + 16384) / 32768 : Nat)

/-- Setpoints of both coils (R147). -/
def setpoints (t : Store Nat) (inv : Bool) (ep amp : Nat) : Vector Int 2 :=
  let b := setpointOf (coilVal t (ep + 1024)) amp
  #v[setpointOf (coilVal t ep) amp, if inv then -b else b]

/-- DAC code of a setpoint (R162). -/
def dacCode (s : Int) : Nat := min 1023 ((s.natAbs + 16) / 32)

/-- AMP never passes IMAX (R151). -/
def State.capAmp (s : State) (a : AxisId) (n : Nat) : Nat := min n (s.fld (Reg.chpIlim a) 0 15)

def State.irun (s : State) (a : AxisId) : Nat := s.fld (chpPar a 0) 0 15
def State.ihold (s : State) (a : AxisId) : Nat := s.fld (chpPar a 1) 0 15

/-- The demand of the loop engine as an amplitude (R151). -/
def demand (sel : Int) : Nat := sel.toNat

/-- Damper fraction of a coil (R161). -/
def State.damp (s : State) (a : AxisId) (fell : Bool) (theta : Nat) : Nat :=
  s.fld (chpPar a (if fell then 8 else 9)) (4 * min 7 (folded theta / 128)) 4

/-- What a SETPOINT item shows in a trace entry (R150). -/
def Setpoint.payload (p : Setpoint) (volt : Vector Bool 2) : List Byte :=
  let w (k : Fin 2) : Nat :=
    dacCode (p.s.get k) + (decide (p.s.get k < 0)).toNat * 0x400 + p.frac.get k * 0x800 + (volt.get k).toNat * 0x8000
  bytesS 2 (p.s.get 0) ++ bytesS 2 (p.s.get 1) ++ bytesOf 2 (w 0) ++ bytesOf 2 (w 1) ++ bytesOf 2 p.amp ++
  bytesOf 2 (p.ep % 4096 + p.edge.toNat * 0x1000 + (p.zc.get 0).toNat * 0x2000 + (p.zc.get 1).toNat * 0x4000) ++
  bytesOf 1 (p.instant % 16)

/-- The mode a coil is in at an instant, when what is on its way by then has taken effect. -/
def Chp.voltAt (c : Chp) (instant : Nat) (k : CoilId) : Bool :=
  (c.setpoints.filter fun p => decide (p.instant ≤ instant)).foldl (fun v p => (p.mode.get k).getD v) (c.coils.get k).volt

/-- The magnitude of a coil's setpoint in force at an instant, and whether its last change was a fall: of those on their
way, or of the one in force (R161). -/
def Chp.before (c : Chp) (instant : Nat) (k : CoilId) : Nat × Bool :=
  match (c.setpoints.filter fun p => decide (p.instant ≤ instant)).getLast? with
  | some p => ((p.s.get k).natAbs, p.fell.get k)
  | none => ((c.coils.get k).s.natAbs, (c.coils.get k).fell)

/-- Setpoints stand in the order of their instants; those of one instant in the order they were sent. -/
def insertSetpoint (p : Setpoint) : List Setpoint → List Setpoint
  | [] => [p]
  | q :: r => if p.instant < q.instant then p :: q :: r else q :: insertSetpoint p r

/-- EP of the edges that take effect by an instant. -/
def Chp.epAt (c : Chp) (instant : Nat) : Nat :=
  ((c.setpoints.filter fun p => p.edge && decide (p.instant ≤ instant)).getLast?.map Setpoint.ep).getD c.ep

/-- Send a setpoint: computed from an EP and an amplitude, with the damper fractions (R147, R149, R161). Its item never
shows LATE, that of a late edge neither: the spec lets a derived item change LATE and does not say when (DESIGN CHOICE,
log 56). -/
def State.sendSetpoint (s : State) (a : AxisId) (instant ep amp : Nat) (edge : Bool) (zc : Vector Bool 2)
    (mode : Vector (Option Bool) 2) (hdr : Hdr) : State :=
  let c := (s.ax a).chp
  let sp := setpoints c.active (s.bit (Reg.chpCfg a) 13) ep amp
  let theta (k : CoilId) : Nat := ep + 1024 * k.val
  let fell (k : CoilId) : Bool :=
    let (old, was) := c.before instant k
    let m := (sp.get k).natAbs
    if m < old then true else if old < m then false else was
  let p : Setpoint :=
    { instant := instant, s := sp, frac := #v[s.damp a (fell 0) (theta 0), s.damp a (fell 1) (theta 1)]
      fell := #v[fell 0, fell 1], amp := amp, ep := ep % 4096, edge := edge, zc := zc, mode := mode, hdr := hdr
      done := #v[false, false] }
  let c := { c with setpoints := insertSetpoint p c.setpoints, amp := amp }
  let s := s.setChp a c
  s.trace ⟨instant / 16, hdr, a.val, 3, false, p.payload #v[c.voltAt instant 0, c.voltAt instant 1]⟩

/-- The mode a coil takes at a zero crossing decided at edge speed `ve`; true where voltage mode is blocked (R168). -/
def State.decideMode (s : State) (a : AxisId) (volt : Bool) (ve : Rat) : Option Bool × Bool :=
  let drive := s.fld (Reg.chpCfg a) 11 2
  let up : Rat := (u48 (s.reg (chpPar a 5)) (s.reg (chpPar a 4)) : Rat) / 65536
  let dn0 : Rat := (u48 (s.reg (chpPar a 7)) (s.reg (chpPar a 6)) : Rat) / 65536
  let dn := if up ≤ dn0 then up else dn0
  let want : Option Bool :=
    if drive = 0 then
      (if volt then (if ve ≤ dn then some false else none) else if up ≤ ve then some true else none)
    else if drive = 2 then (if volt then none else some true)
    else if volt then some false else none
  if want = some true ∧ (s.loopCfg a).icen = false then (none, true) else (want, false)

/-- Decide both coils for a setpoint's instant; `zc` says which of them is at a zero crossing. -/
def State.decideModes (s : State) (a : AxisId) (zc : Vector Bool 2) (ve : Rat) (instant : Nat) : Vector (Option Bool) 2 × State :=
  let c := (s.ax a).chp
  let d (k : CoilId) : Option Bool × Bool := if zc.get k then s.decideMode a (c.voltAt instant k) ve else (none, false)
  let s' := if (d 0).2 || (d 1).2 then s.flag (Reg.chpStat a) 6 else s
  (#v[(d 0).1, (d 1).1], s')

/-- The VH_UP, VH_DN rule holds VH_DN at or below VH_UP; an edge from `e0` to `e1` (unwrapped) crosses or reaches a
multiple of 2,048 above `off` (R167). -/
def zeroCross (e0 e1 off : Int) : Bool :=
  if e0 < e1 then decide ((e0 - off) / 2048 < (e1 - off) / 2048)
  else decide ((off - e0) / 2048 < (off - e1) / 2048)

/-- The amplitude of an edge's setpoint at its release (R148, R151, R153), and the amplitude state after it. The AMP in
force is capped at the IMAX of that moment: a lowered IMAX acts in the next setpoint, an edge's too, and a raised one from
the next grid instant, as R152 and R155 each give one of the two (DESIGN CHOICE, log 64). -/
def State.edgeAmp (s : State) (a : AxisId) : Nat × AmpSt :=
  let x := s.ax a
  let c := x.chp
  if !x.energised then (0, c.ampst)
  else if s.closedMode a then (s.capAmp a (demand x.loop.selected), .run)
  else match c.ampst with
    | .hramp | .hold => (s.capAmp a (s.irun a), .run)
    | st => (s.capAmp a c.amp, st)

/-- Value of a ramp at step j (R154). -/
def Ramp.value (r : Ramp) (j : Nat) : Nat :=
  if r.k ≤ j then r.a1
  else (roundAway (((r.a0 : Int) : Rat) + (((r.a1 : Int) - r.a0) * j : Int) / (r.k : Rat))).toNat

/-- K of an energise or release ramp (R154). -/
def State.erampK (s : State) (a : AxisId) : Nat := max 1 (2 * s.fld (chpPar a 3) 0 8)

def State.hrampK (s : State) (a : AxisId) : Nat := max 1 (200 * s.fld (chpPar a 2) 8 8)

def State.brakeTicks (s : State) (a : AxisId) : Nat := s.fld (chpPar a 3) 8 8 * 400000

def State.noBrake (s : State) (a : AxisId) : Bool := s.bit (chpPar a 3) 16

/-- The end of the energise sequence: HOLDING, the command completes, the hold timer starts (Table 6-1). -/
def State.energiseDone (s : State) (a : AxisId) : State :=
  let c := (s.ax a).chp
  let s := s.setChp a { c with ampst := .run, brakeEnd := none, awaitLift := false, energiseCmd := none
                               holdFrom := some s.tb, holdAcc := 0, holdDelay := s.fld (chpPar a 2) 0 8 }
  let s := (s.setSt a .holding).syncLoops a
  match c.energiseCmd with
  | some id => s.done id
  | none => s

/-- VBUS of an axis against 0.85 of the reference (R157). -/
def State.busLow (s : State) (a : AxisId) : Bool :=
  decide (100 * s.fld (Reg.gdbVbus (bankOf a)) 0 12 < 85 * (s.ax a).chp.refBus)

/-- What the release of the setpoint of grid instant `g` does to the amplitude: AMP, the mode changes of a g0, and the
ramp's next step. AMPST, the brake and HOLDING change at the instant itself (`gridStage`). -/
def State.gridAmp (s : State) (a : AxisId) (g : Nat) : Nat × Vector (Option Bool) 2 × State :=
  let x := s.ax a
  let c := x.chp
  let nomode : Vector (Option Bool) 2 := #v[none, none]
  let first : Nat × Vector (Option Bool) 2 × State :=
    let r : Ramp := ⟨0, s.irun a, s.erampK a, 1⟩
    let s := s.setChp a { c with awaitG0 := false, drooped := false, ramp := some r, awaitLift := decide (r.k ≤ 1) }
    let (mode, s) := s.decideModes a #v[true, true] 0 (g * 16)
    (s.capAmp a (r.value 1), mode, s)
  if !x.energised then (0, nomode, s)
  else if s.closedMode a then (s.capAmp a (demand x.loop.selected), nomode, s.setChp a { c with ramp := none })
  else match c.ampst with
    | .precharge => if c.awaitG0 then first else (0, nomode, s)
    | .eramp =>
      if c.drooped then
        if c.zeroNext then (0, nomode, s.setChp a { c with zeroNext := false })
        else if s.busLow a then (0, nomode, s)
        else first
      else if c.awaitLift then (s.capAmp a (s.irun a), nomode, s.setChp a { c with ramp := none, awaitLift := false })
      else
        match c.ramp with
        | none => (s.capAmp a c.amp, nomode, s)
        | some r =>
          let r' := { r with j := r.j + 1 }
          (s.capAmp a (r'.value r'.j), nomode, s.setChp a { c with ramp := some r', awaitLift := decide (r'.k ≤ r'.j) })
    | .hramp =>
      match c.ramp with
      | none => (s.capAmp a c.amp, nomode, s)
      | some r =>
        let r' := { r with j := r.j + 1 }
        (s.capAmp a (r'.value r'.j), nomode, s.setChp a { c with ramp := if r'.k ≤ r'.j then none else some r' })
    | .release =>
      match c.ramp with
      | none => (s.capAmp a c.amp, nomode, s)
      | some r =>
        let r' := { r with j := r.j + 1 }
        (s.capAmp a (r'.value r'.j), nomode, s.setChp a { c with
          ramp := if r'.k ≤ r'.j then none else some r', releasedAt := if r'.k ≤ r'.j then some g else c.releasedAt })
    | .brakeWait | .run => (s.capAmp a (s.irun a), nomode, s)
    | .hold => (s.capAmp a (s.ihold a), nomode, s)
    | .off => (0, nomode, s)

/-- The amplitude of the next grid instant is a step of an energise, hold or release ramp (R154). -/
def State.rampStep (s : State) (a : AxisId) : Bool :=
  let c := (s.ax a).chp
  (s.ax a).energised && !s.closedMode a &&
    (match c.ampst with
     | .precharge => c.awaitG0
     | .eramp => c.drooped || c.ramp.isSome && !c.awaitLift
     | .hramp | .release => c.ramp.isSome
     | _ => false)

/-- What a grid setpoint of amplitude `amp` carries (R149): a ramp step the header of the command whose ramp it is, another
change of the amplitude that of the register write that made it, and a lookup in a swapped table that of the SWAP. -/
def State.gridItemHdr (s : State) (a : AxisId) (step : Bool) (amp : Nat) : Hdr :=
  let c := (s.ax a).chp
  if step then s.axisHdr a
  else (if amp != c.amp then c.gridHdr else c.resend).getD (s.axisHdr a)

/-- The setpoint of a grid instant (R148): one is sent where the amplitude or what follows from it has changed. Where an
edge takes effect in that tick (`due`) none is sent: it waits for the edge, whose setpoint takes its amplitude. A register
write made during a ramp stays the cause of what follows the ramp (R155). -/
def State.gridSetpoint (s : State) (a : AxisId) (g amp : Nat) (mode : Vector (Option Bool) 2) (step : Bool)
    (due : Option Nat) : State :=
  let c := (s.ax a).chp
  let changed := amp != c.amp || c.resend.isSome || (mode.get 0).isSome || (mode.get 1).isSome
  let h := s.gridItemHdr a step amp
  let c' := { c with resend := none, gridHdr := if step then c.gridHdr else none }
  if !changed then s.setChp a c'
  else if due = some g then s.setChp a { c' with amp := amp, gridWith := some (h, mode) }
  else (s.setChp a c').sendSetpoint a (g * 16) (c.epAt (g * 16)) amp false #v[false, false] mode h

/-- A grid setpoint that waited for an edge which does not come is sent by itself (R148). -/
def State.flushGrid (s : State) (a : AxisId) : State :=
  let c := (s.ax a).chp
  match c.gridWith with
  | none => s
  | some (h, mode) =>
    (s.setChp a { c with gridWith := none }).sendSetpoint a (c.gridSent * 16) (c.epAt (c.gridSent * 16)) c.amp false
      #v[false, false] mode h

/-- The follow lag: microsteps not yet emitted whose nominal instants have passed (R142). -/
def State.lag (s : State) (a : AxisId) : Nat :=
  let p := (s.ax a).stp
  let now := s.fine
  match p.follow with
  | none => 0
  | some f => (p.edges.filter fun e => e.follow && decide (e.nominal < now)).length +
              (f.derived.filter fun d => decide (d.1 < now)).length

/-- The follow lag against LAGMAX (R142). It passes LAGMAX as nominal instants go by: it is looked at with each pulse,
before and after an edge release, at each grid instant and write of STP.CFG (DESIGN CHOICE, log 44). -/
def State.lagCheck (s : State) (a : AxisId) : State :=
  let lim := s.fld (Reg.stpCfg a) 8 8
  let beyond := decide ((if lim = 0 then 256 else lim) < s.lag a)
  match (s.ax a).stp.follow with
  | some f =>
    let s := s.setStp a { (s.ax a).stp with follow := some { f with overLag := beyond } }
    if beyond && !f.overLag then (s.flag (Reg.stpStat a) 10).raiseAx 11 0x13 0 a else s
  | none => s

/-- The droop check of a grid instant from g0 up to the lift (R157): AMP is 0 at the next grid instant, and the first one
after it at which the bus is back is the new g0. -/
def State.droopCheck (s : State) (a : AxisId) : State :=
  let c := (s.ax a).chp
  if (s.ax a).st = .energising ∧ c.ampst = .eramp ∧ c.drooped = false ∧ s.busLow a then
    let s := s.setChp a { c with drooped := true, zeroNext := true, ramp := none, awaitLift := false }
    ((s.flag (Reg.chpStat a) 7).bump (Reg.chpStat a) 16 8).raiseC0 12 0x23 (.axis a)
  else s

/-- What happens at a grid instant whose setpoint has been released: the ramp of an energising has begun, with the bus
sampled as its reference; the brake lifts after it (Table 6-1); a hold ramp is over (R153). -/
def State.gridStage (s : State) (a : AxisId) : State :=
  let c := (s.ax a).chp
  if !(s.ax a).energised then s
  else if s.closedMode a then s.setChp a { c with ampst := .run }
  else match c.ampst, c.ramp with
    | .precharge, some _ => s.setChp a { c with ampst := .eramp, refBus := s.fld (Reg.gdbVbus (bankOf a)) 0 12 }
    | .eramp, none =>
      if c.drooped || c.awaitLift || (s.ax a).st != AxState.energising then s
      else if s.noBrake a then s.energiseDone a
      else s.setChp a { c with brk := true, ampst := .brakeWait, brakeEnd := some (s.tb + s.brakeTicks a) }
    | .hramp, none => s.setChp a { c with ampst := .hold }
    | _, _ => s

/-- A grid instant whose setpoint has been released comes (R148, R153, R156, R157). -/
def State.gridArrive (s : State) (a : AxisId) : State :=
  let c := (s.ax a).chp
  if c.gridSent ≤ c.lastGrid || decide (s.net < c.gridSent) then s
  else
    let s := s.flushGrid a
    (((s.setChp a { (s.ax a).chp with lastGrid := c.gridSent }).gridStage a).lagCheck a).droopCheck a

/-- The setpoint of grid instant `g` is released, after what the one before it brings; `due` is the tick an edge takes
effect in (R148). -/
def State.releaseGrid (s : State) (a : AxisId) (g : Nat) (due : Option Nat) : State :=
  let s := s.gridArrive a
  let c := (s.ax a).chp
  if g ≤ c.gridSent then s
  else
    let step := s.rampStep a
    let (amp, mode, s) := (s.setChp a { c with gridSent := g }).gridAmp a g
    s.gridSetpoint a g amp mode step due

/-- The tick in which the edge at the head of STP's queue takes effect when it is released on time (R123). -/
def State.edgeDue (s : State) (a : AxisId) : Option Nat :=
  let p := (s.ax a).stp
  match p.edges with
  | e :: _ => if max e.enq (p.lastEffect - 112) + 128 ≤ e.instant / 16 then some (e.instant / 16) else none
  | [] => none

/-- A grid setpoint waits no longer for an edge that takes effect in another tick, or has gone (R148). -/
def State.gridUnwait (s : State) (a : AxisId) (due : Option Nat) : State :=
  if due = some (s.ax a).chp.gridSent then s else s.flushGrid a

/-- The grid setpoints due by now are released, 112 ticks ahead of their instants (R148). Whatever could change what such a
setpoint shows does this first (DEDUCED, log 42). -/
def State.gridRelease (s : State) (a : AxisId) : State :=
  let due := s.edgeDue a
  (s.gridUnwait a due).releaseGrid a (gridAt 20000 (s.net + 112)) due

/-- The grid setpoints due at the release of an edge that takes effect in tick `eff`; that of its own tick waits for it
(R148). -/
def State.gridFor (s : State) (a : AxisId) (eff : Nat) : State :=
  let s := (s.gridUnwait a (some eff)).releaseGrid a (gridAt 20000 (s.net + 112)) (some eff)
  if eff % 20000 = 0 then s.releaseGrid a eff (some eff) else s

/-- The header of the register write in progress: of the REG_WRITE or REG_WRITE_KEYED that makes it, else PORT 0 and TAG
0, of a host frame (DESIGN CHOICE, log 64). -/
def State.writerHdr (s : State) : Hdr :=
  ((s.tags.find? fun c => c.place == Place.running && (c.op == Op.regWrite || c.op == Op.regWriteKeyed)).map Cmd.hdr).getD
    ⟨0, 0, 0, false⟩

/-- The register write in progress changes what the next grid setpoint shows (R149, R155). -/
def State.gridOwed (s : State) (a : AxisId) : State :=
  s.setChp a { (s.ax a).chp with gridHdr := some s.writerHdr }

/-- The setpoints of grid instants after `i` that a hold reduction has already released go with its end (R153). -/
def Chp.dropHold (c : Chp) (i : Nat) : Chp :=
  { c with setpoints := c.setpoints.filter fun p => p.edge || decide (p.instant ≤ i) }

/-- Hold reduction ramps, or has reached IHOLD (R153). -/
def AmpSt.reduced : AmpSt → Bool
  | .hramp | .hold => true
  | .off | .precharge | .eramp | .brakeWait | .run | .release => false

/-- The release of an edge to the coil drive: its setpoint, and the mode changes it makes (R148, R166 to R168).
`m` is the microstep size. The grid setpoint that waits for the edge is made with it; one already sent for the edge's tick
gives way to it: its amplitude is the one in force by then (R148). -/
def State.driveEdge (s : State) (a : AxisId) (e : Edge) (m : Nat) : State :=
  let c := (s.ax a).chp
  let gap := e.instant - c.prevEdge.getD 0
  let ve : Rat := match c.prevEdge with
    | none => 0
    | some _ => if gap = 0 ∨ 4000000 * 16 < gap then 0 else (m : Rat) * 6400000000 / gap
  let e1 : Int := (e.ep : Int)
  let e0 : Int := if e.dir then e1 - m else e1 + m
  let zc : Vector Bool 2 := #v[zeroCross e0 e1 0, zeroCross e0 e1 1024]
  let r := s.edgeAmp a
  let with_ : Vector (Option Bool) 2 := (c.gridWith.map (·.2)).getD #v[none, none]
  let c := if c.ampst.reduced then c.dropHold e.instant else c
  let s := s.setChp a { c with
    prevEdge := some e.instant, edgeSpeed := ve, edgeDir := e.dir, ampst := r.2, gridWith := none
    ramp := if c.ampst = .hramp then none else c.ramp }
  let (mode, s) := s.decideModes a zc ve e.instant
  let mode : Vector (Option Bool) 2 := Vector.ofFn fun k => (with_.get k).or (mode.get k)
  let c := (s.ax a).chp
  let same (p : Setpoint) : Bool := !p.edge && p.instant / 16 == e.instant / 16
  match c.setpoints.find? same with
  | some p =>
    (s.setChp a { c with setpoints := c.setpoints.filter fun q => !same q }).sendSetpoint a e.instant e.ep r.1 true zc
      (Vector.ofFn fun k => (p.mode.get k).or (mode.get k)) e.hdr
  | none => s.sendSetpoint a e.instant e.ep r.1 true zc mode e.hdr

/-- Hold reduction ends at the start of a moving segment (R153). -/
def State.endHold (s : State) (a : AxisId) : State :=
  let x := s.ax a
  let c := x.chp
  if c.ampst.reduced then
    let s := s.setChp a { c.dropHold (s.net * 16) with ampst := .run, ramp := none, gridWith := none }
    s.sendSetpoint a (s.net * 16) (c.epAt (s.net * 16)) (s.capAmp a (s.irun a)) false #v[false, false] #v[none, none] (s.axisHdr a)
  else s

/-- The hold timer runs only while no moving segment is committed (R153); its length is that of its start (R155). -/
def State.syncHold (s : State) (a : AxisId) : State :=
  let x := s.ax a
  let c := x.chp
  let moving := x.pro.segs.any Seg.moving
  let on := c.ampst == AmpSt.run || c.ampst == AmpSt.hramp || c.ampst == AmpSt.hold
  match c.holdFrom with
  | some t => if moving then s.setChp a { c with holdFrom := none, holdAcc := s.tb - t } else s
  | none =>
    if !moving && on then
      s.setChp a { c with holdFrom := some (s.tb - c.holdAcc)
                          holdDelay := if c.holdAcc = 0 then s.fld (chpPar a 2) 0 8 else c.holdDelay }
    else s

/-! ## The chopper in the bank tile -/

/-- Bridge patterns: gates GH1, GL1, GH2, GL2 from bit 0 (R159). -/
def bridgePat (b : Bridge) (neg : Bool) : BitVec 4 :=
  match b with
  | .off => 0
  | .drive => if neg then 6 else 9
  | .fast => if neg then 9 else 6
  | .slow => 10
  | .pwm => 0

def State.coil (s : State) (a : AxisId) (k : CoilId) : Coil := (s.ax a).chp.coils.get k

def State.setCoil (s : State) (a : AxisId) (k : CoilId) (q : Coil) : State :=
  let c := (s.ax a).chp
  s.setChp a { c with coils := c.coils.set k q }

/-- Put a coil's bridge into a chopper state with its command lines. -/
def State.bridge (s : State) (a : AxisId) (k : CoilId) (q : Coil) : State :=
  (s.setCoil a k q).commandCoil a k (bridgePat q.bridge (decide (q.s < 0)))

def State.blankTicks (s : State) (a : AxisId) : Nat := (s.fld (Reg.chpCfg a) 7 4 + 1) * 100

def State.offTicks (s : State) (a : AxisId) : Nat := max 1 (s.fld (Reg.chpCfg a) 0 7) * 100

/-- An on-time starts, with blanking (R160); a code of 0 keeps slow decay (R162). -/
def State.startOn (s : State) (a : AxisId) (k : CoilId) : State :=
  let q := s.coil a k
  if dacCode q.s = 0 then s.bridge a k { q with bridge := .slow, since := s.tb, toff := 0, armed := false }
  else s.bridge a k { q with bridge := .drive, since := s.tb, blank := s.blankTicks a, armed := false }

/-- An off-time starts: fast decay for FRAC sixteenths of it, then slow decay (R160). -/
def State.startOff (s : State) (a : AxisId) (k : CoilId) : State :=
  let q := s.coil a k
  let off := s.offTicks a
  let tf := q.frac * off / 16
  s.bridge a k { q with bridge := if tf = 0 then .slow else .fast, since := s.tb, toff := off, tfast := tf, armed := false }

/-- A setpoint takes effect in a coil in chopper mode (Table 6-5). -/
def State.chopSetpoint (s : State) (a : AxisId) (k : CoilId) (sp : Int) (frac : Nat) : State :=
  let q := s.coil a k
  let old := q.s
  let s := s.setCoil a k { q with s := sp, frac := frac }
  let code := dacCode sp
  if code = 0 then (if q.bridge = .drive then s.startOff a k else s)
  else if dacCode old = 0 then s.startOn a k
  else if decide (old < 0) != decide (sp < 0) then s.startOn a k
  else s

/-- Hand-over to voltage mode (Table 6-6): slow decay, the current loop at 0. -/
def State.toVoltage (s : State) (a : AxisId) (k : CoilId) (sp : Int) (frac : Nat) : State :=
  let q := s.coil a k
  let s := s.bridge a k { q with s := sp, frac := frac, volt := true, bridge := .slow, since := s.tb, armed := false }
  let x := s.ax a
  let lk : Fin 7 := ⟨k.val, by omega⟩
  let l := x.loop.setUnit lk { x.loop.unit lk with acc := 0, out := 0, err := 0, sat := false }
  let l := { l with unset := l.unset.set k 0, blindNoted := l.blindNoted.set k false }
  (s.setLoop a l).setPwm a { x.pwm with u := x.pwm.u.set k 0, duty := x.pwm.duty.set k none }

/-- Hand-over to chopper mode (Table 6-7): every gate of the coil goes off for the dead time, then Drive for the new sign
starts, with blanking. -/
def State.toChopper (s : State) (a : AxisId) (k : CoilId) (sp : Int) (frac : Nat) : State :=
  let q := s.coil a k
  let x := s.ax a
  let s := s.setPwm a { x.pwm with u := x.pwm.u.set k 0, duty := x.pwm.duty.set k none }
  let s := s.setTile a (((s.tile a).command k 0 s.tbFine).restCoil k s.tbFine)
  let s := (s.setCoil a k { q with s := sp, frac := frac, volt := false }).startOn a k
  s.setCoil a k { s.coil a k with since := s.tb + Config.deadTicks }

/-- One coil takes a setpoint, with its change of mode (R149, R161, R162, R169). -/
def State.coilSetpoint (s : State) (a : AxisId) (k : CoilId) (p : Setpoint) : State :=
  let s := s.setCoil a k { s.coil a k with fell := p.fell.get k }
  let q := s.coil a k
  let sp := p.s.get k
  let fr := p.frac.get k
  if !(s.ax a).energised then s.setCoil a k { q with s := sp, frac := fr }
  else match p.mode.get k with
    | some true =>
      if q.volt then s.setCoil a k { q with s := sp, frac := fr }
      else if (s.loopCfg a).icen then s.toVoltage a k sp fr
      else (s.flag (Reg.chpStat a) 6).chopSetpoint a k sp fr
    | some false => if q.volt then s.toChopper a k sp fr else s.chopSetpoint a k sp fr
    | none => if q.volt then s.setCoil a k { q with s := sp, frac := fr } else s.chopSetpoint a k sp fr

/-- No pulse is counted any more, none waits, every microstep has taken effect: FOLLOWING ends (R137, R138, R143). -/
def State.followEnd (s : State) (a : AxisId) : State :=
  let x := s.ax a
  match x.stp.follow with
  | none => s
  | some f =>
    if f.counting || !f.inbox.isEmpty || !f.derived.isEmpty || !x.stp.edges.isEmpty || x.chp.setpoints.any Setpoint.edge then s
    else
      let st : AxState := if x.pro.faultAtRest then .faulted else .holding
      let s := s.modAx a fun x => { x with
        st := if x.st = .following ∨ x.st = .stopping then st else x.st
        pro := { x.pro with pos := (x.stp.qRel : Rat), faultAtRest := false, atRest := [] }
        stp := { x.stp with follow := none, q := x.stp.qRel, ep := x.stp.epRel }
        fault := if st = .faulted then { x.fault with acting := false } else x.fault }
      let s := f.enders.foldl (fun s id => s.done id) s
      let s := x.pro.atRest.foldl (fun s c => if c.2 = .done then s.done c.1 else s.fail c.1 c.2 0 0 s.net) s
      s.syncLoops a

/-- An edge has taken effect in both coils: EP, the hold timer, the end of FOLLOWING (R137, R153). -/
def State.edgeDone (s : State) (a : AxisId) (p : Setpoint) : State :=
  let x := s.ax a
  let c := { x.chp with ep := p.ep, holdAcc := 0, holdFrom := x.chp.holdFrom.map fun _ => s.tb
                        holdDelay := s.fld (chpPar a 2) 0 8 }
  ((s.setChp a c).setObs a { x.obs with lastEdge := s.tb }).followEnd a

/-- The axis's step channel is on a withdrawn delay line: setpoints take effect on fine tick 0 (R179). -/
def State.stepCoarse (s : State) (a : AxisId) : Bool :=
  let b := s.bank (bankOf a)
  b.withdrawn.contains (b.serve.get ⟨48 + (locOf a).val, by omega⟩)

/-- SETPOINT_EFFECT: the oldest setpoint of a coil takes effect at its instant (R26, R148, R149). -/
def execSetpointEffect (dt : Nat) (a : AxisId) (c : CoilId) (s : State) : Res :=
  .next <|
    let s := s.advance dt
    let ch := (s.ax a).chp
    match ch.setpoints.find? fun p => !p.done.get c with
    | none => s
    | some p =>
      if s.fine < (if s.stepCoarse a then p.instant / 16 * 16 else p.instant) then s
      else
        let p' := { p with done := p.done.set c true }
        let both := p'.done.get 0 && p'.done.get 1
        let rest := (ch.setpoints.map fun r => if r = p then p' else r).filter fun r => !(r.done.get 0 && r.done.get 1)
        let s := s.setChp a { ch with setpoints := rest }
        let s := s.coilSetpoint a c p
        if both && p.edge then s.edgeDone a p else s

def execBlankingEnd (dt : Nat) (a : AxisId) (c : CoilId) (above : Bool) (s : State) : Res :=
  .next <|
    let s := s.advance dt
    let q := s.coil a c
    if q.bridge = .drive ∧ q.armed = false ∧ q.since + q.blank ≤ s.tb then
      if above then s.startOff a c else s.setCoil a c { q with armed := true }
    else s

/-- CHOPPER_CROSSING: the comparator finds the current at its threshold after blanking (R160). -/
def execChopperCrossing (dt : Nat) (a : AxisId) (c : CoilId) (s : State) : Res :=
  .next <|
    let s := s.advance dt
    let q := s.coil a c
    if q.bridge = .drive ∧ q.armed = true then s.startOff a c else s

/-- FAST_DECAY_END: its length is over, or the shunt current has reached zero (R160). -/
def execFastDecayEnd (dt : Nat) (a : AxisId) (c : CoilId) (s : State) : Res :=
  .next <|
    let s := s.advance dt
    let q := s.coil a c
    if q.bridge = .fast then s.bridge a c { q with bridge := .slow } else s

def execOffTimeEnd (dt : Nat) (a : AxisId) (c : CoilId) (s : State) : Res :=
  .next <|
    let s := s.advance dt
    let q := s.coil a c
    if (q.bridge = .fast ∨ q.bridge = .slow) ∧ q.volt = false ∧ 0 < q.toff ∧ q.since + q.toff ≤ s.tb then s.startOn a c
    else s

/-! ## Amplitude, energising and releasing -/

/-- GRID_INSTANT: a whole multiple of 20,000 ticks of network time (R148, R151, R154 to R158). -/
def execGridInstant (dt : Nat) (a : AxisId) (s : State) : Res :=
  .next <|
    let s := s.advance dt
    if s.gateOn 5 then (s.releaseGrid a (gridAt 20000 s.net) none).gridArrive a else s

/-- BRAKE_WAIT_END: BRAKE_T after the lift the axis is HOLDING (Table 6-1). -/
def execBrakeWaitEnd (dt : Nat) (a : AxisId) (s : State) : Res :=
  .next <|
    let s := s.advance dt
    let c := (s.ax a).chp
    match c.brakeEnd with
    | some t => if (s.ax a).st = .energising ∧ c.ampst = .brakeWait ∧ t ≤ s.tb then s.energiseDone a else s
    | none => s

/-- The ramp of a release starts at the next grid instant (Table 6-2). -/
def State.releaseRamp (s : State) (a : AxisId) : State :=
  let s := s.gridRelease a
  let c := (s.ax a).chp
  s.setChp a { c with brakeEnd := none, ramp := some ⟨c.amp, 0, s.erampK a, 0⟩ }

/-- A release begins (R158, Tables 6-2 and 6-3); one that runs already is joined at its end (DEDUCED, log 42). -/
def State.beginRelease (s : State) (a : AxisId) (id : Nat) : State :=
  let s := s.gridRelease a
  let x := s.ax a
  let c := x.chp
  let s := match c.energiseCmd with
    | some e => s.fail e .superseded 0 (s.tagOf id) s.net
    | none => s
  let wait := c.brk && !s.noBrake a && decide (0 < s.brakeTicks a)
  let s := s.setChp a { c with
    brk := false, holdFrom := none, holdAcc := 0, ampst := .release, ramp := none, awaitG0 := false, awaitLift := false
    drooped := false, energiseCmd := none, releaseCmd := some id, releaseFaulted := x.st == AxState.faulted
    releasedAt := none, brakeEnd := if wait then some (s.tb + s.brakeTicks a) else none }
  let s := s.syncLoops a
  if wait then s else s.releaseRamp a

/-- RELEASE_BRAKE_WAIT_END (Table 6-2). -/
def execReleaseBrakeWaitEnd (dt : Nat) (a : AxisId) (s : State) : Res :=
  .next <|
    let s := s.advance dt
    let c := (s.ax a).chp
    match c.brakeEnd with
    | some t => if c.ampst = .release ∧ t ≤ s.tb then s.releaseRamp a else s
    | none => s

/-- RELEASE_END: 50 µs after the last ramp step the gates go low and the axis is READY, or stays FAULTED (Table 6-2). -/
def execReleaseEnd (dt : Nat) (a : AxisId) (s : State) : Res :=
  .next <|
    let s := s.advance dt
    let x := s.ax a
    match x.chp.releasedAt with
    | none => s
    | some t =>
      if s.net < t + 20000 then s
      else
        let joined := (s.tags.filter fun c => c.on a && c.op == Op.axisRelease && c.place == Place.running).map Cmd.id
        let s := s.killAxis a
        let s := s.setSt a (if x.chp.releaseFaulted || x.st == AxState.faulted then .faulted else .ready)
        joined.foldl (fun s id => s.done id) s

/-- HOLD_TIMER_EXPIRY: in OPEN mode AMP ramps to IHOLD (R153, R155). -/
def execHoldTimerExpiry (dt : Nat) (a : AxisId) (s : State) : Res :=
  .next <|
    let s := (s.advance dt).gridRelease a
    let c := (s.ax a).chp
    let d := c.holdDelay
    match c.holdFrom with
    | none => s
    | some t =>
      if c.ampst = .run ∧ (s.loopCfg a).mode = 0 ∧ d ≠ 0 ∧ t + d * 4000000 ≤ s.tb then
        s.setChp a { c with ampst := .hramp, ramp := some ⟨c.amp, s.ihold a, s.hrampK a, 0⟩ }
      else s

/-! ## The current tables -/

/-- The two copies of the table change places; the next grid instant sends a setpoint, with the header of the write that
asked for the SWAP (R149, R172). -/
def State.swapTables (s : State) (a : AxisId) (h : Hdr) : State :=
  let c := (s.ax a).chp
  s.setChp a { c with active := c.shadow, shadow := c.active, swapAfter := none, resend := some h }

/-- No load runs any more: a SWAP that waited for its end is made (R172). -/
def State.swapWaiting (s : State) (a : AxisId) : State :=
  match (s.ax a).chp.swapAfter with
  | some h => s.swapTables a h
  | none => s

/-- What a write of TABCTL does (R172). A LOAD is one request to the pool, with its item (R21). One that is refused ends the
load in progress, and a SWAP that waits for that end is made. -/
def State.tableAct (s : State) (a : AxisId) (v : Word) (h : Hdr) : State :=
  let s := s.gridRelease a
  let k := v.fld 0 15
  let d := s.blk k
  let s :=
    if v.bit 16 then
      let c := (s.ax a).chp
      if d.owner = 0xff ∨ d.owner = 0xf0 ∨ d.poison = true then
        ((s.setChp a { c with load := none }).flag (Reg.chpStat a) 10).swapWaiting a
      else (s.poolItem h a.val).setChp a { c with load := some k }
    else s
  if v.bit 17 then
    let c := (s.ax a).chp
    if c.load.isSome then s.setChp a { c with swapAfter := some h } else s.swapTables a h
  else s

/-- A write of TABCTL: BLOCK is stored, LOAD and SWAP act (R172, R369). -/
def State.writeTabctl (s : State) (a : AxisId) (v : Word) : State :=
  (s.setFld (chpPar a 0x0a) 0 15 (v.fld 0 15)).whenClocked (.table a v s.writerHdr) fun s => s.tableAct a v s.writerHdr

/-- TABLE_LOAD: a write of TABCTL with LOAD = 1. -/
def execTableLoad (dt : Nat) (port : Port) (a : AxisId) (value : Word) (s : State) : Res :=
  .next <|
    let s := s.advance dt
    if value.bit 16 then s.portWrite port fun s => s.writeTabctl a value else s

/-- TABLE_SWAP: a write of TABCTL with SWAP = 1. -/
def execTableSwap (dt : Nat) (port : Port) (a : AxisId) (value : Word) (s : State) : Res :=
  .next <|
    let s := s.advance dt
    if value.bit 17 then s.portWrite port fun s => s.writeTabctl a value else s

/-- Entries `k` to 127 of the table in a block (R172). -/
def State.tableOf (s : State) (base : Nat) (old : Store Nat) : Store Nat :=
  (List.range 128).foldl (fun t k =>
    storeSet sineDefault t k (((s.byte (base + 2 * k)).toNat % 128) * 256 + (s.byte (base + 2 * k + 1)).toNat)) old

/-- TABLE_LOAD_DONE (R172). -/
def execTableLoadDone (dt : Nat) (a : AxisId) (s : State) : Res :=
  .next <|
    let s := s.advance dt
    if !s.gateOn 5 then s else
    match (s.ax a).chp.load with
    | none => s
    | some k =>
      let (bad, s) := s.eccReads 32 (k * 32)
      let c := (s.ax a).chp
      let s :=
        if bad then ((s.setChp a { c with load := none }).flag (Reg.chpStat a) 10).raiseC0 9 0x1b .module
        else s.setChp a { c with load := none, shadow := s.tableOf (k * 256) c.shadow }
      (s.gridRelease a).swapWaiting a

/-- A write of CHP.CFG: DIRINV changes only in OFF or READY (R147); DRIVE waits for no crossing (R165). -/
def State.writeChpCfg (s : State) (a : AxisId) (v : Word) : State :=
  let k := Reg.chpCfg a
  let st := (s.ax a).st
  let free := st == AxState.off || st == AxState.ready
  let old := s.bit k 13
  let s := s.gridRelease a
  if s.staged a ∧ v.fld 11 2 ≠ s.fld k 11 2 then s
  else if v.bit 13 != old && !free then ((s.plainWrite k v).setBit k 13 old).flag (Reg.chpStat a) 8
  else s.plainWrite k v

def execChpCfgWrite (dt : Nat) (port : Port) (a : AxisId) (value : Word) (s : State) : Res :=
  .next <|
    let s := s.advance dt
    s.portWrite port fun s => s.writeChpCfg a value

/-! ## The mode configuration -/

/-- Clearing ICEN returns the coils in voltage mode to chopper mode (R219, Table 6-8). -/
def State.coilsToChopper (s : State) (a : AxisId) : State :=
  let any := (s.coil a 0).volt || (s.coil a 1).volt
  let back (s : State) (k : CoilId) : State :=
    let q := s.coil a k
    if q.volt then s.toChopper a k q.s q.frac else s
  let s := back (back s 0) 1
  if any then s.flag (Reg.chpStat a) 6 else s

/-- An axis uses another channel from now on: what it measures goes on from that channel's count, and a sample on its way
shows the count and speed that channel had at the strobe (R208, R219). -/
def State.useChannel (s : State) (a : AxisId) : State :=
  let ch := axisNum (s.loopCfg a).fbch
  s.modAx a fun x => { x with
    loop := { x.loop with lastCount := (s.chan ch).count }
    sample := x.sample.map fun m =>
      { m with fbCount := (s.chan ch).countAt (m.stamp * 16), fbSpeed := s.speedAt ch (m.stamp * 16) } }

/-- A write of MODECFG (index 0), FBCFG (1) or FBRATIO (2) (R219). -/
def State.writeModeCfg (s : State) (a : AxisId) (idx : Nat) (v : Word) : State :=
  let s := s.gridRelease a
  let k := loopPar a idx
  let old := s.reg k
  let c := s.loopCfg a
  let row := (loopRow a idx).rw
  let new := (old &&& ~~~row) ||| (v &&& row)
  if idx = 0 then
    let m := new.fld 0 2
    let nm := if m = 3 then 0 else m
    let modeCh := nm != c.mode
    if modeCh && s.staged a then s else
    let bad := (modeCh && !s.modeFree a) || ((modeCh && nm == 2 || new.bit 5 && !c.mon) && c.fbd == 0)
    -- a refused write leaves MODE unchanged; a refused MON = 1 stays 0 (R219)
    let w := if bad then (new.put 0 2 (old.fld 0 2)).setBit 5 (new.bit 5 && (c.mon || c.fbd != 0)) else new
    let s := s.setReg k w
    let s := if modeCh && !bad then s.gridOwed a else s
    let s := if bad then s.flag (Reg.loopWinner a) 18 else s
    let s := if c.icen && !w.bit 2 then s.coilsToChopper a else s
    if bad || !modeCh then s
    else if nm = 0 then s.stopOuter a
    else if (s.ax a).loop.running then s.setLoop a { (s.ax a).loop with presetDue := true }
    else if s.closedMode a then
      s.modAx a fun x => { x with
        loop := { x.loop with running := true, presetDue := true, periods := 0, winner := regulating nm
                              selected := x.chp.amp, dir := 1 }
        sample := x.sample.map fun m => { m with outer := false } }
    else s
  else if idx = 1 then
    if new = old then s
    else if s.modeFree a then
      (s.setReg k new).useChannel a
    else s.flag (Reg.loopWinner a) 18
  else
    if new = old then s
    else if s.modeFree a && !(c.encoder && new.fld 0 16 == 0) then s.setReg k new
    else s.flag (Reg.loopWinner a) 18

def execModecfgWrite (dt : Nat) (port : Port) (a : AxisId) (index : BitVec 10) (value : Word) (s : State) : Res :=
  .next <|
    let s := s.advance dt
    if index.toNat < 3 then s.portWrite port fun s => s.writeModeCfg a index.toNat value else s

end Sys2Proof.Machine
end

