-- ==== Sys2Proof/Machine/Synth.lean ====
section
/-! DEFINITION. The step synthesiser (chapter 05): edge instants solved from a segment's cubic, the stamped edge queue,
the emitter, and follow mode. -/

namespace Sys2Proof.Machine

/-- Microstep size m (R122). -/
def State.msize (s : State) (a : AxisId) : Nat := 2 ^ min 10 (s.fld (Reg.stpCfg a) 0 4)

/-! ## Soft limits -/

/-- LIMCFG.SLEN. -/
def State.softOn (s : State) (a : AxisId) : Bool := s.bit (proPar a 0x0e) 0
def State.slmin (s : State) (a : AxisId) : Int := s.val48 (proPar a 0x0a) (proPar a 0x0b)
def State.slmax (s : State) (a : AxisId) : Int := s.val48 (proPar a 0x0c) (proPar a 0x0d)

/-- SLBAD: the permitted range is empty (R101). -/
def State.slBad (s : State) (a : AxisId) : Bool := s.softOn a && decide (s.slmax a < s.slmin a)

/-- A position lies within the soft limits, or they are off. -/
def State.inLimits (s : State) (a : AxisId) (x : Rat) : Bool :=
  !s.softOn a || (decide ((s.slmin a : Rat) ≤ x) && decide (x ≤ s.slmax a))

/-! ## Solving an edge (R126 to R128): times in ticks from the segment's start -/

/-- Floor of a square root to `b` fraction bits. -/
def sqrtQ (r : Rat) (b : Nat) : Rat := ((isqrt (r * 4 ^ b).floor.toNat : Nat) : Rat) / 2 ^ b

/-- A time at 24 fraction bits. -/
def q24 (t : Rat) : Rat := ((t * 16777216).floor : Rat) / 16777216

/-- A time at 64 fraction bits. -/
def q64 (t : Rat) : Rat := ((t * 2 ^ 64).floor : Rat) / 2 ^ 64

/-- A segment's cubic in pu and ticks: p0, v, c2, c3. -/
structure Cubic where
  p : Rat
  v : Rat
  c2 : Rat
  c3 : Rat
  deriving DecidableEq, Repr

def Seg.cubic (g : Seg) : Cubic :=
  if g.full = 0 then ⟨g.p0, 0, 0, 0⟩
  else
    let t : Rat := g.full
    let v0 := g.v0 / tickHz
    let v1 := g.v1 / tickHz
    let d := g.p1 - g.p0
    ⟨g.p0, v0, (3 * d - (2 * v0 + v1) * t) / (t * t), ((v0 + v1) * t - 2 * d) / (t * t * t)⟩

def Cubic.pos (c : Cubic) (t : Rat) : Rat := c.p + t * (c.v + t * (c.c2 + t * c.c3))
def Cubic.vel (c : Cubic) (t : Rat) : Rat := c.v + t * (2 * c.c2 + 3 * t * c.c3)

/-- The roots of the velocity inside (0, T), rising. -/
def Cubic.turns (c : Cubic) (T : Rat) : List Rat :=
  let inside (l : List Rat) : List Rat := l.filter fun t => decide (0 < t) && decide (t < T)
  if c.c3 = 0 then
    (if c.c2 = 0 then [] else inside [q64 (-c.v / (2 * c.c2))])
  else
    let disc := c.c2 * c.c2 - 3 * c.c3 * c.v
    if disc < 0 then []
    else
      let r := sqrtQ disc 200
      let x := q64 ((-c.c2 - r) / (3 * c.c3))
      let y := q64 ((-c.c2 + r) / (3 * c.c3))
      inside (if x = y then [x] else if x < y then [x, y] else [y, x])

/-- p(t) is at or beyond a threshold in the direction of motion, with the precision of R89: 64 fraction bits, the last one
rounded (R122; DESIGN CHOICE, log 41). -/
def Cubic.reaches (c : Cubic) (up : Bool) (y t : Rat) : Bool :=
  let e : Rat := 1 / 2 ^ 65
  if up then decide (y ≤ c.pos t + e) else decide (c.pos t ≤ y + e)

/-- Bisection to 2^-8 tick (R126). -/
def Cubic.bisect (c : Cubic) (up : Bool) (y : Rat) : Nat → Rat → Rat → Rat
  | 0, _, b => b
  | n + 1, a, b =>
    if b - a ≤ 1 / 256 then b
    else
      let m := (a + b) / 2
      if c.reaches up y m then c.bisect up y n a m else c.bisect up y n m b

/-- The Newton steps (R126), at most four; what they shrink [a, b] to is where bisection takes over. -/
def Cubic.newton (c : Cubic) (up : Bool) (y : Rat) : Nat → Rat → Rat → Rat → Rat × Bool
  | 0, a, b, _ => (c.bisect up y 80 a b, true)
  | n + 1, a, b, t =>
    let v := c.vel t
    if v = 0 then (c.bisect up y 80 a b, true)
    else
      let past := c.reaches up y t
      let a' := if past then a else t
      let b' := if past then t else b
      let dt := (c.pos t - y) / v
      let t' := q24 (t - dt)
      if t' < a' ∨ b' < t' ∨ c.vel t' = 0 then (c.bisect up y 80 a' b', true)
      else if absR dt ≤ 1 / 256 then (t', false)
      else c.newton up y n a' b' t'

/-- The instant at which a monotone piece [a, b] reaches a threshold, and whether it is a fallback solution (R126)
(DESIGN CHOICE, log 41). -/
def Cubic.solve (c : Cubic) (up : Bool) (y : Rat) (m : Nat) (a b tprev : Rat) : Rat × Bool :=
  let v := absR (c.vel tprev)
  if v = 0 ∨ tprev < a ∨ b < tprev then (c.bisect up y 80 a b, true)
  else
    let t0 := q24 (tprev + m / v)
    c.newton up y 4 a b (if b < t0 then q24 ((a + b) / 2) else t0)

/-- The next edge of a segment after `done_`: the threshold is sought piece by piece; the list holds the ends of the pieces
and `a` the start of the first. t_prev is the previous edge, or the start of the piece where that edge lies before it. The
direction, the instant, fallback; none where the segment reaches no further threshold. -/
def Cubic.next (c : Cubic) (q : Int) (m : Nat) (done_ : Rat) : List Rat → Rat → Option Rat → Option (Bool × Rat × Bool)
  | [], _, _ => none
  | b :: r, a, prev =>
    if b ≤ done_ then c.next q m done_ r b prev
    else
      let up := decide (c.pos a ≤ c.pos b)
      let y : Rat := if up then ((q + m : Int) : Rat) else ((q - m : Int) : Rat)
      if c.reaches up y b && (up || decide (c.pos b < c.pos a)) then
        let t := c.solve up y m a b (match prev with
          | some t => if a ≤ t then t else a
          | none => a)
        some (up, t.1, t.2)
      else c.next q m done_ r b prev

/-- Take the solved segment out of the look-ahead queue. -/
def Stp.pop (p : Stp) : Stp := { p with segs := p.segs.drop 1, solvedTo := 0, prevEdge := none }

/-- The next edge from the look-ahead queue, over at most `n` segments. -/
def Stp.solveNext (m : Nat) : Nat → Stp → Option (Seg × Bool × Rat × Bool) × Stp
  | 0, p => (none, p)
  | n + 1, p =>
    match p.segs with
    | [] => (none, p)
    | g :: _ =>
      let c := g.cubic
      match c.next p.q m p.solvedTo (c.turns g.dur ++ [(g.dur : Rat)]) 0 p.prevEdge with
      | some (up, t, fb) => (some (g, up, t, fb), { p with solvedTo := t, prevEdge := some t })
      | none => Stp.solveNext m n p.pop

/-- An edge enters the stamped edge queue; one that comes in time ends a late episode (R131). -/
def State.putEdge (s : State) (a : AxisId) (e : Edge) : State :=
  let p := (s.ax a).stp
  s.setStp a { p with
    edges := p.edges ++ [e], q := e.q, ep := e.ep, lastEdge := some e.instant
    lateEpisode := p.lateEpisode && decide (e.instant / 16 < s.net + 128) }

/-- EP after an edge. -/
def epMove (ep m : Nat) (up : Bool) : Nat := (if up then ep + m else ep + 4096 - m) % 4096

/-- EDGE_SOLVE: the next threshold of the committed segments makes an edge (R122, R126 to R129). -/
def execEdgeSolve (dt : Nat) (a : AxisId) (s : State) : Res :=
  .next <|
    let s := s.advance dt
    let p := (s.ax a).stp
    let m := s.msize a
    if !s.gateOn 4 || decide (64 ≤ p.edges.length) then s
    else
      match Stp.solveNext m 17 p with
      | (none, p) => s.setStp a p
      | (some (g, up, t, fb), p) =>
        let i := g.start * 16 + (t * 16 + 1 / 2).floor.toNat
        let s := s.setStp a p
        s.putEdge a { instant := i, dir := up, ep := epMove p.ep m up, q := if up then p.q + m else p.q - m, hdr := g.hdr
                      follow := false, fallback := fb, nominal := i, enq := s.net }

/-- What an EDGE item shows in a trace entry (R144). -/
def Edge.payload (e : Edge) (msz : Nat) : List Byte :=
  bytesOf 1 (e.instant % 16 + e.dir.toNat * 16 + e.follow.toNat * 32 + e.fallback.toNat * 64) ++
  bytesOf 2 (e.ep + msz * 0x1000) ++ bytesS 6 e.q

/-- I_min in ticks (R140) (DESIGN CHOICE, log 44). -/
def State.imin (s : State) (a : AxisId) : Nat :=
  let v : Rat := (s.val48 (proPar a 0) (proPar a 1) : Rat) / 65536
  if v ≤ 0 then 160 else max 160 (ceilNat ((s.msize a : Rat) * tickHz / v))

/-- Derived microsteps enter the edge queue while it has room (R140). One that is put behind a previous edge with a fine
tick takes the first whole tick that keeps I_min (the spec gives no direction: DESIGN CHOICE, log 64). -/
def State.placeDerived (a : AxisId) : Nat → State → State
  | 0, s => s
  | n + 1, s =>
    let p := (s.ax a).stp
    match p.follow with
    | none => s
    | some f =>
      match f.derived with
      | [] => s
      | (nom, up) :: rest =>
        if 64 ≤ p.edges.length then s
        else
          let m := s.msize a
          let least := match p.lastEdge with
            | some l => l + s.imin a * 16
            | none => 0
          let i := if least ≤ nom then nom else (least + 15) / 16 * 16
          let s := s.setStp a { p with follow := some { f with derived := rest } }
          let s := s.putEdge a { instant := i, dir := up, ep := epMove p.ep m up, q := if up then p.q + m else p.q - m
                                 hdr := f.hdr, follow := true, fallback := false, nominal := nom, enq := s.net }
          s.placeDerived a n

/-- EDGE_RELEASE: the head edge goes to the coil drive 112 ticks before its stamp; one that reaches the head of the queue
inside the arming lead is late, and goes as early as the emitter can reach, never before its stamp (R26, R27, R131). It has
reached the head when it was queued and the edge before it had been released. A late edge released off its stamp takes
effect on fine tick 0 (the spec is silent: DESIGN CHOICE, log 59). -/
def execEdgeRelease (dt : Nat) (a : AxisId) (s : State) : Res :=
  .next <|
    let s := s.advance dt
    let p := (s.ax a).stp
    match p.edges with
    | [] => s
    | e :: rest =>
      let stamp := e.instant / 16
      if !s.gateOn 4 || decide (s.net + 112 < stamp) then s
      else
        let late := decide (stamp < max e.enq (p.lastEffect - 112) + 128)
        let reach := if late then max stamp (s.net + 112) else stamp
        let eff := if p.lastEffect < reach then reach else p.lastEffect + 1
        let s := (s.gridFor a eff).lagCheck a
        let p := (s.ax a).stp
        let i := if eff = stamp then e.instant else eff * 16
        let first := late && !p.lateEpisode
        let s := s.setStp a { p with
          edges := rest, qRel := e.q, epRel := e.ep, lastRel := some i, lastEffect := eff
          lateEpisode := p.lateEpisode || late }
        let s := if first then ((s.flag (Reg.stpStat a) 8).bump (Reg.stpStat a) 16 16).raiseAx 11 0x10 0 a else s
        let e := { e with instant := i }
        let s := s.trace ⟨eff, e.hdr, a.val, 2, late, e.payload (s.fld (Reg.stpCfg a) 0 4)⟩
        ((s.driveEdge a e (s.msize a)).placeDerived a 64).lagCheck a

/-! ## Commits and splices as STP sees them (R90, R92) -/

/-- A committed segment enters STP's look-ahead queue. -/
def Stp.push (p : Stp) (g : Seg) : Stp :=
  if p.segs.isEmpty then { p with segs := [g], solvedTo := 0, prevEdge := none } else { p with segs := p.segs ++ [g] }

/-- A splice at `ts`: edges stamped at or after it are removed, and nothing of the old plan is left after it (R92). -/
def Stp.cut (p : Stp) (ts : Nat) : Stp :=
  let keep := p.edges.filter fun e => decide (e.instant / 16 < ts)
  let segs := (p.segs.filter fun g => decide (g.start < ts)).map fun g => { g with dur := min g.dur (ts - g.start) }
  let len : Rat := match segs with
    | g :: _ => g.dur
    | [] => 0
  let end_ := keep.getLast?
  { p with
    edges := keep, segs := segs, q := (end_.map Edge.q).getD p.qRel, ep := (end_.map Edge.ep).getD p.epRel
    lastEdge := if keep.length = p.edges.length then p.lastEdge else (end_.map Edge.instant).or p.lastRel
    solvedTo := if p.solvedTo ≤ len then p.solvedTo else len
    prevEdge := p.prevEdge.bind fun t => if t ≤ len then some t else none }

/-! ## Follow mode -/

/-- Counting of pulses ends at a tick, or has ended before it (R137, R143). -/
def Follow.stop (f : Follow) (at_ : Nat) : Follow :=
  let t := match f.until_ with
    | some t => min t at_
    | none => at_
  { f with counting := false, until_ := some t, inbox := f.inbox.filter fun p => decide (p.instant / 16 < t) }

/-- Microsteps of one direction for the signed accumulator (R136): how many, and what is left. -/
def derive (acc : Int) (m : Int) : Nat × Int :=
  if m ≤ 0 then (0, acc)
  else if m ≤ acc then ((acc / m).toNat, acc % m)
  else if acc ≤ -m then (((-acc) / m).toNat, -((-acc) % m))
  else (0, acc)

/-- Derived microsteps at nominal instants, as long as they stay within the soft limits: how far Q goes, what is
derived, and whether a limit was met (R139, R143). -/
def State.deriveSteps (s : State) (a : AxisId) (up : Bool) (base gap : Nat) : Nat → Nat → Int → List (Nat × Bool) × Bool
  | 0, _, _ => ([], false)
  | n + 1, i, q =>
    let m : Int := s.msize a
    let q' := if up then q + m else q - m
    if s.inLimits a (q' : Rat) then
      let (r, hit) := s.deriveSteps a up base gap n (i + 1) q'
      ((base + i * gap * 16, up) :: r, hit)
    else ([], true)

/-- A pulse is counted: the divider, the microsteps derived from it, and the soft limits that end the counting
(R135 to R137, R139, R140). -/
def State.takePulse (s : State) (a : AxisId) (f : Follow) (u : Pulse) : State :=
  let p := (s.ax a).stp
  let tick := u.instant / 16
  let cfg := s.reg (Reg.stpCfg a)
  let acc := if u.dir then p.rem + f.num else p.rem - f.num
  let (j, left) := derive acc f.den
  let fd := max (cfg.fld 16 16) (if s.slowLevel then 1600 else 800)
  let gap := match f.lastPulse with
    | some l => min 400000 ((u.instant - l) / 16)
    | none => 0
  let spread := if cfg.bit 4 && 0 < j then gap / j else 0
  let qd : Int := f.derived.foldl (fun q d => if d.2 then q + s.msize a else q - s.msize a) p.q
  let (new, hit) := s.deriveSteps a u.dir (u.instant + fd * 16) spread j 0 qd
  let f := { f with lastPulse := some u.instant, derived := f.derived ++ new }
  let f := if hit then f.stop tick else f
  let s := s.setStp a { p with rem := left, pulses := (p.pulses + 1) % 32768, follow := some f }
  if hit then s.raiseC0 10 0x20 (.axis a) else s

/-- FOLLOW_PULSE: the oldest pulse moves the ratio accumulator and derives microsteps (R136, R139 to R143). -/
def execFollowPulse (dt : Nat) (a : AxisId) (s : State) : Res :=
  .next <|
    let s := s.advance dt
    let p := (s.ax a).stp
    match p.follow with
    | none => s
    | some f =>
      match f.inbox with
      | [] => s
      | u :: rest =>
        let f := { f with inbox := rest }
        let tick := u.instant / 16
        if !f.counts tick then
          (s.setStp a { p with follow := some f }).followEnd a
        else (((s.takePulse a f u).placeDerived a 64).lagCheck a).followEnd a

/-- A write of STP.CFG (R124, R141, R142); while a command is staged one that changes MSIZE does
nothing (R358, log 43). -/
def State.writeStpCfg (s : State) (a : AxisId) (v : Word) : State :=
  let k := Reg.stpCfg a
  let x := s.ax a
  let old := s.fld k 0 4
  let new := v.fld 0 4
  let free := match x.st with
    | .off | .ready => true
    | .holding => x.pro.segs.isEmpty
    | .faulted => decide ((s.traj a).2 = 0)
    | _ => false
  let t := s.plainWrite k v
  if new != old && s.staged a then s else
  (if new = old || free && decide (new ≤ 10) then t else (t.setFld k 0 4 old).flag (Reg.stpStat a) 9).lagCheck a

def execStpCfgWrite (dt : Nat) (port : Port) (a : AxisId) (value : Word) (s : State) : Res :=
  .next <|
    let s := s.advance dt
    s.portWrite port fun s => s.writeStpCfg a value

end Sys2Proof.Machine
end

