-- ==== Sys2Proof/Machine/Plan.lean ====
section
/-! DEFINITION. Planning (chapter 04): moves, velocity moves and stops as chains of phases, and the checks of a motion
command's values. -/

namespace Sys2Proof.Machine

/-! ## Parameters -/

/-- A signed Q32.16 PRO parameter, by the index of its _LO word. -/
def State.proQ (s : State) (a : AxisId) (i : Nat) : Rat := (s.val48 (proPar a i) (proPar a (i + 1)) : Rat) / 65536

/-- 2,500,000 × the microstep size (R88, R96). -/
def State.vceil (s : State) (a : AxisId) : Rat := 2500000 * (s.msize a : Rat)

/-- V_C (R88). -/
def State.vc (s : State) (a : AxisId) : Rat := min (s.proQ a 0) (s.vceil a)

def State.edec (s : State) (a : AxisId) : Rat := s.proQ a 6

/-! ## Phases -/

/-- A phase's length in ticks: rounded up, and at least 1,000 where it is not 0 (R93). -/
def phaseTicks (x : Rat) : Nat := if x ≤ 0 then 0 else max 1000 (ceilNat x)

/-- Ticks as seconds. -/
def secs (t : Nat) : Rat := (t : Rat) / tickHz

/-- A deceleration from (p, v) to rest at `d` (R93, R111): its length and rest point. -/
def planStop (p v d : Rat) (ph : Phase) : List PlanSeg :=
  if v = 0 then []
  else
    let t := phaseTicks (absR v * tickHz / d)
    [⟨t, roundAway (p + v * secs t / 2), 0, ph, false⟩]

/-- The move needs the phase t0 (R93, R97). -/
def needsReversal (p v : Rat) (x : Int) (d : Rat) : Bool :=
  v != 0 && (sgn v != sgn ((x : Rat) - p) || decide (absR ((x : Rat) - p) < v * v / (2 * d)))

/-- vp fitted to the rounded lengths (R93). -/
def fitV (L v0 : Rat) (t1 t2 t3 : Nat) : Rat := (L - v0 * secs t1 / 2) / (secs t1 / 2 + secs t2 + secs t3 / 2)

/-- The least length in (lo, hi] for which a test holds that fails at `lo` and holds at `hi`. -/
def leastIn (ok : Nat → Bool) : Nat → Nat → Nat → Nat
  | 0, _, hi => hi
  | n + 1, lo, hi =>
    if hi ≤ lo + 1 then hi
    else
      let m := (lo + hi) / 2
      if ok m then leastIn ok n lo m else leastIn ok n m hi

/-- The least length above `t` for which a test holds, sought in strides of doubling length. -/
def leastAbove (ok : Nat → Bool) (t : Nat) : Nat → Nat → Nat
  | 0, k => t + k
  | n + 1, k => if ok (t + k) then leastIn ok 64 t (t + k) else leastAbove ok t n (2 * k)

/-- A phase is lengthened by whole ticks until it passes a test (R93); a phase of length 0 stays one. -/
def lengthen (ok : Nat → Bool) (t : Nat) : Nat := if t = 0 || ok t then t else leastAbove ok t 64 1

/-- Phases whose acceleration rounding has left above its limit are lengthened by whole ticks until it is within the limit
(R93); each lengthening moves vp, so the phases are looked at in turn. -/
def fitPhases (L v0 a d : Rat) (t2 : Nat) : Nat → Nat → Nat → Nat × Nat × Rat
  | 0, t1, t3 => (t1, t3, fitV L v0 t1 t2 t3)
  | n + 1, t1, t3 =>
    let x := lengthen (fun t => decide (fitV L v0 t t2 t3 - v0 ≤ a * secs t)) t1
    let x := lengthen (fun t => decide (v0 - fitV L v0 t t2 t3 ≤ d * secs t)) x
    let y := lengthen (fun t => decide (fitV L v0 x t2 t ≤ d * secs t)) t3
    if x = t1 ∧ y = t3 then (t1, t3, fitV L v0 t1 t2 t3) else fitPhases L v0 a d t2 n x y

/-- The three phases of a move from (p, v) ahead to x (R93). -/
def planAhead (p v : Rat) (x : Int) (V A D : Rat) : List PlanSeg :=
  let L := absR ((x : Rat) - p)
  let sg : Rat := (sgn ((x : Rat) - p) : Int)
  if L = 0 then []
  else
    let v0 := absR v
    let d1 := if V < v0 then (v0 * v0 - V * V) / (2 * D) else (V * V - v0 * v0) / (2 * A)
    let d3 := V * V / (2 * D)
    let hz : Rat := tickHz
    let (t1, t2, t3) : Nat × Nat × Nat :=
      if d1 + d3 ≤ L then
        (phaseTicks (absR (V - v0) * hz / (if v0 ≤ V then A else D)), phaseTicks ((L - d1 - d3) / V * hz),
         phaseTicks (V / D * hz))
      else
        -- vp = sqrt(r), and vp ≥ v0
        let r := (2 * A * D * L + D * v0 * v0) / (A + D)
        let up (n : Nat) : Nat := if n = 0 then 0 else max 1000 n
        (up (ceilSqrtSub (r * (hz / A) * (hz / A)) (v0 * hz / A)), 0, up (ceilSqrtSub (r * (hz / D) * (hz / D)) 0))
    let (t1, t3, vp) := fitPhases L v0 A D t2 64 t1 t3
    let e1 := p + sg * (v0 + vp) * secs t1 / 2
    let e2 := e1 + sg * vp * secs t2
    let vq := roundQ16 (sg * vp)
    [(⟨t1, roundAway e1, vq, .move, false⟩ : PlanSeg), ⟨t2, roundAway e2, vq, .move, false⟩, ⟨t3, x, 0, .move, false⟩].filter
      fun g => g.dur != 0

/-- plan_move (R93) (DESIGN CHOICE, log 41). -/
def planMove (p v : Rat) (x : Int) (V A D : Rat) : List PlanSeg :=
  if needsReversal p v x D then
    let pre := planStop p v D .move
    let q : Rat := ((pre.head?.map PlanSeg.endP).getD 0 : Int)
    pre ++ planAhead q 0 x V A D
  else planAhead p v x V A D

/-- A velocity move from (p, v) to vt, and its exact end (R99). -/
def planVel (p v vt A D : Rat) : List PlanSeg × Rat :=
  let phase (p v : Rat) (lim : Rat) : List PlanSeg × Rat :=
    let t := phaseTicks (absR (vt - v) * tickHz / lim)
    let e := p + (v + vt) * secs t / 2
    if t = 0 then ([], p) else ([⟨t, roundAway e, vt, .vel, false⟩], if vt = 0 then (roundAway e : Rat) else e)
  if v * vt < 0 then
    let pre := planStop p v D .vel
    let q : Rat := ((pre.head?.map PlanSeg.endP).getD 0 : Int)
    let (r, e) := phase q 0 A
    (pre ++ r, e)
  else phase p v (if absR v < absR vt then A else D)

/-- D_s (R111): the larger of the running command's limit and the deceleration in force, at most EDEC. -/
def stopDecel (lim now edec : Rat) : Rat :=
  let d := min edec (max (max 0 lim) now)
  if d = 0 then edec else d

/-- Acceleration of a segment `t` ticks from its start, pu/s². -/
def Seg.accel (g : Seg) (t : Rat) : Rat :=
  let c := g.cubic
  (2 * c.c2 + 6 * c.c3 * t) * tickHz * tickHz

/-- The magnitude of the deceleration in force at a tick (R111). -/
def Pro.slowing (p : Pro) (t : Nat) : Rat :=
  match p.segs.find? fun g => decide (g.start ≤ t) && decide (t ≤ g.endTick) with
  | none => 0
  | some g =>
    let k : Rat := ((t - g.start : Nat) : Rat)
    let v := (g.eval k).2
    let acc := g.accel k
    if acc * v < 0 then absR acc else 0

/-! ## Soft limits under velocity moves (R100) -/

/-- The limit ahead in a direction of motion. -/
def State.limitAhead (s : State) (a : AxisId) (up : Bool) : Int := if up then s.slmax a else s.slmin a

/-- A stop at `d` from (p, v) still ends at or before the limit ahead. -/
def canStop (up : Bool) (lim : Int) (d p v : Rat) : Bool :=
  decide (v * v / (2 * d) ≤ (if up then (lim : Rat) - p else p - lim))

/-- The last tick in [lo, hi) at which a stop still ends at or before the limit; it does at `lo` and not at `hi`. -/
def lastStop (up : Bool) (lim : Int) (d : Rat) (g : Seg) : Nat → Nat → Nat → Nat
  | 0, lo, _ => lo
  | n + 1, lo, hi =>
    if hi ≤ lo + 1 then lo
    else
      let m := (lo + hi) / 2
      let (p, v) := g.eval (m : Nat)
      if canStop up lim d p v then lastStop up lim d g n m hi else lastStop up lim d g n lo m

/-- Whether a segment of a velocity move runs past the point from which a stop at `d` ends on the limit ahead: the tick of
it at which the stop begins. An axis that is already past that point stops onto the limit from where it is, slowing harder
than `d`: the spec is silent (DESIGN CHOICE, log 64). -/
def State.softPoint (s : State) (a : AxisId) (d : Rat) (g : Seg) : Option Nat :=
  let dir := if g.v0 ≠ 0 then g.v0 else g.v1
  if !s.softOn a || decide (dir = 0) then none
  else
    let up := decide (0 < dir)
    let lim := s.limitAhead a up
    if canStop up lim d g.p1 g.v1 then none
    else if !canStop up lim d g.p0 g.v0 then some 0
    else some (lastStop up lim d g 64 0 g.dur)

/-- The stop onto a limit from (p, v) (R100); an ordinary stop at `d` where the limit is not ahead any more. -/
def softStop (lim : Int) (d p v : Rat) : List PlanSeg :=
  if v = 0 then []
  else
    let dist := if 0 < v then (lim : Rat) - p else p - lim
    if dist ≤ 0 then (planStop p v d .stop).map fun g => { g with soft := true }
    else [⟨phaseTicks (2 * dist / absR v * tickHz), lim, 0, .stop, true⟩]

/-! ## The values of a motion command (R45, R96) -/

/-- A limit of a motion command: the value, or its default for 0; none where it is refused. -/
def limitOr (raw dflt : Rat) : Option Rat :=
  if raw < 0 then none else if raw = 0 then (if dflt ≤ 0 then none else some dflt) else some raw

/-- How far a position lies outside the soft limits. -/
def State.outBy (s : State) (a : AxisId) (x : Rat) : Rat :=
  let lo : Rat := s.slmin a
  let hi : Rat := s.slmax a
  if x < lo then lo - x else if hi < x then x - hi else 0

/-- The soft limits refuse a target (R96, R101). -/
def State.softRefuses (s : State) (a : AxisId) (x : Int) : Bool :=
  s.slBad a ||
  (s.softOn a && decide (0 < s.outBy a (x : Rat)) && decide (s.outBy a (s.traj a).1 ≤ s.outBy a (x : Rat)))

/-- What a MOVE_ABS or MOVE_REL asks for, or the index of the first word that offends; the sum of a MOVE_REL starts from
the commanded position, rounded to the nearest pu with halves away from zero (Table 2-7). -/
def State.moveValues (s : State) (a : AxisId) (rel : Bool) (ws : List Word) : Nat ⊕ PlanReq :=
  let x0 := s48 (wordAt ws 0) (wordAt ws 1)
  let x := if rel then roundAway (s.traj a).1 + x0 else x0
  let vr := q16 ws 2
  if !in48 x || s.softRefuses a x then .inl 0
  else match limitOr vr (s.proQ a 0) with
    | none => .inl 2
    | some v =>
      if s.vceil a < vr then .inl 2
      else match limitOr (q16 ws 4) (s.proQ a 2) with
        | none => .inl 4
        | some acc => match limitOr (q16 ws 6) (s.proQ a 4) with
          | none => .inl 6
          | some dec => .inr (.move x (min v (s.vceil a)) acc dec ((wordAt ws 8).bit 0))

/-- The same for a MOVE_VEL. -/
def State.velValues (s : State) (a : AxisId) (ws : List Word) : Nat ⊕ PlanReq :=
  let vt := q16 ws 0
  if s.slBad a || decide (s.vceil a < absR vt) then .inl 0
  else match limitOr (q16 ws 2) (s.proQ a 2) with
    | none => .inl 2
    | some acc => match limitOr (q16 ws 4) (s.proQ a 4) with
      | none => .inl 4
      | some dec => .inr (.vel vt acc dec ((wordAt ws 6).bit 0))

end Sys2Proof.Machine
end

