-- ==== Sys2Proof/Machine/Segment.lean ====
section
/-! DEFINITION. The profile engine (chapter 04): segment tables, commits, splices, ends of segments and runs. -/

namespace Sys2Proof.Machine

/-! ## Entries of a table -/

/-- A segment entry (Table 4-1). -/
structure Entry where
  segid : Nat
  flags : Nat
  dur : Nat
  pos : Int
  vel : Int
  deriving DecidableEq, Repr

/-- An entry from its words (R85). -/
def Entry.ofWords (ws : List Word) : Entry :=
  let w := fun i => wordAt ws i
  { segid := (w 0).fld 16 16, flags := (w 0).fld 0 16, dur := (w 1).toNat * 256 + (w 2).fld 24 8
    pos := signed 48 ((w 2).fld 0 24 * 0x1000000 + (w 3).fld 8 24)
    vel := signed 48 ((w 3).fld 0 8 * 0x10000000000 + (w 4).toNat * 256 + (w 5).fld 24 8) }

def Entry.last (e : Entry) : Bool := e.flags % 2 == 1
def Entry.loopTo (e : Entry) : Bool := e.flags / 2 % 2 == 1
def Entry.waitStamp (e : Entry) : Bool := e.flags / 4 % 2 == 1
def Entry.event (e : Entry) : Bool := e.flags / 8 % 2 == 1
def Entry.dwell (e : Entry) : Bool := e.flags / 16 % 2 == 1
def Entry.noReverse (e : Entry) : Bool := e.flags / 32 % 2 == 1
def Entry.control (e : Entry) : Bool := e.loopTo || e.waitStamp
def Entry.velQ (e : Entry) : Rat := (e.vel : Rat) / 65536

/-- The static checks of Table 4-3. -/
def Entry.staticOk (e : Entry) : Bool :=
  e.flags / 64 == 0 && decide (e.dwell.toNat + e.loopTo.toNat + e.waitStamp.toNat ≤ 1) &&
  (e.control || decide (1000 ≤ e.dur)) &&
  (e.control || e.dwell || !e.last || e.vel == 0) &&
  (!e.loopTo || (decide (0 ≤ e.pos) && decide (e.pos < 65536) && decide (0 ≤ e.vel) && decide (e.vel < 65536)))

/-- A table's entry as it stands in the pool. -/
def State.entryAt (s : State) (block index : Nat) : Entry :=
  let o := block * 256 + index * 32
  Entry.ofWords ((List.range 8).map fun i => s.word (o + 4 * i))

/-- The place of an entry, over the link where its block has ended (R78); none where the link leads nowhere the axis
owns. -/
def State.normAt (s : State) (a : AxisId) (pos : Nat × Nat) : Option (Nat × Nat) :=
  if pos.2 < 8 then some pos
  else
    let d := s.blk pos.1
    if d.nextv && (s.blk d.next).owner == axisOwner a then some (d.next, 0) else none

/-- An entry is read for work of a header: one request to the pool (log 56); its four doublewords are corrected; true for a
double-bit error (R80, R81). -/
def State.readEntry (s : State) (h : Hdr) (a : AxisId) (b i : Nat) : Bool × State :=
  (s.poolItem h a.val).eccReads 4 (b * 32 + i * 4)

/-- What a search of a chain comes to. -/
inductive Found where
  | at_ (pos : Nat × Nat)
  | missing
  /-- a double-bit error (Table 3-5) -/
  | ecc
  deriving DecidableEq, Repr

/-- The first entry that passes a test, in chain order over at most `n` entries. -/
def State.findEntry (h : Hdr) (a : AxisId) (test : Entry → Bool) : Nat → Nat × Nat → State → Found × State
  | 0, _, s => (.missing, s)
  | n + 1, pos, s =>
    match s.normAt a pos with
    | none => (.missing, s)
    | some (b, i) =>
      let (ue, s) := s.readEntry h a b i
      if ue then (.ecc, s)
      else if test (s.entryAt b i) then (.at_ (b, i), s)
      else State.findEntry h a test n (b, i + 1) s

/-- The first entry with a SEGID, over at most 256 entries (R103). -/
def State.findSeg (s : State) (h : Hdr) (a : AxisId) (segid : Nat) (pos : Nat × Nat) : Found × State :=
  State.findEntry h a (fun e => e.segid == segid) 256 pos s

/-- The counter of a LOOP_TO entry at one pass (R106): whether the loop repeats, and the counters after; none for a
fifth counter. -/
def loopStep (loops : List (Nat × Nat × Nat)) (pos : Nat × Nat) (count : Nat) : Option (Bool × List (Nat × Nat × Nat)) :=
  match loops.find? fun l => l.1 == pos.1 && l.2.1 == pos.2 with
  | none =>
    if 4 ≤ loops.length then none
    else if count = 0 then some (true, loops ++ [(pos.1, pos.2, 0)])
    else some (true, loops ++ [(pos.1, pos.2, count - 1)])
  | some l =>
    let set (n : Nat) := loops.map fun m => if m.1 = pos.1 ∧ m.2.1 = pos.2 then (pos.1, pos.2, n) else m
    if count = 0 then some (true, loops)
    else if l.2.2 = 0 then some (false, set count)
    else some (true, set (l.2.2 - 1))

/-! ## Kinematic checks -/

/-- The segment an entry describes from (p0, v0). -/
def Entry.seg (e : Entry) (p0 v0 : Rat) : Seg :=
  { start := 0, dur := e.dur, p0 := p0, v0 := v0, p1 := e.pos, v1 := e.velQ, flags := e.flags % 64, hdr := Hdr.module
    block := 0, index := 0, loops := [], phase := .table, splice := false, entered := false, soft := false
    last := false, wait := [], full := e.dur }

/-- The kinematic checks of a motion entry (Table 4-3), with the tolerances of R89. -/
def State.kinOk (s : State) (a : AxisId) (e : Entry) (p0 v0 : Rat) : Bool :=
  let g := e.seg p0 v0
  let c := g.cubic
  let T : Rat := e.dur
  let tstar := -c.c2 / (3 * c.c3)
  let peaks : List Rat := if c.c3 ≠ 0 ∧ 0 < tstar ∧ tstar < T then [c.vel tstar * tickHz] else []
  let vs := [v0, e.velQ] ++ peaks
  let vmax := s.vc a + 1
  let tacc := s.proQ a 8
  let ps := [p0, (e.pos : Rat)] ++ (c.turns T).map fun t => c.pos t
  vs.all (fun v => decide (absR v ≤ vmax)) &&
  (tacc == 0 || (decide (absR (g.accel 0) ≤ tacc) && decide (absR (g.accel T) ≤ tacc))) &&
  (!e.noReverse || !(vs.any (fun v => decide (0 < v)) && vs.any (fun v => decide (v < 0)))) &&
  (!s.softOn a || ps.all (fun p => decide (s.slmin a - 1 ≤ p) && decide (p ≤ s.slmax a + 1)))

/-- The check of a dwell entry against the soft limits: the position it holds (Table 4-3, R89). -/
def State.dwellOk (s : State) (a : AxisId) (p : Rat) : Bool :=
  !s.softOn a || (decide ((s.slmin a - 1 : Rat) ≤ p) && decide (p ≤ (s.slmax a + 1 : Rat)))

/-! ## Fetching -/

/-- What the resolving of a control entry leaves in the registers: WAIT_LATE (R105), and of EVENT the SEGID, the block and
the start instant (R107). -/
structure Note where
  late : Bool
  event : Option (Nat × Nat × Nat)
  deriving DecidableEq, Repr

/-- What a fetch comes to. -/
inductive FetchRes where
  | ok (r : Run) (notes : List Note)
  /-- an entry fails its checks: SEGID and block (R109) -/
  | bad (segid block : Nat)
  /-- a link to a block the axis does not own (R78): the block -/
  | chain (block : Nat)
  /-- a double-bit error (Table 3-5) -/
  | ecc
  deriving DecidableEq, Repr

/-- EVENT of an entry: flag, EVT_SEG, EVT_STAMP (R107). -/
def State.eventEntry (s : State) (a : AxisId) (segid block start : Nat) : State :=
  let s := ((s.flag (Reg.proStat a) 16).irq 6).setReg (proPar a 0x16) (BitVec.ofNat 32 (segid + block * 0x10000))
  (s.setReg (proPar a 0x17) (loWord64 start)).setReg (proPar a 0x18) (hiWord64 start)

/-- What resolved control entries leave. -/
def State.noteAll (s : State) (a : AxisId) (ns : List Note) : State :=
  ns.foldl (fun s n =>
    let s := if n.late then s.flag (Reg.proStat a) 17 else s
    match n.event with
    | some (segid, block, start) => s.eventEntry a segid block start
    | none => s) s

/-- The stamp until which the WAIT_STAMP entries before an entry hold it back. -/
def waitEnd (ws : List WaitRec) : Nat := (ws.map WaitRec.at_).foldl max 0

/-- The start of an entry that waits until `w`, the one before it ending at `t` (R105); with nothing committed, not before
PRO can put it in force (R118). -/
def State.startAfter (s : State) (idle : Bool) (t w : Nat) : Nat :=
  if idle && (decide (w < s.net) || decide (w < t)) then max t (s.net + s.lead) else max t w

/-- Nothing is committed of a run that is in force. -/
def Pro.idleRun (p : Pro) (r : Run) : Bool := p.segs.isEmpty && (p.run.map Run.cmd == some r.cmd)

/-- Where the last motion or dwell entry fetched of a run ends, as far as it is known now. -/
def State.fetchedEnd (s : State) (a : AxisId) (r : Run) : Nat :=
  let end_ (idle : Bool) (t : Nat) (f : Fetched) := s.startAfter idle t (waitEnd f.wait) + f.dur
  match r.fetched with
  | [] => r.endT
  | f :: rest => rest.foldl (end_ false) (end_ ((s.ax a).pro.idleRun r) r.endT f)

/-- Where the entries fetched of a run end, the WAIT_STAMP entries with them. -/
def State.runEnd (s : State) (a : AxisId) (r : Run) : Nat := max (s.fetchedEnd a r) (waitEnd r.wait)

/-- Where the next entry of a run starts, as far as it is known now. -/
def State.runNext (s : State) (a : AxisId) (r : Run) : Nat :=
  s.startAfter (r.fetched.isEmpty && (s.ax a).pro.idleRun r) (s.fetchedEnd a r) (waitEnd r.wait)

/-- The start of the entry at which a run continues (R107): control entries before it are passed as the run will pass them,
over at most `n` of them; none where one of them holds a double-bit error. -/
def State.contStart (a : AxisId) (r : Run) :
    Nat → Option (Nat × Nat) → List (Nat × Nat × Nat) → State → Option Nat × State
  | 0, _, _, s => (some (s.runNext a r), s)
  | _ + 1, none, _, s => (some (s.runNext a r), s)
  | n + 1, some pos, loops, s =>
    match s.normAt a pos with
    | none => (some (s.runNext a r), s)
    | some (b, i) =>
      let (ue, s) := s.readEntry r.hdr a b i
      if ue then (none, s)
      else
        let e := s.entryAt b i
        let after : Option (Nat × Nat) := if e.last then none else some (b, i + 1)
        if e.waitStamp then (some (max (s.runNext a r) (extend s.net e.dur)), s)
        else if e.loopTo then
          match s.findSeg r.hdr a e.pos.toNat (r.first, 0), loopStep loops (b, i) e.vel.toNat with
          | (.at_ t, s), some (again, loops) => State.contStart a r n (if again then some t else after) loops s
          | (.ecc, s), _ => (none, s)
          | (_, s), _ => (some (s.runNext a r), s)
        else (some (s.runNext a r), s)

/-- A LOOP_TO entry is resolved (R106, R107). A search for its target that meets a link out of the axis's blocks finds no
target, so the entry fails its check (Table 4-3), and no POOL_CHAIN is recorded (DESIGN CHOICE, log 64). -/
def State.fetchLoop (s : State) (a : AxisId) (r : Run) (e : Entry) (b i : Nat) (after lastAt : Option (Nat × Nat)) :
    FetchRes × State :=
  match s.findSeg r.hdr a e.pos.toNat (r.first, 0), loopStep r.loops (b, i) e.vel.toNat with
  | (.at_ t, s), some (again, loops) =>
    let next := if again then some t else after
    let r' := { r with loops := loops, controls := r.controls + 1, next := next, lastAt := if again then r.lastAt else lastAt }
    if e.event then
      match State.contStart a r 256 next loops s with
      | (some w, s) => (.ok r' [⟨false, some (e.segid, b, w)⟩], s)
      | (none, s) => (.ecc, s)
    else (.ok r' [], s)
  | (.ecc, s), _ => (.ecc, s)
  | (_, s), _ => (.bad e.segid b, s)

/-- A WAIT_STAMP entry is resolved: it is waited for unless the entry before it ends later (R105, R107) (DEDUCED,
log 39). -/
def State.fetchWait (s : State) (a : AxisId) (r : Run) (e : Entry) (b i : Nat) (after lastAt : Option (Nat × Nat)) :
    FetchRes :=
  let w := extend s.net e.dur
  let late := decide (w < s.runEnd a r)
  let r' := { r with wait := if late then r.wait else r.wait ++ [⟨w, e.segid, b, i, r.loops⟩]
                     controls := r.controls + 1, next := after, lastAt := lastAt }
  .ok r' [⟨late, if e.event then some (e.segid, b, s.runNext a r') else none⟩]

/-- A motion or dwell entry is checked against the state it starts from (R88, R104). -/
def State.fetchMotion (s : State) (a : AxisId) (r : Run) (e : Entry) (b i : Nat) (after lastAt : Option (Nat × Nat)) :
    FetchRes :=
  if (if e.dwell then s.dwellOk a r.endP else s.kinOk a e r.endP r.endV) then
    let f : Fetched :=
      { block := b, index := i, segid := e.segid, flags := e.flags % 64, dur := e.dur
        endP := if e.dwell then r.endP else e.pos, endV := if e.dwell then 0 else e.velQ, dwell := e.dwell
        loops := r.loops, wait := r.wait }
    .ok { r with fetched := r.fetched ++ [f], endP := f.endP, endV := f.endV
                 wait := [], controls := 0, next := after, lastAt := lastAt } []
  else .bad e.segid b

/-- One entry of a run is fetched, checked and, where it is a control entry, resolved (R88, R103 to R109). -/
def State.fetchOne (s : State) (a : AxisId) (r : Run) : FetchRes × State :=
  match r.next with
  | none => (.ok r [], s)
  | some (b0, i0) =>
    let d := s.blk b0
    if 8 ≤ i0 ∧ d.nextv = false then
      let (ue, s) := s.readEntry r.hdr a b0 7
      (if ue then .ecc else .bad (s.entryAt b0 7).segid b0, s)
    else if 8 ≤ i0 ∧ (s.blk d.next).owner ≠ axisOwner a then
      (.chain d.next, s)
    else
      let (b, i) := if 8 ≤ i0 then (d.next, 0) else (b0, i0)
      let (ue, s) := s.readEntry r.hdr a b i
      if ue then (.ecc, s)
      else
        let e := s.entryAt b i
        let after : Option (Nat × Nat) := if e.last then none else some (b, i + 1)
        let lastAt := if e.last then some (b, i) else r.lastAt
        if !e.staticOk then (.bad e.segid b, s)
        else if e.control && decide (256 ≤ r.controls) then (.bad e.segid b, s)
        else if (e.control || e.dwell) && r.endV != 0 then (.bad e.segid b, s)
        else if e.loopTo then s.fetchLoop a r e b i after lastAt
        else if e.waitStamp then (s.fetchWait a r e b i after lastAt, s)
        else (s.fetchMotion a r e b i after lastAt, s)

/-- The entries checked when a SEG_RUN is taken: at most `n`, up to LAST (R103). -/
def State.precheck (a : AxisId) : Nat → Run → List Note → State → FetchRes × State
  | 0, r, ns, s => (.ok r ns, s)
  | n + 1, r, ns, s =>
    if r.next.isNone then (.ok r ns, s)
    else match s.fetchOne a r with
      | (.ok r ms, s) => State.precheck a n r (ns ++ ms) s
      | (e, s) => (e, s)

/-! ## Committing -/

/-- What a SEGMENT item shows in a trace entry: a segment that was cut, its end where it is cut (R121). -/
def Seg.payload (g : Seg) : List Byte :=
  bytesOf 1 g.flags ++ bytesOf 5 g.dur ++ bytesS 6 (roundAway g.endState.1) ++ bytesS 4 g.endState.2.floor

def State.traceSeg (s : State) (a : AxisId) (g : Seg) : State := s.trace ⟨g.start, g.hdr, a.val, 1, false, g.payload⟩

/-- State at the end of what is committed. -/
def Pro.tail (p : Pro) : Rat × Rat :=
  match p.segs.getLast? with
  | some g => g.endState
  | none => (p.pos, 0)

/-- A segment is committed to the look-ahead queue (R90). -/
def State.pushSeg (s : State) (a : AxisId) (g : Seg) : State :=
  let x := s.ax a
  let s := (s.setPro a { x.pro with segs := x.pro.segs ++ [g] }).setStp a (x.stp.push g)
  (s.traceSeg a g).syncHold a

/-- A planned phase as a segment that starts at `start` (R90, R94). -/
def Pro.planned (p : Pro) (start : Nat) (splice : Bool) (hdr : Hdr) (q : PlanSeg) (last : Bool) : Seg :=
  let t := p.tail
  { start := start, dur := q.dur, p0 := t.1, v0 := t.2, p1 := q.endP, v1 := q.endV, flags := 0
    hdr := { hdr with segid := 0, segv := false }, block := 0, index := 0, loops := [], phase := q.phase
    splice := splice, entered := false, soft := q.soft, last := last, wait := [], full := q.dur }

/-- The trajectory in force is truncated at `ts` and every later segment removed (R91, R92). -/
def State.cutAt (s : State) (a : AxisId) (ts : Nat) : State :=
  let x := s.ax a
  let keep := x.pro.segs.filter fun g => decide (g.start < ts)
  let segs := keep.map fun g => { g with dur := min g.dur (ts - g.start) }
  let pos := if segs.isEmpty then (x.pro.at ts).1 else x.pro.pos
  let s := (s.setPro a { x.pro with segs := segs, plan := [], pos := pos }).setStp a (x.stp.cut ts)
  match keep.getLast?, segs.getLast? with
  | some g, some h => if g.dur = h.dur then s else s.traceSeg a h
  | _, _ => s

/-- The deceleration limit of a velocity move's or cruise's soft stop. -/
def Motion.velD : Motion → Option Rat
  | .vel _ _ _ d => some d
  | .cruise _ d => some d
  | _ => none

/-- Commit a segment of a velocity move or cruise, which a soft limit may cut: the approach is committed, and the stop is
then what is left of the plan (R100). A stop of no length ends the move at once. -/
def State.pushVel (s : State) (a : AxisId) (d : Rat) (g : Seg) : State :=
  match (if g.soft then none else s.softPoint a d g) with
  | none => s.pushSeg a g
  | some k =>
    let (p, v) := g.eval (k : Nat)
    let stop := softStop (s.limitAhead a (decide (0 < (if g.v0 ≠ 0 then g.v0 else g.v1)))) d p v
    let pr := (s.ax a).pro
    match stop with
    | q :: r =>
      if k = 0 then (s.setPro a { pr with plan := r }).pushSeg a (pr.planned g.start g.splice g.hdr q false)
      else (s.setPro a { pr with plan := stop }).pushSeg a { g with dur := k, last := false }
    | [] =>
      let ids := match pr.motion with | .vel c _ _ _ => [(c, Status.outOfRange)] | _ => []
      let s := s.setPro a { pr with plan := [], motion := .stop false, atRest := pr.atRest ++ ids }
      (s.flag (Reg.proStat a) 19).raiseC0 10 0x20 (.axis a)

/-- Where the next segment of a plan starts: at the end of what is committed, or a lead from now. -/
def State.nextStart (s : State) (a : AxisId) : Nat :=
  match (s.ax a).pro.segs.getLast? with
  | some g => g.endTick
  | none => s.net + s.lead

/-- Look-ahead has room for one more segment (R90). -/
def Axis.room (x : Axis) : Bool :=
  decide ((x.pro.segs.filter fun g => !g.entered).length < 16) && decide (x.stp.segs.length < 17)

/-- Commit the first phase of the plan; `splice` where it replaces a trajectory. -/
def State.commitPhase (s : State) (a : AxisId) (start : Nat) (splice : Bool) (hdr : Hdr) : State :=
  let p := (s.ax a).pro
  match p.plan with
  | [] => s
  | q :: r =>
    let s := s.setPro a { p with plan := r }
    let last := r.isEmpty && (match p.motion with | .vel _ vt _ _ => q.endV == vt && !q.soft | _ => false)
    let g := p.planned start splice hdr q last
    match p.motion.velD with
    | some d => s.pushVel a d g
    | none => s.pushSeg a g

/-- Commit a cruise segment (R99). -/
def State.commitCruise (s : State) (a : AxisId) (start : Nat) (splice : Bool) (hdr : Hdr) (vt d : Rat) : State :=
  let p := (s.ax a).pro
  let e := p.exact + vt
  let g := p.planned start splice hdr ⟨tickHz, roundAway e, vt, .vel, false⟩ false
  (s.setPro a { p with exact := e }).pushVel a d g

/-- Commit a fetched entry (R90, R104, R105); not more than 1 ms before the stamp it waits for. `base` is the splice
instant of the run's first segment. A stamp that the start of the entries before it has overtaken since the fetch is late
(log 39). -/
def State.commitEntry (s : State) (a : AxisId) (r : Run) (f : Fetched) (rest : List Fetched) (base : Option Nat) : State :=
  let p := (s.ax a).pro
  let prev := base.getD ((p.segs.getLast?.map Seg.endTick).getD r.endT)
  let w := waitEnd f.wait
  let start := s.startAfter (base.isNone && p.segs.isEmpty) prev w
  if s.net + 400000 < w && decide (prev < w) then s
  else
    let s := if f.wait.any fun v => decide (v.at_ < prev) then s.flag (Reg.proStat a) 17 else s
    let t := p.tail
    let g : Seg :=
      { start := start, dur := f.dur, p0 := t.1, v0 := t.2, p1 := if f.dwell then t.1 else f.endP, v1 := f.endV
        flags := f.flags, hdr := { r.hdr with segid := f.segid, segv := true }, block := f.block, index := f.index
        loops := f.loops, phase := if f.dwell then .dwell else .table, splice := (base.isSome && start == prev) || (p.segs.isEmpty && start != w)
        entered := false, soft := false, last := false, wait := if start = w then f.wait else [], full := f.dur }
    (s.setPro a { p with run := some { r with fetched := rest, endT := g.endTick } }).pushSeg a g

/-! ## The end of a motion -/

/-- The run's blocks are in use no more (R72). -/
def State.closeRun (s : State) (a : AxisId) : State :=
  let p := (s.ax a).pro
  match p.run with
  | none => s
  | some r => (s.setInuse (r.blocks.filter fun k => (s.blk k).owner == axisOwner a) false).setPro a { p with run := none }

/-- A WAIT_STAMP entry that ends the run ends once its stamp has passed (R108). -/
def State.passWait (s : State) (a : AxisId) : State :=
  let p := (s.ax a).pro
  match p.run with
  | some r =>
    if r.next.isNone && r.fetched.isEmpty && r.wait.all fun w => decide (w.at_ ≤ s.net) then
      s.setPro a { p with run := some { r with wait := [] } }
    else s
  | none => s

/-- Nothing of the trajectory is left. -/
def Pro.finished (p : Pro) : Bool :=
  p.segs.isEmpty && p.plan.isEmpty &&
  (match p.motion with
   | .vel _ vt _ _ => vt == 0
   | .cruise vt _ => vt == 0
   | .table _ => match p.run with
     | some r => r.next.isNone && r.fetched.isEmpty && r.wait.isEmpty && !(r.bad && r.endV != 0) && !r.awaits
     | none => true
   | _ => true)

/-- The axis has come to rest (R46, R108, R112, R113, R116): commands complete, HOLDING or FAULTED. -/
def State.settle (s : State) (a : AxisId) : State :=
  let x := s.ax a
  let p := x.pro
  if !p.finished || x.st == AxState.following || x.stp.follow.isSome then s
  else
    let own : List (Nat × Status) := match p.motion with
      | .move c _ _ _ _ => [(c, .done)]
      | .vel c _ _ _ => [(c, .done)]
      | .table c => [(c, if (p.run.map Run.bad).getD false then .outOfRange else .done)]
      | _ => []
    let keep := match p.susp with | .table _ => true | _ => false
    let s := if keep then s else s.closeRun a
    let s := s.modAx a fun x => { x with
      pro := { x.pro with motion := .idle, atRest := [], faultAtRest := false }
      st := if x.st = .moving ∨ x.st = .stopping then (if p.faultAtRest then .faulted else .holding) else x.st
      fault := if p.faultAtRest then { x.fault with acting := false } else x.fault }
    let s := (own ++ p.atRest).foldl (fun s c => if c.2 = .done then s.done c.1 else s.fail c.1 c.2 0 0 s.net) s
    (s.syncLoops a).syncHold a

/-- A motion ends where it stands, the axis being at rest: what is committed is dropped (R95, Table 4-6). -/
def State.cutNow (s : State) (a : AxisId) : State :=
  let pos := (s.traj a).1
  let s := s.cutAt a s.net
  let x := s.ax a
  (s.setPro a { x.pro with segs := [], pos := pos, plan := [] }).setStp a
    { x.stp with segs := [], solvedTo := 0, prevEdge := none }

/-- The axis stands still until a tick, whatever is committed. -/
def State.restsUntil (s : State) (a : AxisId) (t : Nat) : Bool :=
  (s.ax a).pro.segs.all fun g => !g.moving || decide (t ≤ g.start)

/-! ## Superseding -/

/-- The motion commands of an axis that run or are suspended. -/
def State.motionCmds (s : State) (a : AxisId) : List Nat :=
  (s.tags.filter fun c => c.on a && opMotion c.op && (c.place == Place.running || c.place == Place.suspended)).map Cmd.id

/-- When a command was taken. -/
def State.takenAt (s : State) (id : Nat) : Nat := ((s.cmd id).map Cmd.taken).getD s.net

/-- A command takes over the trajectory: the motion commands that ran or were suspended end (R64, R112). -/
def State.supersede (s : State) (a : AxisId) (id : Nat) : State :=
  let t := s.takenAt id
  let s := ((s.motionCmds a).filter fun j => j != id).foldl (fun s j => s.fail j .superseded 0 (s.tagOf id) t) s
  (s.setPro a { (s.ax a).pro with susp := .none }).closeRun a

/-- A motion command begins to execute: STARTED, MOVING; the stall detection is armed (R231). -/
def State.beginMotion (s : State) (a : AxisId) (id : Nat) : State :=
  ((((s.supersede a id).sendStarted id).rearm a).setSt a .moving).syncLoops a

/-! ## Plans (R91) -/

/-- The header of the command a plan is for. -/
def State.cmdHdr (s : State) (id : Option Nat) : Hdr :=
  match id.bind s.cmd with
  | some c => c.hdr
  | none => Hdr.module

/-- The stop appended where a run's last good entry ends in motion (R109). -/
def State.appendStop (s : State) (a : AxisId) (r : Run) : State :=
  let p := (s.ax a).pro
  let t := p.tail
  let d := s.proQ a 4
  let plan := planStop t.1 t.2 (if d ≤ 0 then s.edec a else min d (s.edec a)) .stop
  (s.setPro a { p with plan := plan, run := some { r with endV := 0 } }).commitPhase a (s.nextStart a) false r.hdr

/-- One step of PRO's work for an axis: the next phase, the next cruise segment or the next entry. -/
def State.commitStep (s : State) (a : AxisId) : State :=
  let x := s.ax a
  let p := x.pro
  let hdr := match p.segs.getLast? with
    | some g => g.hdr
    | none => s.axisHdr a
  if !x.room then s
  else if !p.plan.isEmpty then s.commitPhase a (s.nextStart a) p.segs.isEmpty hdr
  else match p.motion with
    | .vel _ vt _ d | .cruise vt d =>
      if vt = 0 || (p.segs.getLast?.map Seg.soft).getD false then s
      else s.commitCruise a (s.nextStart a) false hdr vt d
    | .table _ =>
      match p.run with
      | none => s
      | some r =>
        match r.fetched with
        | f :: rest => s.commitEntry a r f rest none
        | [] => if r.bad && !r.awaits && r.endV != 0 && !p.segs.isEmpty then s.appendStop a r else s
    | _ => s

/-- What is committed ends before `ts`, and in motion. -/
def Pro.endsMoving (p : Pro) (ts : Nat) : Bool :=
  match p.segs.getLast? with
  | some g => decide (g.endTick < ts) && decide (g.endState.2 ≠ 0)
  | none => false

/-- PRO commits, over at most `n` segments, what the trajectory in force still needs to reach `ts`. -/
def State.commitTo (a : AxisId) (ts : Nat) : Nat → State → State
  | 0, s => s
  | n + 1, s => if (s.ax a).pro.endsMoving ts then State.commitTo a ts n (s.commitStep a) else s

/-- The trajectory that a splice at `ts` finds: where PRO has nothing more to commit before `ts`, the last segment in motion
is followed by the emergency stop of R118. -/
def State.reach (s : State) (a : AxisId) (ts : Nat) : State :=
  let s := State.commitTo a ts 16 s
  let p := (s.ax a).pro
  if p.endsMoving ts then
    match planStop p.tail.1 p.tail.2 (s.edec a) .estop with
    | [] => s
    | q :: _ => s.pushSeg a (p.planned (s.nextStart a) false (s.axisHdr a) q false)
  else s

/-- The time PRO takes to its commit is drawn (log 40). -/
def State.drawn (s : State) : State := { s with draws := s.draws + 1 }

/-- Where the plan of a command that is taken now comes into force, when PRO commits it, and the trajectory that the splice
finds (R91, Table 4-4): at the command's stamp where the trajectory in force reaches back to it, or a planning lead after
the commit. The time PRO takes is free below the bound of Table 4-4 (DEDUCED, log 40). -/
def State.spliceAt (s : State) (a : AxisId) (at_ : Option Nat) : Nat × Nat × State :=
  let commit := s.net + Config.commitDelay s.draws % (if s.slowLevel then 2401 else 1201)
  let ts := match at_ with
    | some t =>
      if decide (s.net ≤ t) || (match (s.ax a).pro.segs with | [] => true | g :: _ => decide (g.start ≤ t)) then t
      else commit + s.lead
    | none => commit + s.lead
  (ts, commit, s.drawn.reach a ts)

/-- Put a plan in force from `ts`: truncate, commit its first phase (R91). -/
def State.putPlan (s : State) (a : AxisId) (ts : Nat) (m : Motion) (hdr : Hdr) (plan : List PlanSeg) (exact : Rat) : State :=
  let s := s.cutAt a ts
  let s := s.setPro a { (s.ax a).pro with motion := m, plan := plan, exact := exact }
  let s := match plan, m with
    | [], .vel _ vt _ d => if vt = 0 then s else s.commitCruise a ts true hdr vt d
    | _, _ => s.commitPhase a ts true hdr
  s.settle a

/-- A failing entry during a run (R109): flag, BAD_SEG, notice; what was fetched is the rest of the run. -/
def State.badEntry (s : State) (a : AxisId) (r : Run) (segid block : Nat) (note awaits : Bool) : State :=
  let p := (s.ax a).pro
  let s := s.setPro a { p with run := some { r with bad := true, awaits := awaits, next := none, wait := [] } }
  if note then
    ((s.flag (Reg.proStat a) 18).setReg (proPar a 0x19) (BitVec.ofNat 32 (segid + block * 0x10000))).raiseC0 10 0x21 (.axis a)
  else s

/-- What a fetch in a run comes to (R78, R81, R109): under a class of C1 or above the class action ends the run. Below it
the record of a broken chain names entry 0 of the block that the link leads to (R78 names none: DESIGN CHOICE, log 58). Where
POOL_ECC_UE is assigned C0 the spec names no end: the run stops after the last entry that passed and completes with
OUT_OF_RANGE at rest, without SEG_INVALID or BAD_SEG (DESIGN CHOICE, log 64). -/
def State.fetched (s : State) (a : AxisId) (f : FetchRes) (r : Run) : State :=
  match f with
  | .ok r ns => (s.setPro a { (s.ax a).pro with run := some r }).noteAll a ns
  | .bad segid block => s.badEntry a r segid block true false
  | .chain block =>
    if s.classOf 0x12 ≠ 0 then (s.badEntry a r 0 block false true).raiseAx 10 0x12 0 a
    else
      let (ue, s) := s.readEntry r.hdr a block 0
      let segid := if ue then 0 else (s.entryAt block 0).segid
      let s := (s.badEntry a r segid block true (ue && decide (s.classOf 0x1b ≠ 0))).raiseAx 10 0x12 0 a
      if ue then s.raiseAx 9 0x1b 0 a else s
  | .ecc => (s.badEntry a r 0 0 false (decide (s.classOf 0x1b ≠ 0))).raiseAx 9 0x1b 0 a

/-- A command meets a double-bit error in a table (Table 3-5): the cause, whose class action ends the command; below C1 the
command is refused. -/
def State.tableUe (s : State) (a : AxisId) (id : Nat) : State :=
  (if s.classOf 0x1b = 0 then s.fail id .outOfRange 0 0 s.net else s).raiseAx 9 0x1b 0 a

/-- A run begins: its blocks are INUSE, its first segment starts at `ts` (R72, R91, R103). -/
def State.beginRun (s : State) (a : AxisId) (ts id : Nat) (r : Run) (ns : List Note) : State :=
  let s := ((s.beginMotion a id).setInuse r.blocks true).cutAt a ts
  let s := (s.setPro a { (s.ax a).pro with motion := .table id, run := some r, plan := [] }).noteAll a ns
  let s := match r.fetched with
    | f :: rest => s.commitEntry a r f rest (some ts)
    | [] => s
  s.settle a

/-- A SEG_RUN is planned: its first entries are checked from the state (p0, v0) at `ts` (R103). A refused one leaves the
trajectory in force as it is. -/
def State.planTable (s : State) (a : AxisId) (ts : Nat) (p0 v0 : Rat) (block : Nat) (fromId : Option Nat) (id : Nat) :
    State :=
  match (match fromId with
    | none => (.at_ (block, 0), s)
    | some q => s.findSeg (s.cmdHdr (some id)) a q (block, 0) : Found × State) with
  | (.missing, s) => s.fail id .outOfRange 0 0 s.net
  | (.ecc, s) => s.tableUe a id
  | (.at_ pos, s) =>
    let r : Run :=
      { cmd := id, hdr := s.cmdHdr (some id), first := block, next := some pos, lastAt := none, loops := [], controls := 0
        fetched := [], endP := p0, endV := v0, endT := ts, wait := [], cur := none, bad := false, awaits := false
        blocks := s.chainOf a 32768 [] block, rejoining := false, rejoinAt := none, rejoinP := 0, rejoinLoops := [] }
    match State.precheck a 16 r [] s with
    | (.ok r ns, s) => (s.reach a ts).beginRun a ts id r ns
    | (.ecc, s) => s.tableUe a id
    | (_, s) => s.fail id .outOfRange 0 0 s.net

/-- The deceleration limit of the running motion command, or DEC if none runs (R111). -/
def State.stopLimit (s : State) (a : AxisId) : Rat :=
  match (s.ax a).pro.motion with
  | .move _ _ _ _ d => d
  | .vel _ _ _ d => d
  | _ => s.proQ a 4

/-- A stop comes into force at `ts` (R111). -/
def State.planStopAt (s : State) (a : AxisId) (ts : Nat) (emergency : Bool) (hdr : Hdr) : State :=
  let p := (s.ax a).pro
  let (p0, v0) := p.at ts
  let d := if emergency then s.edec a else stopDecel (s.stopLimit a) (p.slowing ts) (s.edec a)
  s.putPlan a ts (.stop emergency) hdr (planStop p0 v0 d (if emergency then .estop else .stop)) 0

/-- SEGMENT_COMMIT: PRO commits one segment (R90). -/
def execSegmentCommit (dt : Nat) (a : AxisId) (s : State) : Res :=
  .next <|
    let s := s.advance dt
    if s.gateOn 3 then s.commitStep a else s

/-- ENTRY_FETCH: the next entry of the run, as look-ahead allows (R88, R103 to R109). -/
def execEntryFetch (dt : Nat) (a : AxisId) (s : State) : Res :=
  .next <|
    let s := s.advance dt
    let p := (s.ax a).pro
    match p.motion, p.run with
    | .table _, some r =>
      if r.bad || r.next.isNone || decide (16 ≤ r.fetched.length + (p.segs.filter fun g => !g.entered && g.hdr.segv).length) then s
      else
        let (f, s) := s.fetchOne a r
        ((s.fetched a f r).passWait a).settle a
    | _, _ => s

/-! ## Boundaries -/

/-- A MOVE_VEL's own first segment already runs at its target velocity. -/
def State.cruises (s : State) (g : Seg) (c : Nat) (vt : Rat) : Bool :=
  g.splice && decide (g.v0 = vt) && decide (g.v1 = vt) && g.hdr.tag == s.tagOf c

/-- The segment that comes into force is of the plan in force: a stop makes the axis STOPPING, the stop onto a soft limit
ends a MOVE_VEL (R100), and one that starts at its target velocity completes (R99) (DEDUCED, log 59). -/
def State.enterPlan (s : State) (a : AxisId) (g : Seg) : State :=
  let p := (s.ax a).pro
  let s := if g.phase == Phase.stop || g.phase == Phase.estop then s.setSt a .stopping else s
  match p.motion with
  | .vel c vt _ d =>
    if g.soft then (s.setPro a { p with motion := .stop false }).fail c .outOfRange 0 0 s.net
    else if s.cruises g c vt then (s.setPro a { p with motion := .cruise vt d }).done c
    else s
  | .cruise _ _ => if g.soft then s.setPro a { p with motion := .stop false } else s
  | _ => s

/-- A segment table is in force, the move to its rejoin entry included. -/
def Motion.isTable : Motion → Bool
  | .table _ => true
  | _ => false

/-- The head segment comes into force; an emergency stop that no plan put there is that of R118. A run that a HOLD suspends
keeps where it rejoins (R115). -/
def State.enter (s : State) (a : AxisId) : State :=
  let p := (s.ax a).pro
  match p.segs with
  | [] => s
  | g :: r =>
    if g.entered || decide (s.net < g.start) then s
    else
      let s := s.setPro a { p with segs := { g with entered := true } :: r }
      let s := if g.flags / 8 % 2 = 1 then s.eventEntry a g.hdr.segid g.block g.start else s
      let s := if g.hdr.segv then
          let pr := (s.ax a).pro
          s.setPro a { pr with run := pr.run.map fun q => { q with
            cur := some (g.block, g.index, g.loops), rejoining := q.rejoining && !pr.motion.isTable } }
        else s
      let s := if g.moving then s.endHold a else s
      let s := if g.phase == Phase.estop && !g.splice then (s.flag (Reg.proStat a) 20).raiseAx 10 0x11 0 a else s
      let s := if r.any Seg.splice then s else s.enterPlan a g
      if g.soft then (s.flag (Reg.proStat a) 19).raiseC0 10 0x20 (.axis a) else s

/-- The head segment has ended: the axis stands at its end (R99, R118, Table 4-6). -/
def State.popSeg (s : State) (a : AxisId) (g : Seg) : State :=
  let p := (s.ax a).pro
  let s := s.setPro a { p with segs := p.segs.drop 1, pos := g.endState.1 }
  let crossed := (g.phase == Phase.stop || g.phase == Phase.estop) && s.inLimits a g.p0 && !s.inLimits a g.endState.1
  let s := if crossed then s.raiseC0 10 0x20 (.axis a) else s
  if g.last && g.dur == g.full && !(p.segs.drop 1).any Seg.splice then
    match p.motion with
    | .vel c vt _ d => if vt = 0 then s else (s.setPro a { (s.ax a).pro with motion := .cruise vt d }).done c
    | _ => s
  else s

/-- PRO has committed nothing to follow a segment that has ended (R118). Where PRO_STARVED is assigned C0 no class action
ends the motion command: it completes with INTERNAL_ERROR at rest (the spec names no status: DESIGN CHOICE, log 64). -/
def State.starved (s : State) (a : AxisId) (g : Seg) : State :=
  let x := s.ax a
  let p := x.pro
  let s := s.flag (Reg.proStat a) 20
  let v := g.endState.2
  if v = 0 then s
  else
    let own : List (Nat × Status) := match p.motion with
      | .move c _ _ _ _ => [(c, .internalError)]
      | .vel c _ _ _ => [(c, .internalError)]
      | .table c => [(c, .internalError)]
      | _ => []
    match planStop g.endState.1 v (s.edec a) .estop with
    | [] => s
    | q :: _ =>
      let h := { p.planned g.endTick false { g.hdr with segv := false } q false with p0 := g.endState.1, v0 := v, entered := true }
      let s := (s.setPro a { p with motion := .stop true, plan := [], atRest := own ++ p.atRest }).setSt a .stopping
      (s.pushSeg a h).raiseAx 10 0x11 0 a

/-- SPLICE: the first segment of a new plan comes into force (R91). -/
def execSplice (dt : Nat) (a : AxisId) (s : State) : Res :=
  .next <|
    let s := s.advance dt
    let p := (s.ax a).pro
    match p.segs with
    | g :: r =>
      if g.splice && !g.entered then s.enter a
      else match r with
        | h :: _ =>
          if h.splice && !h.entered && g.entered && decide (g.endTick ≤ h.start) && decide (h.start ≤ s.net) then
            (s.popSeg a g).enter a
          else s
        | [] => s
    | [] => s

/-- SEGMENT_END: the segment in force ends; the next comes into force, or the motion ends (R108, R118). -/
def execSegmentEnd (dt : Nat) (a : AxisId) (s : State) : Res :=
  .next <|
    let s := s.advance dt
    let p := (s.ax a).pro
    match p.segs with
    | [] => s
    | g :: r =>
      if !g.entered || decide (s.net < g.endTick) then s
      else match r with
        | h :: _ =>
          if h.splice && h.start == g.endTick then s
          else if h.start = g.endTick then ((s.popSeg a g).syncHold a).enter a
          else (s.popSeg a g).syncHold a
        | [] =>
          let s := (s.popSeg a g).passWait a
          let p := (s.ax a).pro
          if p.finished then s.settle a
          else
            let waits := match p.motion, p.run with
              | .table _, some q =>
                q.awaits || decide (s.net < waitEnd ((q.fetched.head?.map Fetched.wait).getD q.wait))
              | _, _ => false
            if waits && g.endState.2 == 0 then s.syncHold a else s.starved a g

/-- WAIT_STAMP_REACHED: the stamp awaited has come: the entry that waited for it starts, or the run ends (R105, R108). -/
def execWaitStampReached (dt : Nat) (a : AxisId) (s : State) : Res :=
  .next <|
    let s := s.advance dt
    let p := (s.ax a).pro
    match p.segs with
    | g :: _ => if g.wait.isEmpty then s else s.enter a
    | [] =>
      match p.motion, p.run with
      | .table _, some _ =>
        let s := s.passWait a
        if ((s.ax a).pro.run.map Run.wait).getD [] == [] then s.settle a else s
      | _, _ => s

end Sys2Proof.Machine
end

