-- ==== Sys2Proof/Machine/Motion.lean ====
section
/-! DEFINITION. The motion commands as the axis sequencer takes them (chapters 02, 04 and 05), and the PRO parameters. -/

namespace Sys2Proof.Machine

/-! ## Moves -/

/-- A move or velocity move is planned from the state at the splice instant; with NO_REVERSE, one that needs a reversal is
refused and the trajectory in force is left as it is (R64, R93 to R99). -/
def State.askMotion (s : State) (a : AxisId) (q : PlanReq) (id : Nat) (at_ : Option Nat) : State :=
  let s0 := s.drawn
  let (ts, _, s) := s.spliceAt a at_
  let (p0, v0) := (s.ax a).pro.at ts
  let hdr := s.cmdHdr (some id)
  match q with
  | .move x v acc dec noRev =>
    if noRev && needsReversal p0 v0 x dec then s0.fail id .outOfRange 8 0 s0.net
    else
      let s := s.beginMotion a id
      (s.setPro a { (s.ax a).pro with target := x }).putPlan a ts (.move id x v acc dec) hdr (planMove p0 v0 x v acc dec) 0
  | .vel vt acc dec noRev =>
    if noRev && decide (v0 * vt < 0) then s0.fail id .outOfRange 6 0 s0.net
    else
      let (plan, e) := planVel p0 v0 vt acc dec
      (s.beginMotion a id).putPlan a ts (.vel id vt acc dec) hdr plan e
  | .table block fromId => s0.planTable a ts p0 v0 block fromId id

/-- A move to where the axis rests commits no segment and completes at once (R95). -/
def State.moveNowhere (s : State) (a : AxisId) (id : Nat) (x : Int) : State :=
  let t := s.takenAt id
  let s := (((s.supersede a id).sendStarted id).rearm a).cutNow a
  let s := s.setPro a { (s.ax a).pro with target := x, motion := .idle }
  (s.finish id .done [] t).settle a

/-- MOVE_ABS and MOVE_REL (R45, R93 to R98). -/
def State.takeMove (s : State) (a : AxisId) (id : Nat) (rel : Bool) (ws : List Word) (at_ : Option Nat) : State :=
  match s.moveValues a rel ws with
  | .inl i => s.fail id .outOfRange i 0 s.net
  | .inr q =>
    match q with
    | .move x _ _ _ _ =>
      if s.restsUntil a (s.spliceAt a at_).1 && (s.traj a).1 == (x : Rat) then s.moveNowhere a id x
      else s.askMotion a q id at_
    | _ => s

/-- MOVE_VEL (R99). -/
def State.takeVel (s : State) (a : AxisId) (id : Nat) (ws : List Word) (at_ : Option Nat) : State :=
  match s.velValues a ws with
  | .inl i => s.fail id .outOfRange i 0 s.net
  | .inr q => s.askMotion a q id at_

/-- SEG_RUN (R77, R101, R103). SLBAD is checked before the owner of the block: the spec gives no order (DESIGN CHOICE,
log 64). -/
def State.takeRun (s : State) (a : AxisId) (id : Nat) (ws : List Word) (at_ : Option Nat) : State :=
  let b := (wordAt ws 0).fld 0 15
  if s.slBad a then s.fail id .outOfRange 0 0 s.net
  else if (s.blk b).owner ≠ axisOwner a then s.fail id .notOwner 0 0 s.net
  else s.askMotion a (.table b (if (wordAt ws 1).bit 16 then some ((wordAt ws 1).fld 0 16) else none)) id at_

/-- SET_POSITION (R102, R123, R209): a sample on its way is moved with the commanded position, so that its evaluation finds
the following error unchanged. -/
def State.takeSetPosition (s : State) (a : AxisId) (id : Nat) (ws : List Word) : State :=
  let x := s48 (wordAt ws 0) (wordAt ws 1)
  if s.slBad a || !s.inLimits a (x : Rat) then s.fail id .outOfRange 0 0 s.net
  else
    let ax := s.ax a
    let d := x - roundAway ax.pro.pos
    let enc := (s.loopCfg a).encoder
    (s.setAx a { ax with
      pro := { ax.pro with pos := x }
      stp := { ax.stp with q := ax.stp.q + d, qRel := ax.stp.qRel + d }
      loop := if enc then { ax.loop with ofs := ax.loop.ofs + d, pMeas := ax.loop.pMeas + d } else ax.loop
      sample := ax.sample.map fun m => { m with cpos := m.cpos + d } }).done id

/-! ## Stops -/

/-- The axis, at rest, stops where it is: what it was to run is dropped (Table 4-6). -/
def State.stopHere (s : State) (a : AxisId) : State :=
  let s := (s.setSt a .stopping).cutNow a
  (s.setPro a { (s.ax a).pro with motion := .idle }).settle a

/-- A stop from `ts` on; an axis that stands still until then stops where it is (R91, R111) (DEDUCED, log 40). -/
def State.stopAt (s : State) (a : AxisId) (ts : Nat) (emergency : Bool) (id : Option Nat) : State :=
  if s.restsUntil a ts then s.stopHere a
  else (s.setSt a .stopping).planStopAt a ts emergency (s.cmdHdr id)

/-- A stop at the stamp of its command, or a planning lead after the commit. -/
def State.askStop (s : State) (a : AxisId) (emergency : Bool) (id at_ : Option Nat) : State :=
  let (ts, _, s) := s.spliceAt a at_
  s.stopAt a ts emergency id

/-- An emergency stop is in force. -/
def Motion.emergency : Motion → Bool
  | .stop e => e
  | _ => false

/-- Follow mode stops at once: microsteps not yet released are purged, and no pulse counts any more, whatever its stamp,
since the axis rests at the last released edge (R138). -/
def State.purgeFollow (s : State) (a : AxisId) : State :=
  let p := (s.ax a).stp
  match p.follow with
  | none => s
  | some f =>
    s.setStp a { p with edges := [], q := p.qRel, ep := p.epRel, lastEdge := p.lastRel
                        follow := some { f.stop 0 with derived := [] } }

/-- Follow mode stops counting (R137). -/
def State.stopCounting (s : State) (a : AxisId) : State :=
  let p := (s.ax a).stp
  match p.follow with
  | none => s
  | some f => s.setStp a { p with follow := some (f.stop s.net) }

/-- A command completes when FOLLOWING has ended. -/
def State.addEnder (s : State) (a : AxisId) (id : Nat) : State :=
  let p := (s.ax a).stp
  match p.follow with
  | none => s.done id
  | some f => s.setStp a { p with follow := some { f with enders := f.enders ++ [id] } }

/-- A command that completes when the axis is at rest. -/
def State.addAtRest (s : State) (a : AxisId) (l : List (Nat × Status)) : State :=
  let p := (s.ax a).pro
  s.setPro a { p with atRest := p.atRest ++ l }

/-- The SEG_RUN whose appended stop an emergency stop replaces still completes as R109 says. -/
def Pro.failing (p : Pro) : List (Nat × Status) :=
  match p.motion with
  | .table c => if (p.run.map Run.bad).getD false then [(c, .outOfRange)] else []
  | _ => []

/-- STOP (R111, R112, R137, R138): a stop in force is replaced only by an emergency stop. -/
def State.takeStop (s : State) (a : AxisId) (id : Nat) (emergency : Bool) (at_ : Option Nat) : State :=
  let x := s.ax a
  if x.stp.follow.isSome then
    let s := if emergency then s.purgeFollow a else s.stopCounting a
    ((s.addEnder a id).setSt a .stopping).followEnd a
  else if x.st = .stopping then
    if emergency && !x.pro.motion.emergency then (s.addAtRest a (x.pro.failing ++ [(id, .done)])).askStop a true (some id) at_
    else s.addAtRest a [(id, .done)]
  else ((s.supersede a id).addAtRest a [(id, .done)]).askStop a emergency (some id) at_

/-- What a HOLD suspends (R113). -/
def Motion.suspends : Motion → Suspended
  | .move c x v acc dec => .move c x v acc dec
  | .vel c vt acc dec => .vel c vt acc dec
  | .table c => .table c
  | _ => .none

/-- The command that is suspended. -/
def Suspended.cmd? : Suspended → Option Nat
  | .move c _ _ _ _ => some c
  | .vel c _ _ _ => some c
  | .table c => some c
  | .none => Option.none

/-- The segments of the plan that was made last: those from the last splice on. -/
def lastPlan : List Seg → List Seg
  | [] => []
  | g :: r => if r.any Seg.splice then lastPlan r else g :: r

/-- A run that was interrupted in an entry that it runs again in full, or before one. -/
def Run.heldAt (r : Run) (at_ : Nat × Nat) (loops : List (Nat × Nat × Nat)) : Run :=
  { r with next := some at_, loops := loops, fetched := [], wait := [], lastAt := none, rejoinAt := some at_, rejoining := false }

/-- A run that was interrupted at `ts` before an entry: at the WAIT_STAMP entry it waits for then, or at the entry itself. -/
def Run.heldBefore (r : Run) (ts : Nat) (wait : List WaitRec) (at_ : Nat × Nat) (loops : List (Nat × Nat × Nat)) : Run :=
  match wait.find? fun w => decide (ts < w.at_) with
  | some w => r.heldAt (w.block, w.index) w.loops
  | none => r.heldAt at_ loops

/-- A run that was interrupted in a motion entry, or after one that ended in motion: the rejoin entry is still to be found,
behind it. -/
def Run.heldIn (r : Run) (at_ : Option (Nat × Nat × List (Nat × Nat × Nat))) : Run :=
  { r with next := at_.map fun e => (e.1, e.2.1), loops := (at_.map fun e => e.2.2).getD r.loops, fetched := [], wait := []
           lastAt := none, rejoinAt := none, rejoining := false }

/-- The table entry that is in force at `ts`, or was last: block, entry, counters. -/
def Pro.tableAt (p : Pro) (r : Run) (ts : Nat) : Option (Nat × Nat × List (Nat × Nat × Nat)) :=
  match ((lastPlan p.segs).filter fun g => g.hdr.segv && decide (g.start ≤ ts)).getLast? with
  | some g => some (g.block, g.index, g.loops)
  | none => if r.rejoining then none else r.cur

/-- A run as it is suspended: where the stop at `ts` interrupts it (R115). A run that is still in the move to its rejoin
entry keeps it; a run whose first entry has not begun starts with it again, and one whose last entry has ended rejoins at
the end of its table (DEDUCED, log 40). -/
def Pro.interrupted (p : Pro) (ts : Nat) : Option Run :=
  p.run.map fun r =>
    let at_ := p.tableAt r ts
    match (lastPlan p.segs).filter fun g => decide (ts < g.endTick) with
    | g :: _ =>
      if !g.hdr.segv then (if r.rejoining && at_.isNone then { r with fetched := [] } else r.heldIn at_)
      else if ts < g.start then r.heldBefore ts g.wait (g.block, g.index) g.loops
      else if g.phase = .dwell then r.heldAt (g.block, g.index) g.loops
      else r.heldIn at_
    | [] =>
      if r.rejoining && at_.isNone then { r with fetched := [] }
      else match r.fetched with
        | f :: _ => r.heldBefore ts f.wait (f.block, f.index) f.loops
        | [] =>
          match r.wait.find? fun w => decide (ts < w.at_) with
          | some w => r.heldAt (w.block, w.index) w.loops
          | none =>
            if r.bad then r.heldIn at_
            else if r.next.isSome then { r with rejoinAt := r.next, lastAt := none, wait := [], rejoining := false }
            else { r with rejoining := true, rejoinAt := none, rejoinP := roundAway r.endP, rejoinLoops := r.loops
                          wait := [] }

/-- HOLD (R113): the motion command is suspended; a run that dwells or waits, at once (Table 4-6). -/
def State.takeHold (s : State) (a : AxisId) (id : Nat) (at_ : Option Nat) : State :=
  let (ts, _, s) := s.spliceAt a at_
  let p := (s.ax a).pro
  let now := (match p.motion with | .table _ => true | _ => false) && s.restsUntil a (s.net + 1)
  let ts := if now then s.net else ts
  let susp := p.motion.suspends
  let c := susp.cmd?.bind s.cmd
  let s := match c with
    | some c => s.setCmd { c with place := .suspended }
    | none => s
  let s := s.setPro a { (s.ax a).pro with susp := if c.isSome then susp else .none, run := p.interrupted ts }
  let s := s.addAtRest a [(id, .done)]
  if now then s.stopHere a else s.stopAt a ts false (some id)

/-- What the search for the rejoin entry comes to: the entry (none: the end of the table), the start position, the LOOP_TO
counters. A link that leads out of the axis's blocks ends the search without one, so that RESUME is refused and no
POOL_CHAIN is recorded (DESIGN CHOICE, log 64). -/
inductive Rejoin where
  | at_ (entry : Option (Nat × Nat)) (pos : Int) (loops : List (Nat × Nat × Nat))
  | missing
  | ecc
  deriving DecidableEq, Repr

/-- The search for the rejoin entry (R115), over at most `n` entries; `vel` and `pos` are the end of the motion entry
before. -/
def State.rejoinFrom (h : Hdr) (a : AxisId) (first : Nat) :
    Nat → Nat × Nat → Int → Int → List (Nat × Nat × Nat) → State → Rejoin × State
  | 0, _, _, _, _, s => (.missing, s)
  | n + 1, at_, vel, pos, loops, s =>
    match s.normAt a at_ with
    | none => (.missing, s)
    | some (b, i) =>
      if vel = 0 then (.at_ (some (b, i)) pos loops, s)
      else
        let (ue, s) := s.readEntry h a b i
        if ue then (.ecc, s)
        else
          let e := s.entryAt b i
          if e.loopTo then
            match s.findSeg h a e.pos.toNat (first, 0), loopStep loops (b, i) e.vel.toNat with
            | (.at_ t, s), some (true, l) => State.rejoinFrom h a first n t vel pos l s
            | (.at_ _, s), some (false, l) =>
              if e.last then (.at_ none pos l, s) else State.rejoinFrom h a first n (b, i + 1) vel pos l s
            | (.ecc, s), _ => (.ecc, s)
            | (_, s), _ => (.missing, s)
          else
            let vel' := if e.waitStamp || e.dwell then vel else e.vel
            let pos' := if e.waitStamp || e.dwell then pos else e.pos
            if e.last then (.at_ none pos' loops, s) else State.rejoinFrom h a first n (b, i + 1) vel' pos' loops s

/-- Where a suspended run rejoins its table (R115). -/
def State.rejoinPoint (s : State) (a : AxisId) (r : Run) : Rejoin × State :=
  if r.rejoining then (.at_ r.rejoinAt r.rejoinP r.rejoinLoops, s)
  else match r.rejoinAt, r.next with
    | some p, _ => (.at_ (some p) (roundAway (s.ax a).pro.pos) r.loops, s)
    | none, none => (.missing, s)
    | none, some (b, i) =>
      let (ue, s) := s.readEntry r.hdr a b i
      if ue then (.ecc, s)
      else
        let e := s.entryAt b i
        if e.last then (.at_ none e.pos r.loops, s) else State.rejoinFrom r.hdr a r.first 256 (b, i + 1) e.vel e.pos r.loops s

/-- A suspended command runs again; RESUME completes when its plan is committed, at `commit` (R114). -/
def State.resumeWith (s : State) (a : AxisId) (id c commit : Nat) : State :=
  let s := match s.cmd c with
    | some k => s.setCmd { k with place := .running }
    | none => s
  let s := s.setPro a { (s.ax a).pro with susp := .none }
  ((s.setSt a .moving).syncLoops a).finish id .done [] commit

/-- A suspended run goes on: the move to its rejoin entry, and the table from there (R115). -/
def State.resumeRun (s : State) (a : AxisId) (id c : Nat) (r : Run) (next : Option (Nat × Nat)) (pos : Int)
    (loops : List (Nat × Nat × Nat)) (at_ : Option Nat) : State :=
  let (ts, commit, s) := s.spliceAt a at_
  let (p0, v0) := (s.ax a).pro.at ts
  let plan := planMove p0 v0 pos (s.vc a) (s.proQ a 2) (s.proQ a 4)
  let r := { r with
    next := next, rejoinAt := next, rejoinP := pos, loops := loops, rejoinLoops := loops, rejoining := true, fetched := []
    endP := (pos : Rat), endV := 0, endT := ts + (plan.map PlanSeg.dur).sum, wait := [], cur := none, bad := false, awaits := false
    controls := 0, lastAt := none }
  let s := s.resumeWith a id c commit
  (s.setPro a { (s.ax a).pro with run := some r }).putPlan a ts (.table c) (s.cmdHdr (some c)) plan 0

/-- RESUME (R114, R115). -/
def State.takeResume (s : State) (a : AxisId) (id : Nat) (at_ : Option Nat) : State :=
  let p := (s.ax a).pro
  match p.susp with
  | .none => s.fail id .stateRefused 0 0 s.net
  | .move c x v acc dec =>
    let (ts, commit, s) := s.spliceAt a at_
    let (p0, v0) := (s.ax a).pro.at ts
    (s.resumeWith a id c commit).putPlan a ts (.move c x v acc dec) (s.cmdHdr (some c)) (planMove p0 v0 x v acc dec) 0
  | .vel c vt acc dec =>
    let (ts, commit, s) := s.spliceAt a at_
    let (p0, v0) := (s.ax a).pro.at ts
    let (plan, e) := planVel p0 v0 vt acc dec
    (s.resumeWith a id c commit).putPlan a ts (.vel c vt acc dec) (s.cmdHdr (some c)) plan e
  | .table c =>
    match p.run with
    | none => s.fail id .outOfRange 0 0 s.net
    | some r =>
      if s.proQ a 0 ≤ 0 ∨ s.proQ a 2 ≤ 0 ∨ s.proQ a 4 ≤ 0 then s.fail id .outOfRange 0 0 s.net
      else match s.rejoinPoint a r with
        | (.missing, s) => s.fail id .outOfRange 0 0 s.net
        | (.ecc, s) => s.tableUe a id
        | (.at_ next pos loops, s) => s.resumeRun a id c r next pos loops at_

/-- ABORT of a motion command that runs or is suspended (R65, R116, Table 4-6); `ab` completes with it. -/
def State.abortMotion (s : State) (a : AxisId) (mv ab : Nat) (at_ : Option Nat) : State :=
  let x := s.ax a
  let suspended := ((s.cmd mv).map fun c => c.place == Place.suspended).getD false
  let p := x.pro
  if suspended then
    if p.finished then (((s.setPro a { p with susp := .none }).closeRun a).fail mv .aborted 0 0 s.net).done ab
    else s.setPro a { p with susp := .none, atRest := [(mv, .aborted)] ++ p.atRest ++ [(ab, .done)] }
  else
    let rest := p.atRest.filter fun c => c.1 != mv
    (s.setPro a { p with atRest := rest ++ [(mv, .aborted), (ab, .done)] }).askStop a true (some ab) at_

/-- The stop of a class C1 action (R116, R138, R297): the axis ends in FAULTED. Its commands have completed. -/
def State.stopFault (s : State) (a : AxisId) : State :=
  let x := s.ax a
  let s := s.modAx a fun x => { x with pro := { x.pro with faultAtRest := true, atRest := [], susp := .none } }
  let s := s.closeRun a
  if x.stp.follow.isSome then ((s.purgeFollow a).setSt a .stopping).followEnd a
  else if x.pro.motion.emergency then s.setSt a .stopping
  else s.askStop a true none none

/-! ## Follow mode -/

/-- FOLLOW_START (R135). -/
def State.takeFollow (s : State) (a : AxisId) (id : Nat) (ws : List Word) : State :=
  let w0 := wordAt ws 0
  let w1 := wordAt ws 1
  let ch := axisNum (w0.fld 0 7)
  let dec := s.fld (fbkPar ch 0) 0 3
  let n := w1.fld 16 16
  let m := w1.fld 0 16
  if w0.fld 0 7 ≠ ch.val ∨ dec ≠ (if w0.bit 8 then 4 else 3) then s.fail id .outOfRange 0 0 s.net
  else if n = 0 ∨ m = 0 ∨ 16 * m < n then s.fail id .outOfRange 1 0 s.net
  else
    let p := (s.ax a).stp
    let f : Follow :=
      { chan := ch, upDown := w0.bit 8, num := n, den := m, counting := true, since := s.net, until_ := none
        lastPulse := none, inbox := [], derived := [], hdr := s.cmdHdr (some id), overLag := false, enders := [] }
    let s := s.setStp a { p with follow := some f, rem := 0, pulses := 0, segs := [], solvedTo := 0, prevEdge := none }
    ((s.setSt a .following).syncLoops a).done id

/-- FOLLOW_END (R137). -/
def State.takeFollowEnd (s : State) (a : AxisId) (id : Nat) : State := ((s.stopCounting a).addEnder a id).followEnd a

/-! ## SEG_APPEND (R77, R110) -/

/-- The first entry flagged LAST, from the first block on (R110). -/
def State.findLast (s : State) (h : Hdr) (a : AxisId) (first : Nat) : Found × State :=
  State.findEntry h a Entry.last 262144 (first, 0) s

/-- Where appending stands: the place of the next slot. -/
inductive AppendRes where
  | ok | foreign | full
  deriving DecidableEq, Repr

/-- Write the words of one entry: one request to the pool (log 56). In a doubleword with a double-bit error the write is
not made, as Table 3-5 has it for port writes; the append completes with DONE and no cause is recorded, since the table
names none (DESIGN CHOICE, log 58). -/
def State.putEntry (s : State) (h : Hdr) (a : AxisId) (b i : Nat) (ws : List Word) : State :=
  ((s.poolItem h a.val).poolPuts (ws.take 8) (b * 256 + i * 32)).2

/-- Write entries from a slot on, following links the axis owns and taking new blocks at the end of the chain. -/
def State.appendFrom (h : Hdr) (a : AxisId) (lender : Nat) :
    List (List Word) → Nat → Nat → State → AppendRes × State
  | [], _, _, s => (.ok, s)
  | e :: r, b, i, s =>
    if i < 8 then State.appendFrom h a lender r b (i + 1) (s.putEntry h a b i e)
    else
      let d := s.blk b
      if d.nextv then
        if (s.blk d.next).owner = axisOwner a then State.appendFrom h a lender r d.next 1 (s.putEntry h a d.next 0 e)
        else (.foreign, s)
      else if s.freeCount = 0 then (.full, s)
      else
        let (k, s) := s.pickFree
        let s := s.setBlk k { Desc.free with owner := axisOwner a, lender := lender }
        let s := s.setBlk b { s.blk b with next := k, nextv := true }
        State.appendFrom h a lender r k 1 (s.putEntry h a k 0 e)

def chunk8 : Nat → List Word → List (List Word)
  | 0, _ => []
  | n + 1, ws => ws.take 8 :: chunk8 n (ws.drop 8)

/-- The first appended entry that offends: a static check, or LAST where it must not or must be. -/
def badAppend : Nat → List (List Word) → Option Nat
  | _, [] => none
  | i, e :: r =>
    let x := Entry.ofWords e
    if !x.staticOk || x.last != r.isEmpty then some i else badAppend (i + 1) r

/-- A run that had fetched its LAST entry goes on with the entries appended behind it (Table 4-5). -/
def State.runOn (s : State) (a : AxisId) (last : Nat × Nat) : State :=
  let p := (s.ax a).pro
  match p.run with
  | none => s
  | some r =>
    if r.lastAt = some last ∧ r.next = none ∧ r.bad = false then
      s.setPro a { p with run := some { r with next := some (last.1, last.2 + 1), lastAt := none } }
    else s

/-- SEG_APPEND (R77, R110); blocks that come to the chain of the axis's run are in use (R72). An offending entry is named
before the table is searched for LAST: the spec gives no order (DESIGN CHOICE, log 64). -/
def State.takeAppend (s : State) (a : AxisId) (id : Nat) (ws : List Word) : State :=
  let first := (wordAt ws 0).fld 0 15
  let es := chunk8 ((ws.length - 1) / 8) (ws.drop 1)
  if (s.blk first).owner ≠ axisOwner a then s.fail id .notOwner 0 0 s.net
  else match badAppend 0 es with
    | some i => s.fail id .outOfRange (1 + 8 * i) 0 s.net
    | none =>
      let h := s.cmdHdr (some id)
      match s.findLast h a first with
      | (.missing, s) => s.fail id .outOfRange 0 0 s.net
      | (.ecc, s) => s.tableUe a id
      | (.at_ (b, i), s) =>
        match State.appendFrom h a (s.blk first).lender es b (i + 1) s with
        | (.ok, t) =>
          let o := b * 256 + i * 32
          (((t.setWord o ((t.word o).setBit 0 false)).rechain a).runOn a (b, i)).done id
        | (.foreign, _) => s.fail id .outOfRange 0 0 s.net
        | (.full, _) => s.fail id .poolEmpty 0 0 s.net

/-! ## PRO parameters (R119, R120) -/

/-- A held word, for a value that loads with another word (R318). -/
def State.heldWord (s : State) (k : Nat) : Word := storeGet regReset s.held k

/-- (DEDUCED, log 23.) -/
def State.hold (s : State) (k : Nat) (v : Word) : State := { s with held := storeSet regReset s.held k v }

/-- The range of the soft limits becomes empty, or is so no more (R101). -/
def State.slAct (s : State) (a : AxisId) : State :=
  let p := (s.ax a).pro
  if !s.slBad a then s.setPro a { p with slbadSeen := false }
  else if p.slbadSeen then s
  else
    let s := (s.setPro a { p with slbadSeen := true }).raiseC0 10 0x20 (.axis a)
    let x := s.ax a
    if x.st = .following then (s.purgeFollow a).followEnd a
    else
      let ids := (s.tags.filter fun c => c.on a && opMotion c.op && c.place == Place.running).map Cmd.id
      if x.st = .moving ∧ ids ≠ [] then
        (s.addAtRest a (ids.map fun c => (c, .outOfRange))).askStop a false none none
      else s

/-- PRO looks at the soft limits after a write of them. -/
def State.slCheck (s : State) (a : AxisId) : State := s.whenClocked (.soft a) fun s => s.slAct a

/-- A write of a PRO parameter word. -/
def State.writePro (s : State) (a : AxisId) (idx : Nat) (v : Word) : State :=
  let k := proPar a idx
  if idx = 0x0e then (s.plainWrite k v).slCheck a
  else if 0x0e < idx then s
  else if idx % 2 = 0 then s.hold k v
  else
    let lo := s.heldWord (k - 1)
    if idx = 7 ∧ s48 v lo ≤ 0 then s.flag (Reg.proStat a) 22
    else
      let s := (s.setReg (k - 1) lo).setReg k (hiWord48 (s48 v lo))
      if 0x0a ≤ idx then s.slCheck a else s

def execProParamWrite (dt : Nat) (port : Port) (a : AxisId) (index : BitVec 5) (value : Word) (s : State) : Res :=
  .next <|
    let s := s.advance dt
    s.portWrite port fun s => s.writePro a index.toNat value

end Sys2Proof.Machine
end

