-- ==== Sys2Proof/Machine/Feedback.lean ====
section
/-! DEFINITION. The feedback interface (chapter 10): decoding of pin edges, counts, index, speeds, latches and echoes. -/

namespace Sys2Proof.Machine

def State.setChan (s : State) (c : ChanId) (x : Chan) : State := { s with chans := s.chans.set c x }

/-- CFG.DEC in force; 5 to 7 are applied as 0 (Table 10-1). -/
def State.decoder (s : State) (c : ChanId) : Nat :=
  let d := s.fld (fbkPar c 0) 0 3
  if d ≤ 4 then d else 0

def State.rotary (s : State) (c : ChanId) : Bool := s.bit (fbkPar c 0) 3

/-- W of a ROTARY channel (R246). -/
def State.wrapOf (s : State) (c : ChanId) : Nat := max 2 (min 2147483648 (s.reg (fbkPar c 1)).toNat)

/-- Filtered and inverted levels (R237). -/
def State.pins (s : State) (c : ChanId) (raw : BitVec 3) : BitVec 3 := raw ^^^ BitVec.ofNat 3 (s.fld (fbkPar c 0) 4 3)

/-- Filter time in ticks (Table 10-2). -/
def filterTicks (code : Nat) : Nat :=
  match code with
  | 0 => 4 | 1 => 16 | 2 => 40 | 3 => 200 | 4 => 800 | _ => 4000

/-- The axes that use a channel in ENCODER mode or with MON = 1 (R208, R242). -/
def State.usersOf (s : State) (c : ChanId) : List AxisId :=
  (List.finRange 96).filter fun a => (s.loopCfg a).encoder && (s.loopCfg a).fbch == c.val

/-! ## Speed -/

def Chan.putCount (x : Chan) (stamp : Nat) (v : Int) : Chan :=
  { x with count := v, counts := ((stamp, v) :: x.counts).take 256 }

/-! ## Echo outputs -/

/-- A pulse is placed (R258): the output, whether it was dropped, and whether that begins a run of drops. -/
def Echo.place (e : Echo) (pw stamp : Nat) : Echo × Bool × Bool :=
  let t0 := stamp + 160 * 16
  let high := max 1 pw * 10
  let gap := 2 * high
  match e.last with
  | some r =>
    if t0 < r + gap * 16 then
      if 255 ≤ (e.queue.filter EchoPulse.waits).length then ({ e with dropping := true }, true, !e.dropping)
      else
        let i := (r / 16 + gap) * 16
        ({ e with queue := e.queue ++ [⟨i, true, high⟩], last := some i, dropping := false }, false, false)
    else ({ e with queue := e.queue ++ [⟨t0, false, high⟩], last := some t0, dropping := false }, false, false)
  | none => ({ e with queue := e.queue ++ [⟨t0, false, high⟩], last := some t0, dropping := false }, false, false)

/-- A derived step (R257): DIRMODE 1 lets negative steps build a debt that positive ones repay. -/
def Echo.step (e : Echo) (forward : Bool) (up : Bool) (pw stamp : Nat) : Echo × Bool × Bool :=
  if forward && !up then ({ e with debt := satAdd 16 e.debt 1 }, false, false)
  else if forward && decide (0 < e.debt) then ({ e with debt := e.debt - 1 }, false, false)
  else e.place pw stamp

def Echo.steps (forward up : Bool) (pw stamp : Nat) : Nat → Echo → Echo × Bool × Bool
  | 0, e => (e, false, false)
  | n + 1, e =>
    let (e, d, r) := e.step forward up pw stamp
    let (e, d', r') := Echo.steps forward up pw stamp n e
    (e, d || d', r || r')

/-- One event of a source channel at an echo output. -/
def State.echoEvent (s : State) (i : Fin 16) (up : Bool) (stamp : Nat) : State :=
  let cfg := s.reg (fbgPar (0x50 + i.val))
  let rat := s.reg (fbgPar (0x60 + i.val))
  let e := s.echoes.get i
  let acc := if up then e.acc + rat.fld 16 16 else e.acc - rat.fld 16 16
  let (j, left) := derive acc (rat.fld 0 16)
  let (e, drop, run) := Echo.steps (cfg.bit 8) (decide (0 ≤ acc)) (cfg.fld 16 8) stamp j { e with acc := left }
  let s := { s with echoes := s.echoes.set i e }
  let s := if drop then s.flag (fbgPar 0x70) i.val else s
  if run then s.raiseC0 16 0x27 .module else s

/-- The echo outputs of a channel take an event, once for each count of it. -/
def State.echoAll (s : State) (c : ChanId) (up : Bool) (stamp : Nat) : Nat → State
  | 0 => s
  | n + 1 =>
    let s := (List.finRange 16).foldl (fun s i =>
      let cfg := s.reg (fbgPar (0x50 + i.val))
      if cfg.bit 7 && axisNum (cfg.fld 0 7) == c then s.echoEvent i up stamp else s) s
    s.echoAll c up stamp n

/-! ## Events -/

/-- The count after a move by `d` (R246), and whether it saturated. -/
def countMove (rotary : Bool) (w : Nat) (n d : Int) : Int × Bool :=
  if rotary then ((n + d) % (w : Int), false)
  else
    let m := max (-(2 ^ 47)) (min (2 ^ 47 - 1) (n + d))
    (m, m != n + d)

/-- What a trigger at `stamp` captures: the count that includes every event stamped at or before it, and the speed (R254).
-/
def State.captured (s : State) (c : ChanId) (stamp : Nat) : Int × Int :=
  ((s.chan c).countAt stamp, satS 48 (s.speedAt c stamp))

/-- The triggers taken capture again where an event, accepted after them, is stamped at or before them (R239, R254). -/
def State.recapture (s : State) (c : ChanId) (stamp : Nat) : State :=
  let x := s.chan c
  s.setChan c { x with trigs := x.trigs.map fun t =>
    if stamp ≤ t.stamp then { t with count := (s.captured c t.stamp).1, speed := (s.captured c t.stamp).2 } else t }

/-- A counted event of `d` before CNTREV, with its stamp in fine ticks (R245, R246, R249 to R251, R256, R257). An axis that
follows the channel takes it as a pulse if it counts one with that stamp: also one stamped before the counting ended that
the filter accepts after it, as long as the axis still follows (DESIGN CHOICE, log 64). -/
def State.countEvent (s : State) (c : ChanId) (d0 : Int) (stamp : Nat) : State :=
  let d := if s.bit (fbkPar c 0) 11 then -d0 else d0
  let x := s.chan c
  let (n, sat) := countMove (s.rotary c) (s.wrapOf c) x.count d
  let x := { (x.putCount stamp n) with sum := x.sum + d, hist := ((stamp, x.sum + d) :: x.hist).take 512, still := false }
  let s := s.setChan c x
  let s := if sat then s.flag (Reg.fbkStat c) 6 else s
  let s := s.recapture c stamp
  let dec := s.decoder c
  let s :=
    if dec == 3 || dec == 4 then
      s.eachAx fun s a => match (s.ax a).stp.follow with
        | some f => if f.chan = c.val ∧ f.counts (stamp / 16) = true then
            s.setStp a { (s.ax a).stp with follow := some { f with inbox := f.inbox ++ [⟨stamp, decide (0 < d)⟩] } }
          else s
        | none => s
    else s
  s.echoAll c (decide (0 < d)) stamp d.natAbs

/-- LSRC in force (R253). -/
def State.latchSource (s : State) (c : ChanId) : Nat :=
  let l := s.fld (fbkPar c 4) 0 3
  if l ≤ 5 then l else 0

/-- A trigger for the position latch of a channel: taken where ARM or CONT is set, else ignored; a trigger taken clears
ARM (R254), unless software writes it in the same window (Table 10-4). Its values are written when LATCH_TRIGGER comes. -/
def State.trigger (s : State) (c : ChanId) (stamp : Nat) (software : Bool) : State :=
  let k := fbkPar c 4
  if s.bit k 10 || s.bit k 11 then
    let x := s.chan c
    let (n, v) := s.captured c stamp
    (s.setChan c { x with trigs := x.trigs ++ [⟨stamp, software, s.latchSource c, n, v⟩] }).setBit k 10 (s.softOne k 10)
  else s

/-- An edge of pin 2 of channel `c` is a trigger of every latch that names it (R253). -/
def State.pinTriggers (s : State) (c : ChanId) (rising : Bool) (stamp : Nat) : State :=
  (List.finRange 96).foldl (fun s y =>
    let l := s.latchSource y
    if axisNum (s.fld (fbkPar y 4) 3 7) = c ∧ ((l = 2 ∧ rising = true) ∨ (l = 3 ∧ rising = false) ∨ l = 4) then
      s.trigger y stamp false
    else s) s

/-- Place of an A/B state in the sequence 00, 10, 11, 01 (R240). -/
def quadPlace (p : BitVec 3) : Nat :=
  match p.getLsbD 0, p.getLsbD 1 with
  | false, false => 0
  | true, false => 1
  | true, true => 2
  | false, true => 3

/-- Sector of a Hall code (R241); none for an invalid one. -/
def hallSector (p : BitVec 3) : Option Nat :=
  match p.toNat with
  | 1 => some 0 | 3 => some 1 | 2 => some 2 | 6 => some 3 | 4 => some 4 | 5 => some 5
  | _ => none

/-- An index event (R247). -/
def State.indexEvent (s : State) (c : ChanId) (stamp : Nat) : State :=
  let x := s.chan c
  let pos := x.countAt stamp
  let old := s.val48 (fbkPar c 0x0a) (fbkPar c 0x0b)
  let w : Int := s.wrapOf c
  let diff :=
    if !x.indexed then 0
    else if s.rotary c then (let r := (pos - old) % w; if w < 2 * r then r - w else r)
    else satS 32 (pos - old)
  let s := s.setReg (fbkPar c 0x0a) (loWord pos)
  let s := s.setReg (fbkPar c 0x0b) (hiWord48 pos)
  let s := s.setReg (fbkPar c 0x0c) (loWord diff)
  let s := (s.flag (Reg.fbkStat c) 9).bumpMod (Reg.fbkStat c) 16 8
  let x := { x with indexed := true }
  let x := if s.rotary c && s.bit (fbkPar c 0) 15 then x.putCount stamp 0 else x
  let s := (s.setChan c x).recapture c stamp
  if s.latchSource c = 1 then s.trigger c stamp false else s

/-- The index condition of CFG.IDXQ at an A/B state (R247). -/
def indexAt (idxq : Nat) (p : BitVec 3) : Bool :=
  if idxq < 4 then true
  else
    let a := p.getLsbD 0
    let b := p.getLsbD 1
    if idxq = 4 then !a && !b else if idxq = 5 then !a && b else if idxq = 6 then a && !b else a && b

/-- A step of two places or more is impossible: a flag of STAT and ERRCNT.SKIP (R240, R241). -/
def State.skip (s : State) (c : ChanId) (bit : Nat) : State := (s.flag (Reg.fbkStat c) bit).bump (fbkPar c 0x14) 0 16

/-- A run of invalid Hall codes starts (R242). -/
def State.hallInvalid (s : State) (c : ChanId) : State :=
  let s := (s.setChan c { s.chan c with hallBad := true }).bump (fbkPar c 0x14) 16 16
  match s.usersOf c with
  | [] => s.raiseC0 16 0x26 .module
  | us => us.foldl (fun s a => s.raiseAx 16 0x26 0 a) s

/-- The Hall code that stands (R241, R242). -/
def State.hallStep (s : State) (c : ChanId) (new : BitVec 3) (stamp : Nat) : State :=
  let x := s.chan c
  match hallSector new with
  | none => if x.hallBad then s else s.hallInvalid c
  | some k =>
    let s := s.setChan c { x with hallBad := false, sector := some k }
    match x.sector with
    | none => s
    | some o =>
      let d := (k + 6 - o) % 6
      if d = 1 then s.countEvent c 1 stamp
      else if d = 5 then s.countEvent c (-1) stamp
      else if d = 2 then (s.skip c 8).countEvent c 2 stamp
      else if d = 4 then (s.skip c 8).countEvent c (-2) stamp
      else if d = 3 then (s.skip c 8).countEvent c 0 stamp
      else s

/-- The decoder of a channel takes new levels (R240 to R244). -/
def State.decodeEdge (s : State) (c : ChanId) (old new : BitVec 3) (stamp : Nat) : State :=
  let cfg := s.reg (fbkPar c 0)
  let active (i : Nat) : Bool :=
    old.getLsbD i != new.getLsbD i && (if cfg.bit 10 then !new.getLsbD i else new.getLsbD i)
  match s.decoder c with
  | 1 =>
    let d := (quadPlace new + 4 - quadPlace old) % 4
    let s :=
      if d = 1 then s.countEvent c 1 stamp
      else if d = 3 then s.countEvent c (-1) stamp
      else if d = 2 then s.skip c 7
      else s
    if !old.getLsbD 2 && new.getLsbD 2 && indexAt (cfg.fld 12 3) new then s.indexEvent c stamp else s
  | 2 => s.hallStep c new stamp
  | 3 => if active 0 then s.countEvent c (if new.getLsbD 1 then 1 else -1) stamp else s
  | 4 =>
    if active 0 && active 1 then s
    else if active 0 then s.countEvent c 1 stamp
    else if active 1 then s.countEvent c (-1) stamp
    else s
  | _ => s

/-- FBK is clocked (R369). -/
def State.fbkOn (s : State) : Bool := s.up && s.gateOn 9

/-- The raw level of pin `i` has stood for the filter time when an edge that crossed at `at_`, fine ticks of the
timebase, is accepted: it crossed to the level before at least that time earlier (R237). -/
def Chan.settledPin (x : Chan) (at_ filter : Nat) (i : Fin 3) : Bool :=
  match x.edges.get i with
  | some e => decide (e + filter * 16 ≤ at_)
  | none => true

/-- The levels that the filters accept of `raw` (R237): a pin that has not stood for the filter time keeps its level. -/
def Chan.accepted (x : Chan) (at_ filter : Nat) (raw : BitVec 3) : BitVec 3 :=
  let pin (i : Fin 3) : BitVec 1 :=
    BitVec.ofBool (if x.settledPin at_ filter i then raw.getLsbD i.val else x.levels.getLsbD i.val)
  pin 2 ++ pin 1 ++ pin 0

/-- FB_EDGE: the raw pins of a channel have stood at `raw` since the fine tick `fine` of the filter time ago (R237, R239).
-/
def execFbEdge (dt : Nat) (ch : ChanId) (raw : BitVec 3) (fine : Fin 16) (s : State) : Res :=
  .next <|
    let s := s.advance dt
    let x := s.chan ch
    let filter := filterTicks (s.fld (fbkPar ch 0) 7 3)
    let at_ := (s.tb - filter) * 16 + fine.val
    let levels := x.accepted at_ filter raw
    if !s.fbkOn || x.levels == levels then s
    else
      let old := s.pins ch x.levels
      let new := s.pins ch levels
      let stamp := (s.net - filter) * 16 + fine.val
      let s := s.setChan ch { x with
        levels := levels
        edges := Vector.ofFn fun i => if x.levels.getLsbD i.val == levels.getLsbD i.val then x.edges.get i else some at_ }
      let s := s.decodeEdge ch old new stamp
      if old.getLsbD 2 != new.getLsbD 2 then s.pinTriggers ch (new.getLsbD 2) stamp else s

/-- SPEED_WINDOW_END: the window speed of a channel (R249). -/
def execSpeedWindowEnd (dt : Nat) (ch : ChanId) (s : State) : Res :=
  .next <|
    let s := s.advance dt
    let x := s.chan ch
    let w := gridAt (max 1 (s.fld (fbkPar ch 2) 0 8) * 40000) s.net
    if !s.fbkOn || w ≤ x.winEnd then s
    else
      let y := { x with winEnd := w }.change fun r => { r with since := w * 16, speed := x.speed }
      match x.hist.find? fun e => decide (e.1 / 16 ≤ w) with
      | none => s.setChan ch y
      | some e =>
        if e.1 / 16 ≤ x.winEnd then s.setChan ch y
        else match x.ref with
          | none => s.setChan ch { y with ref := some e }
          | some r =>
            let v := speedOver ch (e.2 - r.2) (e.1 - r.1)
            s.setChan ch ({ x with winEnd := w, ref := some e, speed := v }.change fun r => { r with since := w * 16, speed := v })

/-- The reference of a channel is cleared at an instant, in fine ticks, and the speed is 0 (R248, R250, R251). -/
def Chan.clearRef (x : Chan) (t : Nat) : Chan :=
  { x with speed := 0, ref := none }.change fun r => { r with since := t, cleared := t, speed := 0 }

/-- STANDSTILL_TIMEOUT (R250). -/
def execStandstillTimeout (dt : Nat) (ch : ChanId) (s : State) : Res :=
  .next <|
    let s := s.advance dt
    let x := s.chan ch
    let stto := s.fld (fbkPar ch 2) 8 16
    match x.hist with
    | [] => s
    | e :: _ =>
      if s.fbkOn && decide (stto ≠ 0) && !x.still && decide (e.1 / 16 + stto * 40000 ≤ s.net) then
        s.setChan ch ({ x with still := true }.clearRef ((e.1 / 16 + stto * 40000) * 16))
      else s

/-! ## The position latch -/

/-- A trace entry's bytes of a LATCH item (R255). -/
def latchPayload (n spd : Int) (src : Nat) (software : Bool) (seq : Nat) : List Byte :=
  bytesS 6 n ++ bytesS 6 spd ++ bytesOf 1 (src + software.toNat * 8) ++ bytesOf 1 seq

/-- LATCH_TRIGGER: what the oldest trigger taken of a channel captured becomes readable (R254, R255). -/
def execLatchTrigger (dt : Nat) (ch : ChanId) (s : State) : Res :=
  .next <|
    let s := s.advance dt
    let x := s.chan ch
    match x.trigs with
    | [] => s
    | t :: rest =>
      let s := s.setChan ch { x with trigs := rest }
      let k := fbkPar ch 4
      let tick := t.stamp / 16
      let s := (s.setReg (fbkPar ch 0x0d) (loWord t.count)).setReg (fbkPar ch 0x0e) (hiWord48 t.count)
      let s := (s.setReg (fbkPar ch 0x0f) (loWord t.speed)).setReg (fbkPar ch 0x10) (hiWord48 t.speed)
      let s := (s.setReg (fbkPar ch 0x11) (loWord64 tick)).setReg (fbkPar ch 0x12) (hiWord64 tick)
      let s := s.setReg (fbkPar ch 0x13) (BitVec.ofNat 32 (t.stamp % 16))
      let s := ((s.bumpMod k 24 8).flag (Reg.fbkStat ch) 10).irq 7
      s.trace ⟨tick, Hdr.module, ch.val, 9, false, latchPayload t.count t.speed t.src t.software (s.fld k 24 8)⟩

/-- A write of LATTRIG (R253). -/
def State.writeLattrig (s : State) (c : ChanId) (v : Word) : State :=
  if v.bit 0 && s.up then s.whenClocked (.trigger c) fun s => s.trigger c s.fine true else s

def execLattrig (dt : Nat) (port : Port) (ch : ChanId) (value : Word) (s : State) : Res :=
  .next <|
    let s := s.advance dt
    s.portWrite port fun s => s.writeLattrig ch value

/-- ECHO_PULSE: the next pulse of an echo output rises at its instant (R258), on the RC at an RC edge (R367). -/
def execEchoPulse (dt : Nat) (e : Fin 16) (s : State) : Res :=
  .next <|
    let s := s.advance dt
    let x := s.echoes.get e
    match x.queue with
    | [] => s
    | p :: rest =>
      if s.fbkOn && decide (p.rise ≤ s.fine) then
        { s with echoes := s.echoes.set e { x with queue := rest, rose := some (if s.onPll then p else { p with rise := s.fine }) } }
      else s

/-- The level of ECHO_e (R258): high for the width of its last pulse from its rise, low while disabled. -/
def State.echoLevel (s : State) (e : Fin 16) : Bool :=
  let cfg := s.reg (fbgPar (0x50 + e.val))
  s.fbkOn && cfg.bit 7 &&
  (match (s.echoes.get e).rose with
   | some p => decide (s.fine < p.rise + p.width * 16)
   | none => false)

/-! ## Configuration -/

/-- Before a channel's configuration changes, the axes that use it take the counts it has made, under the W and mode that
they were made with; what they measure goes on from the count 0 (R208, R248). -/
def State.settleCount (s : State) (c : ChanId) : State :=
  let n := (s.chan c).count
  s.eachAx fun s a =>
    let k := s.loopCfg a
    if k.fbch = c.val then
      s.modAx a fun y => { y with
        loop := { (if k.encoder then s.unwrapTo c n y.loop else y.loop) with lastCount := 0 }
        sample := y.sample.map fun m => { m with fbCount := s.countDelta c n m.fbCount } }
    else s

/-- A channel's configuration changes (R248). -/
def State.resetChan (s : State) (c : ChanId) : State :=
  let x := s.chan c
  let s := s.setChan c ({ x.putCount s.fine 0 with winEnd := s.net, sector := none, indexed := false }.clearRef s.fine)
  ((s.setReg (fbkPar c 0x0a) 0).setReg (fbkPar c 0x0b) 0).setReg (fbkPar c 0x0c) 0

/-- The followers of a channel whose decoder mode changes stop counting (Table 5-4). -/
def State.dropFollowers (s : State) (c : ChanId) : State :=
  s.eachAx fun s a => match (s.ax a).stp.follow with
    | some f => if f.chan = c.val && f.counting then
        ((s.stopCounting a).raiseC0 11 0x22 (.axis a)).followEnd a
      else s
    | none => s

/-- CFG (index 0) or WRAP (index 1) of a channel takes a new value (R248). -/
def State.chanTo (s : State) (c : ChanId) (idx : Nat) (new : Word) : State :=
  let k := fbkPar c idx
  let old := s.reg k
  let oldDec := s.decoder c
  let change :=
    if idx = 0 then old.fld 0 4 != new.fld 0 4 || old.bit 11 != new.bit 11 else old != new
  let s := if change then s.settleCount c else s
  let s := s.setReg k new
  let s := if change then s.resetChan c else s
  let s :=
    if oldDec == s.decoder c then s
    else (s.setChan c { s.chan c with hallBad := false }).dropFollowers c
  if s.decoder c = 2 then s.hallStep c (s.pins c (s.chan c).levels) s.fine else s

/-- FBK, clocked again, acts on CFG or WRAP, which held `old` before the write. -/
def State.chanAct (s : State) (c : ChanId) (idx : Nat) (old : Word) : State :=
  (s.setReg (fbkPar c idx) old).chanTo c idx (s.reg (fbkPar c idx))

/-- A write of CFG (index 0) or WRAP (index 1) (R248, R369). -/
def State.writeFbkCfg (s : State) (c : ChanId) (idx : Nat) (v : Word) : State :=
  let k := fbkPar c idx
  let old := s.reg k
  let new := (old &&& ~~~(fbkRow idx).rw) ||| (v &&& (fbkRow idx).rw)
  if s.gateOn 9 then s.chanTo c idx new else { s.setReg k new with deferred := s.deferred ++ [.chan c idx old] }

def execFbkCfgWrite (dt : Nat) (port : Port) (ch : ChanId) (wrap : Bool) (value : Word) (s : State) : Res :=
  .next <|
    let s := s.advance dt
    s.portWrite port fun s => s.writeFbkCfg ch (if wrap then 1 else 0) value

/-- FBK acts on a speed slot, whose SLOTCFG held `old` and now holds `w` (R252). -/
def State.slotAct (s : State) (old w : Word) : State :=
  let ch := axisNum (w.fld 0 7)
  let was := axisNum (old.fld 0 7)
  let t := s.fine
  let s := if old.bit 7 && (!w.bit 7 || ch != was)
    then s.setChan was ((s.chan was).change fun r => { r with since := t, slot := none, speed := 0 }) else s
  let fresh := !old.bit 7 || ch != was
  if w.bit 7 then s.setChan ch ((s.chan ch).change fun r => { r with
      since := t, slot := some (2 ^ w.fld 8 3), cleared := if fresh then t else r.cleared })
  else s

/-- A write of SLOTCFG (R252). -/
def State.writeSlot (s : State) (k : Fin 8) (v : Word) : State :=
  let key := fbgPar (0x40 + k.val)
  let old := s.reg key
  let ch := axisNum (v.fld 0 7)
  let taken := (List.finRange 8).any fun j =>
    j != k && (s.reg (fbgPar (0x40 + j.val))).bit 7 && axisNum (s.fld (fbgPar (0x40 + j.val)) 0 7) == ch
  let refuse := v.bit 7 && taken
  let w := (if refuse then v.setBit 7 false else v) &&& 0x7ff
  let s := if refuse then s.flag (fbgPar 0x71) 0 else s
  (s.setReg key w).whenClocked (.slot k old) fun s => s.slotAct old w

def execSlotcfgWrite (dt : Nat) (port : Port) (slot : Fin 8) (value : Word) (s : State) : Res :=
  .next <|
    let s := s.advance dt
    s.portWrite port fun s => s.writeSlot slot value

/-- ECHOCFG or ECHORAT is written (Table 10-4): accumulator 0, debt and backlog discarded; pulses already on their way
rise as placed while the output stays enabled, and one that is disabled goes low (R258). -/
def Echo.restart (x : Echo) (enabled : Bool) : Echo :=
  let queue := if enabled then x.queue.filter fun p => !p.waits else []
  let rose := if enabled then x.rose else none
  { acc := 0, debt := 0, queue := queue, rose := rose, dropping := false
    last := ((queue.map EchoPulse.rise).getLast?).or (rose.map EchoPulse.rise) }

def State.echoAct (s : State) (e : Fin 16) : State :=
  { s with echoes := s.echoes.set e ((s.echoes.get e).restart (s.bit (fbgPar (0x50 + e.val)) 7)) }

/-- A write of ECHOCFG or, with `ratio`, ECHORAT (R257, Table 10-4). -/
def State.writeEcho (s : State) (e : Fin 16) (ratio : Bool) (v : Word) : State :=
  let k := fbgPar ((if ratio then 0x60 else 0x50) + e.val)
  let n := v.fld 16 16
  let m := v.fld 0 16
  if ratio && (n == 0 || m == 0 || decide (m < n)) then s.flag (fbgPar 0x71) 1
  else
    (s.setReg k (if ratio then v else v &&& 0xff01ff)).whenClocked (.echo e) fun s => s.echoAct e

def execEchoConfigWrite (dt : Nat) (port : Port) (e : Fin 16) (ratio : Bool) (value : Word) (s : State) : Res :=
  .next <|
    let s := s.advance dt
    s.portWrite port fun s => s.writeEcho e ratio value

/-- FBK after a power-on or a warm restart (R261); the pins read as they stand. -/
def Chan.fresh (x : Chan) : Chan := { Chan.reset with levels := x.levels }

end Sys2Proof.Machine
end

