-- ==== Sys2Proof/Machine/Pwm.lean ====
section
/-! DEFINITION. The PWM generator (chapter 07): carriers, leg edges, coil duties, the sample strobe, the delay lines,
the TRIP inputs and the Guyline. -/

namespace Sys2Proof.Machine

/-! ## The carrier -/

/-- HALF in force: 2,000 to 32,787 ticks (R173). -/
def State.half (s : State) (a : AxisId) : Nat := max 2000 (min 32787 (s.fld (Reg.pwmCfg a) 0 16))

/-- Spread offset of an axis's generator for a period from tick `b` (R185). -/
def State.spreadAt (s : State) (a : AxisId) (b : Nat) : Rat :=
  let g := s.fld (Reg.pwmCfg a) 24 2
  if g = 0 then 0
  else
    let w := s.reg (0xc0 + 4 * g)
    let r := w.fld 8 14
    if r = 0 then 0
    else
      let rate := max 100 (min 10000 r)
      let phi : Rat := ((b * rate % 400000000 : Nat) : Rat) / 400000000
      (min 20 (w.fld 0 5) : Nat) * (5 / 1000) * (absR (4 * phi - 2) - 1) / 2

/-- half_eff of R174. -/
def halfEff (half div8 : Nat) (sp : Rat) : Nat := ((half : Rat) * div8 / 8 * (1 + sp) + 1 / 2).floor.toNat

/-- GSYNC = 1 and SSEL = 0: the carrier is phased (R193). -/
def State.phases (s : State) (a : AxisId) : Bool := s.bit (Reg.pwmCfg a) 26 && s.fld (Reg.pwmCfg a) 24 2 == 0

/-- The reference instant in force: the last one accepted while a LOCKED follower, else the network-time grid (R193). -/
def State.carrierRef (s : State) (at_ : Nat) : Nat :=
  if s.netw.guyRole = 2 ∧ s.bit Reg.timeGuyflag 0 then (s.netw.guyRef + 8) / 16 else gridAt 400000 at_

/-- Phase error of a centre, in (−P/2, P/2] (R193). -/
def phaseOf (ref centre period : Nat) : Int :=
  let r := ((ref : Int) - centre) % (period : Int)
  if (period : Int) < 2 * r then r - period else r

/-- A change of ROLE takes effect at the next grid instant (Table 7-4), a multiple of the GUYPER written with it; with ROLE
off SYNC_OUT is low (R191). LOCKED, the last accepted pulse and with it the GUYPER / 2 in which further edges are ignored,
and the run of diverging pulses end with the role: the spec does not say (DESIGN CHOICE, log 64). -/
def State.guySync (s : State) : State :=
  match s.netw.guyNext with
  | some (r, t) =>
    if t ≤ s.net then
      let s := { s with netw := { s.netw with
        guyRole := r, guyNext := none, guySince := s.tb - (s.net - t), guyAcc := none, guyOff := false, guyMissed := false
        syncOut := if r = 0 then none else s.netw.syncOut } }
      s.setBit Reg.timeGuyflag 0 false
    else s
  | none => s

/-- The counters start (R176): the first boundary, 112 ticks on or aligned. -/
def State.startPwm (s : State) (a : AxisId) : State :=
  let s := s.guySync
  let b0 := s.net + 112
  let h := halfEff (s.half a) s.pwr.div8 0
  let b := if s.phases a then b0 + (((s.carrierRef b0 : Int) - h - b0) % (2 * h : Int)).toNat else b0
  s.setPwm a { Pwm.reset with run := true, b := b, e := b, halfEff := h, div8 := s.pwr.div8 }

/-! ## Leg edges -/

/-- h of a leg, in fine ticks (R175). -/
def legWidth (u : Int) (H : Nat) : Nat := (((32768 + u) * H + 32768) / 65536).toNat

/-- The minimum pulse in fine ticks (R183). -/
def State.minPulse (s : State) (a : AxisId) : Nat := min 64 (s.fld (Reg.pwmCfg a) 16 7) * 160

/-- The minimum-pulse rule for one leg (R183): the width, and whether a pulse was dropped or stretched. -/
def minRule (stretch : Bool) (m h H : Nat) : Nat × Bool × Bool :=
  let half := (m + 1) / 2
  if 0 < 2 * h ∧ 2 * h < m then (if stretch then half else 0, !stretch, stretch)
  else if 2 * h < 2 * H ∧ 2 * H - 2 * h < m then (if stretch then H - half else H, !stretch, stretch)
  else (h, false, false)

/-- The two nominal edges of a leg in a period: leg 1 of a coil around the centre, leg 2 around the boundary (R175). -/
def nominalEdges (first : Bool) (b c e h : Nat) : List (Nat × Bool) :=
  if first then [(c * 16 - h, true), (c * 16 + h, false)] else [(b * 16 + h, false), (e * 16 - h, true)]

/-- Edges that coincide with the leg's previous edge cancel (R175). -/
def cancelPairs : List (Nat × Bool) → List (Nat × Bool)
  | p :: q :: r => if p.1 = q.1 then cancelPairs r else p :: cancelPairs (q :: r)
  | l => l

/-- A leg's edges still to come: each at least `m` after the one before it (R184); one that changes no level is left out.
True where an edge was moved. -/
def spaceEdges (m : Nat) : Option Nat → Bool → List (Nat × Bool) → List (Nat × Bool) × Bool
  | _, _, [] => ([], false)
  | prev, lvl, (t, v) :: r =>
    if v = lvl then spaceEdges m prev lvl r
    else
      let t' := match prev with
        | some p => max t (p + m)
        | none => t
      let (l, moved) := spaceEdges m (some t') v r
      ((t', v) :: l, moved || decide (t' ≠ t))

/-- The edges of both halves after a write with horizon `hz`, ticks: one before it is committed and stands; any other
takes its new instant, and the horizon where that lies before it (R180, R181). -/
def moveEdges (hz : Nat) (old new : List (Nat × Bool)) : List (Nat × Bool) :=
  (old.zip new).map fun p => if p.1.1 < hz * 16 then p.1 else (max p.2.1 (hz * 16), p.2.2)

/-- The legs of a coil. -/
def legOf (k : CoilId) (second : Bool) : LegId := ⟨2 * k.val + second.toNat, by cases second <;> simp <;> omega⟩

/-- Both nominal edges of a leg of a coil at duty `u` in a period, with no minimum-pulse rule (R175). -/
def Pwm.nominal (p : Pwm) (second : Bool) (u : Int) : List (Nat × Bool) :=
  nominalEdges (!second) p.b p.c p.e (legWidth (if second then -u else u) (p.halfEff * 16))

/-- The same with the minimum-pulse rule of a boundary (R183), and whether it dropped or stretched a pulse. -/
def State.legNominal (s : State) (a : AxisId) (p : Pwm) (second : Bool) (u : Int) : List (Nat × Bool) × Bool × Bool :=
  let H := p.halfEff * 16
  let r := minRule (s.bit (Reg.pwmCfg a) 23) (s.minPulse a) (legWidth (if second then -u else u) H) H
  (nominalEdges (!second) p.b p.c p.e r.1, r.2)

/-- The period that starts at `p.b`, as it would run at another HALF. -/
def Pwm.atHalf (p : Pwm) (half : Nat) : Pwm :=
  let h := Machine.halfEff half p.div8 p.spread
  { p with c := p.b + h, e := p.b + 2 * h, halfEff := h }

/-- A leg takes the edges of a period: those still to come of the period before, then the new ones, where one that
coincides with the one before it cancels (R175, R184). -/
def LegPlan.take (l : LegPlan) (m : Nat) (new : List (Nat × Bool)) : LegPlan × Bool :=
  let (es, moved) := spaceEdges m l.last l.high (cancelPairs (l.edges ++ new))
  ({ l with edges := es, slots := new }, moved)

/-- Where a slot's edge stands: where R184 has placed it, while it is still to come. -/
def LegPlan.placed (l : LegPlan) (p : Nat × Bool) : Nat × Bool :=
  (((l.edges.find? fun e => e.2 == p.2 && decide (p.1 ≤ e.1)).map Prod.fst).getD p.1, p.2)

/-- The edges of the period that starts, each where R184 places it after what the leg still has to do. -/
def LegPlan.settle (l : LegPlan) (m : Nat) (new : List (Nat × Bool)) : List (Nat × Bool) := new.map (l.take m new).1.placed

/-- The edges of a leg in the period that starts, after the writes whose horizon reaches into it: an edge that was
committed before a write stands where the values before that write, and R184, placed it (R177, R180, R181). -/
def State.legStart (s : State) (a : AxisId) (p : Pwm) (l : LegPlan) (k : CoilId) (second : Bool) :
    List (Nat × Bool) × Bool × Bool :=
  let m := s.minPulse a
  let now := s.legNominal a p second (p.u.get k)
  let before (w : PwmWrite) : List (Nat × Bool) := (s.legNominal a (p.atHalf w.half) second (w.u.get k)).1
  let rec go : List (Nat × Bool) → List PwmWrite → List (Nat × Bool)
    | e, [] => e
    | e, w :: r => go (moveEdges (w.at_ + 112) (l.settle m e) (match r with | v :: _ => before v | [] => now.1)) r
  (match p.writes with | w :: _ => go (before w) p.writes | [] => now.1, now.2)

/-- The edges of a coil's legs for the period that begins (R175, R177, R183, R184). A coil that enters voltage mode starts
with U = 0 at a boundary, if no duty has started it before (R176) (DEDUCED, log 60). -/
def State.planCoil (s : State) (a : AxisId) (k : CoilId) : State :=
  let q := s.coil a k
  if !q.volt then s
  else
    let fresh := q.bridge != Bridge.pwm
    let s := if fresh then s.setCoil a k { q with bridge := .pwm } else s
    let leg (s : State) (second : Bool) : State :=
      let p := (s.ax a).pwm
      let i := legOf k second
      let l := if fresh then LegPlan.reset else p.legs.get i
      let (new, drop, str) := s.legStart a p l k second
      let (l, moved) := l.take (s.minPulse a) new
      s.setPwm a { p with legs := p.legs.set i l, dropped := p.dropped || drop, stretched := p.stretched || str || moved }
    leg (leg s false) true

/-- A leg's edges after a write with horizon `hz`: those that stand before it stay; the others are placed anew (R180,
R181, R184). True where R184 moved one. -/
def LegPlan.replan (l : LegPlan) (m hz : Nat) (new : List (Nat × Bool)) : LegPlan × Bool :=
  let slots := moveEdges hz (l.slots.map l.placed) new
  let keep := l.edges.filter fun e => decide (e.1 < hz * 16)
  let rest := slots.filter fun e => decide (hz * 16 ≤ e.1)
  let last := (keep.getLast?.map Prod.fst).or l.last
  let high := (keep.getLast?.map Prod.snd).getD l.high
  let (es, moved) := spaceEdges m last high (cancelPairs rest)
  ({ l with edges := keep ++ es, slots := slots }, moved)

/-- Recompute the edges of a coil's legs at or after the horizon, from the U and the period in force (R180, R181). -/
def State.replanCoil (s : State) (a : AxisId) (k : CoilId) : State :=
  let q := s.coil a k
  if !q.volt || q.bridge != Bridge.pwm then s
  else
    let leg (s : State) (second : Bool) : State :=
      let p := (s.ax a).pwm
      let i := legOf k second
      let (l, moved) := (p.legs.get i).replan (s.minPulse a) (s.net + 112) (p.nominal second (p.u.get k))
      let s := s.setPwm a { p with legs := p.legs.set i l, stretched := p.stretched || moved }
      if moved then s.flag (Reg.pwmStat a) 3 else s
    leg (leg s false) true

/-- The first duty of a coil that has entered voltage mode starts its legs, from the horizon on (Table 6-6). -/
def State.startLegs (s : State) (a : AxisId) (k : CoilId) : State :=
  let q := s.coil a k
  if !q.volt || q.bridge == Bridge.pwm || !(s.ax a).pwm.started then s
  else
    let s := s.setCoil a k { q with bridge := .pwm }
    let leg (s : State) (second : Bool) : State :=
      let p := (s.ax a).pwm
      s.setPwm a { p with legs := p.legs.set (legOf k second) { LegPlan.reset with slots := p.nominal second 0 } }
    leg (leg s false) true

/-- A write of U or HALF is noted, for the edges of the next period that it may find committed (R177). -/
def Pwm.note (p : Pwm) (now half : Nat) : Pwm :=
  { p with writes := (p.writes.filter fun w => decide (now < w.at_ + 112)) ++ [⟨now, p.u, half⟩] }

/-- The strobe instant of a period: its centre and SAMPOFS (R186). -/
def State.strobeOf (s : State) (a : AxisId) (c : Nat) : Nat := ((c : Int) + s.sfld (Reg.pwmCfg a) 27 5 * 16).toNat

/-- The period of an axis's carrier that starts at tick `b` (R174, R183, R186, R193). -/
def State.nextPeriod (s : State) (a : AxisId) (b : Nat) : Pwm :=
  let sp := s.spreadAt a b
  let h := halfEff (s.half a) s.pwr.div8 sp
  let err := if s.phases a then phaseOf (s.carrierRef b) (b + h) (2 * h) else 0
  let adj : Int := err.sign * (min err.natAbs 16 : Nat)
  { (s.ax a).pwm with
    started := true, b := b, c := b + h, e := ((b + 2 * h : Nat) + adj : Int).toNat, halfEff := h, div8 := s.pwr.div8
    spread := sp, phaseErr := err, phased := s.phases a && err == 0, strobeAt := s.strobeOf a (b + h), strobed := false
    stretched := false, dropped := false }

/-- CARRIER_BOUNDARY: the period that starts here is fixed (R174, R176, R183, R193, R195). -/
def execCarrierBoundary (dt : Nat) (a : AxisId) (s : State) : Res :=
  .next <|
    let s := (s.advance dt).guySync
    let p := (s.ax a).pwm
    let b := if p.started then p.e else p.b
    if !p.run || !s.gateOn 6 || s.net < b then s
    else
      let p := s.nextPeriod a b
      let l := (s.ax a).loop
      let l := { l with
        odiv := (s.loopCfg a).odiv
        periods := if l.periods = 0 ∨ (s.loopCfg a).odiv ≤ l.periods then 1 else l.periods + 1 }
      let s := (s.setPwm a p).setLoop a l
      let s := (s.planCoil a 0).planCoil a 1
      let p := (s.ax a).pwm
      let s := if p.stretched then s.flag (Reg.pwmStat a) 3 else s
      if p.dropped then s.flag (Reg.pwmStat a) 4 else s

/-- The axis's leg channel is on a withdrawn delay line (R179). -/
def State.legCoarse (s : State) (a : AxisId) (l : LegId) : Bool :=
  let b := s.bank (bankOf a)
  b.withdrawn.contains (b.serve.get ⟨4 * (locOf a).val + l.val, by omega⟩)

/-- A channel of the axis is on whole ticks (PWM.STAT.FINE_LOST). -/
def State.fineLost (s : State) (a : AxisId) : Bool :=
  s.stepCoarse a || (List.finRange 4).any fun l => s.legCoarse a l

/-- LEG_EDGE: the next edge of a leg takes effect (R177). One at the period's end waits for the boundary, where it may
cancel. -/
def execLegEdge (dt : Nat) (a : AxisId) (l : LegId) (s : State) : Res :=
  .next <|
    let s := s.advance dt
    let p := (s.ax a).pwm
    let g := p.legs.get l
    let k : CoilId := ⟨l.val / 2, by omega⟩
    let q := s.coil a k
    match g.edges with
    | [] => s
    | (t, v) :: rest =>
      let due := if s.legCoarse a l then t / 16 * 16 else t
      if !q.volt || q.bridge != Bridge.pwm || p.e * 16 ≤ t || s.fine < due then s
      else
        let s := s.setPwm a { p with legs := p.legs.set l { g with edges := rest, last := some due, high := v } }
        s.setTile a ((s.tile a).commandLeg l v (!v) (s.tbFine - (s.fine - due)))

/-- What a DUTY item shows in a trace entry (R182). -/
def dutyPayload (p : Pwm) (volt : Vector Bool 2) : List Byte :=
  bytesS 2 (p.u.get 0) ++ bytesS 2 (p.u.get 1) ++ bytesOf 3 (p.halfEff % 131072) ++ bytesOf 1 p.div8 ++
  bytesOf 1 (p.stretched.toNat + 2 * p.dropped.toNat + 4 * (volt.get 0).toNat + 8 * (volt.get 1).toNat)

/-- DUTY_ARRIVAL: a coil duty takes effect (R180, R213, R214). -/
def execDutyArrival (dt : Nat) (a : AxisId) (c : CoilId) (s : State) : Res :=
  .next <|
    let s := s.advance dt
    let p := (s.ax a).pwm
    match p.duty.get c with
    | none => s
    | some d =>
      if s.net < d.arrival then s
      else
        let s := s.setPwm a { p with duty := p.duty.set c none }
        if !(s.coil a c).volt then s
        else
          let key := loopPar a 7
          let late := min 65535 (s.net - d.stamp)
          let s := (s.setFld key 0 16 late).peak key 16 16 late
          let p := ((s.ax a).pwm).note s.net (s.half a)
          let s := (s.setPwm a { p with u := p.u.set c d.u }).startLegs a c
          let s := s.replanCoil a c
          s.trace ⟨d.stamp, d.hdr, a.val, 4, false, dutyPayload (s.ax a).pwm #v[(s.coil a 0).volt, (s.coil a 1).volt]⟩

/-- The period in progress after HALF has changed (R181): the half in progress ends at its start and the new half_eff, or
at the horizon where that lies before it; a centre or boundary already committed stands. -/
def Pwm.newHalf (p : Pwm) (now half : Nat) : Pwm :=
  let h := Machine.halfEff half p.div8 p.spread
  let hz := now + 112
  if now < p.c then
    let c := if p.c < hz then p.c else max hz (p.b + h)
    { p with c := c, e := c + h, halfEff := h }
  else { p with e := if p.e < hz then p.e else max hz (p.c + h), halfEff := h }

/-- A write of AXn.PWM.CFG: HALF acts on the half in progress (R173, R181, R185); the strobe moves with the centre and
with SAMPOFS unless it is committed, and not before the horizon (R186) (DEDUCED, log 60). -/
def State.writePwmCfg (s : State) (a : AxisId) (v : Word) : State :=
  let k := Reg.pwmCfg a
  let old := s.half a
  let s := s.plainWrite k v
  let h := v.fld 0 16
  let s := if h < 2000 ∨ 32787 < h then s.flag (Reg.pwmStat a) 6 else s
  let s := if v.bit 26 ∧ v.fld 24 2 ≠ 0 then s.flag (Reg.pwmStat a) 2 else s
  let p := (s.ax a).pwm
  if !p.run then s
  else
    let new := s.half a
    let p := if new = old then p else p.note s.net old
    let p := if new = old || !p.started then p else p.newHalf s.net new
    let hz := s.net + 112
    let s := s.setPwm a { p with strobeAt := if p.strobeAt < hz then p.strobeAt else max hz (s.strobeOf a p.c) }
    if new = old || !p.started then s else (s.replanCoil a 0).replanCoil a 1

def execHalfWrite (dt : Nat) (port : Port) (a : AxisId) (value : Word) (s : State) : Res :=
  .next <|
    let s := s.advance dt
    s.portWrite port fun s => s.writePwmCfg a value

/-! ## The sample strobe -/

/-- The setpoint in force at a tick, for a coil: also of those that the tile has still to take. -/
def State.setpointAt (s : State) (a : AxisId) (k : CoilId) (t : Nat) : Int :=
  let c := (s.ax a).chp
  ((c.setpoints.filter fun p => decide (p.instant / 16 ≤ t)).getLast?.map fun p => p.s.get k).getD (c.coils.get k).s

/-- The strobe is SETTLED for a coil (R186): in voltage mode, leg 1 high and leg 2 low for a dead time and 400 ns. -/
def State.settledAt (s : State) (a : AxisId) (k : CoilId) (t : Nat) : Bool :=
  let p := (s.ax a).pwm
  let l1 := p.legs.get (legOf k false)
  let l2 := p.legs.get (legOf k true)
  (s.coil a k).volt && (s.coil a k).bridge == Bridge.pwm && l1.high && !l2.high &&
  decide (max (l1.last.getD 0) (l2.last.getD 0) + (Config.deadTicks + 160) * 16 ≤ t * 16)

/-- What a SAMPLE item shows in a trace entry (R281). -/
def Sample.payload (m : Sample) : List Byte :=
  bytesS 2 (m.i.get 0) ++ bytesS 2 (m.i.get 1) ++ bytesOf 2 m.vbus ++
  bytesOf 1 ((m.settled.get 0).toNat + 2 * (m.settled.get 1).toNat + 4 * (m.chop.get 0).toNat + 8 * (m.chop.get 1).toNat) ++
  bytesS 3 (m.dn.get 0) ++ bytesS 3 (m.dn.get 1) ++ bytesOf 3 (min 16777215 m.interval)

/-- The ADC code of a coil at a strobe (R280): in chopper mode that of the midpoint of the last on-time that has ended,
unless an on-time past its blanking is in progress. -/
def State.coilCode (s : State) (a : AxisId) (k : CoilId) (m : CoilCodes) : BitVec 12 :=
  let q := s.coil a k
  if q.volt || (q.bridge == Bridge.drive && decide (q.since + q.blank ≤ s.tb)) then m.strobe else m.mid

/-- The Q15 sample of a code, less the offset of the coil's ADC (R279). -/
def State.coilValue (s : State) (a : AxisId) (k : CoilId) (code : BitVec 12) : Int :=
  sat15 ((code.toInt - (s.tile a).offset.get k) * 20)

/-- SAMPLE_STROBE: both coils and the bus are sampled (R186, R196, R280); the item carries the header of the axis's
running command (DESIGN CHOICE, log 56). -/
def execSampleStrobe (dt : Nat) (a : AxisId) (m : Strobe) (s : State) : Res :=
  .next <|
    let s := s.advance dt
    let x := s.ax a
    let p := x.pwm
    let t := p.strobeAt
    if !x.energised || !p.run || !p.started || p.strobed || s.net < t then s
    else
      let cfg := s.loopCfg a
      let ch := axisNum cfg.fbch
      let volt := #v[(s.coil a 0).volt, (s.coil a 1).volt]
      let settled := #v[s.settledAt a 0 t, s.settledAt a 1 t]
      let used := (!volt.get 0 || settled.get 0) && (!volt.get 1 || settled.get 1)
      let item : Sample :=
        { stamp := t, hdr := s.axisHdr a
          i := #v[s.coilValue a 0 (s.coilCode a 0 m.a), s.coilValue a 1 (s.coilCode a 1 m.b)]
          vbus := m.vbus.toNat * 8, settled := settled, chop := #v[!volt.get 0, !volt.get 1]
          dn := #v[(m.a1.toNat : Int) - m.a2.toNat, (m.b1.toNat : Int) - m.b2.toNat]
          interval := (p.lastStrobe.map fun l => t - l).getD 0
          sp := #v[s.setpointAt a 0 t, s.setpointAt a 1 t], volt := volt
          lowOn := #v[s.gateLevel a (s.lowSide a 0), s.gateLevel a (s.lowSide a 1)]
          cpos := s.cposAt a t, vcmd := s.vcmdAt a t, fbCount := (s.chan ch).countAt (t * 16)
          fbSpeed := s.speedAt ch (t * 16), outer := x.loop.periods == 1 }
      let s := s.modAx a fun x => { x with
        sample := some item, pwm := { p with strobed := true, lastStrobe := if used then some t else p.lastStrobe } }
      let b := bankOf a
      let s := s.setFld (Reg.gdbVbus b) 0 12 m.vbus.toNat
      let s := s.peak (Reg.gdbVbus b) 16 12 m.vbus.toNat
      let s := s.setReg (Reg.gdbSamp b (locOf a)) (((0 : Word).put 0 16 (unsigned 16 (item.i.get 0))).put 16 16 (unsigned 16 (item.i.get 1)))
      s.trace ⟨t, item.hdr, a.val, 5, false, item.payload⟩

/-- SAMPLE_ARRIVAL: ICOIL loops, observer, outer loops, in that order (R226, R280) (DESIGN CHOICE, log 45). -/
def execSampleArrival (dt : Nat) (a : AxisId) (s : State) : Res :=
  .next <|
    let s := (s.advance dt).gridRelease a
    if !s.gateOn 7 then s else
    match (s.ax a).sample with
    | none => s
    | some m =>
      let s := s.modAx a fun x => { x with sample := none }
      let s := (s.icoil a m 0).icoil a m 1
      let s := s.observe a m
      if m.outer then s.outerEval a m else s

/-! ## Delay lines -/

/-- The axis whose edges channel `i` of a bank's rotation places: channels 0 to 47 serve the legs, the others the step
setpoints (R178). -/
def lineAxis (b : BankId) (i : Fin 60) : AxisId :=
  if h : i.val < 48 then axisOf b ⟨i.val / 4, by omega⟩ else axisOf b ⟨i.val - 48, by omega⟩

/-- A channel has an edge in the 32 ticks from now (R178): of a leg, also one that the next period will bring, as the leg
would take it at the boundary: cancelled edges are none, and the others stand where R184 places them. -/
def State.lineBusy (s : State) (b : BankId) (i : Fin 60) : Bool :=
  let x := s.ax (lineAxis b i)
  let soon (t : Nat) : Bool := decide (s.fine ≤ t) && decide (t < s.fine + 32 * 16)
  if i.val < 48 then
    let l : LegId := ⟨i.val % 4, by omega⟩
    let k : CoilId := ⟨l.val / 2, by omega⟩
    let p := x.pwm
    let g := p.legs.get l
    let next := (s.legStart (lineAxis b i) (s.nextPeriod (lineAxis b i) p.e) g k (l.val % 2 == 1)).1
    (s.coil (lineAxis b i) k).bridge == Bridge.pwm &&
      ((g.take (s.minPulse (lineAxis b i)) next).1.edges.any fun e => soon e.1)
  else (x.chp.setpoints.any fun e => soon e.instant) || x.stp.edges.any fun e => soon e.instant

/-- DELAY_LINE_SWAP: at a 1 ms boundary the calibrated spare takes the next line's place, at a tick at which that line has
no edge in the following 32; where none has come within 100 µs the line keeps its place (R178, R179, R377). The line that
was calibrated took a trim of `trim` percent, and its taps then span one tick but for `error` ps. -/
def execDelayLineSwap (dt : Nat) (b : BankId) (trim error : Int) (s : State) : Res :=
  .next <|
    let s := s.advance dt
    let k := s.bank b
    let g := gridAt 400000 s.net
    let late := decide (g + 40000 ≤ s.net)
    if !s.onPll || s.resting || g ≤ k.lastSwap || (s.lineBusy b k.swapAt && !late) then s
    else
      let at_ : Fin 60 := k.swapAt
      let turn := if k.swaps = 60 then 0 else k.swaps + 1
      let line := k.spare
      let trimmed := decide (trim.natAbs ≤ 25) && decide (error.natAbs ≤ 10)
      let was := k.withdrawn.contains line
      let out := k.withdrawn.filter fun l => l != line
      let k := { k with
        lastSwap := g, swapAt := at_ + 1, swaps := turn
        serve := if late then k.serve else k.serve.set at_ line
        spare := if late then line else k.serve.get at_
        withdrawn := if trimmed then out else out ++ [line]
        calibrated := k.calibrated ||| (1#61 <<< line) }
      let s := s.setBank b k
      let s := if turn = 0 then s.bumpMod Reg.clkDlev 0 16 else s
      let s := if late then s.bump Reg.clkDlev 24 8 else s
      if trimmed || was then s
      else (s.bump Reg.clkDlev 16 8).raiseC0 17 0x28 (if late then .module else .axis (lineAxis b at_))

/-! ## Trip inputs -/

/-- The axes a trip input is mapped to (R188). -/
def State.mapped (s : State) (k : Fin 16) : List AxisId :=
  (List.finRange 96).filter fun a => s.bit (Reg.pwmTripmap a) k.val

/-- EXT_TRIP on an axis: at C0 where it is OFF or READY (R188). -/
def State.extTrip (s : State) (a : AxisId) : State :=
  let st := (s.ax a).st
  if st = .off ∨ st = .ready then s.raiseC0 13 0x18 (.axis a)
  else s.raiseAx 13 0x18 0 a

/-- A trip input latches (R187, R188). One that goes active again with its latch still set counts as another latch event
and raises EXT_TRIP again: the spec does not say (DESIGN CHOICE, log 64). -/
def State.latchTrip (s : State) (k : Fin 16) : State :=
  let s := ((s.flag Reg.fltTripstat k.val).irq 4).bump Reg.fltTripev 16 8
  match s.mapped k with
  | [] => s.raiseC0 13 0x18 .module
  | as => as.foldl (fun s a => s.extTrip a) s

/-- TRIP_ACTIVE: an input has been low for its filter time (R187, R188). Before the module is up its level is held, and it
latches as the module comes up (`latchTrips`). -/
def execTripActive (dt : Nat) (k : Fin 16) (s : State) : Res :=
  .next <|
    let s := s.advance dt
    if s.trips.getLsbD k.val then s
    else
      let s := { s with trips := s.trips ||| (1#16 <<< k.val) }
      if s.up then s.latchTrip k else s

/-- The inputs that are active as the module comes up set their latches (R187) (DEDUCED, log 60). -/
def State.latchTrips (s : State) : State :=
  (List.finRange 16).foldl (fun s k => if s.trips.getLsbD k.val then s.latchTrip k else s) s

/-- TRIP_INPUT_HIGH: the input is not active any more; its latch stays (R187). -/
def execTripInputHigh (dt : Nat) (k : Fin 16) (s : State) : Res :=
  .next <|
    let s := s.advance dt
    { s with trips := s.trips &&& ~~~(1#16 <<< k.val) }

/-- A write of FLT.TRIPSTAT (R189): true where it is refused, and every bit it named is in CLRREF. -/
def State.clearTrips (s : State) (v : Word) : Bool × State :=
  let m := v.fld 0 16
  if s.trips.toNat &&& m ≠ 0 then
    (true, (List.range 16).foldl (fun s i => if v.bit i then s.flag Reg.fltTripev i else s) s)
  else (false, (s.setReg Reg.fltTripstat (s.reg Reg.fltTripstat &&& ~~~(v &&& 0xffff))).landed Reg.fltTripstat v)

def execTripClear (dt : Nat) (port : Port) (value : Word) (s : State) : Res :=
  .next <|
    let s := s.advance dt
    s.portWrite port fun s => (s.clearTrips value).2

/-- The trip map of an axis takes a new value (R188): a newly mapped latched trip kills and records.
One write that maps several latched trips raises EXT_TRIP once: R188 has the axis record it, and the merging of Table 7-2
is that of trips that come one after the other (DESIGN CHOICE, log 64). -/
def State.writeTripmap (s : State) (a : AxisId) (v : Word) : State :=
  let old := s.reg (Reg.pwmTripmap a)
  let s := s.setReg (Reg.pwmTripmap a) (v &&& 0xffff)
  if (s.reg Reg.fltTripstat &&& v &&& ~~~old &&& 0xffff) != 0 then s.extTrip a else s

/-! ## Guyline -/

/-- GUYPER in ticks (TIME.GUYCFG). -/
def State.guyPeriod (s : State) : Nat := max 1 (s.fld Reg.timeGuycfg 8 8) * 400000

/-- ROLE as written; 3 is applied as 0. -/
def State.guyWanted (s : State) : Nat := let r := s.fld Reg.timeGuycfg 0 2; if r = 3 then 0 else r

/-- A write of TIME.GUYCFG (R191, Table 7-4). -/
def State.writeGuycfg (s : State) (v : Word) : State :=
  let s := s.guySync
  let s := s.plainWrite Reg.timeGuycfg v
  let p := s.guyPeriod
  if s.guyWanted = s.netw.guyRole then { s with netw := { s.netw with guyNext := none } }
  else { s with netw := { s.netw with guyNext := some (s.guyWanted, gridAt p s.net + p) } }

/-- GUY_HEAD_PULSE: a head's pulse rises at a grid instant (R191, R367). -/
def execGuyHeadPulse (dt : Nat) (s : State) : Res :=
  .next <|
    let s := (s.advance dt).guySync
    let g := gridAt s.guyPeriod s.net
    if s.netw.guyRole = 1 ∧ s.netw.guyHead < g ∧ s.up = true then
      { s with netw := { s.netw with guyHead := g, syncOut := some (s.outAt (g * 16)) } }
    else s

/-- The level of SYNC_OUT: high for 1 µs from a rise; low with ROLE off (R191), in Kindling and in PL0 (R380, R396). -/
def State.syncOutLevel (s : State) : Bool :=
  let s := s.guySync
  match s.netw.syncOut with
  | some t => s.pwr.phase == PwrPhase.running && decide (t ≤ s.fine) && decide (s.fine < t + 400 * 16)
  | none => false

/-- GUY_PULSE_ACCEPTED: SYNC_IN has stayed high for 500 ns after an edge at fine tick `fine` (R192). -/
def execGuyPulseAccepted (dt : Nat) (fine : Fin 16) (s : State) : Res :=
  .next <|
    let s := (s.advance dt).guySync
    let at_ := (s.net - 200) * 16 + fine.val
    let per := s.guyPeriod
    let early := match s.netw.guyAcc with
      | some (t, _) => decide (at_ < t + per / 2 * 16)
      | none => false
    if s.netw.guyRole ≠ 2 ∨ early = true ∨ s.up = false then s
    else
      let comp := s.fld Reg.timeGuycfg 16 16
      let ref := at_ - comp
      let r := ref % (per * 16)
      let ofs : Int := if per * 16 < 2 * r then (r : Int) - (per * 16 : Nat) else r
      let tol := s.fld Reg.timeGuycfg 2 6
      let off := decide (tol ≠ 0) && decide (tol * 640 < ofs.natAbs)
      let was := s.netw.guyOff
      let s := { s with netw := { s.netw with
        guyAcc := some (at_, s.tb), guyRef := ref, guySince := s.tb, guyOff := off, guyMissed := false, syncOut := some (s.outAt (at_ + 240 * 16)) } }
      let s := s.setReg Reg.timeGuyofs (loWord ofs)
      let s := (s.setBit Reg.timeGuyflag 0 true).bumpMod Reg.timeGuyflag 8 8
      if off then
        let s := s.flag Reg.timeGuyflag 2
        if was then s else s.raiseC0 17 0x29 .module
      else s

/-- GUY_LOST: no pulse has been accepted for 2 · GUYPER (R192). -/
def execGuyLost (dt : Nat) (s : State) : Res :=
  .next <|
    let s := (s.advance dt).guySync
    if s.netw.guyRole = 2 ∧ s.netw.guySince + 2 * s.guyPeriod ≤ s.tb ∧ s.up = true ∧ s.netw.guyMissed = false then
      let s := { s with netw := { s.netw with guyMissed := true } }
      ((s.setBit Reg.timeGuyflag 0 false).flag Reg.timeGuyflag 1).raiseC0 17 0x2a .module
    else s

end Sys2Proof.Machine
end

