-- ==== Sys2Proof/Machine/Fault.lean ====
section
/-! DEFINITION. Fault collection (chapter 12): causes and classes, records, class actions, shares, the Ember entries they
ask for, retry, retirement and nERR. -/

namespace Sys2Proof.Machine

/-! ## Causes (Table 12-2) -/

def causeRetriable (c : Nat) : Bool := c == 0x01 || c == 0x03 || c == 0x0a || c == 0x10

/-- A write of its field leaves the class of a fixed cause unchanged (R294). -/
def classFixed (c : Nat) : Bool := (fixedClass c).isSome || c == 0x2f

/-- Lowest class of a cause (Table 12-2). -/
def lowestClass (c : Nat) : Nat :=
  if c = 0x01 ∨ c = 0x02 ∨ c = 0x03 ∨ c = 0x05 ∨ c = 0x07 ∨ c = 0x0c ∨ c = 0x18 then 2
  else if c = 0x04 ∨ c = 0x0b then 3
  else 0

/-- The causes of a Flue source. -/
def sourceCauses (src : Nat) : List Nat :=
  match src with
  | 8 => [0x1a, 0x2b]
  | 9 => [0x1b, 0x2c, 0x2d]
  | 10 => [0x11, 0x12, 0x20, 0x21]
  | 11 => [0x10, 0x13, 0x22]
  | 12 => [0x23]
  | 13 => [0x18]
  | 14 => [0x14, 0x25]
  | 15 => [0x15, 0x16, 0x24]
  | 16 => [0x17, 0x26, 0x27]
  | 17 => [0x28, 0x29, 0x2a]
  | 18 => [0x32, 0x33]
  | 19 => [0x31, 0x35]
  | 20 => [0x19, 0x34]
  | 21 => [0x2e, 0x30]
  | _ => [0x01, 0x02, 0x03, 0x04, 0x05, 0x06, 0x07, 0x08, 0x09, 0x0a, 0x0b, 0x0c, 0x0d, 0x0e, 0x0f]

/-- The wire class of a source (R292). -/
def State.wireClass (s : State) (src : Nat) : Nat := (sourceCauses src).foldl (fun m c => max m (s.causeClass c)) 1

/-! ## Ember entries -/

/-- Word 0 of an entry (Table 17-1) but for DISCONT, which is put in at the write. -/
def emberHead (kind port : Nat) (segv : Bool) (code cls axis sub : Nat) (timev retired lost : Bool) : Word :=
  BitVec.ofNat 32 (kind + port * 8 + segv.toNat * 0x40 + code * 0x80 + cls * 0x2000 + axis * 0x10000 +
    sub * 0x800000 + timev.toNat * 0x8000000 + retired.toNat * 0x20000000 + lost.toNat * 0x40000000)

/-- The entry of a record: OPENING with its first stamp, CLOSING with the closing instant (Table 17-2). -/
def State.recEntry (s : State) (r : Rec) (axis : Nat) (closing : Bool) : List Word :=
  let t := if closing then s.net else r.stamp
  [emberHead (if closing then 2 else 1) r.hdr.port r.hdr.segv r.first r.cls axis r.sub (if closing then s.timeValid else r.timev)
      (closing && r.retired) false,
   0, 0, hiWord64 t, loWord64 t, BitVec.ofNat 32 r.mask, BitVec.ofNat 32 (r.mask / 0x100000000 % 0x800000 + r.repeats * 0x800000),
   BitVec.ofNat 32 (r.hdr.tag % 0x10000 + r.hdr.segid % 0x10000 * 0x10000)]

def wordDefault : Nat → Word := fun _ => 0

/-- Word `i` of an entry slot. -/
def State.emberWord (s : State) (slot i : Nat) : Word := storeGet wordDefault s.hearth.ember (8 * slot + i)

/-- The calendar in words 1 and 2 of an entry. -/
def State.calWords (s : State) : Word × Word :=
  let h := s.hearth
  (BitVec.ofNat 32 (h.sec / 0x100000000 % 256 + h.acc / 65536 % 0x1000000 * 256), BitVec.ofNat 32 (h.sec % 0x100000000))

/-- An entry as it is written: the calendar, and DISCONT, as its write begins (R408, R409, Table 17-3). -/
def State.emberWords (s : State) (q : EmberReq) : List Word :=
  let w0 := (wordAt q.words 0).setBit 28 (s.bit Reg.timeDisc 0)
  match q.why with
  | .calset => w0 :: q.words.drop 1
  | _ => w0 :: s.calWords.1 :: s.calWords.2 :: q.words.drop 3

/-- The domain writes entries: not in PL0, nor without VIN_L (Table 17-4). -/
def State.emberWrites (s : State) : Bool :=
  s.hearth.onMain && s.pwr.phase != PwrPhase.pl0 && s.pwr.phase != PwrPhase.unpowered && s.pwr.phase != PwrPhase.waiting

/-- The write of the oldest entry that waits begins, where none is in progress and the domain writes: word 0 of its slot is
cleared (R407), and a log that it finds full wraps (Table 17-3). -/
def State.emberBegin (s : State) : State :=
  match s.hearth.queue with
  | [] => s
  | q :: _ =>
    if s.hearth.writing.isSome || !s.emberWrites then s
    else
      let i := s.hearth.next
      { s with hearth := { s.hearth with
        writing := some (s.emberWords q), ember := storeSet wordDefault s.hearth.ember (8 * i) 0
        wrapped := s.hearth.wrapped || (s.emberWord i 0).fld 0 3 != 0 } }

/-- An entry is to be written. One that finds nothing before it is begun at once. -/
def State.queueEmber (s : State) (q : EmberReq) : State :=
  ({ s with hearth := { s.hearth with queue := s.hearth.queue ++ [q] } } : State).emberBegin

/-- A notice that is not logged is counted (R303). -/
def State.notSupp (s : State) : State := s.bump Reg.fltStat 24 8

/-- A C0 cause (R300, R303): an Ember entry at most once per second for each cause and axis. -/
def State.notice (s : State) (it : FaultItem) (axis : Nat) : State :=
  let s := s.irq 3
  if it.cause = 0x35 then s.notSupp
  else
    let live := s.hearth.notices.filter fun n => decide (s.tb < n.2.2 + tickHz)
    if live.any fun n => n.1 == it.cause && n.2.1 == axis then s.notSupp
    else
      let s := { s with hearth := { s.hearth with notices := (it.cause, axis, s.tb) :: live } }
      let m := 2 ^ it.cause
      s.queueEmber ⟨.notice, [emberHead 3 it.hdr.port it.hdr.segv it.cause 0 axis it.sub it.timev false false, 0, 0,
        hiWord64 it.stamp, loWord64 it.stamp, BitVec.ofNat 32 m, BitVec.ofNat 32 (m / 0x100000000),
        BitVec.ofNat 32 (it.hdr.tag % 0x10000 + it.hdr.segid % 0x10000 * 0x10000)]⟩

/-! ## Class actions -/

/-- The tags of an axis end (Table 2-10): all of them, or those that run or are queued. A retirement's own stays open
(DEDUCED, log 37). -/
def State.endTags (s : State) (a : AxisId) (all : Bool) (st : Status) : State :=
  let own := (s.ax a).fault.retCmd
  let ids := (s.tags.filter fun c => c.on a && some c.id != own &&
    (all || !(c.place == Place.burst || c.place == Place.stamped))).map Cmd.id
  ids.foldl (fun s id => s.fail id st 0 0 s.net) s

/-- The C1 action (R297, Table 12-4). An axis that its retirement flag marks stays RETIRED, also out of a diagnostic
(R307). -/
def State.actC1 (s : State) (a : AxisId) (st : Status) : State :=
  let x := s.ax a
  match x.st with
  | .moving | .stopping | .following =>
    ((s.endTags a false st).modAx a fun x => { x with fault := { x.fault with acting := true } }).stopFault a
  | .holding =>
    let s := (s.endTags a false st).closeRun a
    let s := if x.pro.segs.isEmpty then s else s.cutNow a
    let s := s.modAx a fun x => { x with
      st := .faulted, pro := { x.pro with susp := .none, motion := .idle, atRest := [] } }
    s.syncLoops a
  | .energising =>
    let s := s.endTags a false st
    s.modAx a fun x => { x with
      st := .faulted
      chp := { x.chp with ramp := none, awaitG0 := false, awaitLift := false, drooped := false, brakeEnd := none
                          energiseCmd := none } }
  | .off | .ready | .diag =>
    ((s.endTags a false st).closeRun a).modAx a fun x => { x with
      st := if s.retired a then .retired else .faulted, diagCmd := none, pro := { x.pro with susp := .none, motion := .idle, atRest := [] } }
  | .faulted | .retired => s.endTags a false st

/-- Everything that is queued for an axis is purged (R23); its position stays, to the nearest pu. -/
def Axis.purged (x : Axis) (pos : Int) : Axis :=
  { x with
    pro := { Pro.reset with pos := pos, target := x.pro.target, slbadSeen := x.pro.slbadSeen }
    stp := { x.stp with segs := [], edges := [], follow := none, q := x.stp.qRel, ep := x.stp.epRel, solvedTo := 0
                        prevEdge := none, lastEdge := x.stp.lastRel } }

/-- The C2 action (Table 12-3): gates low, brake released, queues purged, blocks to quarantine, tags ended. -/
def State.actC2 (s : State) (a : AxisId) (st : Status) : State :=
  let pos := roundAway (s.traj a).1
  let later := match (s.ax a).rec? with
    | some r => !r.pending
    | none => false
  let s := s.quarantine a later
  let s := s.endTags a true st
  let s := s.killAxis a
  s.modAx a fun x =>
    { x.purged pos with
      st := if x.st = .retired ∨ s.retired a = true then .retired else .faulted, diagCmd := none, diagOn := false
      fault := { x.fault with ss1 := none, acting := false } }

/-- A source whose C2 causes may stop the axis first (R298). -/
def ss1Source (src : Nat) : Bool := src == 8 || src == 9 || src == 10 || src == 11 || src == 14 || src == 15 || src == 16 || src == 20

/-- An SS1 stop runs before the C2 action (R298). -/
def State.ss1Runs (s : State) (a : AxisId) (src : Nat) : Bool :=
  let st := (s.ax a).st
  s.bit (Reg.axfRetry a) 16 && ss1Source src && (st == AxState.moving || st == AxState.following || st == AxState.stopping)

/-- STOPMAX in ticks (AXF.RETRY). -/
def State.stopMax (s : State) (a : AxisId) : Nat := max 1 (s.fld (Reg.axfRetry a) 24 8) * 4000000

/-- The C2 action, or the stop that comes before it; true where it is taken now. -/
def State.actStop (s : State) (a : AxisId) (src opentb : Nat) (st : Status) : Bool × State :=
  if s.ss1Runs a src then
    (false, (s.modAx a fun x => { x with fault := { x.fault with ss1 := some (opentb + s.stopMax a), ss1Src := src } }).actC1 a st)
  else (true, s.actC2 a st)

/-- The action of a class on an axis (R295, Table 12-3); class C3 and C4 reach other axes by their shares. -/
def State.act (s : State) (a : AxisId) (cls src opentb : Nat) : State :=
  if cls = 1 then s.actC1 a .axisFaulted
  else if cls = 2 then (s.actStop a src opentb .axisFaulted).2
  else s.actC2 a .axisFaulted

/-! ## Retirement (R307) -/

/-- The open record of an axis is changed. -/
def State.modRec (s : State) (a : AxisId) (f : Rec → Rec) : State :=
  s.modAx a fun x => { x with fault := { x.fault with recs := x.fault.recs.map fun r => if r.opened then f r else r } }

/-- Steps 2 to 4: holds become latches, tags and blocks go, RETIRED. -/
def State.retireSteps (s : State) (a : AxisId) : State :=
  let t := s.tile a
  let s := s.setTile a { t with hard := t.hard ||| t.soft, soft := 0 }
  let later := match (s.ax a).rec? with
    | some r => !r.pending
    | none => false
  let s := (s.endTags a true .axisRetired).quarantine a later
  let s := s.modRec a fun r => { r with backoff := none }
  let s := s.modAx a fun x => { x with
    st := .retired, fault := { x.fault with retPhase := .writing, ss1 := none, acting := false } }
  s.setBit (retFlag a) 0 true

/-- FLT's own causes take no Flue pair. -/
def fltSource : Nat := 22

/-- Retirement from step 1 on; `taken` where the C2 action of the record has been taken. -/
def State.retire (s : State) (a : AxisId) (taken : Bool) (src opentb : Nat) : State :=
  if taken then s.retireSteps a
  else
    let (now, s) := s.actStop a src opentb .axisRetired
    if now then s.retireSteps a
    else s.modAx a fun x => { x with fault := { x.fault with retPhase := .stopping } }

/-! ## Records -/

/-- WINDOW in ticks (AXF.RETRY). -/
def State.retryWindow (s : State) (a : AxisId) : Nat := max 1 (s.fld (Reg.axfRetry a) 8 8) * tickHz

/-- Retries released less than WINDOW before an instant (R305). -/
def State.retriesIn (s : State) (a : AxisId) (tb : Nat) : Nat :=
  ((s.ax a).fault.retries.filter fun r => decide (tb < r + s.retryWindow a)).length

/-- The record a cause opens (R302). -/
def newRec (it : FaultItem) (cls seq retries opentb : Nat) (shared : Bool) : Rec :=
  { timev := it.timev, first := it.cause, cls := cls, opened := true, pending := it.cause != 0x35, retired := false, sub := it.sub, repeats := 0
    mask := 2 ^ it.cause, stamp := it.stamp, hdr := it.hdr, retries := retries, seq := seq % 65536, ember := 0
    emberv := false, shared := shared, banks := 0, pairs := [], opentb := opentb, awaitSub := false, backoff := none, mergedAt := none }

/-- A cause merged into a record at timebase tick `now` (R301). -/
def Rec.merge (r : Rec) (it : FaultItem) (cls now : Nat) : Rec :=
  { r with
    mergedAt := some now
    mask := r.mask ||| 2 ^ it.cause, cls := max r.cls cls, repeats := satAdd 8 r.repeats 1
    sub := if r.sub = 0 then it.sub else r.sub
    backoff := if causeRetriable it.cause && max r.cls cls ≤ 3 then r.backoff else none }

/-- The oldest closed slot is taken (R300). -/
def pushRec (rs : List Rec) (r : Rec) : List Rec := (r :: rs).take 8

/-- A cause of class C1 or above against an axis (R300, R301, R305). -/
def State.recordAx (s : State) (a : AxisId) (it : FaultItem) (cls : Nat) (shared : Bool) : State :=
  let x := s.ax a
  match x.rec? with
  | none =>
    let opentb := s.tb - (s.net - it.stamp)
    let n := s.retriesIn a opentb
    let mayRetry := !shared && causeRetriable it.cause && decide (cls ≤ 3) && !s.retired a
    let retire := mayRetry && decide (s.fld (Reg.axfRetry a) 0 3 ≤ n)
    let waits := !shared && (it.cause == 0x05 || it.cause == 0x06) && decide (2 ≤ cls)
    let r := { newRec it cls x.fault.seq n opentb shared with
      awaitSub := waits, backoff := if mayRetry && !retire then some (opentb + 4000000 * 2 ^ n) else none }
    let s := s.setFault a { x.fault with recs := pushRec x.fault.recs r, seq := x.fault.seq + 1 }
    let s := s.irq 2
    let s := if waits || it.cause == 0x35 then s else s.queueEmber ⟨.opening a.val r.seq, s.recEntry r a.val false⟩
    -- a C3 action never runs as a stop first (R298)
    if retire then s.retire a false (if 3 ≤ cls then fltSource else it.source) opentb else s.act a cls it.source opentb
  | some r =>
    let s := s.modRec a fun r => r.merge it cls s.tb
    let rose := decide (r.cls < cls)
    let s := if rose then s.irq 2 else s
    let s :=
      if x.fault.ss1.isSome && decide (2 ≤ cls) && (decide (3 ≤ cls) || it.source != x.fault.ss1Src) then
        let st : Status := if x.fault.retPhase = .stopping then .axisRetired else .axisFaulted
        let s := s.actC2 a st
        if x.fault.retPhase = .stopping then s.retireSteps a else s
      else if rose && x.fault.ss1.isNone then s.act a cls it.source r.opentb
      else s
    s

/-- A cause against an axis, at a class. -/
def State.causeAx (s : State) (a : AxisId) (it : FaultItem) (cls : Nat) (shared : Bool) : State :=
  if cls = 0 then s.notice it a.val else s.recordAx a it cls shared

/-- A cause recorded against the module; `banks` are those it acts on (R289, R295). -/
def State.recordMod (s : State) (it : FaultItem) (cls : Nat) (banks : BitVec 8) (pairs : List (Nat × Nat)) : State :=
  let s := if it.cause = 0x35 then (s.irq 3).notSupp else s
  match openRec s.modRecs with
  | none =>
    let r := { newRec it cls s.modSeq 0 (s.tb - (s.net - it.stamp)) false with banks := banks, pairs := pairs }
    let s := ({ s with modRecs := pushRec s.modRecs r, modSeq := s.modSeq + 1 }).irq 2
    if it.cause = 0x35 then s else s.queueEmber ⟨.opening 127 r.seq, s.recEntry r 127 false⟩
  | some r =>
    let f (r : Rec) : Rec := { r.merge it cls s.tb with banks := r.banks ||| banks, pairs := pairs ++ r.pairs.filter fun p => !pairs.contains p }
    let s := { s with modRecs := s.modRecs.map fun r => if r.opened then f r else r }
    if r.cls < cls then s.irq 2 else s

/-- PL0 is entered, or in force: nERR keeps the level it had at entry (R396). -/
def State.errHeld (s : State) : Bool := s.pwr.phase == PwrPhase.entering || s.pwr.phase == PwrPhase.pl0

/-- FLT.ERRPIN after a qualifying cause (R310). -/
def State.qualify (s : State) (cls : Nat) : State :=
  let th := s.fld Reg.fltErrcfg 0 3
  if s.errHeld then (if th ≤ 4 ∧ th ≤ cls then s.bump Reg.fltErrpin 16 8 else s)
  else if th ≤ 4 ∧ th ≤ cls then
    let s := s.bump Reg.fltErrpin 16 8
    let s := s.setFld Reg.fltErrpin 0 3 1
    { s with errPulse := some (s.tb + 400000), pwr := { s.pwr with errKept := s.pwr.errKept || s.pwr.phase == PwrPhase.kindling } }
  else s

/-! ## Shares (R296) -/

/-- The record that holds the bank share or the module share on a bank. -/
def State.shareRec (s : State) (b : BankId) : Option Rec :=
  let high (r : Rec) : Bool := decide (3 ≤ r.cls)
  let mine := (List.finRange 12).findSome? fun j => (s.ax (axisOf b j)).rec?.filter high
  let mod := (openRec s.modRecs).filter fun r => high r && (s.locked || r.banks.getLsbD b.val)
  let lock := if s.locked then (List.finRange 96).findSome? fun a => (s.ax a).rec?.filter fun r => decide (r.cls = 4) else none
  (mine.or mod).or lock

/-- The bank share or the module share reaches an axis that is energised or in DIAG: it opens a record or merges its
own; any other axis passes to OFF. -/
def State.shareAx (s : State) (a : AxisId) : State :=
  let b := bankOf a
  if !(s.bankShare b || s.locked) then s
  else if s.activeAx a then
    let own := match (s.ax a).rec? with
      | some r => decide (3 ≤ r.cls)
      | none => false
    match own, s.shareRec b with
    | false, some r =>
      s.recordAx a (s.item b.val r.first 0 (.axis a) r.cls) r.cls true
    | _, _ => s
  else s.syncReady a

def State.spreadShares (s : State) : State :=
  if s.locked || (List.finRange 8).any s.bankShare then s.eachAx fun s a => s.shareAx a else s

/-- A C4 action locks the module (R299); nERR stays asserted (R311). -/
def State.lock (s : State) : State :=
  let s := { s with locked := true }
  if s.errHeld then s else s.setFld Reg.fltErrpin 0 3 1

/-- A cause of class C4 on an axis or the module. -/
def State.lockIf (s : State) (cls : Nat) : State := if 4 ≤ cls then s.lock else s

/-! ## FLT takes an item -/

/-- A cause reaches each of some axes, with the header that was in force on it. -/
def State.causeEach (s : State) (as : List AxisId) (it : FaultItem) (cls : Nat) : State :=
  as.foldl (fun s a => s.causeAx a { it with hdr := it.hdrOn a } cls false) s

/-- The axes that the action of a module cause reaches: at C3 and above those in DIAG too (R295). -/
def State.reached (s : State) (cls : Nat) : List AxisId :=
  (List.finRange 96).filter fun a => if cls ≤ 2 then (s.ax a).energised else s.activeAx a

/-- An item is acted on at its class (R289, R291, R295, R300). -/
def State.takeItem (s : State) (it : FaultItem) : State :=
  let cls := it.cls
  let s := s.qualify cls
  let s := match it.scope with
    | .axis a => s.causeAx a it cls false
    | .bank b =>
      let act := ((List.finRange 12).map fun j => axisOf b j).filter fun a => s.activeAx a
      if act.isEmpty then
        (if cls = 0 then s.notice it 127 else s.recordMod it cls (1#8 <<< b.val) [(b.val, it.cause)])
      else s.causeEach act it cls
    | .module =>
      if cls = 0 then s.notice it 127 else (s.recordMod it cls 0xff []).causeEach (s.reached cls) it cls
  (s.lockIf cls).spreadShares

/-- FLT_SELF: FLT's duplicated classification paths disagree (R299); it is FLT's own cause and takes no Flue pair. -/
def State.fltSelf (s : State) : State := s.takeItem (s.item fltSource 0x36 0 .module 4)

/-- FLT is powered: with VCORE removed in PL0, or without VIN_L, nothing is taken and nothing recorded (R396, Table 17-4). -/
def State.fltRuns (s : State) : Bool :=
  s.pwr.phase != PwrPhase.pl0 && s.pwr.phase != PwrPhase.unpowered && s.pwr.phase != PwrPhase.waiting

/-- CAUSE_RAISED: FLT takes the oldest item of a source (R291); where its paths disagree on it, FLT_SELF follows (R299;
DESIGN CHOICE, log 54). -/
def execCauseRaised (dt : Nat) (source : Fin 22) (disagree : Bool) (s : State) : Res :=
  .next <|
    let s := s.advance dt
    if !s.fltRuns then s else
    match s.flue.find? fun i => i.source == source.val with
    | none => s
    | some it =>
      let s := { s with flue := s.flue.erase it, flueSince := Vector.ofFn fun i => if i.val = source.val then s.tb else s.flueSince.get i }
      let s := s.takeItem it
      if disagree then s.fltSelf else s

/-- A pair is broken (R292): one fault of FLT's own, FLUE_WIRE against every axis of the source's bank, or against the
module. -/
def State.breakPair (s : State) (src : Fin 22) : State :=
  if s.broken.getLsbD src.val then s
  else
    let cls := s.wireClass src.val
    let s := { s with broken := s.broken ||| (1#22 <<< src.val) }
    let it := s.item fltSource 0x2f 0 .module cls
    if h : src.val < 8 then
      let as := (List.finRange 12).map fun j => axisOf ⟨src.val, h⟩ j
      let live := as.filter fun a => s.activeAx a
      let idle := as.filter fun a => !s.activeAx a
      ((((s.qualify cls).causeEach live it cls).causeEach idle it cls).lockIf cls).spreadShares
    else s.takeItem it

def execFlueWire (dt : Nat) (source : Fin 22) (s : State) : Res :=
  .next <|
    let s := s.advance dt
    if s.fltRuns then s.breakPair source else s

/-- FLUE_STUCK: a pair stands at (0,1), and for 500 ns no item of the source has been taken (R291). -/
def execFlueStuck (dt : Nat) (source : Fin 22) (s : State) : Res :=
  .next <|
    let s := s.advance dt
    if s.fltRuns = true ∧ s.flueSince.get source + 200 ≤ s.tb then s.breakPair source else s

/-- FLUE_PAIR_RESTORED: the pair is whole again: FLUESTAT shows what is broken now. -/
def execFluePairRestored (dt : Nat) (source : Fin 22) (s : State) : Res :=
  .next <|
    let s := s.advance dt
    { s with broken := s.broken &&& ~~~(1#22 <<< source.val) }

/-- SS1_STOP_END: rest, or STOPMAX after the first stamp: the rest of the C2 action (R298). -/
def execSs1StopEnd (dt : Nat) (a : AxisId) (s : State) : Res :=
  .next <|
    let s := s.advance dt
    let x := s.ax a
    match x.fault.ss1 with
    | none => s
    | some t =>
      if x.st = .faulted ∨ t ≤ s.tb then
        if x.fault.retPhase = .stopping then ((s.actC2 a .axisRetired).retireSteps a).spreadShares
        else (s.actC2 a .axisFaulted).spreadShares
      else s

/-! ## Closing -/

/-- The condition of a bank cause still holds in GDB.STAT (R304). -/
def State.causeHolds (s : State) (b : BankId) (cause : Nat) : Bool :=
  let k := s.bank b
  if cause = 0x04 then !s.vgOk b
  else if cause = 0x08 then k.busOv
  else if cause = 0x09 then k.busUv
  else if cause = 0x0e then k.ot
  else if cause = 0x07 then k.shrefLost
  else if cause = 0x0b ∨ cause = 0x0a then !k.linkUp
  else false

/-- A bank cause of an axis's record persists. -/
def State.persistsAx (s : State) (a : AxisId) (r : Rec) : Bool :=
  [0x04, 0x07, 0x08, 0x09, 0x0a, 0x0b, 0x0e].any fun c => r.mask.testBit c && s.causeHolds (bankOf a) c

def State.persistsMod (s : State) (r : Rec) : Bool :=
  r.pairs.any fun p => if h : p.1 < 8 then s.causeHolds ⟨p.1, h⟩ p.2 else false

/-- The record holds FLUE_WIRE while a pair is broken. -/
def State.wirePersists (s : State) (r : Rec) : Bool := r.mask.testBit 0x2f && s.broken != 0

/-- Put words into a store from an index on. -/
def putWords (m : Store Word) : Nat → List Word → Store Word
  | _, [] => m
  | k, w :: r => putWords (storeSet wordDefault m k w) (k + 1) r

/-- A record's closing entry has been dealt with: the retirement record is completed (R307, R411). -/
def State.closedEntry (s : State) (axis : Nat) (retiring : Bool) (idx : Option Nat) : State :=
  if h : axis < 96 then
    let s := s.freeQuar axis true
    if retiring && (s.ax ⟨axis, h⟩).fault.retPhase == RetPhase.closing then
      let s := s.modAx ⟨axis, h⟩ fun x => { x with fault := { x.fault with retPhase := .none } }
      match idx with
      | some i =>
        let m := s.hearth.retire
        let w (k : Nat) : Word := storeGet wordDefault m (4 * axis + k)
        let w2 := ((w 2).put 16 9 i).setBit 25 true
        { s with hearth := { s.hearth with
          retire := putWords m (4 * axis + 2) [w2, crcWords [w 0, w 1, w2] &&& 0xffff] } }
      | none => s
    else s
  else s

/-- The open record of an axis closes (R304): its closing entry, its shares, the state of the axis. -/
def State.closeRec (s : State) (a : AxisId) (retiring : Bool) : State :=
  match (s.ax a).rec? with
  | none => s
  | some r =>
    let r' := { r with opened := false, retired := retiring, backoff := none, awaitSub := false }
    -- a close before the class action has ended drops the rest of it (DESIGN CHOICE, log 60)
    let s := s.modAx a fun x => { x with
      pro := { x.pro with faultAtRest := false }, fault := { x.fault with ss1 := none, acting := false } }
    let s := if r.awaitSub then s.queueEmber ⟨.opening a.val r.seq, s.recEntry r a.val false⟩ else s
    let s := s.modRec a fun _ => r'
    let s := if r.first = 0x35 then s.closedEntry a.val retiring none else s.queueEmber ⟨.closing a.val retiring, s.recEntry r' a.val true⟩
    if (s.ax a).st = .faulted then
      if (s.ax a).energised then
        let s := s.modAx a fun x => { x with
          st := .holding
          chp := { x.chp with releaseFaulted := false
                              ampst := match x.chp.ampst with
                                | .precharge | .eramp | .brakeWait => .run
                                | st => st } }
        (s.syncLoops a).syncHold a
      else (s.setSt a .off).syncReady a
    else s

/-- The module record closes (R304). -/
def State.closeMod (s : State) : State :=
  match openRec s.modRecs with
  | none => s
  | some r =>
    let r' := { r with opened := false, backoff := none }
    let s := { s with modRecs := s.modRecs.map fun (q : Rec) => if q.opened then r' else q }
    let s := if r.first = 0x35 then s else s.queueEmber ⟨.closing 127 false, s.recEntry r' 127 true⟩
    s.eachAx fun s a => s.syncReady a

/-- RETRY_RELEASE: the retry of R305. -/
def execRetryRelease (dt : Nat) (a : AxisId) (s : State) : Res :=
  .next <|
    let s := s.advance dt
    let x := s.ax a
    match x.rec? with
    | none => s
    | some r =>
      match r.backoff with
      | none => s
      | some t =>
        if t ≤ s.tb && !r.pending && !x.fault.acting && x.fault.ss1.isNone && !s.persistsAx a r && !s.wirePersists r then
          let t := s.tile a
          let s := s.setTile a { (t.freed s.tbFine) with
            soft := 0, legHold := 0, bootSoft := t.bootSoft &&& highLines t.hard
            retryAt := if t.soft = 0 then t.retryAt else some s.tb }
          let s := s.closeRec a false
          let s := s.modAx a fun x => { x with fault := { x.fault with retries := (s.tb :: x.fault.retries).take 16 } }
          s.eachOf (bankOf a) fun s b => s.syncReady b
        else s

/-! ## SW_RETIRE, the retirement record, reinstatement -/

/-- An axis counts as retired from the instant a retirement of it begins (R308). -/
def State.retiring (s : State) (a : AxisId) : Bool :=
  (s.ax a).st == AxState.retired || s.retired a || (s.ax a).fault.retPhase == RetPhase.stopping

/-- SW_RETIRE is raised and the axis retired (R308); the command, or the AXCTL write, ends with the record written. -/
def State.swRetire (s : State) (a : AxisId) (cmd : Option Nat) (ctl : Bool) : State :=
  let s := s.modAx a fun x => { x with fault := { x.fault with retCmd := cmd, retCtl := ctl } }
  let it := s.item 8 0x1a 0 (.axis a) 2
  let s := (s.qualify 2).trace ⟨s.net, it.hdr, a.val, 6, false, []⟩
  let x := s.ax a
  match x.rec? with
  | none =>
    let r := newRec it 2 x.fault.seq (s.retriesIn a s.tb) s.tb false
    let s := (s.setFault a { x.fault with recs := pushRec x.fault.recs r, seq := x.fault.seq + 1 }).irq 2
    let s := s.queueEmber ⟨.opening a.val r.seq, s.recEntry r a.val false⟩
    s.retire a false 8 s.tb
  | some r =>
    let taken := decide (2 ≤ r.cls) && x.fault.ss1.isNone
    let s := s.modRec a fun r => { r.merge it 2 s.tb with backoff := none }
    let s := if r.cls < 2 then s.irq 2 else s
    if x.fault.ss1.isSome then
      -- the cause of another source ends the stop at once (R298)
      (if x.fault.ss1Src = 8 then s.modAx a fun x => { x with fault := { x.fault with retPhase := .stopping } }
       else (s.actC2 a .axisRetired).retireSteps a)
    else s.retire a taken 8 r.opentb

/-- The words of a retirement record (R411). -/
def retireWords (a cause cls sec ember : Nat) (emberv : Bool) : List Word :=
  let w0 := BitVec.ofNat 32 (a + 0x80 + cause * 0x100 + cls * 0x4000)
  let w1 := BitVec.ofNat 32 (sec % 0x100000000)
  let w2 := BitVec.ofNat 32 (sec / 0x100000000 % 256 + ember * 0x10000 + emberv.toNat * 0x2000000)
  [w0, w1, w2, crcWords [w0, w1, w2] &&& 0xffff]

/-- RESULT of FLT.AXCTL (Table 12-9). -/
def State.axctlResult (s : State) (n : Nat) : State := s.setFld Reg.fltAxctl 11 3 n

/-- RETIREMENT_RECORD_WRITTEN: step 5 of R307 has ended; the record closes. Where the domain writes nothing none is
written (Table 17-4). -/
def execRetirementRecordWritten (dt : Nat) (a : AxisId) (s : State) : Res :=
  .next <|
    let s := s.advance dt
    let x := s.ax a
    if x.fault.retPhase ≠ .writing ∨ s.emberWrites = false then s
    else
      let r := x.rec?
      let ws := retireWords a (r.map Rec.first |>.getD 0x1a) (r.map Rec.cls |>.getD 2) s.hearth.sec 0 false
      let s := { s with hearth := { s.hearth with retire := putWords s.hearth.retire (4 * a.val) ws } }
      let s := s.modAx a fun x => { x with fault := { x.fault with
        retPhase := if r.isSome then .closing else .none, retCmd := none, retCtl := false } }
      let s := match x.fault.retCmd with
        | some id => s.done id
        | none => s
      let s := if x.fault.retCtl then s.axctlResult 0 else s
      s.closeRec a true

/-- A reinstatement is accepted (R309): it ends with REINSTATEMENT_ENDED. -/
def State.reinstate (s : State) (a : AxisId) (cmd : Option Nat) (ctl : Bool) : State :=
  s.modAx a fun x => { x with fault := { x.fault with retPhase := .erasing, retCmd := cmd, retCtl := ctl } }

/-- REINSTATEMENT_ENDED (R309): flag and record erased, where the domain writes (Table 17-4), history cleared, OFF. -/
def execReinstatementEnded (dt : Nat) (a : AxisId) (s : State) : Res :=
  .next <|
    let s := s.advance dt
    let x := s.ax a
    if x.fault.retPhase ≠ .erasing ∨ s.emberWrites = false then s
    else
      let s := s.setReg (retFlag a) 0
      let s := { s with hearth := { s.hearth with retire := putWords s.hearth.retire (4 * a.val) [0, 0, 0, 0] } }
      let s := s.modAx a fun x => { x with
        st := .off
        fault := { x.fault with retPhase := .none, retCmd := none, retCtl := false, retries := [] } }
      let s := match x.fault.retCmd with
        | some id => s.done id
        | none => s
      if x.fault.retCtl then s.axctlResult 0 else s

/-! ## FLT.AXCTL (R304, R308, R309) -/

/-- A keyed write of AXCTL takes effect (DESIGN CHOICE, log 38). -/
def State.writeAxctl (s : State) (v : Word) : State :=
  let a := axisNum (v.fld 0 7)
  let op := v.fld 8 3
  let key := v.fld 16 16
  if s.locked then s.axctlResult 4
  else
    let s := s.setFld Reg.fltAxctl 0 11 (v.fld 0 7 + op * 0x100)
    if (op = 3 ∧ key ≠ 0xc3a5) ∨ (op ≠ 3 ∧ key ≠ 0) then s.axctlResult 6
    else
      let x := s.ax a
      match op with
      | 1 =>
        match x.rec? with
        | none => s.axctlResult 1
        | some r =>
          if r.pending || r.mergedAt == some s.tb then s.axctlResult 2
          else if s.persistsAx a r || s.wirePersists r then s.axctlResult 3
          else if x.fault.retPhase ≠ .none then s.axctlResult 5
          else ((s.closeRec a false).axctlResult 0).eachOf (bankOf a) fun s b => (s.shareAx b).syncReady b
      | 2 => if s.retiring a then s.axctlResult 5 else ((s.axctlResult 7).swRetire a none true).spreadShares
      | 3 =>
        if (x.st = .retired ∨ s.retired a = true) ∧ x.fault.retPhase = .none then (s.axctlResult 7).reinstate a none true else s.axctlResult 5
      | 4 =>
        match openRec s.modRecs with
        | none => s.axctlResult 1
        | some r =>
          if r.pending || r.mergedAt == some s.tb then s.axctlResult 2
          else if s.persistsMod r || s.wirePersists r then s.axctlResult 3
          else (s.closeMod.axctlResult 0).spreadShares
      | _ => s

/-- A keyed write of FLT.CLASSk (R294). -/
def State.writeClass (s : State) (k : Nat) (v : Word) : State :=
  let old := s.reg (Reg.fltClass k)
  let new := (List.range 8).foldl (fun (w : Word) i =>
    let c := 8 * k + i
    if classFixed c then w.put (4 * i) 4 (old.fld (4 * i) 4)
    else w.put (4 * i) 4 (max (lowestClass c) (v.fld (4 * i) 3))) (0 : Word)
  s.setReg (Reg.fltClass k) new

/-! ## nERR (R310, R311) -/

/-- A software write of LEVEL at an instant outside a pulse. -/
def State.errLevel (s : State) (b : Bool) : State :=
  let s := s.setBit Reg.fltErrpin 0 b
  { s with errPulse := if b then some (s.tb + 400000) else none }

/-- A write of FLT.ERRPIN. -/
def State.writeErrpin (s : State) (v : Word) : State :=
  let s := (s.setFld Reg.fltErrpin 16 8 (v.fld 16 8)).landed Reg.fltErrpin v
  if s.locked then s
  else if s.errPulse.isSome then s.setFld Reg.fltErrpin 1 2 (1 + 2 * (v.bit 0).toNat)
  else if s.pwr.phase = .running then s.errLevel (v.bit 0) else s

def execErrpinWrite (dt : Nat) (port : Port) (value : Word) (s : State) : Res :=
  .next <|
    let s := s.advance dt
    s.portWrite port fun s => s.writeErrpin value

/-- ERR_PULSE_END: a stored write takes effect as one made now (R310): none does before Kindling has ended (R311, R380), nor
once PL0 is entered (R396). -/
def execErrPulseEnd (dt : Nat) (s : State) : Res :=
  .next <|
    let s := s.advance dt
    match s.errPulse with
    | none => s
    | some t =>
      if s.tb < t then s
      else
        let w := s.reg Reg.fltErrpin
        let s := ({ s with errPulse := none }).setFld Reg.fltErrpin 1 2 0
        if w.bit 1 && !s.locked && s.pwr.phase == PwrPhase.running then s.errLevel (w.bit 2) else s

/-! ## Ember writes -/

/-- The opening entry of record `seq` has been dealt with (R303): it is PENDING no more, also where it has closed since. -/
def State.openedEntry (s : State) (axis seq : Nat) (idx : Option Nat) : State :=
  let f (r : Rec) : Rec :=
    if r.pending && r.seq == seq then { r with pending := false, ember := idx.getD 0, emberv := idx.isSome } else r
  if h : axis < 96 then
    (s.modAx ⟨axis, h⟩ fun x => { x with fault := { x.fault with recs := x.fault.recs.map f } }).freeQuar axis false
  else { s with modRecs := s.modRecs.map f }

/-- The eight words of an Ember entry, as LOG_READ returns them (R408). -/
def State.emberEntry (s : State) (i : Nat) : List Word := (List.range 8).map fun j => s.emberWord i j

/-- An entry is being written into a slot. -/
def State.slotBusy (s : State) (i : Nat) : Bool := s.hearth.writing.isSome && i == s.hearth.next

/-- LOG_READ (R408, Table 17-3): it waits while one of its slots is being written. -/
def State.tryLogRead (s : State) (c : Cmd) : State :=
  let first := (wordAt c.words 0).fld 0 9
  let n := (wordAt c.words 0).fld 16 3
  let slots := (List.range n).map fun i => (first + i) % 512
  if slots.any s.slotBusy then s
  else s.finish c.id .done (slots.flatMap s.emberEntry) s.net

/-! ## The automatic test (R285) -/

/-- The sub-cause that the test of a coil found (R285): it goes into the open record that holds the cause, if it has none;
a C0 notice has no record. -/
def State.subCause (s : State) (a : AxisId) (cause sub : Nat) : State :=
  match (s.ax a).rec? with
  | none => s
  | some r =>
    if r.mask.testBit cause then
      let r' := { r with sub := if r.sub = 0 then sub else r.sub, awaitSub := false }
      let s := s.modRec a fun _ => r'
      if r.awaitSub then s.queueEmber ⟨.opening a.val r'.seq, s.recEntry r' a.val false⟩ else s
    else s

/-- AUTO_DIAG_DONE: the continuity test after SENSE_DISAGREE or NO_CURRENT ends, with every gate of the axis off; where both
coils wait, that of coil A comes first (DESIGN CHOICE, log 60). -/
def execAutoDiagDone (dt : Nat) (a : AxisId) (continuity abortTrip : Bool) (vbus : BitVec 12) (s : State) : Res :=
  .next <|
    let s := s.advance dt
    let t := s.tile a
    let b := bankOf a
    match (List.finRange 2).findSome? fun k => (t.autoDiag.get k).map fun c => (k, c) with
    | none => s
    | some (k, cause) =>
      if (List.finRange 8).any fun g => s.gateLevel a g then s
      else
        let sub := if cause = 0x05 then (if continuity then 1 else 2) else if continuity then 3 else 4
        let s := s.setTile a { t with autoDiag := t.autoDiag.set k none }
        let s := s.setReg (Reg.gdbDiagres0 b) 0x58585858
        let w1 := (!continuity).toNat * 2 ^ k.val + abortTrip.toNat * 0x100 + vbus.toNat * 0x10000
        let s := s.setReg (Reg.gdbDiagres1 b) (BitVec.ofNat 32 w1)
        let s := s.bumpMod (Reg.gdbDiaginfo b) 16 8
        (s.setFld (Reg.gdbDiaginfo b) 0 10 ((locOf a).val + 0x200)).subCause a cause sub

end Sys2Proof.Machine
end

