-- ==== Sys2Proof/Machine/Bank.lean ====
section
/-! DEFINITION. The gate drive banks (chapter 11): what their tiles detect and report, DRVEN, the barrier links, the start
of energising and the diagnostics. -/

namespace Sys2Proof.Machine

def State.modTile (s : State) (a : AxisId) (f : TileAxis → TileAxis) : State := s.setTile a (f (s.tile a))

def State.modBank (s : State) (b : BankId) (f : Bank → Bank) : State := s.setBank b (f (s.bank b))

/-- Every axis of a bank is READY or OFF as the conditions decide (R264). -/
def State.syncBank (s : State) (b : BankId) : State := s.eachOf b fun s a => s.syncReady a

/-- Count a bank event (GDB.EVT). -/
def State.evt (s : State) (b : BankId) (i : Nat) : State := s.bump (Reg.gdbEvt b) (8 * i) 8

/-! ## Short circuits -/

/-- SC threshold in 25 µA units (R274). -/
def State.scLimit (s : State) (a : AxisId) : Nat := (s.fld (Reg.gdbSccfg (bankOf a)) 0 6 + 1) * 10

/-- COND threshold in 25 µA units (R274). -/
def State.condLimit (s : State) (a : AxisId) : Nat := s.fld (Reg.gdbSccfg (bankOf a)) 6 6 + 1

/-- SC blanking from the start of a gate's turn-on, ticks (R274). -/
def State.scBlank (s : State) (a : AxisId) : Nat := (s.fld (Reg.gdbSccfg (bankOf a)) 12 2 + 1) * 40

/-- When a transistor that is turning off, within its dead time, had turned on (Table 11-1): one whose command line has
fallen, or a low side after the pulse of a refresh. -/
def TileAxis.offFrom (t : TileAxis) (g : GateId) (now : Nat) : Option Nat :=
  match t.refresh.get (legOfGate g) with
  | some r =>
    if t.refreshing (legOfGate g) (now / 16) then
      (if g.val % 2 = 1 ∧ r + Config.deadTicks + 160 ≤ now / 16 then some ((r + Config.deadTicks) * 16) else none)
    else if now < t.offAt.get g + Config.deadTicks * 16 ∧ t.cmd.getLsbD g.val = false then t.wasOn.get g else none
  | none => if now < t.offAt.get g + Config.deadTicks * 16 ∧ t.cmd.getLsbD g.val = false then t.wasOn.get g else none

/-- When the transistor of a gate turned on, if its comparators look: it is on, or turning off (R274, R275, Table 11-1). The
comparators of a gate that is off read inactive. -/
def State.sensedFrom (s : State) (a : AxisId) (g : GateId) : Option Nat :=
  if s.gateLevel a g then some ((s.tile a).turnOn g s.tbFine)
  else if s.bankHeld (bankOf a) then none
  else (s.tile a).offFrom g s.tbFine

/-- The SC comparator of a gate shows a crossing: its blanking, from the start of the turn-on, is over (R274). -/
def State.scActive (s : State) (a : AxisId) (m : SenseHit) : Bool :=
  decide (s.scLimit a ≤ m.current) &&
  (match s.sensedFrom a m.gate with
   | some t => decide (t + s.scBlank a * 16 ≤ s.tbFine)
   | none => false)

/-! ## Test pulses of the off-state diagnostic (R287) -/

/-- The gates of a coil, of the eight of its axis. -/
def coilGates (c : CoilId) : BitVec 8 := 0xf#8 <<< (4 * c.val)

/-- A comparator of a coil crosses in a test pulse: the pulse ends by the reflex and no further one is made on the coil.
The crossing is a result and no cause (Table 11-1), so that no hold and no latch of the tile outlasts the pulse (DEDUCED,
log 60). -/
def State.abortPulse (s : State) (a : AxisId) (k : CoilId) : State :=
  let x := s.ax a
  match x.diagPulses.getLast? with
  | some p =>
    if p.1 &&& coilGates k &&& (s.tile a).cmd = 0 then s
    else (s.gatesOff a).modAx a fun x => { x with diagPulses := x.diagPulses.dropLast ++ [(p.1, true)] }
  | none => s

/-- The COND comparator of a gate that is on shows a crossing (R274). -/
def State.condCross (s : State) (a : AxisId) (m : SenseHit) : Bool :=
  s.gateLevel a m.gate && decide (s.condLimit a ≤ m.current)

/-- SC_SENSE: the reflex (R275): a soft hold on the gate; both gates of its leg are held low. In a diagnostic, where the
COND comparators are armed as well, a crossing ends the test pulse (R287). -/
def execScSense (dt : Nat) (a : AxisId) (m : SenseHit) (s : State) : Res :=
  .next <|
    let s := s.advance dt
    if (s.ax a).diagOn then
      (if s.scActive a m || s.condCross a m then s.abortPulse a ⟨m.gate.val / 4, by omega⟩ else s)
    else if s.scActive a m = false then s
    else
      let s := s.modTile a fun t => { t with
        soft := t.soft ||| (1#8 <<< m.gate.val), legHold := t.legHold ||| (1#4 <<< (legOfGate m.gate).val) }
      (s.evt (bankOf a) 0).raiseAx (bankOf a).val 0x01 0 a

/-- The factor k of a code of SHS or SHB, in hundredths (R276). -/
def shuntK (code : Nat) : Nat := if code = 0 then 125 else if code = 1 then 150 else if code = 2 then 200 else 250

/-- The shunt comparator's factor at start-up, in hundredths (R276). -/
def State.startFactor (s : State) (b : BankId) : Nat := shuntK (s.fld (Reg.gdbSccfg b) 14 2)

/-- The shunt comparator's factor in hundredths (R276). -/
def State.shuntFactor (s : State) (a : AxisId) : Nat :=
  let x := s.ax a
  let start := x.chp.ampst == AmpSt.precharge || x.chp.ampst == AmpSt.eramp || x.diagOn ||
    (match (s.tile a).retryAt with
     | some t => decide (s.tb < t + 4000000)
     | none => false)
  if start then s.startFactor (bankOf a) else shuntK (s.fld (Reg.gdbSccfg (bankOf a)) 16 2)

/-- The full scale of an axis's shunts in µV (R152). -/
def State.fullScale (s : State) (a : AxisId) : Nat := 50000 * 2 ^ s.fld (Reg.chpIlim a) 16 2

/-- SHUNT_OC: a coil's shunt voltage has crossed k times the full scale (R276); in a diagnostic the crossing ends the test
pulse (R287). -/
def execShuntOc (dt : Nat) (a : AxisId) (m : ShuntHit) (s : State) : Res :=
  .next <|
    let s := s.advance dt
    if m.volts * 100 ≤ s.shuntFactor a * s.fullScale a then s
    else if (s.ax a).diagOn then s.abortPulse a m.coil
    else
      let s := s.modTile a fun t => { t with hard := t.hard ||| coilGates m.coil, shoc := t.shoc ||| (1#2 <<< m.coil.val) }
      (s.evt (bankOf a) 1).raiseAx (bankOf a).val 0x02 0 a

/-! ## Undervoltage -/

/-- VG_UVLO: VG has been below its falling threshold for 2 µs (R271). -/
def execVgUvlo (dt : Nat) (b : BankId) (code : BitVec 12) (s : State) : Res :=
  .next <|
    let s := s.advance dt
    let s := s.setFld (Reg.gdbVg b) 0 12 code.toNat
    if (code.toNat : Int) < s.vgThreshold b false then
      let was := (s.bank b).vgLow
      let s := s.modBank b fun k => { k with vgLow := true }
      let s := if was then s else s.raiseBank 0x04 b
      s.syncBank b
    else s

/-- What held the gates of a bank low as a whole has ended (R267, R273). -/
def State.freeBank (s : State) (b : BankId) : State :=
  s.modBank b fun k => { k with axes := k.axes.map fun t => t.freed s.tbFine }

/-- VG_RECOVERY: VG rises above its rising threshold (R271). -/
def execVgRecovery (dt : Nat) (b : BankId) (code : BitVec 12) (s : State) : Res :=
  .next <|
    let s := s.advance dt
    let s := s.setFld (Reg.gdbVg b) 0 12 code.toNat
    if s.vgThreshold b true ≤ (code.toNat : Int) then (s.modBank b fun k => { k with vgLow := false }).freeBank b else s

/-- A high side is held and reported (R270, R272). -/
def State.bootHold (s : State) (a : AxisId) (l : LegId) : State :=
  let s := s.modTile a fun t => { t with soft := t.soft ||| (1#8 <<< (2 * l.val)), bootSoft := t.bootSoft ||| (1#4 <<< l.val) }
  (s.evt (bankOf a) 2).raiseAx (bankOf a).val 0x03 0 a

/-- The thresholds of a bootstrap in 5 mV codes: falling and rising, shifted by UVTRIM.BST (R272). -/
def State.bstThreshold (s : State) (b : BankId) (rising : Bool) : Int :=
  (if rising then 1680 else 1560) + 20 * s.sfld (Reg.gdbUvtrim b) 4 3

/-- The high side of a leg. -/
def highOf (l : LegId) : GateId := ⟨2 * l.val, by omega⟩

/-- A bootstrap is measured: whether it lies below its rising threshold, and, if it does while its high side is on, whether
that high side may stay on (R272). -/
def State.measureBoot (s : State) (a : AxisId) (l : LegId) (volts : Int) : State :=
  let t := s.tile a
  let bit : BitVec 4 := 1#4 <<< l.val
  let b := bankOf a
  if s.bstThreshold b true ≤ volts then
    let since := if t.bootLow.getLsbD l.val then (t.onSince.get (highOf l)).map fun _ => s.tbFine else t.onSince.get (highOf l)
    s.setTile a { t with
      bootLow := t.bootLow &&& ~~~bit, bootBand := t.bootBand &&& ~~~bit, bstok := t.bstok ||| bit
      onSince := t.onSince.set (highOf l) since }
  else
    let stays := s.gateLevel a (highOf l) && decide (s.bstThreshold b false ≤ volts)
    s.setTile a { t with
      bootLow := t.bootLow ||| bit, bstok := t.bstok &&& ~~~bit
      bootBand := if stays then t.bootBand ||| bit else t.bootBand &&& ~~~bit }

/-- BOOT_UVLO: a bootstrap, 5 mV units: while its high side is on, below the falling threshold; while that is commanded on
but not turned on, below the rising one for 2 µs (R272). -/
def execBootUvlo (dt : Nat) (a : AxisId) (l : LegId) (volts : BitVec 12) (s : State) : Res :=
  .next <|
    let s := s.advance dt
    let t := s.tile a
    let g := highOf l
    let on := s.gateLevel a g
    let long := t.cmd.getLsbD g.val && (match t.onSince.get g with
      | some r => decide (r + 800 * 16 ≤ s.tbFine)
      | none => false)
    let held := t.soft.getLsbD g.val || t.hard.getLsbD g.val
    let low := decide ((volts.toNat : Int) < s.bstThreshold (bankOf a) (!on))
    let s := s.measureBoot a l volts.toNat
    if low && (on || long) && !held then s.bootHold a l else s

/-- BOOTSTRAP_REFRESH: a high side has been on for 1 ms, counted from its turn-on (R273). -/
def execBootstrapRefresh (dt : Nat) (a : AxisId) (l : LegId) (s : State) : Res :=
  .next <|
    let s := s.advance dt
    let t := s.tile a
    let g := highOf l
    if s.gateLevel a g && decide (t.turnOn g s.tbFine + 400000 * 16 ≤ s.tbFine) then
      let s := s.setTile a { t with
        refresh := t.refresh.set l (some s.tb), bootBand := t.bootBand &&& ~~~(1#4 <<< l.val)
        onSince := t.onSince.set g (some (s.tbFine + (160 + 2 * Config.deadTicks) * 16)) }
      s.bumpMod (Reg.gdbRefresh (bankOf a)) 0 16
    else s

/-! ## Energising -/

/-- AXIS_ENERGISE begins (R156, R176, R224, R270, R277): precharge with both coils in slow decay. -/
def State.startEnergise (s : State) (a : AxisId) (id : Nat) : State :=
  let s := s.modTile a fun t => { t with prech := false, prechAt := s.tb, bstok := 0, nocur := 0 }
  let s := s.modAx a fun x => { x with
    st := .energising, energised := true, obs := x.obs.cleared
    chp := { x.chp with ampst := .precharge, amp := 0, ramp := none, brk := false, setpoints := [], prevEdge := none
                        edgeSpeed := 0, holdFrom := none, holdAcc := 0, drooped := false, zeroNext := false
                        awaitG0 := false, awaitLift := false, brakeEnd := none, releasedAt := none, gridWith := none
                        energiseCmd := some id, releaseCmd := none, releaseFaulted := false } }
  let slow (s : State) (k : CoilId) : State :=
    s.bridge a k { s.coil a k with s := 0, volt := false, bridge := .slow, since := s.tb, toff := 0, armed := false, fell := false }
  (slow (slow s 0) 1).startPwm a

/-- The offset that a coil's ADC shows against SHREF at a precharge: taken within ±16 codes, else the previous one stays
(R279). -/
def State.takeOffset (s : State) (a : AxisId) (k : CoilId) (code : BitVec 12) : State :=
  let ok := decide (code.toInt.natAbs ≤ 16)
  let s := s.setBit (Reg.gdbCal (bankOf a)) (2 * (locOf a).val + k.val) ok
  if ok then s.modTile a fun t => { t with offset := t.offset.set k code.toInt } else s

/-- PRECHARGE_DONE: GL of all four legs has been on for 150 µs; the four bootstraps, 5 mV units, and the offsets of the two
coil ADCs are measured (R270, R279). -/
def execPrechargeDone (dt : Nat) (a : AxisId) (boots : Vector (BitVec 12) 4) (offsets : Vector (BitVec 12) 2) (s : State) : Res :=
  .next <|
    let s := s.advance dt
    let x := s.ax a
    let b := bankOf a
    if x.chp.ampst ≠ .precharge ∨ (s.tile a).prech = true ∨ s.tb < (s.tile a).prechAt + 60000 then s
    else
      let ok (l : LegId) : Bool := decide (s.bstThreshold b true ≤ ((boots.get l).toNat : Int))
      let s := s.modTile a fun t => { t with prech := true }
      let s := (List.finRange 4).foldl (fun s l => s.measureBoot a l (boots.get l).toNat) s
      let s := (s.takeOffset a 0 (offsets.get 0)).takeOffset a 1 (offsets.get 1)
      let s := if (List.finRange 4).all ok then s else s.bump (Reg.gdbRefresh b) 16 16
      let s := (List.finRange 4).foldl (fun s l => if ok l then s else s.bootHold a l) s
      if x.st = .energising then s.setChp a { (s.ax a).chp with awaitG0 := true } else s

/-! ## Sense-path checks -/

/-- A check instant of R283: in chopper mode every 1 µs of an on-time after its blanking; in voltage mode the strobe of a
SETTLED sample, once. -/
def State.checkDue (s : State) (a : AxisId) (k : CoilId) : Bool :=
  let q := s.coil a k
  if q.volt then
    match (s.ax a).sample with
    | some m => m.settled.get k && (s.tile a).checked.get k != some m.stamp
    | none => false
  else
    let from_ := q.since + q.blank
    q.bridge == Bridge.drive && decide (from_ < s.tb) && (s.tb - from_) % 400 == 0

/-- The shunt sample of a check lies below full scale / 32: in voltage mode that of the strobe. -/
def State.shuntLow (s : State) (a : AxisId) (m : SenseCheck) : Bool :=
  let strobe := if (s.coil a m.coil).volt then (s.ax a).sample.map fun x => x.i.get m.coil else none
  decide ((strobe.getD (s.coilValue a m.coil m.code)).natAbs < 1024)

/-- The COND comparator of the conducting low side is active (R274, R283): that gate is on, and its cell's current is at or
above the threshold. In voltage mode the gate is that of the strobe. -/
def State.condActive (s : State) (a : AxisId) (m : SenseCheck) : Bool :=
  let on := if (s.coil a m.coil).volt then ((s.ax a).sample.map fun x => x.lowOn.get m.coil).getD false
    else s.gateLevel a (s.lowSide a m.coil)
  on && decide (s.condLimit a ≤ m.current)

/-- DCNT in force: 0 as 32 (DISCFG). -/
def State.failLimit (s : State) (a : AxisId) : Nat :=
  let n := s.fld (Reg.gdbDiscfg (bankOf a)) 0 5
  if n = 0 then 32 else n

/-- SENSE_DISAGREE: a check of a coil's sense cell against its shunt; the DCNT-th failed one in a row latches and reports
(R283). -/
def execSenseDisagree (dt : Nat) (a : AxisId) (m : SenseCheck) (s : State) : Res :=
  .next <|
    let s := s.advance dt
    let k := m.coil
    if !s.bit (Reg.gdbDiscfg (bankOf a)) 8 || !(s.ax a).energised || !s.checkDue a k then s
    else
      let fails := s.condActive a m && s.shuntLow a m
      let n := if fails then (s.tile a).failRun.get k + 1 else 0
      let at_ := (s.ax a).sample.map Sample.stamp
      let hit := decide (s.failLimit a ≤ n)
      let s := s.modTile a fun t => { t with failRun := t.failRun.set k (if hit then 0 else n), checked := t.checked.set k at_ }
      if hit then
        let s := s.modTile a fun t => { t with
          hard := t.hard ||| coilGates k, sdis := t.sdis ||| (1#2 <<< k.val), autoDiag := t.autoDiag.set k (some 0x05) }
        (s.evt (bankOf a) 3).raiseAx (bankOf a).val 0x05 0 a
      else s

/-- NO_CURRENT: a coil has stayed in the drive state for NCT · 0.25 ms without a crossing; `m` holds the largest sense-cell
current and shunt sample of that time (R284). -/
def execNoCurrent (dt : Nat) (a : AxisId) (m : SenseCheck) (s : State) : Res :=
  .next <|
    let s := s.advance dt
    let k := m.coil
    let q := s.coil a k
    let nct := s.fld (Reg.gdbDiscfg (bankOf a)) 16 8
    let quiet := !s.condActive a m && decide ((s.coilValue a k m.code).natAbs < 1024)
    let from_ := max q.since ((s.tile a).noCurAt.get k)
    if nct ≠ 0 ∧ q.volt = false ∧ q.bridge = .drive ∧ 64 ≤ dacCode q.s ∧ quiet = true ∧ from_ + nct * 100000 ≤ s.tb then
      let s := s.modTile a fun t => { t with
        nocur := t.nocur ||| (1#2 <<< k.val), noCurAt := t.noCurAt.set k s.tb, autoDiag := t.autoDiag.set k (some 0x06) }
      (s.evt (bankOf a) 3).raiseAx (bankOf a).val 0x06 0 a
    else s

/-- SHREF_LOST: the offset of SHREF, 0.25 mV units (R286). -/
def execShrefLost (dt : Nat) (b : BankId) (offset : BitVec 12) (s : State) : Res :=
  .next <|
    let s := s.advance dt
    let s := s.setFld (Reg.gdbShref b) 0 12 offset.toNat
    let lost := decide (400 < offset.toInt.natAbs)
    let was := (s.bank b).shrefLost
    let s := s.modBank b fun k => { k with shrefLost := lost }
    if lost && !was then s.raiseBank 0x07 b else s

/-! ## Bus, temperature, link -/

/-- A bus code is measured (R279, R282). -/
def State.busCode (s : State) (b : BankId) (code : Nat) : State :=
  (s.setFld (Reg.gdbVbus b) 0 12 code).peak (Reg.gdbVbus b) 16 12 code

/-- BUS_OV: the bus code has stood for 10 µs (R282). -/
def execBusOv (dt : Nat) (b : BankId) (code : BitVec 12) (s : State) : Res :=
  .next <|
    let s := (s.advance dt).busCode b code.toNat
    let hit := decide (s.fld (Reg.gdbBuslim b) 16 12 ≤ code.toNat)
    let was := (s.bank b).busOv
    let s := s.modBank b fun k => { k with busOv := hit }
    let s := if hit && !was then s.raiseBank 0x08 b else s
    s.syncBank b

/-- BUS_UV: the bus code has stood for 100 µs (R282). -/
def execBusUv (dt : Nat) (b : BankId) (code : BitVec 12) (s : State) : Res :=
  .next <|
    let s := (s.advance dt).busCode b code.toNat
    let low := decide (code.toNat < s.fld (Reg.gdbBuslim b) 0 12)
    let live := (List.finRange 12).any fun j => (s.ax (axisOf b j)).energised
    let was := (s.bank b).busUv
    let s := s.modBank b fun k => { k with busUv := low && (live || was) }
    let s := if low && live && !was then s.raiseBank 0x09 b else s
    s.syncBank b

/-- TILE_WARM: the tile temperature, 0.125 °C units: WARM from 125 °C up, until below 115 °C (Table 11-6). -/
def execTileWarm (dt : Nat) (b : BankId) (temp : BitVec 12) (s : State) : Res :=
  .next <|
    let s := s.advance dt
    let s := s.setFld (Reg.gdbTemp b) 0 12 temp.toNat
    let was := (s.bank b).warm
    let warm := if was then decide (920 ≤ temp.toInt) else decide (1000 ≤ temp.toInt)
    let s := s.modBank b fun k => { k with warm := warm }
    if warm && !was then s.raiseBank 0x0d b else s

/-- TILE_OT: over-temperature from 150 °C up, until below 135 °C (Table 11-6). -/
def execTileOt (dt : Nat) (b : BankId) (temp : BitVec 12) (s : State) : Res :=
  .next <|
    let s := s.advance dt
    let s := s.setFld (Reg.gdbTemp b) 0 12 temp.toNat
    let was := (s.bank b).ot
    let ot := if was then decide (1080 ≤ temp.toInt) else decide (1200 ≤ temp.toInt)
    let s := s.modBank b fun k => { k with ot := ot }
    let s := if ot && !was then s.raiseBank 0x0e b else s
    s.syncBank b

/-- LINK_CRC: a link frame fails its CRC and is sent again; the cause comes when the same frame fails three times in a row
(R290, Table 11-6). -/
def execLinkCrc (dt : Nat) (b : BankId) (sameFrame : Bool) (s : State) : Res :=
  .next <|
    let s := s.advance dt
    if !(s.bank b).linkUp then s
    else
      let s := s.bump (Reg.gdbLink b) 0 16
      let n := if sameFrame then (s.bank b).crcRun + 1 else 1
      let s := s.modBank b fun k => { k with crcRun := n }
      if n = 3 then s.raiseBank 0x0a b else s

/-- An item of LINK_LOST of the bank still waits for its class action. -/
def State.linkItem (s : State) (b : BankId) : Bool := s.flue.any fun i => i.source == b.val && i.cause == 0x0b

/-- LINK_LOST: no valid frame for 2 µs, or, with `up`, the link is up again (R290, R369). -/
def execLinkLost (dt : Nat) (b : BankId) (up : Bool) (s : State) : Res :=
  .next <|
    let s := s.advance dt
    let was := (s.bank b).linkUp
    if up then
      if !s.gateOn 10 || s.extest then s
      else
      let hold := s.linkItem b
      ((s.modBank b fun k => { k with linkUp := true, linkHold := hold, crcRun := 0 }).freeBank b).syncBank b
    else
      let s := s.modBank b fun k => { k with linkUp := false, linkHold := true }
      let s := if was && s.gateOn 10 then (s.bump (Reg.gdbLink b) 16 8).raiseBank 0x0b b else s
      s.syncBank b

/-- A bank's gates are held low by a corrupted kill symbol, or no longer (R450). -/
def State.killHold (s : State) (b : BankId) (bad : Bool) : State :=
  let was := (s.bank b).killBad
  let s := s.modBank b fun k => { k with killBad := bad }
  if was && !bad then s.freeBank b else s

/-- KILL_MASK_CHANGE: the tile takes the kill mask its shares call for; after LINK_LOST it releases its own hold with it
(R30, R218, R290, R296). A symbol that arrives corrupted holds the bank's gates low until the next valid one (R450). -/
def execKillMaskChange (dt : Nat) (b : BankId) (bad : Bool) (s : State) : Res :=
  .next <|
    let s := s.advance dt
    if bad then s.killHold b true
    else
    let s := (s.killHold b false).spreadShares
    let m := s.killMask b
    let s := (List.finRange 12).foldl (fun s j =>
      let a := axisOf b j
      if m.getLsbD j.val then (if (s.ax a).energised then s.killAxis a else s.clearFreeze a) else s) s
    let was := (s.bank b).linkHold
    let hold := was && (!(s.bank b).linkUp || s.linkItem b)
    let s := if was && !hold then s.freeBank b else s
    (s.modBank b fun k => { k with kill := m, linkHold := hold }).syncBank b

/-! ## DRVEN -/

/-- DRVEN_LOW: the pin has been low for `ns` nanoseconds: every gate low at once (R266); a low of less than 50 ns is
ignored (Table 19-10). -/
def execDrvenLow (dt ns : Nat) (s : State) : Res :=
  .next <|
    let s := s.advance dt
    if !s.drven || decide (ns < 50) then s
    else
      let was := s.drvenHigh
      let s := { s with drven := false, drvenLowAt := s.tb }
      if !was then s
      else
      s.eachAx fun s a =>
        if s.activeAx a then s.raiseAx (bankOf a).val 0x0c 0 a else s.syncReady a

/-- A coil's shunt voltage lies above the start-up threshold (Table 11-2). -/
def State.shuntOver (s : State) (a : AxisId) (m : ShuntHit) : Bool :=
  decide (s.startFactor (bankOf a) * s.fullScale a < m.volts * 100)

/-- A latch of the bank has a cause that persists (Table 11-2): VG below its rising threshold, SHREF lost, the shunt of a
latched coil above the start-up threshold, the bootstrap of a latched high side below its rising threshold. -/
def State.latchPersists (s : State) (b : BankId) (shunts : List (AxisId × ShuntHit)) : Bool :=
  let k := s.bank b
  let any := (List.finRange 12).any fun j => (k.axes.get j).hard != 0 || (k.axes.get j).soft != 0
  (any && (!s.vgOk b || k.shrefLost)) ||
  shunts.any (fun p => bankOf p.1 == b && (s.tile p.1).shoc.getLsbD p.2.coil.val && s.shuntOver p.1 p.2) ||
  (List.finRange 12).any fun j => ((k.axes.get j).bootSoft &&& (k.axes.get j).bootLow) != 0

/-- Every latch of a tile axis clears, with the flags of R277. -/
def TileAxis.cleared (t : TileAxis) : TileAxis :=
  { t with hard := 0, soft := 0, legHold := 0, bootSoft := 0, shoc := 0, sdis := 0, nocur := 0 }

/-- DRVEN_CLEARING: DRVEN rises; after 20 µs low each bank clears its latches, or refuses (R277). `shunts` holds the shunt
voltages of the coils, each coil not in it at 0; `boots` the bootstraps as they are measured then, 5 mV units, each leg
not in it as it was last measured. While EXTEST holds, DRVEN acts as low and the rise clears nothing (R424). -/
def execDrvenClearing (dt : Nat) (shunts : List (AxisId × ShuntHit)) (boots : List (AxisId × LegId × BitVec 12)) (s : State) : Res :=
  .next <|
    let s := s.advance dt
    if s.drven then s
    else
      let long := decide (s.drvenLowAt + 8000 ≤ s.tb)
      let s := { s with drven := true }
      if s.extest then s
      else
        let s := boots.foldl (fun s m => s.measureBoot m.1 m.2.1 m.2.2.toNat) s
        let s := (List.finRange 8).foldl State.freeBank s
        if !long || s.locked then s
        else
          (List.finRange 8).foldl (fun s b =>
            if s.latchPersists b shunts then (s.flag (Reg.gdbStat b) 5).raiseC0 b.val 0x0f .module
            else s.modBank b fun k => { k with axes := k.axes.map TileAxis.cleared }) s

/-- TILE_POWER_ON: VG fell below the tile's power-on threshold: it starts without latches (R454). -/
def execTilePowerOn (dt : Nat) (b : BankId) (s : State) : Res :=
  .next <|
    let s := s.advance dt
    (s.modBank b fun k => { k with
      vgLow := true, axes := k.axes.map fun t => { TileAxis.reset with cmd := t.cmd, offAt := t.offAt, onSince := t.onSince } }).syncBank b

/-! ## Diagnostics -/

/-- A diagnostic begins (R287, R288), with what step 1 of Table 11-4 finds. -/
def State.startDiag (s : State) (a : AxisId) (id : Nat) (selftest : Bool) : State :=
  let b := bankOf a
  let vg := s.vgOk b
  let bus := s.fld (Reg.gdbVbus b) 0 12
  let low := decide (bus < s.fld (Reg.gdbBuslim b) 0 12)
  s.modAx a fun x => { x with
    st := .diag, diagFrom := x.st, diagCmd := some id, diagKind := selftest, diagOn := true, diagVg := vg, diagBus := bus, diagLow := low, diagPulses := [] }

/-- A diagnostic ends: its result, the gates off, and the state it came from; an axis that a C1 action has made FAULTED
meanwhile stays so (Table 12-4). -/
def State.endDiag (s : State) (a : AxisId) (words : List Word) : State :=
  let x := s.ax a
  let b := bankOf a
  let s := s.gatesOff a
  let s := s.bumpMod (Reg.gdbDiaginfo b) 16 8
  let s := s.setFld (Reg.gdbDiaginfo b) 0 10 ((locOf a).val + x.diagKind.toNat * 0x100)
  let s := s.setReg (Reg.gdbDiagres0 b) (wordAt words 0)
  let s := if 1 < words.length then s.setReg (Reg.gdbDiagres1 b) (wordAt words 1) else s
  let s := (s.modAx a fun x => { x with st := if x.st = .diag then x.diagFrom else x.st, diagCmd := none, diagOn := false }).syncReady a
  match x.diagCmd with
  | some id => s.finish id .done words s.net
  | none => s

/-- What steps 5 to 8 of the off-state diagnostic find on a leg (Table 11-4). -/
structure LegTest where
  lsOk : Bool
  bstOk : Bool
  hsOk : Bool
  shuntOk : Bool
  cmpOk : Bool
  trip5 : Bool
  trip6 : Bool
  trip7 : Bool
  deriving DecidableEq, Repr

/-- What steps 2 to 4 of the off-state diagnostic find on a coil (Table 11-4). -/
structure CoilTest where
  noPath : Bool
  shortBus : Bool
  shortGnd : Bool
  deriving DecidableEq, Repr

/-- The bus at step 1, mV (R279). -/
def State.diagMv (s : State) (a : AxisId) : Nat := (s.ax a).diagBus * 50

/-- A comparator crossed in pulse `n` (from 0) of those made with these gates. -/
def Axis.pulseTripped (x : Axis) (gates : BitVec 8) (n : Nat) : Bool :=
  ((x.diagPulses.filter fun p => p.1 == gates).map Prod.snd).getD n false

/-- The test pulses of a leg: its low side in step 5, its high side in step 6, and in step 7 its high side with the low
side of the other leg of its coil. -/
def lowPulse (l : LegId) : BitVec 8 := 2#8 <<< (2 * l.val)
def highPulse (l : LegId) : BitVec 8 := 1#8 <<< (2 * l.val)
def otherLeg (l : LegId) : LegId := ⟨if l.val % 2 = 0 then l.val + 1 else l.val - 1, by split <;> omega⟩
def pathPulse (l : LegId) : BitVec 8 := highPulse l ||| lowPulse (otherLeg l)

/-- The limits of steps 5 to 8: the node below 2 V, the bootstrap at or above its rising threshold, the node above the bus
less 2 V, the shunt above full scale / 16; and the crossings in the leg's pulses. Step 7 makes the other leg's low-side
pulse a second time, to charge this leg's bootstrap. -/
def State.legTest (s : State) (a : AxisId) (l : LegId) (m : LegMeas) : LegTest :=
  let x := s.ax a
  { lsOk := decide (m.node5 < 2000)
    bstOk := decide (s.bstThreshold (bankOf a) true ≤ (m.boot5.toNat : Int))
    hsOk := decide (s.diagMv a < m.node6 + 2000)
    shuntOk := decide (s.fullScale a < m.shunt7 * 16)
    cmpOk := m.cmpOk, trip5 := x.pulseTripped (lowPulse l) 0, trip6 := x.pulseTripped (highPulse l) 0
    trip7 := x.pulseTripped (lowPulse (otherLeg l)) 1 || x.pulseTripped (pathPulse l) 0 }

/-- The limits of steps 2 to 4: both nodes within 1.0 V, below half the bus, above 2 V. -/
def State.coilTest (s : State) (a : AxisId) (m : CoilMeas) : CoilTest :=
  { noPath := decide (1000 ≤ m.diff2)
    shortBus := decide (s.diagMv a ≤ 2 * m.sink3)
    shortGnd := decide (m.source4 ≤ 2000) }

/-- A leg byte of Table 11-7: step 5 was run, HS_METHOD 0 or 1 where step 6 or 7 was. -/
def legByte (m : LegTest) (ran5 bst ran6 ran7 : Bool) : Nat :=
  let hs := (ran6 && m.hsOk) || (ran7 && m.shuntOk)
  let method := if ran6 then 0 else if ran7 then 1 else if m.cmpOk then 2 else 3
  (ran5 && m.lsOk).toNat + 2 * hs.toNat + 4 * bst.toNat + 8 * method + 0x20 * (method == 3).toNat + 0x40 * (!ran5).toNat

/-- Which of steps 5 to 7 are run on a leg of a coil (Table 11-4), and whether its bootstrap passed step 5. -/
structure LegRun where
  five : Bool
  bst : Bool
  six : Bool
  seven : Bool
  deriving DecidableEq, Repr

/-- Steps 5 to 7 of the off-state diagnostic on the two legs of a coil (Table 11-4), and whether a comparator crossed.
`hard` holds the hard latches of its gates GH1, GL1, GH2, GL2; a gate with one is not pulsed, and after a crossing no pulse
is made on the coil (R287). -/
def coilDiag (hard : BitVec 4) (c : CoilTest) (l1 l2 : LegTest) : LegRun × LegRun × Bool :=
  let h (i : Nat) : Bool := hard.getLsbD i
  let five1 := !c.shortBus && !h 1
  let t1 := five1 && l1.trip5
  let five2 := !c.shortBus && !h 3 && !t1
  let t2 := t1 || (five2 && l2.trip5)
  let bst1 := five1 && l1.bstOk && !l1.trip5
  let bst2 := five2 && l2.bstOk && !l2.trip5
  let six1 := bst1 && !c.shortGnd && !h 0 && !t2
  let t3 := t2 || (six1 && l1.trip6)
  let six2 := bst2 && !c.shortGnd && !h 2 && !t3
  let t4 := t3 || (six2 && l2.trip6)
  let seven1 := !bst1 && !c.noPath && five2 && l2.lsOk && !h 0 && !h 3 && !t4
  let t5 := t4 || (seven1 && l1.trip7)
  let seven2 := !bst2 && !c.noPath && five1 && l1.lsOk && !h 2 && !h 1 && !t5
  (⟨five1, bst1, six1, seven1⟩, ⟨five2, bst2, six2, seven2⟩, t5 || (seven2 && l2.trip7))

/-- The diagnostic of a coil with what has been measured so far. -/
def State.coilRun (s : State) (a : AxisId) (legs : Vector LegMeas 4) (coils : Vector CoilMeas 2) (k : CoilId) :
    LegRun × LegRun × Bool :=
  let leg (second : Bool) : LegTest := s.legTest a (legOf k second) (legs.get (legOf k second))
  coilDiag ((s.tile a).hard.extractLsb' (4 * k.val) 4) (s.coilTest a (coils.get k)) (leg false) (leg true)

/-- The two result words of the off-state diagnostic (Tables 11-4 and 11-7). Where step 1 fails, nothing after it runs. -/
def State.diagWords (s : State) (a : AxisId) (legs : Vector LegMeas 4) (coils : Vector CoilMeas 2) : List Word :=
  let x := s.ax a
  if !x.diagVg || x.diagLow then
    [0x58585858, BitVec.ofNat 32 (x.diagLow.toNat * 0x40 + (!x.diagVg).toNat * 0x80 + x.diagBus * 0x10000)]
  else
    let ra := s.coilRun a legs coils 0
    let rb := s.coilRun a legs coils 1
    let byte (l : LegId) (r : LegRun) : Nat := legByte (s.legTest a l (legs.get l)) r.five r.bst r.six r.seven
    let coil (k : CoilId) : Nat :=
      let c := s.coilTest a (coils.get k)
      (c.noPath.toNat + 4 * c.shortBus.toNat + 16 * c.shortGnd.toNat) * 2 ^ k.val
    [BitVec.ofNat 32 (byte 0 ra.1 + 0x100 * byte 1 ra.2.1 + 0x10000 * byte 2 rb.1 + 0x1000000 * byte 3 rb.2.1),
     BitVec.ofNat 32 (coil 0 + coil 1 + (ra.2.2 || rb.2.2).toNat * 0x100 + x.diagBus * 0x10000)]

/-- The test pulses that the steps make, in their order (Table 11-4): step 5 on every leg it is run on, then step 6, then
step 7, which charges a bootstrap before it turns the high side on. -/
def State.pulsePlan (s : State) (a : AxisId) (legs : Vector LegMeas 4) (coils : Vector CoilMeas 2) : List (BitVec 8) :=
  let x := s.ax a
  if !x.diagVg || x.diagLow then []
  else
    let run (l : LegId) : LegRun :=
      let r := s.coilRun a legs coils ⟨l.val / 2, by omega⟩
      if l.val % 2 = 0 then r.1 else r.2.1
    let all (f : LegId → List (BitVec 8)) : List (BitVec 8) := (List.finRange 4).flatMap f
    all (fun l => if (run l).five then [lowPulse l] else []) ++
    all (fun l => if (run l).six then [highPulse l] else []) ++
    all (fun l => if (run l).seven then [lowPulse (otherLeg l), pathPulse l] else [])

/-- No comparator of a pulse's coil has crossed in this diagnostic. -/
def Axis.coilClear (x : Axis) (gates : BitVec 8) : Bool :=
  (List.finRange 2).all fun k => gates &&& coilGates k == 0 || x.diagPulses.all fun p => !p.2 || p.1 &&& coilGates k == 0

/-- A test pulse may be made (R287): it is one of those that the steps make, after the ones made so far, and no comparator
of its coil has crossed. -/
def State.pulseOk (s : State) (a : AxisId) (legs : Vector LegMeas 4) (coils : Vector CoilMeas 2) (gates : BitVec 8) : Bool :=
  let x := s.ax a
  (x.diagPulses.map Prod.fst ++ [gates]).isSublist (s.pulsePlan a legs coils) && x.coilClear gates

/-- OFFSTATE_DIAG_DONE: with `pulse` gates, the next test pulse of the diagnostic begins, its gates' lines alone on, or the
pulse before it ends where no gate is named; without, the diagnostic ends with its result (R287, Table 11-7). The operands
hold what the steps so far have measured (DESIGN CHOICE, log 60). -/
def execOffstateDiagDone (dt : Nat) (a : AxisId) (pulse : Option (BitVec 8)) (legs : Vector LegMeas 4) (coils : Vector CoilMeas 2)
    (s : State) : Res :=
  .next <|
    let s := s.advance dt
    let x := s.ax a
    if x.diagOn = false ∨ x.diagKind = true then s
    else match pulse with
      | some gates =>
        let s := s.gatesOff a
        if s.pulseOk a legs coils gates then
          let s := s.modAx a fun x => { x with diagPulses := x.diagPulses ++ [(gates, false)] }
          (s.commandCoil a 0 (gates.extractLsb' 0 4)).commandCoil a 1 (gates.extractLsb' 4 4)
        else s
      | none => s.endDiag a (s.diagWords a legs coils)

/-- SELFTEST_DONE (R288, Table 11-7). -/
def execSelftestDone (dt : Nat) (a : AxisId) (w0 : Word) (s : State) : Res :=
  .next <|
    let s := s.advance dt
    let x := s.ax a
    if x.diagOn = true ∧ x.diagKind = true then s.endDiag a [w0 &&& 0x001fffff] else s

/-- AXIS_READY_CHANGE: READY or OFF, as the conditions of R264 stand. -/
def execAxisReadyChange (dt : Nat) (a : AxisId) (s : State) : Res :=
  .next <|
    let s := s.advance dt
    s.syncReady a

/-- A keyed write of GDB.ENABLE (R265). -/
def State.writeEnable (s : State) (b : BankId) (v : Word) : State :=
  if !v.bit 0 && s.bit (Reg.gdbEnable b) 0 && s.anyActive b then s.flag (Reg.gdbStat b) 0
  else (s.setReg (Reg.gdbEnable b) (v &&& 1)).syncBank b

end Sys2Proof.Machine
end

