-- ==== Sys2Proof/Machine/Hearth.lean ====
section
/-! DEFINITION. The Hearth domain (chapter 17): its supply, the calendar, and the retained-storage window. -/

namespace Sys2Proof.Machine

/-- The INC in force (R404). -/
def State.calInc (s : State) : Nat :=
  if !s.bit Reg.hrtCalctl 1 then s.fld Reg.hrtCaltrim 0 27
  else
    let f := s.fld Reg.hrtCalmeas 0 24
    if s.bit Reg.hrtCalmeas 24 && decide (f ≠ 0) then (2 * 2 ^ 48 + f) / (2 * f)
    else s.hearth.inc

/-- The calendar runs (Table 17-4). -/
def State.hearthOn (s : State) : Bool := s.hearth.onMain || !s.hearth.lost

/-- CALENDAR_CYCLE: one cycle of the calendar oscillator ends (R403). -/
def execCalendarCycle (dt : Nat) (s : State) : Res :=
  .next <|
    let s := s.advance dt
    if !s.hearthOn then s
    else
      let h := s.hearth
      let inc := s.calInc
      let acc := h.acc + inc
      { s with hearth := { h with inc := inc, acc := acc % 2 ^ 40, sec := (h.sec + acc / 2 ^ 40) % 2 ^ 40 } }

/-- CALENDAR_MEASURE: the oscillator has been measured against the timebase over 1 s of the PLL (R404). -/
def execCalendarMeasure (dt : Nat) (freq : BitVec 24) (s : State) : Res :=
  .next <|
    let s := s.advance dt
    if s.onPll && decide (s.clk.calFrom + tickHz ≤ s.tb) then
      { s.setReg Reg.hrtCalmeas (BitVec.ofNat 32 (freq.toNat + 0x1000000)) with clk := { s.clk with calFrom := s.tb } }
    else s

/-- HEARTH_SWITCHOVER: the domain's supply changes without loss (R401); with VIN_L lost the snapshot is discarded and the RC
stops (R382, Table 17-4). An entry that waits is written from the return of the main supply on. -/
def execHearthSwitchover (dt : Nat) (toMain : Bool) (s : State) : Res :=
  .next <|
    let s := s.advance dt
    State.emberBegin { s with
      hearth := { s.hearth with onMain := toMain, backupOk := s.hearth.backupOk || !toMain }
      pwr := { s.pwr with snapOk := s.pwr.snapOk && toMain } }

/-- The registers of the domain at the values of a loss (R402, R414). -/
def State.resetHrtRegs (s : State) : State :=
  [Reg.hrtStat, Reg.hrtCalsetLo, Reg.hrtCalsetHi, Reg.hrtCalctl, Reg.hrtCaltrim, Reg.hrtCalmeas, Reg.hrtRamaddr].foldl
    (fun s k => s.setReg k (regReset k)) s

/-- HEARTH_CONTENTS_LOST: the supply of the domain falls below 1.9 V (R402). -/
def execHearthContentsLost (dt : Nat) (s : State) : Res :=
  .next <|
    let s := s.advance dt
    if s.hearth.onMain then s
    else
      { s.resetHrtRegs with
        hearth := { Hearth.reset with onMain := false }, pwr := { s.pwr with snapOk := false } }

/-- A keyed write of HRT.CALCTL (R405): SET loads CALSET into the calendar. -/
def State.writeCalctl (s : State) (v : Word) : State :=
  let s := { s with hearth := { s.hearth with inc := s.calInc } }.setReg Reg.hrtCalctl (v &&& 2)
  if !v.bit 0 then s
  else
    let h := s.hearth
    let lo := s.reg Reg.hrtCalsetLo
    let hi := s.reg Reg.hrtCalsetHi
    let old := h.sec
    let s := { s with hearth := { h with
      sec := hi.fld 0 8 * 0x100000000 + lo.toNat, acc := hi.fld 8 24 * 65536, calValid := true } }
    s.queueEmber ⟨.calset, [emberHead 6 7 false 0 0 127 0 s.timeValid false false, hi, lo,
      BitVec.ofNat 32 (old / 0x100000000 % 256), BitVec.ofNat 32 old, 0, 0, 0]⟩

/-- Word and area of RAMADDR (R413). -/
def State.ramWord (s : State) : Word :=
  let i := s.fld Reg.hrtRamaddr 2 12
  let h := s.hearth
  match s.fld Reg.hrtRamaddr 14 2 with
  | 0 => storeGet wordDefault h.sram i
  | 1 => if i < 384 then storeGet wordDefault h.retire i else 0
  | 2 => storeGet wordDefault h.ember i
  | _ => 0

/-- A write of RAMDATA acts in AREA 0 only (R413). -/
def State.writeRam (s : State) (v : Word) : State :=
  if s.fld Reg.hrtRamaddr 14 2 = 0 then
    { s with hearth := { s.hearth with sram := storeSet wordDefault s.hearth.sram (s.fld Reg.hrtRamaddr 2 12) v } }
  else s

def execRamdataAccess (dt : Nat) (port : Port) (value : Word) (s : State) : Res :=
  .next <|
    let s := s.advance dt
    s.portWrite port fun s => s.writeRam value

end Sys2Proof.Machine
end

