-- ==== Sys2Proof/Machine/Group.lean ====
section
/-! DEFINITION. Motion groups (R354 to R362): members, digest, staged commands, starts and halts. -/

namespace Sys2Proof.Machine

/-! ## Members -/

def State.member (s : State) (g : Nat) : Option Member := s.netw.members.find? fun m => m.group == g

def State.setMembers (s : State) (l : List Member) : State := { s with netw := { s.netw with members := l } }

def State.modMember (s : State) (g : Nat) (f : Member → Member) : State :=
  s.setMembers (s.netw.members.map fun m => if m.group = g then f m else m)

/-- The axes of a member in ascending order. -/
def Member.list (m : Member) : List AxisId := (List.finRange 96).filter fun a => m.axes.getLsbD a.val

/-- The member an axis belongs to. -/
def State.groupOf (s : State) (a : AxisId) : Option Member := s.netw.members.find? fun m => m.axes.getLsbD a.val

/-- The ordinary clock is MASTER (R353). -/
def State.isMaster (s : State) : Bool := s.fld Reg.netPtpstat 0 4 == 6

/-- A time within a tolerance in ns, at this instant (R357). -/
def State.timeWithin (s : State) (tol : Nat) : Bool :=
  let v := s.netw.servo
  (v.source == 1 && v.ptpQual && decide ((s.sfld Reg.netPtpofs 0 32).natAbs ≤ tol)) || s.isMaster

def State.stagedOn (s : State) (a : AxisId) : Option Cmd := s.tags.find? fun c => c.on a && c.place == Place.staged

/-- HOLDING with a staged command (R358). -/
def State.stagedOk (s : State) (a : AxisId) : Bool := (s.ax a).st == AxState.holding && (s.stagedOn a).isSome

/-- READY but for ARMED itself (R358). -/
def State.memberReady (s : State) (m : Member) : Bool :=
  m.list.all (fun a => s.stagedOk a && !(s.ax a).hasRec) && m.within

/-- Every member's time is checked: at an offset measurement and at a commit of a source change (R357). -/
def State.checkTimes (s : State) : State :=
  s.setMembers (s.netw.members.map fun m => { m with within := s.timeWithin m.tol })

/-- The state of GRPDATA word 0. -/
def State.memberCode (s : State) (m : Member) : Nat :=
  match m.st with
  | .joined => 1
  | .armed => if s.memberReady m then 3 else 2
  | .committed => 4

/-- The configuration digest (R355). -/
def State.digest (s : State) (m : Member) : Word :=
  crc32c (bytesOf 2 m.group ++ bytesOf 2 (s.reg Reg.timeEpochHi).toNat ++ (s.reg Reg.timeEpochLo).bytes ++
    m.list.flatMap fun (a : AxisId) =>
      bytesOf 1 a.val ++ ([Reg.stpCfg a, Reg.chpCfg a, Reg.chpIlim a, Reg.pwmCfg a, loopPar a 0, loopPar a 2] ++
        (List.range 15).map fun i => proPar a i).flatMap fun k => (s.reg k).bytes)

def State.grpEvent (s : State) (i : Nat) : State := s.flag Reg.timeGrpev i

/-! ## Disarming and withdrawal -/

def State.endStart (s : State) (m : Member) (st : Status) : State :=
  match m.start with
  | some id => s.fail id st 0 0 s.net
  | none => s

/-- A member is disarmed (R361). -/
def State.disarm (s : State) (m : Member) : State :=
  if m.st = .joined then s
  else
    let s := m.list.foldl (fun s a => match s.stagedOn a with
      | some c => s.fail c.id .aborted 0 0 s.net
      | none => s) s
    let s := s.endStart m .aborted
    (s.modMember m.group fun m => { m with st := .joined, start := none }).grpEvent 4

def State.disarmAll (s : State) : State := s.netw.members.foldl (fun s m => s.disarm m) s

/-- Every membership is dropped on a clock loss, and DROPPED set, also where there is none (R373); a committed start ends
with its axes' fault. -/
def State.dropGroups (s : State) : State :=
  ((s.netw.members.foldl (fun s m => s.endStart m .axisFaulted) s).setMembers []).grpEvent 3

/-- A COMMITTED member returns to ARMED, its start ended (R360). -/
def State.withdraw (s : State) (m : Member) (st : Status) : State :=
  let s := s.endStart m st
  let s := s.modMember m.group fun m => { m with st := .armed, start := none }
  if st = .timeDiverged then s.grpEvent 2 else s

/-- Why a COMMITTED member withdraws (R360) (DESIGN CHOICE, log 29). -/
def State.withdrawal (s : State) (m : Member) : Option Status :=
  if !m.within then some .timeDiverged
  else if m.list.any fun a => !s.stagedOk a || (s.ax a).hasRec then some .axisFaulted
  else none

/-- GROUP_WITHDRAW. -/
def execGroupWithdraw (dt : Nat) (g : BitVec 12) (s : State) : Res :=
  .next <|
    let s := s.advance dt
    match s.member g.toNat with
    | none => s
    | some m =>
      if m.st = .committed then
        match s.withdrawal m with
        | some st => s.withdraw m st
        | none => s
      else s

/-! ## The group commands -/

def Cmd.group (c : Cmd) : Nat := c.target - 0x8000

/-- The axis mask of JOIN and LEAVE. -/
def maskOf (ws : List Word) : BitVec 96 := (wordAt ws 2 ++ wordAt ws 1 ++ wordAt ws 0 : BitVec 96)

/-- GROUP_JOIN (R354). -/
def State.takeJoin (s : State) (c : Cmd) : State :=
  let mask := maskOf c.words
  let g := c.group
  let others := s.netw.members.filter fun m => m.group != g
  let foreign (i : Nat) : Bool := others.any fun m => (m.axes &&& mask).extractLsb' (32 * i) 32 != 0
  match (List.range 3).find? foreign with
  | some i => s.fail c.id .outOfRange i 0 s.net
  | none =>
    if mask = 0 then s.done c.id
    else match s.member g with
      | none =>
        if 16 ≤ s.netw.members.length then s.fail c.id .stateRefused 0 0 s.net
        else (s.setMembers (s.netw.members ++ [⟨g, mask, .joined, 0, 0, 0, none, 0, false⟩])).done c.id
      | some m =>
        if m.st ≠ .joined then s.fail c.id .stateRefused 0 0 s.net
        else (s.modMember g fun m => { m with axes := m.axes ||| mask }).done c.id

/-- GROUP_LEAVE (R354). -/
def State.takeLeave (s : State) (c : Cmd) : State :=
  let mask := maskOf c.words
  match s.member c.group with
  | none => s.done c.id
  | some m =>
    if mask = 0 then (s.disarm m).done c.id
    else if m.st ≠ .joined then s.fail c.id .stateRefused 0 0 s.net
    else
      let left := m.axes &&& ~~~mask
      (if left = 0 then s.setMembers (s.netw.members.filter fun k => k.group != m.group)
       else s.modMember m.group fun m => { m with axes := left }).done c.id

/-- GROUP_ARM (R356). -/
def State.takeArm (s : State) (c : Cmd) : State :=
  match s.member c.group with
  | none => s.fail c.id .stateRefused 0 0 s.net
  | some m =>
    let w2 := (wordAt c.words 2).fld 0 16
    let tol := if w2 = 0 then 1000 else w2
    let refuse (why : Nat) (ev : Nat) (st : Status) : State :=
      ((s.modMember m.group fun m => { m with refusal := why }).grpEvent ev).fail c.id st 0 0 s.net
    if m.st ≠ .joined then s.fail c.id .stateRefused 0 0 s.net
    else if wordAt c.words 0 ≠ s.digest m then refuse 1 1 .groupMismatch
    else if (wordAt c.words 1).fld 0 16 ≠ s.fld Reg.idCmdver 0 16 then refuse 2 1 .groupMismatch
    else if !s.timeWithin tol then refuse 3 2 .timeDiverged
    else (s.modMember m.group fun m => { m with st := .armed, tol := tol, digest := wordAt c.words 0, within := true }).done c.id

/-- A refusal that names an axis state of its own (R359). -/
def State.failState (s : State) (id code : Nat) : State := s.finish id .stateRefused [detail code 0 0] s.net

/-- GROUP_START_AT (R359); the start instant is `c.stamp`. -/
def State.takeStartAt (s : State) (c : Cmd) : State :=
  match s.member c.group with
  | none => s.fail c.id .groupMismatch 0 0 s.net
  | some m =>
    match m.st with
    | .joined => s.fail c.id .groupMismatch 0 0 s.net
    | .committed => s.fail c.id .stateRefused 0 0 s.net
    | .armed =>
      let ok := s.timeWithin m.tol
      let s := s.modMember m.group fun m => { m with within := ok }
      if !ok then (s.grpEvent 2).fail c.id .timeDiverged 0 0 s.net
      else match m.list.find? fun a => !s.stagedOk a with
        | some a => s.failState c.id (s.ax a).st.code
        | none =>
          if m.list.any fun a => (s.ax a).hasRec then s.failState c.id 8
          else
            let s := s.setCmd { c with place := .running, taken := s.net, checked := some (s.stateOf c.target) }
            let s := if c.wantAccept
              then s.reply c.port c.src (opCode c.op) c.tag c.target c.stamped .accepted [] s.net false true else s
            (s.sendStarted c.id).modMember m.group fun m => { m with st := .committed, start := some c.id, at_ := c.stamp }

/-- A halt reaches one axis: GROUP_HALT at its assigned class. -/
def State.haltAx (s : State) (a : AxisId) : State := s.raiseAx 20 0x19 0 a

/-- GROUP_HALT (R362). Staged commands are left to the class action; at class C0 they end here (DESIGN CHOICE, log 16).
-/
def State.takeHalt (s : State) (c : Cmd) : State :=
  match s.member c.group with
  | none => s.done c.id
  | some m =>
    let s := m.list.foldl (fun s a => s.haltAx a) s
    let s :=
      if s.classOf 0x19 = 0 ∨ m.st = .joined then s.disarm m
      else ((s.endStart m .aborted).modMember m.group fun m => { m with st := .joined, start := none }).grpEvent 4
    ((s.grpEvent 0).bump Reg.timeGrpstat 16 8).done c.id

/-- A staged command is taken at the start instant: its first segment starts exactly there (R359). -/
def State.startStaged (s : State) (a : AxisId) (c : Cmd) (t : Nat) : State :=
  let s := s.setCmd { c with place := .running, taken := t, checked := some (s.stateOf c.target) }
  match c.op with
  | .moveAbs => s.takeMove a c.id false c.words (some t)
  | .moveRel => s.takeMove a c.id true c.words (some t)
  | .moveVel => s.takeVel a c.id c.words (some t)
  | .segRun => s.takeRun a c.id c.words (some t)
  | _ => s

/-- GROUP_START_INSTANT: the start instant of a COMMITTED member (R359). -/
def execGroupStartInstant (dt : Nat) (g : BitVec 12) (s : State) : Res :=
  .next <|
    let s := s.advance dt
    match s.member g.toNat with
    | none => s
    | some m =>
      if m.st ≠ .committed ∨ s.net < m.at_ ∨ (s.withdrawal m).isSome then s
      else
        let s := s.modMember m.group fun m => { m with st := .joined, start := none }
        let s := m.list.foldl (fun s a => match s.stagedOn a with
          | some c => s.startStaged a c m.at_
          | none => s) s
        match m.start with
        | some id => s.finish id .done [] m.at_
        | none => s

end Sys2Proof.Machine
end

