-- ==== Sys2Proof/Machine/Net.lean ====
section
/-! DEFINITION. The network ports' links, IEEE 1588 and the time sources (R333, R334, R338, R346 to R353). -/

namespace Sys2Proof.Machine

def State.modNet (s : State) (f : Net → Net) : State := { s with netw := f s.netw }
def State.modServo (s : State) (f : Servo → Servo) : State := s.modNet fun n => { n with servo := f n.servo }
def State.modPtp (s : State) (f : Ptp → Ptp) : State := s.modNet fun n => { n with ptp := f n.ptp }

/-! ## Ports -/

/-- NET.PCFG_x.MODE; 3 is applied as 0. -/
def State.portMode (s : State) (p : Fin 2) : Nat := let m := s.fld (Reg.netPcfg p) 0 2; if m = 3 then 0 else m

def State.linkUp (s : State) (p : Fin 2) : Bool := s.bit (Reg.netPstat p) 0

/-- A port's link state becomes `up`; a loss is counted. -/
def State.setLink (s : State) (p : Fin 2) (up : Bool) : State :=
  let s := if s.linkUp p && !up then s.bump (Reg.netPstat p) 8 8 else s
  s.setBit (Reg.netPstat p) 0 up

/-- PORT_LINK_CHANGE (R333): the link's state, whether a negotiation has completed, and whether SGMII negotiated another
rate. A 1000BASE-X link with ANEN = 1 comes up only once Clause 37 auto-negotiation has completed. -/
def execPortLinkChange (dt : Nat) (port : Fin 2) (up anDone rateBad : Bool) (s : State) : Res :=
  .next <|
    let s := s.advance dt
    let on := s.up && s.gateOn (1 + port.val) && s.portMode port != 0
    let sgmii := s.portMode port == 1
    -- without Clause 37 auto-negotiation there is none to complete
    let an := !sgmii && s.bit (Reg.netPcfg port) 2
    let done := on && anDone && (sgmii || an)
    let bad := on && rateBad && sgmii
    let s := (s.setBit (Reg.netPstat port) 1 done).setBit (Reg.netPstat port) 2 bad
    s.setLink port (on && up && !bad && (!an || anDone))

/-- A write of NET.PCFG_x: a port that is switched off or changes its mode loses its link. -/
def State.writePcfg (s : State) (p : Fin 2) (v : Word) : State :=
  let old := s.portMode p
  let s := s.plainWrite (Reg.netPcfg p) v
  if s.portMode p = old then s else s.setLink p false

/-- A write of NET.NODE (R338). -/
def State.writeNode (s : State) (v : Word) : State :=
  if v.fld 0 14 = 0x3fff then s
  else
    let old := s.fld Reg.netNode 0 14
    let s := s.modNet fun n => { n with nodes := (old, s.tb) :: n.nodes.filter fun h => decide (s.tb < h.2 + 8000) }
    s.setFld Reg.netNode 0 14 (v.fld 0 14)

def execNodeAddrWrite (dt : Nat) (port : Port) (value : Word) (s : State) : Res :=
  .next <|
    let s := s.advance dt
    s.portWrite port fun s => s.writeNode value

/-- The six bytes of the source MAC as a number (Table 14-1). -/
def macNum : Nat := 0x020000000000 + Config.serial.toNat % 2 ^ 40

/-- clockIdentity (R346). -/
def clockId : BitVec 64 := BitVec.ofNat 64 (macNum / 2 ^ 24 * 2 ^ 40 + 0xfffe * 2 ^ 24 + macNum % 2 ^ 24)

/-! ## Time sources (R349 to R353) -/

/-- TIME.SRCSEL.SEL; 3 to 15 are applied as 0. -/
def State.sel (s : State) : Nat := let v := s.fld Reg.timeSrcsel 0 4; if 2 < v then 0 else v

def State.wantedSource (s : State) : Nat :=
  match s.sel with
  | 1 => 1
  | 2 => 0
  | _ => if s.netw.servo.ptpQual then 1 else 0

/-- A TIME_SOURCE_SELECT that waits for its commit ends. -/
def State.endSelect (s : State) (st : Status) (tagref : Nat) : State :=
  match s.netw.servo.selCmd with
  | none => s
  | some id =>
    let s := s.modServo fun v => { v with selCmd := none }
    if st = .done then s.done id else s.fail id st 0 tagref s.net

/-- A change of source is requested, or a request is abandoned (R351); one whose source is no longer wanted for another
reason is dropped (DESIGN CHOICE, log 62). -/
def State.timeSource (s : State) : State :=
  let v := s.netw.servo
  let w := s.wantedSource
  if v.source = 2 then s
  else match v.pend with
    | some (p, _) =>
      if p = w then s
      else
        let s := s.modServo fun v => { v with pend := none }
        let s := if s.sel = 0 ∧ p = 0 then s.flag Reg.timeSrcstat 10 else s
        s.endSelect .done 0
    | none => if w = v.source then s else s.modServo fun v => { v with pend := some (w, s.net) }

/-- The time status byte (R353). -/
def State.timeStatus (s : State) : Nat :=
  let v := s.netw.servo
  let qual := v.source == 0 || (v.source == 1 && v.ptpQual)
  v.source + qual.toNat * 4 + v.unset.toNat * 8 + (decide (400000000000 < v.phase.natAbs)).toNat * 16 +
    v.pend.isSome.toNat * 32 + s.isMaster.toNat * 64 + (s.bit Reg.timeDisc 0).toNat * 128

/-- TIME.RATE: rate and phase correction in force, parts per 10^9. -/
def State.rateNow (s : State) : Int :=
  let v := s.netw.servo
  v.rate + v.phase.sign * 50000

/-- A leg's edges, `d` ticks later. -/
def LegPlan.later (l : LegPlan) (d : Nat) : LegPlan :=
  let mv (e : List (Nat × Bool)) : List (Nat × Bool) := e.map fun p => (p.1 + d * 16, p.2)
  { l with edges := mv l.edges, slots := mv l.slots, last := l.last.map (· + d * 16) }

/-- A PWM generator that runs on through a step of network time by `d` ticks (R193). -/
def Pwm.later (p : Pwm) (d : Nat) : Pwm :=
  { p with
    b := p.b + d, c := p.c + d, e := p.e + d, strobeAt := p.strobeAt + d, lastStrobe := p.lastStrobe.map (· + d)
    writes := p.writes.map fun (w : PwmWrite) => { w with at_ := w.at_ + d }, legs := p.legs.map fun l => l.later d
    duty := p.duty.map fun o => o.map fun (u : Duty) => { u with arrival := u.arrival + d } }

/-- Network time steps forward by an interval in 2^-16 ns (R352); the carriers and the Guyline's instants run on (R192,
R193). A change of ROLE whose grid instant the step passes over takes effect with the step (Table 7-4). -/
def State.stepTime (s : State) (d : Nat) : State :=
  let s := s.guySync
  let units := s.netFrac + d * 25000000
  let n := units / netUnit
  let s := { s with net := s.net + n, netFrac := units % netUnit }
  let s := { s with axes := s.axes.map fun (x : Axis) => { x with pwm := x.pwm.later n } }
  let s := s.modNet fun w => { w with
    guyNext := w.guyNext.map fun g => (g.1, max g.2 (if g.2 ≤ s.net then s.net else 0))
    guyRef := w.guyRef + n * 16, guyAcc := w.guyAcc.map fun g => (g.1 + n * 16, g.2), syncOut := w.syncOut.map (· + n * 16) }
  let s := (s.flag Reg.timeDisc 0).bump Reg.timeDisc 8 8
  let s := s.modServo fun v => { v with unset := false, phase := 0 }
  (s.raiseC0 20 0x34 .module).disarmAll

/-- Network time is disciplined by an offset from the master, 2^-16 ns (R352). -/
def State.discipline (s : State) (ofs : Int) : State :=
  let v := s.netw.servo
  if (v.unset || s.bit Reg.timeDisc 0) && s.bit Reg.timeServo 8 && decide (ofs < -65536000000) then s.stepTime ofs.natAbs
  else s.modServo fun v =>
    { v with phase := -ofs * 1000000000 / 163840, rate := Config.rateOf v.rate ofs, unset := false }

/-- The last measured offset, 2^-16 ns. -/
def State.lastOffset (s : State) : Int := s.netw.ptp.ofs

/-- SOURCE_COMMIT: at the first multiple of 400,000 ticks after the request (R351). -/
def execSourceCommit (dt : Nat) (s : State) : Res :=
  .next <|
    let s := s.advance dt
    let v := s.netw.servo
    match v.pend with
    | none => s
    | some (w, r) =>
      if v.source = 2 ∨ s.net < gridAt 400000 r + 400000 then s
      else
        let s := s.modServo fun v =>
          { v with source := w, pend := none, phase := if w = 0 then 0 else v.phase
                   away := w == 0, ptpQual := v.ptpQual && w != 0, heldSince := none }
        let s := if w = 1 ∧ s.netw.ptp.delayOk = true then s.discipline s.lastOffset else s
        s.checkTimes.endSelect .done 0

/-- A selection takes effect (R349); `cmd` completes when it commits. One that a keyed write of SRCSEL makes names as
TAGREF the command that carries the write, 0 where none does (DESIGN CHOICE, log 64). -/
def State.select (s : State) (code : Nat) (cmd : Option Nat) : State :=
  let s := s.endSelect .superseded ((cmd.map s.tagOf).getD s.writerHdr.tag)
  let s := s.setFld Reg.timeSrcsel 0 4 code
  let s := (s.modServo fun v => { v with selCmd := none }).timeSource
  match cmd with
  | none => s
  | some id => if s.netw.servo.pend.isSome then s.modServo fun v => { v with selCmd := some id } else s.done id

/-- TIME_SOURCE_SELECT (R349). -/
def State.takeSelect (s : State) (c : Cmd) : State :=
  let w0 := wordAt c.words 0
  if 2 < w0.fld 0 4 then s.fail c.id .outOfRange 0 0 s.net
  else if wordAt c.words 1 ≠ ~~~w0 then s.fail c.id .keyMismatch 1 0 s.net
  else (s.sendStarted c.id).select (w0.fld 0 4) (some c.id)

/-- A write of TIME.EPOCH_HI loads the pair while the time is UNSET. -/
def State.writeEpoch (s : State) (v : Word) : State :=
  if s.netw.servo.unset then
    (s.setReg Reg.timeEpochLo (s.heldWord Reg.timeEpochLo)).setReg Reg.timeEpochHi (v &&& 0xffff)
  else s.flag Reg.timeDisc 1

def execEpochWrite (dt : Nat) (port : Port) (value : Word) (s : State) : Res :=
  .next <|
    let s := s.advance dt
    s.portWrite port fun s => s.writeEpoch value

/-! ## PTP time -/

/-- TIME.EPOCH in seconds. -/
def State.epoch (s : State) : Nat := u48 (s.reg Reg.timeEpochHi) (s.reg Reg.timeEpochLo)

/-- Network time of a PTP time, ticks (R348); below 0 before the epoch. -/
def State.netOf (s : State) (sec ns : Nat) : Int := ((sec : Int) - s.epoch) * tickHz + ((ns * 2 + 2) / 5 : Nat)

/-- An instant of network time in fine ticks, and a PTP timestamp as network time, 2^-16 ns. -/
def fineNs (fine : Nat) : Int := fine * 10240
def State.stampNs (s : State) (sec ns : Nat) : Int := s.netOf sec ns * 163840

/-- Seconds and nanoseconds, and the rest in 2^-16 ns, of an instant of network time in 2^-16 ns as a grandmaster sends them
(R334, R348). -/
def State.ptpTime (s : State) (x : Int) : Nat × Nat × Int :=
  let ns := (x / 65536).toNat
  (ns / 1000000000 + s.epoch, ns % 1000000000, x % 65536)

/-- TXLAT and RXLAT, ns (R334). -/
def State.txLat (s : State) (p : Fin 2) : Nat := s.fld (Reg.netPcfg p) 8 8
def State.rxLat (s : State) (p : Fin 2) : Nat := s.fld (Reg.netPcfg p) 16 8

/-- The stamp of a frame sent on a port now, and of one whose first bit came `ago` fine ticks ago (R334), 2^-16 ns. -/
def State.txStamp (s : State) (p : Fin 2) : Int := fineNs s.fine + s.txLat p * 65536
def State.rxStamp (s : State) (p : Fin 2) (ago : Nat) : Int := fineNs (s.fine - ago) - s.rxLat p * 65536

/-! ## The ordinary clock (R346, R350) -/

/-- NET.PTPCFG.ROLE; 3 is applied as 0. -/
def State.ptpRole (s : State) : Nat := let r := s.fld Reg.netPtpcfg 0 2; if r = 3 then 0 else r

/-- Sync interval in ticks: 2^LOGSYNC seconds, LOGSYNC from -1 to 1. -/
def State.syncTicks (s : State) : Nat :=
  let l := max (-1) (min 1 (s.sfld Reg.netPtpcfg 15 3))
  if l < 0 then tickHz / 2 else if l = 0 then tickHz else 2 * tickHz

/-- The shortest interval between Delay_Reqs in ticks: 2^LOGDREQ seconds, LOGDREQ from 0 to 5. -/
def State.dreqTicks (s : State) : Nat := 2 ^ min 5 (s.fld Reg.netPtpcfg 18 3) * tickHz

/-- Announce receipt timeout in ticks. -/
def State.annTicks (s : State) : Nat :=
  max 2 (s.fld Reg.netPtpcfg 21 8) * 2 ^ min 4 (s.fld Reg.netPtpcfg 12 3) * tickHz

/-- NET.PTPCFG.DOMAIN, 0 to 127 in the default profile (R346) (PRESUMED, log 19). -/
def State.ptpDomain (s : State) : Nat := min 127 (s.fld Reg.netPtpcfg 4 8)

def State.ptpState (s : State) : Nat := s.fld Reg.netPtpstat 0 4

def lexLt : List Nat → List Nat → Bool
  | a :: r, b :: t => if a < b then true else if b < a then false else lexLt r t
  | _, _ => false

/-- Data set comparison (the default best-master algorithm): a better master (PRESUMED, log 19). -/
def betterMaster (m n : PtpMsg) : Bool :=
  if m.gmId = n.gmId then
    lexLt [m.steps.toNat, m.src.toNat, m.srcPort.toNat] [n.steps.toNat, n.src.toNat, n.srcPort.toNat]
  else
    lexLt [m.prio1.toNat, m.clockClass.toNat, m.accuracy.toNat, m.variance.toNat, m.prio2.toNat, m.gmId.toNat]
      [n.prio1.toNat, n.clockClass.toNat, n.accuracy.toNat, n.variance.toNat, n.prio2.toNat, n.gmId.toNat]

/-- A message of the module's own, to be filled in. -/
def State.ownMsg (s : State) (k : PtpKind) (seq : BitVec 16) : PtpMsg :=
  let p := s.reg Reg.netPtpprio
  { kind := k, domain := BitVec.ofNat 8 s.ptpDomain, src := clockId, srcPort := 1, seq := seq
    twoStep := k == .sync, corr := 0, sec := 0, ns := 0, prio1 := p.extractLsb' 0 8
    clockClass := if s.ptpRole = 1 then 255 else p.extractLsb' 16 8, accuracy := p.extractLsb' 24 8
    variance := 0xffff, prio2 := p.extractLsb' 8 8, gmId := clockId, steps := 0, reqId := 0, reqPort := 0, ago := 0 }

/-- The ports whose masters the ordinary clock may follow. -/
def State.ocPort (s : State) (p : Fin 2) : Bool :=
  let o := min 2 (s.fld Reg.netPtpcfg 2 2)
  s.linkUp p && s.bit (Reg.netPcfg p) 3 && (o == 0 || o == p.val + 1)

def State.masterOn (s : State) (p : Fin 2) : Option PtpMsg :=
  if s.ocPort p then (s.netw.ptp.masters.get p).map Master.msg else none

/-- The best master and its port; port A where both carry the same. -/
def State.bestMaster (s : State) : Option (Fin 2 × PtpMsg) :=
  match s.masterOn 0, s.masterOn 1 with
  | some m, some n =>
    if m.gmId = n.gmId ∧ m.src = n.src then some (0, m) else if betterMaster n m then some (1, n) else some (0, m)
  | some m, none => some (0, m)
  | none, some n => some (1, n)
  | none, none => none

/-- The master the ordinary clock follows: its port and its last Announce. -/
def State.ocMaster (s : State) : Option (Fin 2 × PtpMsg) :=
  match s.fld Reg.netPtpstat 4 2 with
  | 1 => (s.netw.ptp.masters.get 0).map fun m => (0, m.msg)
  | 2 => (s.netw.ptp.masters.get 1).map fun m => (1, m.msg)
  | _ => none

def State.ptpShow (s : State) (state port steps : Nat) (gm : BitVec 64) : State :=
  let s := (s.setFld Reg.netPtpstat 0 6 (state + port * 16)).setFld Reg.netPtpstat 8 8 (min 255 steps)
  (s.setReg Reg.netGmidLo (loWord64 gm.toNat)).setReg Reg.netGmidHi (hiWord64 gm.toNat)

/-- What was measured against a former master is dropped. -/
def State.ptpForget (s : State) : State :=
  (s.modPtp fun p => { p with sync := none, msDiff := none, req := none, reqAt := none, delayOk := false, good := 0, lastPair := s.tb }).modServo
    fun v => { v with ptpQual := false, heldSince := none }

/-- The state decision of the ordinary clock. -/
def State.ptpDecide (s : State) : State :=
  let role := s.ptpRole
  let own := s.ownMsg .announce 0
  let master (s : State) : State := s.ptpForget.ptpShow 6 0 0 clockId
  let s :=
    if role = 0 then s.ptpForget.ptpShow 3 0 0 0
    else if role = 2 ∧ s.sel = 2 then (if s.isMaster then s else master s)
    else match s.bestMaster with
      | none => if role = 2 ∧ s.isMaster = true then s else s.ptpForget.ptpShow 4 0 0 0
      | some (p, m) =>
        if role = 2 && betterMaster own m then (if s.isMaster then s else master s)
        else
          let steps := m.steps.toNat + 1
          match s.ocMaster with
          | some (q, n) =>
            if (s.ptpState == 8 || s.ptpState == 9) && q == p && n.src == m.src && n.srcPort == m.srcPort then
              s.ptpShow s.ptpState (p.val + 1) steps m.gmId
            else s.ptpForget.ptpShow 8 (p.val + 1) steps m.gmId
          | none => s.ptpForget.ptpShow 8 (p.val + 1) steps m.gmId
  s.timeSource

/-- The ordinary clock starts anew: at the end of Kindling and at a change of ROLE. -/
def State.ptpInit (s : State) : State :=
  let s := s.modPtp fun p => { p with masters := #v[none, none], lastAnn := s.tb }
  let s := s.ptpForget.ptpShow 1 0 0 0
  s.ptpDecide

/-- An Announce is heard on a port: the better of it and the one in hand is kept. -/
def State.hearAnnounce (s : State) (p : Fin 2) (m : PtpMsg) : State :=
  let keep := match s.netw.ptp.masters.get p with
    | none => true
    | some k => (k.msg.src == m.src && k.msg.srcPort == m.srcPort) || betterMaster m k.msg || decide (k.heard + s.annTicks ≤ s.tb)
  let s := if keep then s.modPtp fun t => { t with masters := t.masters.set p (some ⟨m, s.tb⟩), lastAnn := s.tb } else s
  -- the master in hand before is what the decision compares with
  if keep && (s.fld Reg.netPtpstat 4 2 == p.val + 1) && !(match s.ocMaster with
      | some (_, n) => n.src == m.src && n.srcPort == m.srcPort
      | none => false) then s.ptpForget.ptpDecide
  else s.ptpDecide

/-- Signed nanoseconds of an interval in 2^-16 ns, nearest (DEDUCED, log 53). -/
def nsOf (x : Int) : Int := (x + 32768) / 65536

/-- A valid Sync and Follow_Up pair has given an offset (R350, R351). -/
def State.pairDone (s : State) (ofs : Int) : State :=
  let tol : Nat := max 1 (s.fld Reg.timeServo 0 8)
  let ok := decide (ofs.natAbs ≤ tol * 10 * 65536)
  let s := s.setReg Reg.netPtpofs (loWord (satS 32 (nsOf ofs)))
  let s := if s.ptpState = 8 then s.setFld Reg.netPtpstat 0 4 9 else s
  let s := s.modPtp fun p => { p with ofs := ofs, lastPair := s.tb, good := if ok then min 8 (p.good + 1) else 0 }
  let v := s.netw.servo
  let full := s.netw.ptp.good == 8
  let again := ok && v.source == 1 && (v.pend.map Prod.fst == some 0)
  let s := s.modServo fun v =>
    if v.away then { v with heldSince := if full then some (v.heldSince.getD s.tb) else none, ptpQual := false }
    else { v with ptpQual := full || again || (v.ptpQual && ok) }
  let s := if s.netw.servo.source = 1 then s.discipline ofs else s
  s.checkTimes.timeSource

/-- A message comes from the master the ordinary clock follows, on its port. -/
def State.fromMaster (s : State) (p : Fin 2) (m : PtpMsg) : Bool :=
  (s.ptpState == 8 || s.ptpState == 9) && (match s.ocMaster with
    | some (q, n) => q == p && n.src == m.src && n.srcPort == m.srcPort
    | none => false)

def State.sendPtp (s : State) (p : Fin 2) (m : PtpMsg) : State :=
  if s.linkUp p && s.bit (Reg.netPcfg p) 3 then s.modNet fun n => { n with ptpSent := n.ptpSent ++ [⟨p, m⟩] } else s

/-- The ordinary clock handles a message (R346, R350). -/
def State.ptpHear (s : State) (p : Fin 2) (m : PtpMsg) : State :=
  match m.kind with
  | .announce => if m.src = clockId then s else s.hearAnnounce p m
  | .sync =>
    if !m.twoStep then s.flag Reg.netPtpstat 16
    else if !s.fromMaster p m then s
    else s.modPtp fun t => { t with sync := some (m.seq, s.fine - m.ago, m.corr) }
  | .followUp =>
    match s.netw.ptp.sync with
    | some (seq, t2, corr) =>
      if !s.fromMaster p m || seq != m.seq then s
      else
        let s := s.modPtp fun t => { t with sync := none }
        if m.sec < s.epoch then
          ((s.modPtp fun t => { t with good := 0 }).modServo fun v => { v with ptpQual := false, heldSince := none }).timeSource
        else
          let d := fineNs t2 - (s.rxLat p * 65536 : Nat) - s.stampNs m.sec m.ns - (corr + m.corr)
          let s := s.modPtp fun t => { t with msDiff := some d }
          if s.netw.ptp.delayOk then s.pairDone (d - (s.reg Reg.netPtpdelay).toNat * 65536) else s
    | none => s
  | .delayResp =>
    match s.netw.ptp.req, s.netw.ptp.msDiff with
    | some (seq, t3), some d =>
      if !s.fromMaster p m || seq != m.seq || m.reqId != clockId || m.reqPort != 1 then s
      else
        let e := s.stampNs m.sec m.ns - (fineNs t3 + (s.txLat p * 65536 : Nat)) - m.corr
        let s := s.modPtp fun t => { t with req := none, delayOk := true }
        s.setReg Reg.netPtpdelay (BitVec.ofNat 32 (max 0 (min (2 ^ 32 - 1) (nsOf ((d + e) / 2)))).toNat)
    | _, _ => s
  | .delayReq =>
    if s.isMaster then
      let (sec, ns, rest) := s.ptpTime (s.rxStamp p m.ago)
      s.sendPtp p { s.ownMsg .delayResp m.seq with corr := m.corr - rest, sec := sec, ns := ns, reqId := m.src, reqPort := m.srcPort }
    else s
  | .other => s

/-- PTP messages are handled on a port. -/
def State.ptpOpen (s : State) (p : Fin 2) : Bool :=
  s.up && s.gateOn (1 + p.val) && s.linkUp p && s.bit (Reg.netPcfg p) 3

/-- PTP_MESSAGE: the ordinary clock handles a received message. -/
def execPtpMessage (dt : Nat) (port : Fin 2) (msg : PtpMsg) (s : State) : Res :=
  .next <|
    let s := s.advance dt
    if s.ptpOpen port && s.ptpRole != 0 && msg.domain.toNat == s.ptpDomain
    then s.ptpHear port msg else s

/-! ## The transparent clock (R347) -/

/-- The residence time of a message that leaves by the other port now, 2^-16 ns. -/
def State.residence (s : State) (p : Fin 2) (m : PtpMsg) : Int :=
  m.ago * 10240 + ((s.rxLat p + s.txLat (1 - p)) * 65536 : Nat)

/-- PTP_TRANSPARENT_FORWARD. -/
def execPtpTransparentForward (dt : Nat) (port : Fin 2) (msg : PtpMsg) (s : State) : Res :=
  .next <|
    let s := s.advance dt
    let out : Fin 2 := 1 - port
    if !(s.ptpOpen port && s.ptpOpen out && s.bit Reg.netTccfg 0 && !s.isMaster) then s
    else
      let res := s.residence port msg
      let keep (req : Bool) (s : State) : State :=
        let s := s.modPtp fun t => { t with residences := (⟨msg.src, msg.srcPort, msg.seq, req, res⟩ :: t.residences) }
        s.peak Reg.netTccfg 16 16 (min 65535 (nsOf res).toNat)
      let of (id : BitVec 64) (pt : BitVec 16) (req : Bool) : Int :=
        ((s.netw.ptp.residences.find? fun r => r.src == id && r.srcPort == pt && r.seq == msg.seq && r.delayReq == req).map
          Residence.res).getD 0
      match msg.kind with
      | .sync => (if msg.twoStep then keep false s else s).sendPtp out msg
      | .delayReq => (keep true s).sendPtp out msg
      | .followUp => s.sendPtp out { msg with corr := msg.corr + of msg.src msg.srcPort false }
      | .delayResp => s.sendPtp out { msg with corr := msg.corr + of msg.reqId msg.reqPort true }
      | .announce | .other => s.sendPtp out msg

/-! ## Intervals and timeouts -/

/-- SYNC_INTERVAL: an interval of the ordinary clock ends: it sends its Sync and Follow_Up, its Announce or its
Delay_Req, no sooner than LOGDREQ lets it. -/
def execSyncInterval (dt : Nat) (kind : PtpKind) (s : State) : Res :=
  .next <|
    let s := s.advance dt
    if !s.up then s
    else
      let both (m : PtpMsg) (s : State) : State := (s.sendPtp 0 m).sendPtp 1 m
      match kind with
      | .sync =>
        if s.isMaster then
          let seq := s.netw.ptp.seqSync
          let up (p : Fin 2) : PtpMsg :=
            let (sec, ns, rest) := s.ptpTime (s.txStamp p)
            { s.ownMsg .followUp seq with corr := rest, sec := sec, ns := ns }
          let s := both (s.ownMsg .sync seq) s
          let s := (s.sendPtp 0 (up 0)).sendPtp 1 (up 1)
          s.modPtp fun t => { t with seqSync := seq + 1 }
        else s
      | .announce =>
        if s.isMaster then
          (both (s.ownMsg .announce s.netw.ptp.seqAnn) s).modPtp fun t => { t with seqAnn := t.seqAnn + 1 }
        else s
      | .delayReq =>
        match s.ocMaster with
        | some (p, _) =>
          let due := match s.netw.ptp.reqAt with
            | some t => decide (t + s.dreqTicks ≤ s.tb)
            | none => true
          if (s.ptpState == 8 || s.ptpState == 9) && due then
            let seq := s.netw.ptp.seqReq
            (s.sendPtp p (s.ownMsg .delayReq seq)).modPtp fun t =>
              { t with req := some (seq, s.fine), reqAt := some s.tb, seqReq := seq + 1 }
          else s
        | none => s
      | .followUp | .delayResp | .other => s

/-- Masters whose Announce receipt timeout has expired are dropped. -/
def State.dropMasters (s : State) : State :=
  s.modPtp fun t => { t with masters := t.masters.map fun m => m.filter fun k => decide (s.tb < k.heard + s.annTicks) }

/-- PTP_LOST: no valid pair for 4 Sync intervals, or the Announce receipt timeout (R350). -/
def execPtpLost (dt : Nat) (s : State) : Res :=
  .next <|
    let s := s.advance dt
    let slave := s.ptpState == 8 || s.ptpState == 9
    if !s.up then s
    else if slave && (s.bestMaster.isNone || s.ocMaster.isNone || s.dropMasters.netw.ptp != s.netw.ptp) then
      s.dropMasters.ptpDecide
    else if slave && decide (s.netw.ptp.lastPair + 4 * s.syncTicks ≤ s.tb) then
      ((s.modPtp fun t => { t with good := 0 }).modServo fun v => { v with ptpQual := false, heldSince := none }).timeSource
    else if s.ptpState == 4 && s.ptpRole == 2 && decide (s.netw.ptp.lastAnn + s.annTicks ≤ s.tb) then
      (s.ptpForget.ptpShow 6 0 0 clockId).timeSource
    else s

/-- PTP_REQUALIFIED: after a commit away the conditions have held for 2 s (R351). -/
def execPtpRequalified (dt : Nat) (s : State) : Res :=
  .next <|
    let s := s.advance dt
    let v := s.netw.servo
    match v.heldSince with
    | none => s
    | some t =>
      if v.away && s.ptpState == 9 && s.netw.ptp.good == 8 && decide (t + 2 * tickHz ≤ s.tb) then
        (s.modServo fun v => { v with ptpQual := true, away := false, heldSince := none }).timeSource
      else s

/-- A write of NET.PTPCFG: a change of ROLE, OCPORT or DOMAIN starts the ordinary clock anew. -/
def State.writePtpcfg (s : State) (v : Word) : State :=
  let old := s.fld Reg.netPtpcfg 0 12
  let s := s.plainWrite Reg.netPtpcfg v
  if s.fld Reg.netPtpcfg 0 12 = old then s else s.ptpInit

end Sys2Proof.Machine
end

