-- ==== Sys2Proof/Machine/Clock.lean ====
section
/-! DEFINITION. The clocks (chapter 15): REFCLK, the PLL, planned switches, clock loss and return, gating; and the changes
of performance level that the clock unit takes part in. -/

namespace Sys2Proof.Machine

def State.modClk (s : State) (f : Clk → Clk) : State := { s with clk := f s.clk }
def State.modPwr (s : State) (f : Pwr → Pwr) : State := { s with pwr := f s.pwr }

def State.clkFlag (s : State) (i : Nat) (b : Bool) : State := s.setBit Reg.clkStat i b

def State.kstep (s : State) : Nat := s.fld Reg.pwrKstat 4 4

def State.setStep (s : State) (n : Nat) : State := s.setFld Reg.pwrKstat 4 4 n

/-! ## Changes of performance level -/

/-- PWR.REQ.RESULT. -/
def State.reqResult (s : State) (n : Nat) : State := s.setFld Reg.pwrReq 4 3 n

/-- A level comes into force; ABOVE_CEIL clears when it is at or below MAX (R395). -/
def State.setLevel (s : State) (l : Nat) : State :=
  let s := s.setFld Reg.pwrLevel 0 2 l
  if l ≤ s.fld Reg.pwrCeil 0 2 then s.setBit Reg.pwrStat 1 false else s

/-- A subsystem that is clocked again acts on a write (R369). -/
def State.gateAct (s : State) (g : GateAct) : State :=
  match g with
  | .soft a => s.slAct a
  | .table a v h => s.tableAct a v h
  | .obs a => s.setObs a (s.ax a).obs.cleared
  | .trigger c => s.trigger c s.fine true
  | .chan c idx old => s.chanAct c idx old
  | .slot k old => s.slotAct old (s.reg (fbgPar (0x40 + k.val)))
  | .echo e => s.echoAct e

/-- The subsystems that are clocked act on what was written while they were not, oldest first (R369). -/
def State.runDeferred (s : State) : State :=
  let due := s.deferred.filter fun g => s.gateOn g.unit
  due.foldl State.gateAct { s with deferred := s.deferred.filter fun g => !s.gateOn g.unit }

/-- What the gating in force gives and takes away: writes are acted on, links and ports go down (R369). -/
def State.applyGates (s : State) : State :=
  let s := s.runDeferred
  let s := if s.gateOn 1 then s else s.setLink 0 false
  let s := if s.gateOn 2 then s else s.setLink 1 false
  if s.gateOn 10 then s
  else (List.finRange 8).foldl (fun s b =>
    (s.modBank b fun k => { k with linkUp := false, linkHold := true }).syncBank b) s

/-- A change that is under way stops where it stands, and the gating of the level that stands applies (R394, Table
15-6). -/
def State.stopChange (s : State) : State :=
  match s.pwr.change with
  | none => s
  | some c =>
    let s := (s.modPwr fun p => { p with change := none }).applyGates
    let s := if c.viaReg then s.reqResult 4 else s
    match c.cmd with
    | some id => s.fail id .internalError 0 0 s.net
    | none => s

/-- The level's ramp of the divider runs. -/
def State.ramping (s : State) : Bool := match s.pwr.change with
  | some c => c.stage == .ramp
  | none => false

/-! ## Planned switches (R368) -/

/-- A planned switch starts. -/
def State.startSwitch (s : State) (toPll : Bool) : State :=
  (s.modClk fun k => { k with sw := some ⟨toPll, 0, false, s.tb⟩, locking := false }).clkFlag 1 true

/-- The source changes: to the PLL, where the next measurement of the calendar oscillator starts (R404); or away from it,
where CALDONE clears and every line awaits its calibration (R374). -/
def State.setSource (s : State) (pll : Bool) : State :=
  let s := s.clkFlag 0 pll
  if pll then s.modClk fun k => { k with calFrom := s.tb }
  else { s.clkFlag 6 false with banks := s.banks.map fun (k : Bank) => { k with calibrated := 0 } }

/-- A switch to the PLL has ended. -/
def State.onPllAgain (s : State) : State :=
  let s := s.modClk fun k => { k with lost := false, goodSince := none }
  let s := s.modServo fun v => { v with source := if v.source = 2 then 0 else v.source }
  let s := s.timeSource
  match s.pwr.phase with
  | .kindling => if s.kstep = 3 then s.setStep 4 else s
  | .entering => ((s.modPwr fun p => { p with phase := .running }).setLevel 1).applyGates
  | _ => s

/-- CLOCK_SWITCH_STEP: a 50 µs step of a planned switch, or the start of one that had to wait. -/
def execClockSwitchStep (dt : Nat) (s : State) : Res :=
  .next <|
    let s := s.advance dt
    match s.clk.sw with
    | none =>
      if s.ramping then s
      else if s.clk.locking && s.bit Reg.clkStat 2 then s.startSwitch true
      else match s.pwr.change with
        | some c =>
          if c.stage = .deep then
            (if s.onPll then s.startSwitch false else s.modPwr fun p => { p with change := some { c with stage := .last } })
          else s
        | none => s
    | some w =>
      if s.tb < w.at_ + 20000 then s
      else
        let n := if w.back then w.step - 1 else w.step + 1
        let s := if n = 8 ∧ w.back = false then s.setSource w.toPll
          else if n = 7 ∧ w.back = true then s.setSource false else s
        if (w.back && n == 0) || (!w.back && n == 16) then
          let s := (s.modClk fun k => { k with sw := none }).clkFlag 1 false
          if w.back then s
          else if w.toPll then s.onPllAgain
          else match s.pwr.change with
            | some c => s.modPwr fun p => { p with change := some { c with stage := .last } }
            | none => s
        else s.modClk fun k => { k with sw := some { w with step := n, at_ := s.tb } }

/-! ## REFCLK and the PLL -/

/-- Table 15-1: REFCODE, frequency in 100 kHz, multiplier. -/
def refTable : List (Nat × Nat × Nat) :=
  [(1, 100, 40), (2, 125, 32), (3, 160, 25), (4, 200, 20), (5, 250, 16), (6, 400, 10), (7, 500, 8)]

/-- The listed value within ±8 % of a measurement (R363). -/
def refOf (meas : Nat) : Option (Nat × Nat) :=
  (refTable.find? fun r => decide (r.2.1 * 100 ≤ meas * 108) && decide (meas * 92 ≤ r.2.1 * 100)).map fun r => (r.1, r.2.2)

/-- The start delay in ticks (R365), 0 where it is skipped (R381). -/
def State.startDelay (s : State) : Nat :=
  if s.bit Reg.pwrKstat 10 then 0 else 200000 * 2 ^ s.fld Reg.clkRef 0 3

/-- The REFCLK receiver runs and a measurement may end now (R363, R369). -/
def State.refDue (s : State) : Bool :=
  match s.pwr.phase with
  | .kindling =>
    if s.kstep = 2 then decide (s.pwr.since + s.startDelay + 40000 ≤ s.tb)
    else decide (3 ≤ s.kstep) && decide (s.clk.measAt + 400000 ≤ s.tb)
  | .running | .entering => decide (s.clk.measAt + 400000 ≤ s.tb)
  | .pl0 => s.bit Reg.clkGateDeep 0 && (!s.clocked || decide (s.clk.measAt + 400000 ≤ s.tb))
  | _ => false

/-- PL0 is being entered, or is in force: the module makes no switch to the PLL but by a wake (R368). -/
def State.toPl0 (s : State) : Bool :=
  s.errHeld || (match s.pwr.change with
    | some c => c.target == 0
    | none => false)

/-- REFCLK_MEASURE: 100 µs of REFCLK have been counted, in 100 kHz; 0: absent (R363, R374). One that fails, or picks another
value, off the PLL ends its lock (R366). Once PL0 is requested the PLL is not sought (R368). -/
def execRefclkMeasure (dt : Nat) (meas : BitVec 12) (s : State) : Res :=
  .next <|
    let s := s.advance dt
    if !s.refDue then s
    else
      let r := refOf meas.toNat
      let s := if s.pwr.phase = .kindling ∧ s.kstep = 2 then s.setStep 3 else s
      let s := (s.setFld Reg.clkRef 16 12 meas.toNat).modClk fun k => { k with measAt := s.tb }
      let s := (s.clkFlag 3 r.isSome).clkFlag 4 r.isNone
      let code := (r.map Prod.fst).getD 0
      let same := code == s.fld Reg.clkRef 4 3
      if s.onPll || s.clk.sw.isSome || (s.clk.locking && same) || s.pwr.phase == .pl0 then s
      else
        let s := s.modClk fun k => { k with locking := false }
        let s := if same && r.isSome then s else s.clkFlag 2 false
        let s := s.setFld Reg.clkRef 4 3 code
        if s.clk.lost then
          s.modClk fun k => { k with goodSince := if code = 0 then none else if same then some (k.goodSince.getD s.tb) else some s.tb }
        else match r with
          | some (_, m) => (s.setFld Reg.clkRef 8 8 m).modClk fun k => { k with locking := !s.toPl0 }
          | none => s

/-- PLL_LOCK: the PLL has locked (R366). -/
def execPllLock (dt : Nat) (s : State) : Res :=
  .next <|
    let s := s.advance dt
    if !s.clk.locking then s
    else
      let s := s.clkFlag 2 true
      if s.ramping then s else s.startSwitch true

/-- RC_BAD follows a measurement of the RC or the loss of its edges (R375). -/
def State.rcWatch (s : State) (bad : Bool) : State :=
  if bad then (s.clkFlag 5 true).modClk fun k => { k with rcGood := none }
  else if !s.bit Reg.clkStat 5 then s
  else match s.clk.rcGood with
    | none => s.modClk fun k => { k with rcGood := some s.tb }
    | some t => if t + tickHz ≤ s.tb then (s.clkFlag 5 false).modClk fun k => { k with rcGood := none } else s

/-- RCPER_MEASURE: the RC period over 1 ms of the timebase, 1/256 fine tick (R367). -/
def execRcperMeasure (dt : Nat) (per : BitVec 24) (s : State) : Res :=
  .next <|
    let s := s.advance dt
    if s.onPll && decide (s.clk.rcAt + 400000 ≤ s.tb) then
      let s := (s.setFld Reg.clkRcper 0 24 per.toNat).modClk fun k => { k with rcAt := s.tb }
      s.rcWatch (decide (16384 < ((per.toNat : Int) - 16384).natAbs * 10))
    else s

/-- RC_BAD: the RC has shown no edge for 1 µs; or, not `bad`, it is found good (R375). -/
def execRcBad (dt : Nat) (bad : Bool) (s : State) : Res :=
  .next <|
    let s := s.advance dt
    if s.onPll then s.rcWatch bad else s

/-! ## Clock loss (R372 to R374) -/

/-- What a clock loss does apart from the source (R373, Table 15-6). -/
def State.clockLoss (s : State) (reason : Nat) (gap : Nat) (during : Bool) : State :=
  let s := s.modClk fun k => { k with lost := true, goodSince := none, locking := false, measAt := s.tb }
  let s := s.clkFlag 2 false
  let s := if reason = 1 then s.clkFlag 3 false else s
  let s := (s.modServo fun v => { v with source := 2 }).flag Reg.timeDisc 0
  let s := (s.bump Reg.timeDisc 8 8).dropGroups
  let s := s.setFld Reg.clkLoss 0 3 (reason + 4 * during.toNat)
  let s := (s.setFld Reg.clkLoss 16 16 gap).bump Reg.clkLoss 8 8
  s.stopChange.raiseSc 19 0x31 .module

/-- A forced switch to the RC: network time is advanced by `gap` RC cycles where the PLL clocked the logic, by none where
the RC did (R373). -/
def State.forceRc (s : State) (reason gap : Nat) (during : Bool) : State :=
  let gap := if s.onPll then gap else 0
  let s := (s.modClk fun k => { k with sw := none }).clkFlag 1 false
  ((s.setSource false).pass gap).clockLoss reason gap during

/-- The PLL is lost while the RC clocks the logic and no switch to it is under way: LOCK falls, and its locking ends
(R366). -/
def State.pllGone (s : State) (reason : Nat) : State :=
  let s := (s.modClk fun k => { k with locking := false, goodSince := none }).clkFlag 2 false
  if reason = 1 then s.clkFlag 3 false else s

/-- CLOCK_LOST: a detector of Table 15-4 fires; `gap` RC cycles since the last good timebase edge. While the RC clocks the
logic and no switch is under way no clock is lost that the module runs on (DEDUCED, log 62). -/
def execClockLost (dt : Nat) (reason : Fin 4) (gap : BitVec 16) (s : State) : Res :=
  .next <|
    let s := s.advance dt
    let during := s.clk.sw.isSome || s.ramping
    if reason = 0 ∨ s.bit Reg.clkStat 5 = true ∨ (s.pwr.phase ≠ .running ∧ s.pwr.phase ≠ .kindling ∧ s.pwr.phase ≠ .entering)
    then s
    else match s.clk.sw with
      | some w =>
        if w.back && !s.onPll then s
        else if !w.back && w.toPll && reason == 1 then
          -- the ramp reverses step by step; the time to bridge is bridged at the detection
          let on := s.onPll
          let gap := if on then gap.toNat else 0
          let s := (((s.clkFlag 0 false).pass gap).clkFlag 0 on).clockLoss 1 gap true
          if w.step = 0 then (s.modClk fun k => { k with sw := none }).clkFlag 1 false
          else s.modClk fun k => { k with sw := some { w with back := true, at_ := s.tb } }
        else s.forceRc reason.val gap.toNat true
      | none => if s.onPll then s.forceRc reason.val gap.toNat during else s.pllGone reason.val

/-- CLOCK_RETURN: REFCLK has passed for 10 ms without a break (R374). -/
def execClockReturn (dt : Nat) (s : State) : Res :=
  .next <|
    let s := s.advance dt
    match s.clk.goodSince with
    | none => s
    | some t =>
      if s.clk.lost && !s.onPll && s.clk.sw.isNone && !s.clk.locking && !s.toPl0 && decide (t + 4000000 ≤ s.tb) then
        let m := (refTable.find? fun r => r.1 == s.fld Reg.clkRef 4 3).map fun r => r.2.2
        (s.setFld Reg.clkRef 8 8 (m.getD 0)).modClk fun k => { k with locking := true, goodSince := none }
      else s

/-- Every line of every bank has been calibrated since the last switch to the PLL (R374). -/
def State.calibrated (s : State) : Bool := (List.finRange 8).all fun b => (s.bank b).calibrated == BitVec.allOnes 61

/-- CAL_ROUND_DONE: a complete round of delay-line calibration has ended (R374, R377). -/
def execCalRoundDone (dt : Nat) (s : State) : Res :=
  .next <|
    let s := s.advance dt
    if s.onPll && s.clk.sw.isNone && s.calibrated then s.clkFlag 6 true else s

/-! ## Gating (R369, R370) -/

/-- An axis that is neither OFF, READY nor RETIRED. -/
def AxState.idle : AxState → Bool
  | .off | .ready | .retired => true
  | _ => false

/-- A bit of the register in force may not be cleared now (Table 15-3). -/
def State.gateRefused (s : State) (p : Port) (i : Nat) : Bool :=
  if i = 0 then p == .host
  else if i = 1 then p == .a
  else if i = 2 then p == .b
  else if i = 9 then
    (List.finRange 16).any (fun e => s.bit (fbgPar (0x50 + e.val)) 7) ||
    (List.finRange 96).any fun a => (s.ax a).st == .following || (!(s.ax a).st.idle && (s.loopCfg a).encoder)
  else (List.finRange 96).any fun a => !(s.ax a).st.idle

/-- GATE_RUN (0) or GATE_SLEEP (1) is in force, or about to be. -/
def State.gateInForce (s : State) (which : Nat) : Bool :=
  let at_ (l : Nat) : Bool := if which = 0 then decide (2 ≤ l) else l == 1
  at_ s.level || (match s.pwr.change with
    | some c => at_ c.target
    | none => false)

/-- The port that a write of `p` arrived on: in a ring, of a packet, also port B (R343, R370). -/
def State.arrivalPort (s : State) (p : Port) : Port :=
  ((s.tags.find? fun c => c.place == Place.running && c.op == Op.regWrite).map Cmd.came).getD p

/-- A write of CLK.GATE_RUN, GATE_SLEEP or GATE_DEEP. -/
def State.writeGate (s : State) (p : Port) (which : Nat) (v : Word) : State :=
  let k := Reg.clkGateRun + 4 * which
  if 2 ≤ which then s.plainWrite k v
  else
    let old := s.reg k
    let kept := if s.gateInForce which then
        (List.range 11).filter fun i => old.bit i && !v.bit i && s.gateRefused (s.arrivalPort p) i
      else []
    let s := s.setReg k (kept.foldl (fun (w : Word) i => w.setBit i true) (v &&& 0x7ff))
    (if kept.isEmpty then s else s.flag Reg.clkStat 7).applyGates

/-- The gating register of a level that a change enters is checked as a write of it is: each bit that would gate what may
not be gated is set (R370, R391) (DESIGN CHOICE, log 64). -/
def State.enterGates (s : State) : State :=
  let which := if s.clockLevel ≤ 1 then 1 else 0
  let k := Reg.clkGateRun + 4 * which
  let kept := (List.range 11).filter fun i => !s.bit k i && s.gateRefused .boot i
  let s := if kept.isEmpty then s
    else (s.setReg k (kept.foldl (fun (w : Word) i => w.setBit i true) (s.reg k))).flag Reg.clkStat 7
  s.applyGates

def execGateWrite (dt : Nat) (port : Port) (which : Fin 3) (value : Word) (s : State) : Res :=
  .next <|
    let s := s.advance dt
    s.portWrite port fun s => s.writeGate port which.val value

/-- Energising and the diagnostics are refused: off the PLL or uncalibrated (R373). -/
def State.clockBad (s : State) : Bool := !s.onPll || !s.bit Reg.clkStat 6

/-- GATE_RUN gates a subsystem that energising needs (R370). -/
def State.gateShort (s : State) : Bool := [3, 4, 5, 6, 7, 8, 10].any fun i => !s.bit Reg.clkGateRun i

end Sys2Proof.Machine
end

