-- ==== Sys2Proof/Machine/Power.lean ====
section
/-! DEFINITION. Kindling, performance levels and shutdown (chapter 16), supply events (R426). -/

namespace Sys2Proof.Machine

/-! ## Every output in its state of Kindling (R380) -/

/-- Gates low, brakes released. -/
def State.allSafe (s : State) : State := s.eachAx fun s a => s.killAxis a

/-! ## Kindling -/

/-- Registers kept by a warm restart (Table 16-3). -/
def keptKeys : List Nat :=
  (List.range 8).map Reg.fltClass ++ [Reg.clkGateRun, Reg.clkGateSleep, Reg.clkGateDeep, Reg.pwrCeil]

/-- Registers of the Hearth domain, which keeps its values through every Kindling (chapter 17) (DEDUCED, log 47). -/
def hearthKeys : List Nat :=
  [Reg.hrtStat, Reg.hrtCalsetLo, Reg.hrtCalsetHi, Reg.hrtCalctl, Reg.hrtCaltrim, Reg.hrtCalmeas, Reg.hrtRamaddr]

/-- What the tile keeps of an axis (R454). -/
def TileAxis.kept (t : TileAxis) : TileAxis :=
  { TileAxis.reset with
    hard := t.hard, soft := t.soft, bootSoft := t.bootSoft, shoc := t.shoc, sdis := t.sdis, nocur := t.nocur
    legHold := t.legHold, bootLow := t.bootLow, bootBand := t.bootBand, offset := t.offset }

def Bank.kept (k : Bank) : Bank :=
  { Bank.reset with vgLow := k.vgLow, shrefLost := k.shrefLost, ot := k.ot, warm := k.warm, axes := k.axes.map TileAxis.kept }

/-- The lock as an item of the snapshot. -/
def lockItem : Nat := 1

/-- The items of the snapshot (Table 16-3). -/
def snapItems : List Nat := keptKeys ++ [Reg.clkLoss, Reg.pwrKstat, lockItem]

/-- The retirement flags stand through every Kindling (Table 16-3). -/
def State.keepFlags (t s : State) : State := t.eachAx fun t a => t.setReg (retFlag a) (s.reg (retFlag a))

/-- A Kindling of a kind of Table 16-1 starts: what Table 16-3 does not keep is reset, a kept item that the snapshot does
not hold among it, and the calendar awaits its next measurement (R379 to R382, R404, R42) (DEDUCED, log 22). -/
def State.kindle (s : State) (kind : Nat) (straps : Straps) : State :=
  let keep := kind != 0 && s.pwr.snapOk
  let has (i : Nat) : Bool := keep && !straps.snapLost.contains i
  let hrc := kind == 3 && s.bit Reg.clkGateDeep 1
  let t : State := { State.reset with
    net := if kind = 0 then 0 else s.net, netFrac := if kind = 0 then 0 else s.netFrac, tb := s.tb, tbFrac := s.tbFrac
    nextId := s.nextId, draws := s.draws, pending := s.pending, tmrAt := []
    banks := s.banks.map Bank.kept, chans := s.chans.map Chan.fresh, trips := s.trips, drven := s.drven
    drvenLowAt := s.drvenLowAt, extest := s.extest, tapIr := s.tapIr, tapCells := s.tapCells, tapOut := s.tapOut, locked := has lockItem && s.locked
    hearth := { s.hearth with onMain := true, inc := s.calInc, queue := [], writing := none, notices := [] }
    pwr := { Pwr.reset with
      phase := if s.pwr.nresetLow then .held else .kindling, since := s.tb, straps := straps, nresetLow := s.pwr.nresetLow
      wakeHigh := s.pwr.wakeHigh, vioOk := s.pwr.vioOk, snapOk := true, vcore := 700 } }
  let t := t.modServo fun v => { v with unset := !hrc || s.netw.servo.unset }
  let t := if hrc then t.setBit Reg.timeDisc 0 (s.bit Reg.timeDisc 0) else t
  let t := (hearthKeys.foldl (fun t k => t.setReg k (s.reg k)) t).setBit Reg.hrtCalmeas 24 false
  let t := t.keepFlags s
  let t := keptKeys.foldl (fun t k => if has k then t.setReg k (s.reg k) else t) t
  let t := if has Reg.clkLoss then t.setFld Reg.clkLoss 8 8 (s.fld Reg.clkLoss 8 8) else t
  let srcnt := if has Reg.pwrKstat then s.fld Reg.pwrKstat 16 8 else 0
  let srcnt := if kind = 2 then satAdd 8 srcnt 1 else srcnt
  let skip := (kind == 3 && s.bit Reg.clkGateDeep 0) || (kind != 0 && s.bit Reg.clkStat 3)
  let snap := keep && snapItems.all fun i => !straps.snapLost.contains i
  let t := t.setReg Reg.pwrKstat (BitVec.ofNat 32
    (kind + (kind != 0).toNat * 4 + (if s.pwr.vioOk then 2 else 1) * 16 + t.locked.toNat * 0x100 + snap.toNat * 0x200 +
      skip.toNat * 0x400 + srcnt * 0x10000))
  let t := t.setFld Reg.clkRef 0 3 straps.refdly.toNat
  let t := t.setFld Reg.pwrBoot 0 2 straps.bootsrc.toNat
  let t := t.setFld Reg.netNode 0 14 straps.nodeAddrDef.toNat
  t.setBit Reg.pwrStat 0 s.pwr.vioOk

/-- KINDLING_COLD: VIN_L rises from below 3.0 V (R379). -/
def execKindlingCold (dt : Nat) (straps : Straps) (s : State) : Res :=
  .next <|
    let s := s.advance dt
    if s.pwr.phase = .unpowered ∨ s.pwr.phase = .waiting ∨ (s.pwr.phase = .held ∧ s.pwr.vinOk = false) then s.kindle 0 straps else s

/-- NRESET_LOW: nRESET has been low for 1 µs (R380, Table 16-8). A change of level under way ends. -/
def execNresetLow (dt : Nat) (s : State) : Res :=
  .next <|
    let s := s.advance dt
    let s := s.modPwr fun p => { p with nresetLow := true }
    match s.pwr.phase with
    | .unpowered | .shutdown | .waiting => s
    | _ => (s.allSafe.modPwr fun p => { p with phase := .held, since := s.tb, change := none }).eachAx fun s a => s.syncReady a

/-- NRESET_RISE (R379); with VIN_L not yet back after a shutdown the module waits for it (R400). -/
def execNresetRise (dt : Nat) (straps : Straps) (s : State) : Res :=
  .next <|
    let s := s.advance dt
    let s := s.modPwr fun p => { p with nresetLow := false }
    if s.pwr.phase ≠ .held then s
    else if s.pwr.vinOk then s.kindle 1 straps
    else s.modPwr fun p => { p with phase := .waiting, since := s.tb }

/-- WAKE: the land is high, for 10 µs, or low (R379, R396, R397). -/
def execWake (dt : Nat) (high : Bool) (straps : Straps) (s : State) : Res :=
  .next <|
    let s := s.advance dt
    let was := s.pwr.wakeHigh
    let s := s.modPwr fun p => { p with wakeHigh := high }
    if !high || was then s
    else match s.pwr.phase with
      | .pl0 => s.kindle 3 straps
      | .entering =>
        if s.clk.sw.isSome then s
        else if s.bit Reg.clkStat 2 then s.startSwitch true
        else ((s.modPwr fun p => { p with phase := .running }).setLevel 1).applyGates
      | _ => s

/-- KINDLING_WARM_SUPPLY: VIN_L has returned after a shutdown (R400); while nRESET is low, its rise starts the Kindling
(Table 16-8). -/
def execKindlingWarmSupply (dt : Nat) (straps : Straps) (s : State) : Res :=
  .next <|
    let s := s.advance dt
    match s.pwr.phase with
    | .waiting => s.kindle 2 straps
    | .held => s.modPwr fun p => { p with vinOk := true }
    | _ => s

/-- A lost Hearth domain is emptied, its retirements with it (R402). -/
def State.hearthFound (s : State) : State :=
  if !s.hearth.lost then s
  else
    { (s.eachAx fun s a => s.setReg (retFlag a) 0).setReg Reg.hrtStat ((s.reg Reg.hrtStat).setBit 3 true) with
      hearth := { s.hearth with
        calValid := false, sec := 0, acc := 0, ember := [], next := 0, wrapped := false, written := 0, retire := [], sram := [] } }

/-- Words 1 to 7 of the slots whose KIND is 0 are zeroed (R407). -/
def State.emberTidy (s : State) : State :=
  let keep (c : Nat × Word) : Bool := (s.emberWord (c.1 / 8) 0).fld 0 3 != 0 || c.1 % 8 == 0
  { s with hearth := { s.hearth with ember := s.hearth.ember.filter keep } }

/-- An axis's retirement record: whether it brings the axis up RETIRED, and whether it fails its CHECK (R411). -/
def State.recordOf (s : State) (a : AxisId) : Bool × Bool :=
  let w (k : Nat) : Word := storeGet wordDefault s.hearth.retire (4 * a.val + k)
  let none_ := w 0 == 0 && w 1 == 0 && w 2 == 0 && w 3 == 0
  let bad := !none_ && (w 3).fld 0 16 != Word.fld (crcWords [w 0, w 1, w 2]) 0 16
  ((w 0).bit 7 || bad, bad)

/-- Retirements are applied: by their records and by the flags kept (R307, R411, Table 16-3). -/
def State.applyRetired (s : State) : State :=
  s.eachAx fun s a =>
    let (ret, bad) := s.recordOf a
    let s := if bad then s.flag Reg.hrtStat 4 else s
    if ret || s.retired a then (s.setBit (retFlag a) 0 true).setSt a .retired else s

/-- KINDLING_STEP_5: pool zeroed, registers loaded, retirements applied, links up (Table 16-2). -/
def execKindlingStep5 (dt : Nat) (s : State) : Res :=
  .next <|
    let s := s.advance dt
    if s.pwr.phase ≠ .kindling ∨ s.kstep ≠ 4 ∨ s.bit Reg.clkStat 6 = false then s
    else
      let s := s.hearthFound.emberTidy.applyRetired
      let s := (List.finRange 8).foldl (fun s b => s.modBank b fun k => { k with linkUp := !s.extest, linkHold := s.extest }) s
      let src := s.fld Reg.pwrBoot 0 2
      let none_ := src == 0 || src == 3
      (s.modPwr fun p => { p with boot := { Boot.reset with ended := none_ } }).setStep (if none_ then 6 else 5)

/-- The boot ends, or goes on: step 6 is reached where it ends (Table 16-2). -/
def State.bootState (s : State) (b : Boot) : State :=
  let s := s.modPwr fun p => { p with boot := b }
  if b.ended then s.setStep 6 else s

/-- The loader takes the final reply to its packet, or learns that none will come; it discards the reply (R387). -/
def State.bootAccount (s : State) : State :=
  let b := s.pwr.boot
  if !b.waiting || b.ended then s
  else
    let final := s.replies.find? fun r => r.port == Port.boot && r.status != .accepted && r.status != .started
    if final.isNone && s.tags.any fun c => c.port == Port.boot then s
    else
      let good := (final.map fun r => r.status == .done).getD false
      let s := { s with replies := s.replies.filter fun r => r.port != Port.boot }
      let s := if good then s
        else
          let s := if s.fld Reg.pwrBoot 8 8 = 0 then s.setFld Reg.pwrBoot 16 16 (b.index - 1) else s
          s.bump Reg.pwrBoot 8 8
      let stop := !good && b.stopOnErr
      let s := if stop then s.setFld Reg.pwrBoot 2 3 4 else s
      s.bootState { b with waiting := false, ended := stop || b.packets.isEmpty }

/-- A block's descriptor once Boot's owner rights, and its rights as lender, have passed to the host port. -/
def Desc.handOver (d : Desc) : Desc :=
  { d with owner := if d.owner = 3 then 0 else d.owner
           lender := if isAxisOwner d.owner && d.lender == 3 then 0 else d.lender }

/-- What Boot owns, and its rights as lender, pass to the host port (R71); its replies go. -/
def State.handOver (s : State) : State :=
  { s with desc := s.desc.map fun c => (c.1, c.2.handOver), replies := s.replies.filter fun r => r.port != Port.boot }

/-- KINDLING_END (R383). -/
def execKindlingEnd (dt : Nat) (s : State) : Res :=
  .next <|
    let s := s.advance dt
    let s := if s.pwr.phase = .kindling ∧ s.kstep = 5 then s.bootAccount else s
    if s.pwr.phase ≠ .kindling ∨ s.kstep ≠ 6 then s
    else
      let s := s.handOver
      let s := if s.locked || s.pwr.errKept then s else s.setFld Reg.fltErrpin 0 3 0
      let s := s.setFld Reg.pwrLevel 0 2 1
      let s := s.setBit Reg.pwrKstat 3 true
      let res := s.reg Reg.pwrBoot
      let lost := s.hearth.lost
      let s := s.queueEmber ⟨.kindling, [emberHead 5 7 false (s.fld Reg.pwrKstat 0 2) 0 127 0 s.timeValid false lost, 0, 0,
        hiWord64 s.net, loWord64 s.net, s.reg Reg.pwrBootid, BitVec.ofNat 32 (res.fld 2 3 + res.fld 8 8 * 0x100), 0]⟩
      let s := { s with hearth := { s.hearth with lost := false } }
      let s := (s.modPwr fun p => { p with phase := .running, since := s.tb }).applyGates
      let s := s.modNet fun n => { n with guySince := s.tb }
      (s.eachAx fun s a => s.syncReady a).latchTrips.ptpInit

/-! ## Performance levels (R390 to R395) -/

/-- The conditions of R51 for PL1 and PL0. -/
def State.mayLower (s : State) : Bool :=
  (List.finRange 96).all fun a => match (s.ax a).st with
    | .energising | .holding | .moving | .following | .stopping => false
    | .faulted => !(s.ax a).energised
    | _ => true

/-- A request for a level ends: the command, or PWR.REQ. -/
def State.endRequest (s : State) (cmd : Option Nat) (viaReg : Bool) (st : Status) : State :=
  let s := if viaReg then s.reqResult (if st = .done then 0 else if st = .outOfRange then 3 else 2) else s
  match cmd with
  | none => s
  | some id => if st = .done then s.done id else s.fail id st 0 0 s.net

/-- The checks of R391, in their order. -/
def State.levelCheck (s : State) (l : Nat) : Option Status :=
  if s.fld Reg.pwrCeil 0 2 < l then some .outOfRange
  else if s.pwr.change.isSome then some .stateRefused
  else if l ≤ 1 && !s.mayLower then some .stateRefused
  else if l = 0 && (s.bit Reg.clkStat 5 || s.pwr.wakeHigh) then some .stateRefused
  else none

def State.setChange (s : State) (c : Change) : State := s.modPwr fun p => { p with change := some c }

def State.setDiv (s : State) (d : Nat) : State := s.modPwr fun p => { p with div8 := d }

/-- VCORE of a level, mV (Table 16-5). -/
def levelMv (l : Nat) : Nat := if l = 2 then 800 else if l = 3 then 900 else 700

def State.setVcore (s : State) (mv : Nat) : State := s.modPwr fun p => { p with vcore := mv }

/-- A level is requested (R391, R392). -/
def State.requestLevel (s : State) (l : Nat) (cmd : Option Nat) (viaReg : Bool) : State :=
  match s.levelCheck l with
  | some st => s.endRequest cmd viaReg st
  | none =>
    let s := match cmd with
      | some id => s.sendStarted id
      | none => s
    if l = s.level then s.endRequest cmd viaReg .done
    else
      let s := if viaReg then s.reqResult 1 else s
      let s := s.setFld Reg.pwrLevel 16 4 0
      let c (st : ChStage) : Change := ⟨l, st, s.tb, cmd, viaReg⟩
      if s.level < l then (s.setBit Reg.pwrStat 0 false).setChange (c .vcore)
      else if l = 2 then s.setChange (c .ramp)
      else if l = 1 then ((s.setDiv 8).setChange (c .last)).enterGates
      else
        -- from PL2 or PL3 as to PL1 first; GATE_SLEEP is in force already at PL1
        let low := s.level == 1
        let s := ((s.setDiv 8).setLevel 1).setChange (c .deep)
        let s := if low then s else s.enterGates.setVcore 700
        -- a return to the PLL that is being made ready is given up
        let s := s.modClk fun k => { k with locking := false }
        if s.clk.sw.isSome then s
        else if s.onPll then s.startSwitch false
        else s.setChange (c .last)

/-- A write of PWR.REQ. -/
def State.writePwrReq (s : State) (v : Word) : State :=
  let s := s.setFld Reg.pwrReq 0 2 (v.fld 0 2)
  if v.bit 2 then s.requestLevel (v.fld 0 2) none true else s

def execPwrReqGo (dt : Nat) (port : Port) (value : Word) (s : State) : Res :=
  .next <|
    let s := s.advance dt
    s.portWrite port fun s => s.writePwrReq value

/-- VCORE_OK: VCORE has reached the target (R392). -/
def execVcoreOk (dt : Nat) (s : State) : Res :=
  .next <|
    let s := s.advance dt
    if !s.up then s
    else
      let s := s.setBit Reg.pwrStat 0 true
      match s.pwr.change with
      | none => s
      | some c =>
        if c.stage ≠ .vcore then s
        else
          let s := s.setVcore (levelMv c.target)
          if s.level = 2 then (s.setChange { c with stage := .ramp, at_ := s.tb }).enterGates
          else ((s.setChange { c with stage := .last }).enterGates).setDiv (if c.target = 2 then 16 else 8)

/-- PL_RAMP_STEP: one eighth of a ramp between PL2 and PL3, until the divider of the new level is reached (R390, R392). -/
def execPlRampStep (dt : Nat) (s : State) : Res :=
  .next <|
    let s := s.advance dt
    match s.pwr.change with
    | none => s
    | some c =>
      if c.stage ≠ .ramp ∨ s.clk.sw.isSome = true ∨ s.tb < c.at_ + 20000 then s
      else
        let n := s.fld Reg.pwrLevel 16 4 + 1
        let s := s.setFld Reg.pwrLevel 16 4 n
        let goal := if c.target = 2 then 16 else 8
        let d := s.pwr.div8
        let d := if d < goal then d + 1 else if goal < d then d - 1 else d
        (s.setDiv d).setChange { c with stage := if d = goal then .last else .ramp, at_ := s.tb }

/-- PL_CHANGE_DONE: the new level is in force (R391, R395, R396). -/
def execPlChangeDone (dt : Nat) (s : State) : Res :=
  .next <|
    let s := s.advance dt
    match s.pwr.change with
    | none => s
    | some c =>
      if c.stage ≠ .last ∨ s.pwr.phase ≠ .running then s
      else
        let s := (s.setLevel c.target).setVcore (levelMv c.target)
        let s := s.modPwr fun p => { p with change := none }
        let s := s.endRequest c.cmd c.viaReg .done
        if c.target = 0 then
          let s := s.modPwr fun p => { p with phase := .entering, since := s.tb, snapOk := true }
          (List.finRange 8).foldl (fun s b =>
            (s.modBank b fun k => { k with linkUp := false, linkHold := true }).syncBank b) s
        else s.applyGates

/-- A keyed write of PWR.CEIL (R395). -/
def State.writeCeil (s : State) (v : Word) : State :=
  let s := s.setReg Reg.pwrCeil (v &&& 3)
  s.setBit Reg.pwrStat 1 (decide (v.fld 0 2 < s.level))

/-- VCORE_UV (R394). -/
def execVcoreUv (dt : Nat) (s : State) : Res :=
  .next <|
    let s := s.advance dt
    if !s.up then s
    else (((s.setBit Reg.pwrStat 0 false).flag Reg.pwrStat 2).stopChange).raiseSc 18 0x32 .module

/-- PL0_VCORE_REMOVAL: 1 ms after DONE (R396). -/
def execPl0VcoreRemoval (dt : Nat) (s : State) : Res :=
  .next <|
    let s := s.advance dt
    if s.pwr.phase ≠ .entering ∨ s.clk.sw.isSome = true ∨ s.tb < s.pwr.since + 400000 then s
    else
      let s := (s.setLink 0 false).setLink 1 false
      let s := s.clkFlag 2 false
      let s := if s.bit Reg.clkGateDeep 0 then s else s.clkFlag 3 false
      s.modPwr fun p => { p with phase := .pl0, since := s.tb, vcore := 0 }

/-! ## Shutdown (R398, R400, R426) -/

/-- The opening entries that are still pending, the module's first (R398). -/
def pendingOpenings (q : List EmberReq) : List EmberReq :=
  let opens := q.filter fun e => match e.why with
    | .opening .. => true
    | _ => false
  let mod (e : EmberReq) : Bool := match e.why with
    | .opening a _ => a == 127
    | _ => false
  (opens.filter mod) ++ opens.filter fun e => !mod e

/-- The power-fail shutdown starts. -/
def State.powerFail (s : State) : State :=
  match s.pwr.phase with
  | .unpowered | .shutdown | .waiting => s
  | _ =>
    let s := s.setBit Reg.pwrStat 3 true
    let s := s.takeItem (s.item 18 0x33 0 .module 3)
    let s := s.allSafe
    let s := { s with banks := s.banks.map fun (k : Bank) => { k with kill := 0xfff } }
    let s := s.setFld Reg.fltErrpin 0 3 1
    let s := (s.setLink 0 false).setLink 1 false
    State.emberBegin { s with
      tags := [], bursts := [], replies := []
      hearth := { s.hearth with queue := pendingOpenings s.hearth.queue, writing := none }
      pwr := { s.pwr with phase := .shutdown, since := s.tb, snapOk := true, change := none } }

/-- POWER_FAIL: VIN_L below 4.35 V for 1 µs. -/
def execPowerFail (dt : Nat) (s : State) : Res := .next ((s.advance dt).powerFail)

/-- VIO_FAIL: VIO below 2.9 V for 1 µs (R426). -/
def execVioFail (dt : Nat) (s : State) : Res :=
  .next <|
    let s := s.advance dt
    let was := s.pwr.vioOk
    let s := s.modPwr fun p => { p with vioOk := false }
    if was then s.powerFail else s

/-- VIO_RISE: VIO at or above 3.0 V for 100 µs (R426). -/
def execVioRise (dt : Nat) (s : State) : Res :=
  .next <|
    let s := s.advance dt
    let s := s.modPwr fun p => { p with vioOk := true }
    if s.pwr.phase = .kindling ∧ s.kstep = 1 then (s.setStep 2).setBit Reg.pwrStat 0 true else s

/-- SHUTDOWN_END: the 50 µs sequence has ended; what is unwritten is lost (R398, R400). -/
def execShutdownEnd (dt : Nat) (s : State) : Res :=
  .next <|
    let s := s.advance dt
    if s.pwr.phase ≠ .shutdown ∨ s.tb < s.pwr.since + 20000 then s
    else
      let s := { s with flue := [], hearth := { s.hearth with queue := [], writing := none } }
      s.modPwr fun p => { p with phase := if p.nresetLow then .held else .waiting, since := s.tb, vinOk := false }

end Sys2Proof.Machine
end

