-- ==== Sys2Proof/Machine/RegRead.lean ====
section
/-! DEFINITION. The address decode (R314, R315) and what a read of each register and parameter returns (R316, R317):
the stored word, with the fields that show other state put in. -/

namespace Sys2Proof.Machine

/-! ## Decode -/

/-- What an address reaches (R314). -/
inductive Target where
  /-- a register, slot or complement slot, by its canonical address -/
  | reg (k : Nat)
  /-- one bit of it -/
  | bit (k : Nat) (i : Nat)
  /-- the pool word at an offset -/
  | pool (o : Nat)
  deriving DecidableEq, Repr

/-- The canonical address that an address outside the alias and pool regions reaches (R315). -/
def canonical (a : Word) : Nat :=
  if a.bit 20 then
    let n := a.fld 12 7
    axisKey (if a.fld 17 2 = 3 then n - 64 else n) (a.fld 9 3) (a.fld 2 5 * 4)
  else if a.bit 19 then bankKey (a.fld 12 3) (a.fld 2 6 * 4)
  else a.fld 12 3 * 0x1000 + a.fld 2 6 * 4

/-- Table 13-1. -/
def decodeAddr (a : Word) : Target :=
  if a.bit 29 then .bit (canonical (BitVec.ofNat 32 (a.fld 7 19 * 4))) (a.fld 2 5)
  else if a.bit 24 then .pool (a.fld 2 21 * 4)
  else .reg (canonical a)

/-- The axis of a canonical axis register address, and the bank of a bank register's. -/
def keyAxis (k : Nat) : AxisId := axisNum ((k - 0x100000) / 0x1000)
def keyBank (k : Nat) : BankId := Fin.ofNat 8 ((k - 0x80000) / 0x1000)

/-- The parameter a DATA register of a PSEL or FBGSEL pair shows (R120, R170, R220, R235, R262): its kind, the axis or
channel, and the index. -/
def State.selected (s : State) (k : Nat) : Option (Nat × Nat × Nat) :=
  if 0x100000 ≤ k then
    let a := (keyAxis k).val
    match k % 0x1000 with
    | 0x00c => some (1, a, s.fld (Reg.proPsel a) 0 5)
    | 0x40c => some (2, a, s.fld (Reg.chpPsel a) 0 8)
    | 0x80c => some (3, a, s.fld (Reg.loopPsel a) 0 10)
    | 0xa04 => some (4, a, s.fld (Reg.obsPsel a) 0 8)
    | _ => none
  else if k = 0x70d0 ∨ k = 0x70d4 ∨ k = 0x70d8 then
    let w := s.reg (k - 0x10)
    if w.fld 0 8 < 0x40 then some (5, (axisNum (w.fld 8 7)).val, w.fld 0 8) else some (6, 0, w.fld 0 8)
  else none

/-! ## Words built from fields -/

/-- A word from fields: lowest bit, width, number. -/
def ofFields (l : List (Nat × Nat × Nat)) : Word := l.foldl (fun w f => w.put f.1 f.2.1 f.2.2) 0

/-- A stored word with fields put in. -/
def withFields (w : Word) (l : List (Nat × Nat × Nat)) : Word := l.foldl (fun w f => w.put f.1 f.2.1 f.2.2) w

/-- Two signed 16-bit numbers in one word, the first in the low half. -/
def pair16 (a b : Int) : Word := ofFields [(0, 16, unsigned 16 a), (16, 16, unsigned 16 b)]

def Phase.code : Phase → Nat
  | .rest => 0 | .move => 1 | .vel => 2 | .table => 3 | .stop => 4 | .estop => 5 | .wait => 6 | .dwell => 7

def AmpSt.code : AmpSt → Nat
  | .off => 0 | .precharge => 1 | .eramp => 2 | .brakeWait => 3 | .run => 4 | .hramp => 5 | .hold => 6 | .release => 7

/-! ## PRO and STP -/

/-- The segment in force. -/
def Pro.inForce (p : Pro) : Option Seg :=
  match p.segs with
  | g :: _ => if g.entered then some g else none
  | [] => none

/-- The WAIT_STAMP entry awaited: the first whose stamp has not come (R105). -/
def Pro.awaited (p : Pro) (now : Nat) : Option WaitRec :=
  let ws := match p.segs with
    | g :: _ => if g.entered then [] else g.wait
    | [] =>
      match p.motion, p.run with
      | .table _, some r => (r.fetched.head?.map Fetched.wait).getD r.wait
      | _, _ => []
  ws.find? fun w => decide (now < w.at_)

/-- AXn.PRO.STAT. -/
def State.readProStat (s : State) (a : AxisId) : Word :=
  let p := (s.ax a).pro
  let phase := match p.inForce with
    | some g => g.phase.code
    | none => if (p.awaited s.net).isSome then 6 else 0
  withFields (s.reg (Reg.proStat a)) [(0, 3, phase), (3, 1, (p.susp != Suspended.none).toNat),
    (4, 5, min 16 (p.segs.filter fun g => !g.entered).length), (21, 1, (s.slBad a).toNat)]

/-- AXn.PRO.SEGNOW. -/
def State.readSegnow (s : State) (a : AxisId) : Word :=
  let p := (s.ax a).pro
  match p.inForce with
  | some g => if g.hdr.segv then ofFields [(0, 16, g.hdr.segid), (16, 1, 1), (17, 15, g.block)] else 0
  | none =>
    match p.awaited s.net with
    | some w => ofFields [(0, 16, w.segid), (16, 1, 1), (17, 15, w.block)]
    | none => 0

/-- A PRO parameter (Table 4-7); in FOLLOWING CPOS reads Q and CVEL 0 (R135). -/
def State.readPro (s : State) (a : AxisId) (idx : Nat) : Word :=
  let vel := satS 48 (shown ((s.traj a).2 * 65536))
  match idx with
  | 0x10 => loWord (s.cposNow a)
  | 0x11 => hiWord48 (s.cposNow a)
  | 0x12 => loWord vel
  | 0x13 => hiWord48 vel
  | 0x14 => loWord (s.ax a).pro.target
  | 0x15 => hiWord48 (s.ax a).pro.target
  | i => s.reg (proPar a i)

/-- AXn.STP registers. -/
def State.readStp (s : State) (a : AxisId) (off : Nat) : Word :=
  let p := (s.ax a).stp
  match off with
  | 0x204 => withFields (s.reg (Reg.stpStat a))
      [(0, 7, p.edges.length), (7, 1, (match p.follow with | some f => f.counting | none => false).toNat)]
  | 0x208 => ofFields [(0, 12, p.epRel), (16, 8, min 255 (s.lag a))]
  | 0x20c => loWord p.qRel
  | 0x210 => hiWord48 p.qRel
  | 0x214 => ofFields [(0, 17, unsigned 17 p.rem), (17, 15, p.pulses)]
  | _ => s.reg (axisKey a 0 off)

/-! ## CHP and PWM -/

def State.readChpStat (s : State) (a : AxisId) : Word :=
  let c := (s.ax a).chp
  withFields (s.reg (Reg.chpStat a)) [(0, 3, c.ampst.code), (3, 1, (c.coils.get 0).volt.toNat),
    (4, 1, (c.coils.get 1).volt.toNat), (5, 1, c.brk.toNat), (9, 1, c.load.isSome.toNat)]

/-- A CHP parameter (Table 6-9). TABCTL.SWAP reads 0 at once, also while the swap waits for the end of a load: the spec
does not say when it clears itself (DESIGN CHOICE, log 64). -/
def State.readChp (s : State) (a : AxisId) (idx : Nat) : Word :=
  let c := (s.ax a).chp
  let sa := (c.coils.get 0).s
  let sb := (c.coils.get 1).s
  match idx with
  | 0x0a => (s.reg (chpPar a 0x0a)).setBit 18 c.load.isSome
  | 0x0b => pair16 sa sb
  | 0x0c => ofFields [(0, 10, dacCode sa), (10, 1, (decide (sa < 0)).toNat), (16, 10, dacCode sb), (26, 1, (decide (sb < 0)).toNat)]
  | 0x0d => BitVec.ofNat 32 c.amp
  | i => if 0x80 ≤ i then BitVec.ofNat 32 (tabGet c.shadow (i - 0x80)) else s.reg (chpPar a i)

def State.readPwmStat (s : State) (a : AxisId) : Word :=
  let p := (s.ax a).pwm
  withFields (s.reg (Reg.pwmStat a)) [(0, 1, p.run.toNat), (1, 1, p.phased.toNat), (5, 1, (s.fineLost a).toNat), (8, 5, p.div8)]

/-! ## LOOP and OBS -/

def State.readWinner (s : State) (a : AxisId) : Word :=
  let l := (s.ax a).loop
  let sat := (List.finRange 7).map fun i => (8 + i.val, 1, (l.unit i).sat.toNat)
  withFields (s.reg (Reg.loopWinner a)) ([(0, 3, l.winner), (3, 1, l.blind.toNat), (4, 1, l.feOver.toNat)] ++ sat)

/-- A LOOP parameter (Table 8-7). -/
def State.readLoop (s : State) (a : AxisId) (idx : Nat) : Word :=
  let l := (s.ax a).loop
  match idx with
  | 0x006 => ofFields [(0, 16, unsigned 16 l.selected), (16, 1, (decide (l.dir = -1)).toNat)]
  | 0x008 => loWord l.fErr
  | 0x009 => hiWord48 l.fErr
  | 0x00a => loWord l.pMeas
  | 0x00b => hiWord48 l.pMeas
  | 0x00c => loWord l.vMeas
  | 0x00d => hiWord48 l.vMeas
  | 0x00e => match l.feSince with
    | some t => BitVec.ofNat 32 (min 65535 ((s.net - t) / 40000))
    | none => 0
  | i =>
    if h : 0x100 ≤ i ∧ i < 0x170 then
      let u := l.unit ⟨(i - 0x100) / 0x10, by omega⟩
      match i % 0x10 with
      | 2 => loWord u.acc
      | 3 => BitVec.ofInt 32 (signed 8 (unsigned 40 u.acc / 0x100000000))
      | 4 => pair16 u.out u.err
      | _ => s.reg (loopPar a i)
    else s.reg (loopPar a i)

def State.readObsPsel (s : State) (a : AxisId) : Word :=
  let o := (s.ax a).obs
  withFields (s.reg (Reg.obsPsel a))
    [(16, 1, o.valid.toNat), (17, 1, o.warning.toNat), (18, 1, (!o.valid && decide (0 < o.good)).toNat)]

/-- An OBS parameter (Table 9-3). -/
def State.readObs (s : State) (a : AxisId) (idx : Nat) : Word :=
  let o := (s.ax a).obs
  match idx with
  | 0x08 => pair16 o.delta o.margin
  | 0x09 => pair16 (o.ef.get 0 / 65536) (o.ef.get 1 / 65536)
  | 0x0a => ofFields [(0, 12, unsigned 12 o.thR), (16, 12, unsigned 12 o.thI)]
  | 0x0b => ofFields [(0, 15, min 32767 o.ampE), (16, 15, min 32767 o.ampX)]
  | 0x0c => if o.window.isSome then pair16 (sat15 o.dObs) (sat15 ((s.ax a).loop.pMeas - o.pOpen)) else 0
  | i => s.reg (obsPar a i)

/-! ## FBK -/

def State.readFbkStat (s : State) (c : ChanId) : Word :=
  let x := s.chan c
  withFields (s.reg (Reg.fbkStat c)) [(0, 3, (s.pins c x.levels).toNat), (3, 1, x.hallBad.toNat), (4, 1, x.still.toNat),
    (5, 1, (s.slotOf c).isSome.toNat), (11, 1, (s.bit (fbkPar c 4) 10).toNat)]

/-- A channel parameter (Table 10-5). -/
def State.readFbk (s : State) (c : ChanId) (idx : Nat) : Word :=
  let x := s.chan c
  let v := satS 48 (s.speedAt c s.fine)
  match idx with
  | 0x06 => loWord x.count
  | 0x07 => hiWord48 x.count
  | 0x08 => loWord v
  | 0x09 => hiWord48 v
  | i => s.reg (fbkPar c i)

/-- A parameter word. -/
def State.readPar (s : State) (kind n idx : Nat) : Word :=
  match kind with
  | 1 => s.readPro (axisNum n) idx
  | 2 => s.readChp (axisNum n) idx
  | 3 => s.readLoop (axisNum n) idx
  | 4 => s.readObs (axisNum n) idx
  | 5 => s.readFbk (axisNum n) idx
  | _ => s.reg (paramKey kind n idx)

/-! ## AXF and FLT -/

/-- AXn.AXF.STATE. -/
def State.readAxfState (s : State) (a : AxisId) : Word :=
  let x := s.ax a
  let r := x.rec?
  ofFields [(0, 4, x.st.code), (4, 1, x.energised.toNat), (5, 1, r.isSome.toNat),
    (6, 3, (r.map Rec.cls).getD 0), (9, 1, ((r.map Rec.pending).getD false).toNat),
    (10, 1, ((r.map fun r => r.backoff.isSome).getD false).toNat), (11, 3, min 7 (s.retriesIn a s.tb)),
    (14, 1, (s.retired a).toNat), (15, 1, (s.killWanted a).toNat), (16, 1, (s.ownShare a).toNat),
    (17, 1, (s.bankShare (bankOf a)).toNat), (18, 1, s.locked.toNat), (19, 1, (s.tripShare a).toNat)]

/-- A word of a fault record (Table 12-6) (DESIGN CHOICE, log 33). -/
def Rec.word (r : Rec) (i : Nat) : Word :=
  match i with
  | 0 => ofFields [(0, 6, r.first), (6, 3, r.cls), (9, 1, r.opened.toNat), (10, 1, r.pending.toNat),
      (11, 1, r.retired.toNat), (12, 4, r.sub), (16, 8, r.repeats), (24, 3, r.hdr.port)]
  | 1 => BitVec.ofNat 32 r.mask
  | 2 => BitVec.ofNat 32 (r.mask / 0x100000000)
  | 3 => loWord64 r.stamp
  | 4 => hiWord64 r.stamp
  | 5 => ofFields [(0, 16, r.hdr.tag), (16, 16, r.hdr.segid)]
  | 6 => ofFields [(0, 1, r.hdr.segv.toNat), (1, 3, r.retries), (16, 16, r.seq)]
  | _ => ofFields [(0, 9, r.ember), (9, 1, r.emberv.toNat)]

/-- FLT.RDATA: the record word that RSEL selects (R313). -/
def State.readRdata (s : State) : Word :=
  let w := s.reg Reg.fltRsel
  let recs := if w.fld 0 7 = 127 then s.modRecs else (s.ax (axisNum (w.fld 0 7))).fault.recs
  match recs[w.fld 8 3]? with
  | some r => r.word (w.fld 12 3)
  | none => 0

/-- The open records. -/
def State.openRecs (s : State) : List Rec :=
  (List.finRange 96).filterMap (fun a => (s.ax a).rec?) ++ (openRec s.modRecs).toList

/-- FLT.STAT. -/
def State.readFltStat (s : State) : Word :=
  withFields (s.reg Reg.fltStat) [(0, 1, (openRec s.modRecs).isSome.toNat), (1, 1, s.locked.toNat),
    (2, 3, (s.openRecs.map Rec.cls).foldl max 0), (5, 1, (!s.hearth.queue.isEmpty).toNat),
    (8, 7, ((List.finRange 96).filter fun a => (s.ax a).hasRec).length)]

/-- FLT.OPENm. -/
def State.readOpen (s : State) (m : Nat) : Word :=
  ofFields ((List.range 32).map fun i => (i, 1, (s.ax (axisNum (32 * m + i))).hasRec.toNat))

def State.readFlt (s : State) (k : Nat) : Word :=
  match k with
  | 0x3028 => (s.reg Reg.fltErrpin).setBit 3 s.errPulse.isSome
  | 0x3030 => s.readRdata
  | 0x3034 => s.readFltStat
  | 0x3080 => (s.reg Reg.fltTripstat).put 16 16 s.trips.toNat
  | 0x308c => s.readOpen 0
  | 0x3090 => s.readOpen 1
  | 0x3094 => s.readOpen 2
  | 0x3098 => BitVec.ofNat 32 s.broken.toNat
  | _ => s.reg k

/-! ## GDB -/

/-- AXSTAT_j of an axis. -/
def State.readAxstat (s : State) (a : AxisId) : Word :=
  let t := s.tile a
  ofFields [(0, 8, t.hard.toNat), (8, 8, t.soft.toNat), (16, 4, t.bstok.toNat), (20, 2, t.shoc.toNat), (22, 2, t.sdis.toNat),
    (24, 2, t.nocur.toNat), (26, 1, ((s.bank (bankOf a)).kill.getLsbD (locOf a).val).toNat), (27, 1, t.prech.toNat)]

/-- The registers of a bank. -/
def State.readBank (s : State) (b : BankId) (off : Nat) : Word :=
  let k := s.bank b
  match off with
  | 0x0c => withFields (s.reg (Reg.gdbStat b)) [(1, 1, (s.vgOk b).toNat), (2, 1, (s.busOk b).toNat), (3, 1, s.drven.toNat),
      (4, 1, k.shrefLost.toNat), (6, 1, k.busOv.toNat), (7, 1, k.busUv.toNat), (8, 1, k.ot.toNat), (9, 1, k.linkUp.toNat)]
  | 0x10 => ofFields (((List.finRange 12).map fun j => (j.val, 1, ((k.axes.get j).hard != 0).toNat)) ++
      ((List.finRange 12).map fun j => (16 + j.val, 1, ((k.axes.get j).soft != 0).toNat)))
  | 0x1c => (s.reg (Reg.gdbVg b)).setBit 16 k.vgLow
  | 0x38 => (s.reg (Reg.gdbTemp b)).setBit 16 k.warm
  | 0x50 => ofFields [(0, 2, Config.dtCode), (4, 4, Config.tileRev.toNat), (8, 3, b.val)]
  | 0x54 => ofFields [(0, 12, k.kill.toNat), (16, 1, (!s.drvenHigh).toNat)]
  | _ => if h : 0x80 ≤ off ∧ off < 0xb0 then s.readAxstat (axisOf b ⟨(off - 0x80) / 4, by omega⟩) else s.reg (bankKey b off)

/-! ## The other global blocks -/

/-- Replies that wait for a port. -/
def State.waiting (s : State) (p : Port) : List Reply := s.replies.filter fun r => r.port == p

/-- The bytes in the HIF ingress buffer (R330). -/
def ingressBytes (ps : List (List Byte)) : Nat := (ps.map List.length).sum

/-- PUSHRDY: at least 260 of its 4,096 bytes are free. -/
def State.pushReady (s : State) : Bool := decide (ingressBytes s.ingress + 260 ≤ 4096)

/-- nERR's level bit, HIF.IRQSTAT's level bits and HIRQ (R331). -/
def State.readIrqstat (s : State) : Word :=
  withFields (s.reg Reg.hifIrqstat) [(0, 1, (!(s.waiting .host).isEmpty).toNat), (1, 1, (s.bit Reg.fltErrpin 0).toNat),
    (5, 1, (s.bit Reg.cmdKeystat 0).toNat)]

/-- HIRQ: low from reset to the end of Kindling and while HIF is gated (R331, R369). -/
def State.hirq (s : State) : Bool := s.up && s.gateOn 0 && (s.readIrqstat &&& s.reg Reg.hifIrqen) != 0

def State.readId (s : State) (k : Nat) : Word :=
  match k with
  | 0x04 => Config.idRev.setWidth 32
  | 0x08 => ofFields [(0, 2, Config.dtCode), (8, 8, Config.deadTime10ns)]
  | 0x0c => loWord64 Config.serial.toNat
  | 0x10 => hiWord64 Config.serial.toNat
  | 0x24 =>
    let n := (s.waiting .host).length
    withFields (s.reg Reg.hifStat) [(0, 1, (decide (0 < n)).toNat), (1, 1, s.pushReady.toNat), (16, 16, min 65535 n)]
  | 0x28 => s.readIrqstat
  | 0x98 => ofFields ((List.finRange 8).map fun b => (4 * b.val, 4, min 15 (s.bank b).withdrawn.length))
  | _ => s.reg k

def State.readPwr (s : State) (k : Nat) : Word :=
  match k with
  | 0x1000 =>
    let t := match s.pwr.change with
      | some c => c.target
      | none => s.level
    withFields (s.reg Reg.pwrLevel) [(2, 2, t), (4, 1, s.pwr.change.isSome.toNat), (8, 5, s.pwr.div8)]
  | 0x101c => withFields (Config.supplies s.tb &&& 0x03ff0000) [(0, 10, s.pwr.vcore)]
  | _ => s.reg k

def State.readHrt (s : State) (k : Nat) : Word :=
  let h := s.hearth
  match k with
  | 0x2000 => withFields (s.reg Reg.hrtStat) [(0, 1, h.onMain.toNat), (1, 1, h.backupOk.toNat), (2, 1, h.calValid.toNat)]
  | 0x2004 => BitVec.ofNat 32 h.sec
  | 0x2008 => BitVec.ofNat 32 (h.sec / 0x100000000 % 256)
  | 0x200c => BitVec.ofNat 32 (h.acc / 65536 * 256)
  | 0x2024 => ofFields [(0, 9, h.next), (9, 1, h.wrapped.toNat), (16, 16, h.written)]
  | 0x202c => s.ramWord
  | _ => s.reg k

/-- Tags open against a port's account (CMD.CREDSTAT; the boot loader's count against the host). -/
def State.tagsIn (s : State) (i : Fin 3) : Nat := (s.tags.filter fun c => portAcct c.port == i).length

def State.readCmd (s : State) (k : Nat) : Word :=
  let cred (i : Fin 3) : Word := ofFields [(0, 16, s.tagsIn i), (16, 16, s.fld (Reg.cmdPortcfg i) 0 16 - s.tagsIn i)]
  match k with
  | 0x4010 => cred 0
  | 0x4014 => cred 1
  | 0x4018 => cred 2
  | 0x401c => BitVec.ofNat 32 (s.tags.length % 65536)
  | 0x4024 => (s.reg Reg.cmdCmdstat).setBit 3 s.locked
  | _ => s.reg k

def State.readPool (s : State) (k : Nat) : Word :=
  match k with
  | 0x5000 => ofFields [(0, 16, s.freeCount), (16, 16, s.quarCount)]
  | 0x5008 =>
    let d := s.blk (s.fld Reg.poolDescSel 0 15)
    ofFields [(0, 8, d.owner), (8, 2, d.lender), (10, 1, d.nextv.toNat), (11, 1, d.poison.toNat), (12, 1, d.inuse.toNat), (16, 15, d.next)]
  | _ => s.reg k

/-- TIME.GRPDATA (Table 14-7). -/
def State.readGrpdata (s : State) : Word :=
  let w := s.reg Reg.timeGrpsel
  match s.member (w.fld 0 12) with
  | none => 0
  | some m =>
    match w.fld 12 3 with
    | 0 => ofFields [(0, 3, s.memberCode m), (3, 2, m.refusal), (16, 16, m.tol)]
    | 1 => m.digest
    | 2 => s.digest m
    | 3 => m.axes.extractLsb' 0 32
    | 4 => m.axes.extractLsb' 32 32
    | 5 => m.axes.extractLsb' 64 32
    | 6 => if m.st = .committed then loWord64 m.at_ else 0
    | _ => if m.st = .committed then hiWord64 m.at_ else 0

def State.readTime (s : State) (k : Nat) : Word :=
  match k with
  | 0x7004 => withFields (s.reg Reg.timeSrcstat) [(0, 8, s.timeStatus), (8, 2, (s.netw.servo.pend.map Prod.fst).getD 0)]
  | 0x7008 => loWord64 s.net
  | 0x700c => hiWord64 s.net
  | 0x701c => loWord s.rateNow
  | 0x7028 => s.readGrpdata
  | 0x702c => withFields (s.reg Reg.timeGrpstat) [(0, 5, s.netw.members.length),
      (5, 5, (s.netw.members.filter fun m => m.st != MemberSt.joined).length)]
  | _ => s.reg k

/-! ## Reads -/

/-- What a read of a register by its canonical address returns; 0 for a reserved slot or a complement slot (R317). -/
def State.readKey (s : State) (k : Nat) : Word :=
  if (regRow k).isNone then 0
  else match s.selected k with
    | some (kind, n, idx) => s.readPar kind n idx
    | none =>
      if 0x100000 ≤ k then
        let a := keyAxis k
        let off := k % 0x1000
        match off with
        | 0x000 => s.readProStat a
        | 0x004 => s.readSegnow a
        | 0x404 => s.readChpStat a
        | 0x604 => s.readPwmStat a
        | 0x800 => s.readWinner a
        | 0xa00 => s.readObsPsel a
        | 0xc00 => s.readFbkStat a
        | 0xe00 => s.readAxfState a
        | _ => s.readStp a off
      else if 0x80000 ≤ k then s.readBank (keyBank k) (k % 0x1000)
      else match k / 0x1000 with
        | 0 => s.readId k
        | 1 => s.readPwr k
        | 2 => s.readHrt k
        | 3 => s.readFlt k
        | 4 => s.readCmd k
        | 5 => s.readPool k
        | 7 => s.readTime k
        | _ => s.reg k

/-- A read of a byte address outside the pool window (R316, R320). -/
def State.readAddr (s : State) (addr : Word) : Word :=
  match decodeAddr addr with
  | .reg k => s.readKey k
  | .bit k i => if (s.readKey k).bit i then 1 else 0
  | .pool _ => 0

/-- A read of RAMDATA reaches the slot that is being written: it waits (Table 17-3). -/
def State.windowBusy (s : State) (addr : Word) : Bool :=
  match decodeAddr addr with
  | .reg k | .bit k _ =>
    k == Reg.hrtRamdata && s.fld Reg.hrtRamaddr 14 2 == 2 && s.slotBusy (s.fld Reg.hrtRamaddr 2 12 / 8)
  | .pool _ => false

end Sys2Proof.Machine
end

