-- ==== Sys2Proof/Machine/Regs.lean ====
section
/-! DEFINITION. Register writes (chapter 13): what each register does when it is written, keyed writes, bit aliases and
the scrubber of the triplicated words. -/

namespace Sys2Proof.Machine

/-! ## Parameters -/

/-- A CHP parameter (R155, R170 to R172): VH_UP and VH_DN load on VH_DN_HI, DAMP_FALL on DAMP_RISE; table entries are
written in the shadow copy, and ignored while a load runs. -/
def State.writeChp (s : State) (a : AxisId) (idx : Nat) (v : Word) : State :=
  let s := s.gridRelease a
  let k := chpPar a idx
  if 0x80 ≤ idx then
    let c := (s.ax a).chp
    if c.load.isSome then s
    else s.setChp a { c with shadow := storeSet sineDefault c.shadow (idx - 0x80) (v.fld 0 15) }
  else match idx with
    | 0x04 | 0x05 | 0x06 | 0x08 => s.hold k v
    | 0x07 =>
      let s := (s.plainWrite (chpPar a 4) (s.heldWord (chpPar a 4))).plainWrite (chpPar a 5) (s.heldWord (chpPar a 5))
      (s.plainWrite (chpPar a 6) (s.heldWord (chpPar a 6))).plainWrite k v
    | 0x09 => (s.plainWrite (chpPar a 8) (s.heldWord (chpPar a 8))).plainWrite k v
    | 0x0a => s.writeTabctl a v
    | 0x00 | 0x01 =>
      let s := s.plainWrite k v
      if s.closedMode a then s else s.gridOwed a
    | _ => s.plainWrite k v

/-- An OBS parameter (R224, R234, R235): a change of EN clears the filters, the counters and the frozen window (Table 9-2)
(DEDUCED, log 25). -/
def State.writeObs (s : State) (a : AxisId) (idx : Nat) (v : Word) : State :=
  let was := (s.obsCfg a).en
  let s := if idx = 2 then s.writeRpu a v else s.plainWrite (obsPar a idx) v
  if was != (s.obsCfg a).en then s.whenClocked (.obs a) fun s => s.setObs a (s.ax a).obs.cleared else s

/-- A channel parameter (R248, R253, R262). -/
def State.writeFbk (s : State) (c : ChanId) (idx : Nat) (v : Word) : State :=
  match idx with
  | 0 | 1 => s.writeFbkCfg c idx v
  | 5 => s.writeLattrig c v
  | _ => s.plainWrite (fbkPar c idx) v

/-- A global FBK item (R252, R257, R262). -/
def State.writeFbg (s : State) (idx : Nat) (v : Word) : State :=
  if 0x40 ≤ idx ∧ idx < 0x48 then s.writeSlot (Fin.ofNat 8 idx) v
  else if 0x50 ≤ idx ∧ idx < 0x60 then s.writeEcho (Fin.ofNat 16 idx) false v
  else if 0x60 ≤ idx ∧ idx < 0x70 then s.writeEcho (Fin.ofNat 16 idx) true v
  else s.plainWrite (fbgPar idx) v

/-- A parameter word. -/
def State.writePar (s : State) (kind n idx : Nat) (v : Word) : State :=
  match kind with
  | 1 => s.writePro (axisNum n) idx v
  | 2 => s.writeChp (axisNum n) idx v
  | 3 => if idx < 3 then s.writeModeCfg (axisNum n) idx v else s.plainWrite (loopPar n idx) v
  | 4 => s.writeObs (axisNum n) idx v
  | 5 => s.writeFbk (axisNum n) idx v
  | _ => s.writeFbg idx v

/-! ## Registers -/

/-- AXn.CHP.ILIM (R152): FSSEL changes only with the gates off. -/
def State.writeIlim (s : State) (a : AxisId) (v : Word) : State :=
  let s := (s.gridRelease a).gridOwed a
  let k := Reg.chpIlim a
  let st := (s.ax a).st
  let free := st == AxState.off || st == AxState.ready || (st == AxState.faulted && !s.anyGate a)
  let old := s.fld k 16 2
  if v.fld 16 2 ≠ old && !free then ((s.plainWrite k v).setFld k 16 2 old).flag (Reg.chpStat a) 8
  else s.plainWrite k v

/-- CMD.PORTCFG (R54, R62) (DEDUCED, log 50). -/
def State.writePortcfg (s : State) (i : Fin 3) (v : Word) : State :=
  let k := Reg.cmdPortcfg i
  let old := s.fld k 0 16
  let new := v.fld 0 16
  let rest := ((List.finRange 3).filter fun j => j != i).map fun (j : Fin 3) => s.fld (Reg.cmdPortcfg j.val) 0 16
  let s :=
    if new = old then s
    else if 32768 < rest.foldl (· + ·) new then s.flag Reg.cmdCmdstat 1
    else
      { s.setFld k 0 16 new with
        creditBonus := s.creditBonus.set i (s.creditBonus.get i + (new - old))
        creditHold := s.creditHold.set i (s.creditHold.get i + (old - new)) }
  if v.bit 16 = s.bit k 16 then s
  else if s.tags.any fun c => portId c.port == i.val then s.flag Reg.cmdCmdstat 0
  else s.setBit k 16 (v.bit 16)

/-- A write of an axis register that is not keyed. -/
def State.writeAxisReg (s : State) (a : AxisId) (off k : Nat) (v : Word) : State :=
  match off with
  | 0x200 => s.writeStpCfg a v
  | 0x400 => s.writeChpCfg a v
  | 0x600 => s.writePwmCfg a v
  | 0x804 => s.writeFreeze a v
  | _ => s.plainWrite k v

/-- A write of a global register that is not keyed, from a port. -/
def State.writeGlobal (s : State) (p : Port) (k : Nat) (v : Word) : State :=
  match k with
  | 0x0088 => s.writeGate p 0 v
  | 0x008c => s.writeGate p 1 v
  | 0x0090 => s.writeGate p 2 v
  | 0x1004 => s.writePwrReq v
  | 0x202c => s.writeRam v
  | 0x3028 => s.writeErrpin v
  | 0x3080 => (s.clearTrips v).2
  | 0x4000 => s.writePortcfg 0 v
  | 0x4004 => s.writePortcfg 1 v
  | 0x4008 => s.writePortcfg 2 v
  | 0x500c => s.writeLink p v
  | 0x5040 => s.writeTrace p 0 v
  | 0x5050 => s.writeTrace p 1 v
  | 0x5060 => s.writeTrace p 2 v
  | 0x5070 => s.writeTrace p 3 v
  | 0x6000 => s.writePcfg 0 v
  | 0x6004 => s.writePcfg 1 v
  | 0x6020 => s.writeNode v
  | 0x6028 => s.writePtpcfg v
  | 0x7010 => s.hold Reg.timeEpochLo v
  | 0x7014 => s.writeEpoch v
  | 0x7080 => s.writeGuycfg v
  | _ => s.plainWrite k v

/-- A write of a register that is not keyed takes effect. -/
def State.writeKey (s : State) (p : Port) (k : Nat) (v : Word) : State :=
  match s.selected k with
  | some (kind, n, idx) => s.writePar kind n idx v
  | none =>
    if 0x100000 ≤ k then s.writeAxisReg (keyAxis k) (k % 0x1000) k v
    else if 0x80000 ≤ k then
      let s := s.plainWrite k v
      if k % 0x1000 = 0x18 then s.syncBank (keyBank k) else s
    else s.writeGlobal p k v

/-- A keyed register takes its value (R321). -/
def State.takeKeyed (s : State) (k : Nat) (v : Word) : State :=
  let s := s.mark k 0 32 (.soft v)
  if 0x100000 ≤ k then
    match k % 0x1000 with
    | 0x410 => s.writeIlim (keyAxis k) v
    | 0x608 => s.writeTripmap (keyAxis k) v
    | _ => s.plainWrite k v
  else if 0x80000 ≤ k then
    if k % 0x1000 = 0 then s.writeEnable (keyBank k) v else s.plainWrite k v
  else match k with
    | 0x3020 => s.writeAxctl v
    | 0x1008 => s.writeCeil v
    | 0x2018 => s.writeCalctl v
    | 0x7000 => s.select (v.fld 0 4) none
    | _ => s.writeClass ((k - 0x3000) / 4) v

/-! ## Keyed writes (R321, R322) -/

/-- The keyed register whose complement slot a canonical address is. -/
def complementOf (k : Nat) : Option Nat := if 0x40 ≤ k && keyedReg (k - 0x40) then some (k - 0x40) else none

/-- A write to the complement slot of keyed register `k` (Table 13-2). -/
def State.complementWrite (s : State) (p : Port) (k : Nat) (v : Word) : State :=
  let s := s.expire p
  match s.keyed.get (portIx p) with
  | none => s.keyFail p 1
  | some x =>
    if x.key = k then
      let s := s.setPend p none
      if x.expired then s
      else if v = ~~~x.value then s.takeKeyed k x.value
      else s.keyFail p 1
    else
      let s := s.cancel p
      s.keyFail p 1

/-- A write of the value to keyed register `k` opens a pending keyed write. -/
def State.valueWrite (s : State) (p : Port) (k : Nat) (v : Word) : State :=
  let s := s.cancel p
  s.setPend p (some ⟨k, v, s.tb, false⟩)

/-- A refused write at a keyed register: CAUSE 2 for what was pending, then its own CAUSE 1 (R322). -/
def State.refusedWrite (s : State) (p : Port) : State := (s.cancel p).keyFail p 1

/-! ## Bit aliases (R320) -/

/-- What a write through an alias ignores: registers and parameters of class WO. -/
def State.writeOnly (s : State) (k : Nat) : Bool :=
  k == Reg.poolLink || (match s.selected k with
    | some (5, _, 5) => true
    | _ => false)

/-- The RW bits of a register, or of the parameter it shows. -/
def State.rwBits (s : State) (k : Nat) : Word :=
  match s.selected k with
  | some (2, _, i) => if i = 0x0a then 0x37fff else if 0x80 ≤ i then 0x7fff else (chpRow i).rw
  | some (kind, n, idx) => (paramRow (paramKey kind n idx)).rw
  | none => ((regRow k).map RegRow.rw).getD 0

/-- The canonical key of the word that a register shows: of the parameter it selects, or its own. -/
def State.wordKey (s : State) (k : Nat) : Nat :=
  match s.selected k with
  | some (kind, n, idx) => paramKey kind n idx
  | none => k

/-- The word an alias write writes: the addressed bit, the RW bits as they are, 0 for the rest. -/
def State.aliasWord (s : State) (k i : Nat) (v : Word) : Word := (s.readKey k &&& s.rwBits k).setBit i (v.bit 0)

/-- A write through an alias is a write of the register in one window: the bits it keeps are those from before the module's
own counts of that window, which come after it (R320, R326). -/
def State.aliasWrite (s : State) (p : Port) (k i : Nat) (v : Word) : State :=
  if keyedReg k || (complementOf k).isSome then s.refusedWrite p
  else
    let s := s.cancel p
    if s.writeOnly k then s else s.writeKey p k ((s.unwound (s.wordKey k)).aliasWord k i v)

/-! ## A write of a port -/

/-- One write access of a port (R314 to R322): nothing while the module is locked (Table 13-2). -/
def State.busWrite (s : State) (p : Port) (addr v : Word) : State :=
  if s.locked then s
  else match decodeAddr addr with
    | .pool _ => let s := s.cancel p; if p = .host then s.windowWrite addr v else s
    | .bit k i => s.aliasWrite p k i v
    | .reg k =>
      if keyedReg k then s.valueWrite p k v
      else match complementOf k with
        | some r => s.complementWrite p r v
        | none => (s.cancel p).writeKey p k v

/-- The two writes of a keyed write in consecutive windows (R321, R323). -/
def State.keyedWrite (s : State) (p : Port) (addr v w : Word) : State :=
  (s.busWrite p addr v).busWrite p (addr + 0x40) w

def keyAddr (k : Nat) : Word := BitVec.ofNat 32 k

/-! ## Commands -/

/-- KEYED_VALUE_WRITE: V is written to a keyed register. -/
def execKeyedValueWrite (dt : Nat) (port : Port) (addr value : Word) (s : State) : Res :=
  .next <|
    let s := s.advance dt
    match decodeAddr addr with
    | .reg k => if s.portOpen port && keyedReg k then s.busWrite port addr value else s
    | _ => s

/-- KEYED_COMPLEMENT_WRITE: a write to a complement slot. -/
def execKeyedComplementWrite (dt : Nat) (port : Port) (addr value : Word) (s : State) : Res :=
  .next <|
    let s := s.advance dt
    match decodeAddr addr with
    | .reg k => if s.portOpen port && (complementOf k).isSome then s.busWrite port addr value else s
    | _ => s

/-- KEYED_WRITE_TIMEOUT (R322). -/
def execKeyedWriteTimeout (dt : Nat) (port : Port) (s : State) : Res :=
  .next <|
    let s := s.advance dt
    if s.locked then s else s.expire port

/-- BIT_ALIAS_WRITE (R320). -/
def execBitAliasWrite (dt : Nat) (port : Port) (addr value : Word) (s : State) : Res :=
  .next <|
    let s := s.advance dt
    if s.portOpen port && addr.bit 29 then s.busWrite port addr value else s

/-- REGISTER_WRITE: any write access of a port. -/
def execRegisterWrite (dt : Nat) (port : Port) (addr value : Word) (s : State) : Res :=
  .next <|
    let s := s.advance dt
    if s.portOpen port then s.busWrite port addr value else s

/-- PORTCFG_WRITE (R54, R62). -/
def execPortcfgWrite (dt : Nat) (port : Port) (which : Fin 3) (value : Word) (s : State) : Res :=
  .next <|
    let s := s.advance dt
    if s.portOpen port then s.busWrite port (keyAddr (Reg.cmdPortcfg which)) value else s

/-- AXCTL_CLOSE: a keyed write of FLT.AXCTL with OP 1 (R304). -/
def execAxctlClose (dt : Nat) (port : Port) (value complement : Word) (s : State) : Res :=
  .next <|
    let s := s.advance dt
    if s.portOpen port && value.fld 8 3 == 1 then s.keyedWrite port (keyAddr Reg.fltAxctl) value complement else s

/-- AXCTL_RETIRE: OP 2 (R308). -/
def execAxctlRetire (dt : Nat) (port : Port) (value complement : Word) (s : State) : Res :=
  .next <|
    let s := s.advance dt
    if s.portOpen port && value.fld 8 3 == 2 then s.keyedWrite port (keyAddr Reg.fltAxctl) value complement else s

/-- AXCTL_REINSTATE: OP 3 (R309). -/
def execAxctlReinstate (dt : Nat) (port : Port) (value complement : Word) (s : State) : Res :=
  .next <|
    let s := s.advance dt
    if s.portOpen port && value.fld 8 3 == 3 then s.keyedWrite port (keyAddr Reg.fltAxctl) value complement else s

/-- AXCTL_CLOSE_MODULE: OP 4 (R304). -/
def execAxctlCloseModule (dt : Nat) (port : Port) (value complement : Word) (s : State) : Res :=
  .next <|
    let s := s.advance dt
    if s.portOpen port && value.fld 8 3 == 4 then s.keyedWrite port (keyAddr Reg.fltAxctl) value complement else s

/-- CLASS_WRITE: a keyed write of FLT.CLASSk (R294). -/
def execClassWrite (dt : Nat) (port : Port) (k : Fin 8) (value complement : Word) (s : State) : Res :=
  .next <|
    let s := s.advance dt
    if s.portOpen port then s.keyedWrite port (keyAddr (Reg.fltClass k)) value complement else s

/-- TRIPMAP_WRITE: a keyed write of AXn.PWM.TRIPMAP (R188). -/
def execTripmapWrite (dt : Nat) (port : Port) (a : AxisId) (value complement : Word) (s : State) : Res :=
  .next <|
    let s := s.advance dt
    if s.portOpen port then s.keyedWrite port (keyAddr (Reg.pwmTripmap a)) value complement else s

/-- GDB_ENABLE_WRITE: a keyed write of BKb.GDB.ENABLE (R265). -/
def execGdbEnableWrite (dt : Nat) (port : Port) (b : BankId) (value complement : Word) (s : State) : Res :=
  .next <|
    let s := s.advance dt
    if s.portOpen port then s.keyedWrite port (keyAddr (Reg.gdbEnable b)) value complement else s

/-- CALSET: a keyed write of HRT.CALCTL with SET = 1 (R405). -/
def execCalset (dt : Nat) (port : Port) (value complement : Word) (s : State) : Res :=
  .next <|
    let s := s.advance dt
    if s.portOpen port && value.bit 0 then s.keyedWrite port (keyAddr Reg.hrtCalctl) value complement else s

/-- CEIL_WRITE: a keyed write of PWR.CEIL (R395). -/
def execCeilWrite (dt : Nat) (port : Port) (value complement : Word) (s : State) : Res :=
  .next <|
    let s := s.advance dt
    if s.portOpen port then s.keyedWrite port (keyAddr Reg.pwrCeil) value complement else s

/-- SRCSEL_WRITE: a keyed write of TIME.SRCSEL (R349). -/
def execSrcselWrite (dt : Nat) (port : Port) (value complement : Word) (s : State) : Res :=
  .next <|
    let s := s.advance dt
    if s.portOpen port then s.keyedWrite port (keyAddr Reg.timeSrcsel) value complement else s

/-! ## The scrubber (R324, R325) -/

/-- The triplicated fields of a word: lowest bit and width. -/
def triplFields (k : Nat) : List (Nat × Nat) :=
  if k < 0x8000 then (List.range 8).map fun i => (4 * i, 3)
  else if k < 0x100000 then (if k % 0x1000 = 4 then [(0, 6), (6, 6), (12, 2), (14, 2), (16, 2)] else [(0, 3), (4, 3)])
  else if k < 0x100000000 then
    match k % 0x1000 with
    | 0x410 => [(0, 15), (16, 2)]
    | 0x608 => [(0, 16)]
    | _ => [(0, 3), (8, 8), (16, 1), (24, 8)]
  else if (k - 0x100000000) / 0x1000000 = 7 then [(0, 1)]
  else [(0, 15)]

/-- Owner of a triplicated word (R325). -/
def triplOwner (k : Nat) : Scope :=
  if k < 0x8000 then .module
  else if k < 0x100000 then .bank (keyBank k)
  else if k < 0x100000000 then .axis (keyAxis k)
  else .axis (axisNum ((k - 0x100000000) % 0x1000000 / 0x1000))

/-- An upset of one copy. -/
def State.upset (s : State) (u : Upset) : State :=
  let m : Word := (triplFields u.key).foldl (fun w f => w.put f.1 f.2 (2 ^ f.2 - 1)) 0
  let f (r : Store Word) : Store Word := storeSet regReset r u.key (storeGet regReset r u.key ^^^ (u.bits &&& m))
  if !triplReg u.key then s
  else if u.copy = 0 then { s with regs := f s.regs }
  else if u.copy = 1 then { s with tmrB := f s.tmrB }
  else { s with tmrC := f s.tmrC }

def noMismatch : Nat → Nat := fun _ => 0

/-- One field in which a copy disagrees: TMR_MISMATCH, or TMR_PERSIST within 1 s of the field's last one. -/
def State.disagree (s : State) (k lo : Nat) : State :=
  let f := k * 32 + lo
  let last := storeGet noMismatch s.tmrAt f
  if last ≠ 0 ∧ s.tb + 1 ≤ last + tickHz then s.raiseSc 21 0x30 (triplOwner k)
  else ({ s with tmrAt := storeSet noMismatch s.tmrAt f (s.tb + 1) }).raiseC0 21 0x2e (triplOwner k)

/-- The fields of a triplicated word in which a copy disagrees. -/
def State.mismatch (s : State) (k : Nat) : List (Nat × Nat) :=
  let a := storeGet regReset s.regs k
  let b := storeGet regReset s.tmrB k
  let c := storeGet regReset s.tmrC k
  (triplFields k).filter fun f => !(a.fld f.1 f.2 == b.fld f.1 f.2 && b.fld f.1 f.2 == c.fld f.1 f.2)

/-- The scrubber, or a read, finds one word: all copies take the vote. A word that software has written in this window is
skipped until the next pass (Table 13-3). -/
def State.scrubWord (s : State) (k : Nat) : State :=
  if s.justWritten k then s
  else (s.mismatch k).foldl (fun s f => s.disagree k f.1) (s.setReg k (s.reg k))

/-- The word with the triplicated field that a read of a register shows: the register's own, the parameter's that it
selects, the retirement flag in AXn.AXF.STATE. -/
def State.shownWord (s : State) (k : Nat) : Nat :=
  if 0x100000 ≤ k && k % 0x1000 == 0xe00 then retFlag (keyAxis k).val else s.wordKey k

/-- A software read finds a disagreement of the word it reads (R324, R325). -/
def State.found (s : State) (addr : Word) : State :=
  match decodeAddr addr with
  | .reg k | .bit k _ =>
    let w := s.shownWord k
    if triplReg w && !(s.mismatch w).isEmpty then s.scrubWord w else s
  | .pool _ => s

/-- TMR_SCRUB: storage upsets arise, and with `pass` the scrubber passes over every triplicated word (R325). -/
def execTmrScrub (dt : Nat) (upsets : List Upset) (pass : Bool) (s : State) : Res :=
  .next <|
    let s := s.advance dt
    let s := upsets.foldl State.upset s
    if !pass then s
    else
      let keys := (s.regs ++ s.tmrB ++ s.tmrC).map Prod.fst
      (keys.filter triplReg).eraseDups.foldl State.scrubWord s

end Sys2Proof.Machine
end

