-- ==== Sys2Proof/Machine/Cmd.lean ====
section
/-! DEFINITION. The command engine (chapter 02): opcodes, entry checks, tags, bursts, the axis command queues and what
each opcode does when it is taken. -/

namespace Sys2Proof.Machine

/-! ## Opcodes (Table 2-6) -/

/-- The kinds of opcode. -/
inductive Kind where
  | u | s | w | x
  deriving DecidableEq, Repr

def opKind : Op → Kind
  | .axisEnergise | .axisDiagOffstate | .axisSelftestCmp | .followStart | .setPosition => .w
  | .axisRelease | .axisRetire | .axisReinstate | .segAppend | .followEnd | .stop | .abort | .hold | .resume => .u
  | .moveAbs | .moveRel | .moveVel | .segRun => .s
  | .nop | .regRead | .regWrite | .regWriteKeyed | .regReadMulti | .poolAlloc | .poolFree | .poolGive | .poolWrite
  | .poolRead | .groupJoin | .groupLeave | .groupArm | .groupStartAt | .groupHalt | .timeSourceSelect | .timeQuery
  | .logRead | .logMark | .plRequest | .echo => .x

/-- The targets an opcode takes. -/
inductive TargetKind where
  | any | axis | group | module
  deriving DecidableEq, Repr

def opTarget : Op → TargetKind
  | .nop | .echo => .any
  | .axisEnergise | .axisRelease | .axisDiagOffstate | .axisSelftestCmp | .axisRetire | .axisReinstate | .moveAbs
  | .moveRel | .moveVel | .segRun | .segAppend | .followStart | .followEnd | .setPosition | .stop | .abort | .hold
  | .resume => .axis
  | .groupJoin | .groupLeave | .groupArm | .groupStartAt | .groupHalt => .group
  | .regRead | .regWrite | .regWriteKeyed | .regReadMulti | .poolAlloc | .poolFree | .poolGive | .poolWrite | .poolRead
  | .timeSourceSelect | .timeQuery | .logRead | .logMark | .plRequest => .module

/-- The payload lengths an opcode allows. -/
def lengthOk (op : Op) (n : Nat) : Bool :=
  match op with
  | .nop | .axisEnergise | .axisRelease | .axisDiagOffstate | .axisSelftestCmp | .axisRetire | .followEnd | .hold
  | .resume | .groupStartAt | .groupHalt | .timeQuery => n == 0
  | .regRead | .stop | .abort | .poolAlloc | .logRead | .plRequest => n == 1
  | .regWrite | .regReadMulti | .axisReinstate | .followStart | .setPosition | .poolRead | .timeSourceSelect => n == 2
  | .regWriteKeyed | .segRun | .groupJoin | .groupLeave | .groupArm => n == 3
  | .moveAbs | .moveRel => n == 9
  | .moveVel => n == 7
  | .segAppend => 9 ≤ n && n ≤ 57 && n % 8 == 1
  | .poolFree | .poolGive => 1 ≤ n && n ≤ 60
  | .poolWrite => 2 ≤ n && n ≤ 60
  | .logMark => n ≤ 5
  | .echo => n ≤ 60

def allOps : List Op :=
  [.nop, .regRead, .regWrite, .regWriteKeyed, .regReadMulti, .axisEnergise, .axisRelease, .axisDiagOffstate,
   .axisSelftestCmp, .axisRetire, .axisReinstate, .moveAbs, .moveRel, .moveVel, .segRun, .segAppend, .followStart,
   .followEnd, .setPosition, .stop, .abort, .hold, .resume, .poolAlloc, .poolFree, .poolGive, .poolWrite, .poolRead,
   .groupJoin, .groupLeave, .groupArm, .groupStartAt, .groupHalt, .timeSourceSelect, .timeQuery, .logRead, .logMark,
   .plRequest, .echo]

/-- The opcode of a code of Table 2-6. -/
def opOf (code : Nat) : Option Op := allOps.find? fun o => opCode o == code

/-- The opcodes a locked module takes (Table 2-5, step 2). -/
def opLocked : Op → Bool
  | .nop | .regRead | .regReadMulti | .timeQuery | .logRead | .echo => true
  | _ => false

/-- APPEND of a motion command's payload (Table 2-7). -/
def appends (op : Op) (ws : List Word) : Bool :=
  match op with
  | .moveAbs | .moveRel => (wordAt ws 8).bit 1
  | .moveVel => (wordAt ws 6).bit 1
  | .segRun => (wordAt ws 2).bit 1
  | _ => false

/-- The kind of a command: a motion command with APPEND behaves as kind W (R46). -/
def kindOf (op : Op) (ws : List Word) : Kind := if opMotion op && appends op ws then .w else opKind op

/-! ## Axis state and legality (Table 2-9) -/

inductive Verdict where
  | ok | refused | waits | faulted | retired
  deriving DecidableEq, Repr

/-- One row of Table 2-9: OFF, DIAG, READY, ENERGISING, HOLDING, MOVING, FOLLOWING, STOPPING, FAULTED, RETIRED. -/
structure LegalRow where
  off : Verdict
  diag : Verdict
  ready : Verdict
  energising : Verdict
  holding : Verdict
  moving : Verdict
  following : Verdict
  stopping : Verdict
  faulted : Verdict
  retired : Verdict
  deriving DecidableEq, Repr

def LegalRow.at (r : LegalRow) : AxState → Verdict
  | .off => r.off | .diag => r.diag | .ready => r.ready | .energising => r.energising | .holding => r.holding
  | .moving => r.moving | .following => r.following | .stopping => r.stopping | .faulted => r.faulted
  | .retired => r.retired

def legalRow : Op → LegalRow
  | .axisEnergise => ⟨.refused, .waits, .ok, .waits, .refused, .refused, .refused, .waits, .faulted, .retired⟩
  | .axisRelease => ⟨.refused, .refused, .refused, .ok, .ok, .refused, .refused, .refused, .ok, .retired⟩
  | .axisDiagOffstate | .axisSelftestCmp =>
    ⟨.refused, .waits, .ok, .waits, .refused, .refused, .refused, .waits, .ok, .ok⟩
  | .axisRetire => ⟨.ok, .ok, .ok, .ok, .ok, .ok, .ok, .ok, .ok, .retired⟩
  | .axisReinstate =>
    ⟨.refused, .refused, .refused, .refused, .refused, .refused, .refused, .refused, .faulted, .ok⟩
  | .moveAbs | .moveRel | .moveVel | .segRun =>
    ⟨.refused, .waits, .refused, .waits, .ok, .ok, .refused, .waits, .faulted, .retired⟩
  | .segAppend => ⟨.ok, .ok, .ok, .ok, .ok, .ok, .ok, .ok, .faulted, .retired⟩
  | .followStart => ⟨.refused, .waits, .refused, .waits, .ok, .refused, .refused, .waits, .faulted, .retired⟩
  | .followEnd => ⟨.refused, .refused, .refused, .refused, .refused, .refused, .ok, .refused, .faulted, .retired⟩
  | .setPosition => ⟨.ok, .waits, .ok, .waits, .ok, .refused, .refused, .waits, .faulted, .retired⟩
  | .stop => ⟨.refused, .refused, .refused, .refused, .refused, .ok, .ok, .ok, .faulted, .retired⟩
  | .hold => ⟨.refused, .refused, .refused, .refused, .refused, .ok, .refused, .refused, .faulted, .retired⟩
  | .resume => ⟨.refused, .refused, .refused, .refused, .ok, .refused, .refused, .refused, .faulted, .retired⟩
  | _ => ⟨.ok, .ok, .ok, .ok, .ok, .ok, .ok, .ok, .ok, .ok⟩

def legal (op : Op) (st : AxState) : Verdict := (legalRow op).at st

/-- The verdict of Table 2-9 on an axis: from the start of its retirement the axis counts as retired, whatever its state
reads (R308); a diagnostic goes by the state (DESIGN CHOICE, log 60). -/
def State.verdict (s : State) (a : AxisId) (op : Op) : Verdict :=
  if s.retiring a && op != .axisDiagOffstate && op != .axisSelftestCmp then legal op .retired else legal op (s.ax a).st

/-- The work of a command is the profile engine's, and that is gated: the command waits (Table 15-3). -/
def State.gatedOff (s : State) (op : Op) : Bool := (op == .segAppend || op == .setPosition) && !s.gateOn 3

/-! ## Group membership (R358) -/

/-- While a staged command waits, what the axis refuses. -/
def State.stagedRefuses (s : State) (a : AxisId) (op : Op) : Bool :=
  s.staged a && (opMotion op || op == Op.followStart || op == Op.setPosition || op == Op.axisRelease)

/-- A motion command becomes staged on an axis of an ARMED member. -/
def State.stages (s : State) (a : AxisId) (c : Cmd) : Bool :=
  opMotion c.op && !appends c.op c.words && ((s.groupOf a).any fun m => m.st == MemberSt.armed)

/-- The payload check of a command about to be staged: none, or the refusal. -/
def State.stageCheck (s : State) (a : AxisId) (c : Cmd) : Option (Status × Nat) :=
  match c.op with
  | .moveAbs => match s.moveValues a false c.words with | .inl i => some (.outOfRange, i) | .inr _ => none
  | .moveRel => match s.moveValues a true c.words with | .inl i => some (.outOfRange, i) | .inr _ => none
  | .moveVel => match s.velValues a c.words with | .inl i => some (.outOfRange, i) | .inr _ => none
  | _ =>
    if s.slBad a then some (.outOfRange, 0)
    else if (s.blk ((wordAt c.words 0).fld 0 15)).owner ≠ axisOwner a then some (.notOwner, 0)
    else none

def State.stage (s : State) (a : AxisId) (c : Cmd) : State :=
  if (s.ax a).st ≠ .holding then s.fail c.id .stateRefused 0 0 s.net
  else match s.stageCheck a c with
    | some (st, i) => s.fail c.id st i 0 s.net
    | none => s.setCmd { c with place := .staged, taken := s.net, checked := some (s.stateOf c.target) }

/-! ## ABORT (R65, R66) -/

def Cmd.sameOrigin (c : Cmd) (port : Port) (src : Nat) : Bool := c.port == port && c.src == src

/-- A command that an ABORT ends at once: it has not been taken. -/
def Cmd.waiting (c : Cmd) : Bool :=
  c.place == Place.burst || c.place == Place.stamped || c.place == Place.queued || c.place == Place.excess

/-- A motion command that an ABORT stops: it runs or is suspended. -/
def Cmd.stoppable (c : Cmd) : Bool := opMotion c.op && (c.place == Place.running || c.place == Place.suspended)

/-- A staged command is aborted: a COMMITTED member falls back to ARMED, its start ended with ABORTED, to which the spec
gives no status (DESIGN CHOICE, log 29). -/
def State.abortStaged (s : State) (a : AxisId) (id : Nat) : State :=
  let s := s.fail id .aborted 0 0 s.net
  match s.groupOf a with
  | some m => if m.st = .committed then s.withdraw m .aborted else s
  | none => s

/-- ABORT ends one command. -/
def State.abortOne (s : State) (a : AxisId) (ab : Nat) (at_ : Option Nat) (c : Cmd) : State :=
  if c.waiting then s.fail c.id .aborted 0 0 s.net
  else if c.place == Place.staged then s.abortStaged a c.id
  else if c.stoppable then s.abortMotion a c.id ab at_
  else s

/-- The splice instant that a command's stamp gives: a motion command's own, which is still to come, or that of another
command, which takes effect within a window of it (R60, R91). -/
def State.startAt (s : State) (c : Cmd) : Option Nat :=
  let slack := if opMotion c.op then 0 else if s.level = 3 ∧ s.slowLevel = false then 200 else if s.level ≤ 1 then 1600 else 400
  if c.due < c.stamp ∧ s.net ≤ c.stamp + slack then some c.stamp else none

def State.takeAbort (s : State) (a : AxisId) (c : Cmd) : State :=
  let w := wordAt c.words 0
  let mine := s.tags.filter fun d => d.id != c.id && d.on a && d.sameOrigin c.port c.src && (w.bit 16 || d.tag == w.fld 0 16)
  let hit := mine.filter fun d => d.waiting || d.place == Place.staged || d.stoppable
  if hit.isEmpty then s.fail c.id .nothingToAbort 0 (if w.bit 16 then 0 else w.fld 0 16) s.net
  else
    let s := hit.foldl (fun s d => s.abortOne a c.id (s.startAt c) d) (s.sendStarted c.id)
    if hit.any fun d => d.stoppable then s else s.done c.id

/-! ## What an axis command does when it is taken -/

/-- AXIS_RELEASE (R158, R51): an axis that is FAULTED and not energised is released already. A suspended motion command
stays suspended: Table 2-8 gives it no status for a release from HOLDING (DEDUCED, log 28). -/
def State.takeRelease (s : State) (a : AxisId) (id : Nat) : State :=
  let x := s.ax a
  if x.st == .faulted && !x.energised then s.done id
  else if x.chp.ampst == AmpSt.release then s
  else s.beginRelease a id

/-- AXIS_ENERGISE (R51, R156, R370, R373). It goes by the level in force: while a fall to PL1 is under way it is taken
(DESIGN CHOICE, log 64). -/
def State.takeEnergise (s : State) (a : AxisId) (id : Nat) : State :=
  if s.level ≤ 1 then s.fail id .stateRefused 0 0 s.net
  else if s.gateShort || s.clockBad then s.failState id 0xe
  else (s.sendStarted id).startEnergise a id

/-- AXIS_DIAG_OFFSTATE and AXIS_SELFTEST_CMP (R51, R287, R288, R373). -/
def State.takeDiag (s : State) (a : AxisId) (id : Nat) (selftest : Bool) : State :=
  if (s.ax a).st == .faulted && s.anyGate a then s.fail id .axisFaulted 0 0 s.net
  else if s.clockBad then s.failState id 0xe
  else (s.sendStarted id).startDiag a id selftest

/-- AXIS_RETIRE (R308). -/
def State.takeRetire (s : State) (a : AxisId) (id : Nat) : State :=
  if s.retiring a then s.fail id .axisRetired 0 0 s.net else (s.swRetire a (some id) false).spreadShares

/-- AXIS_REINSTATE (R309). -/
def State.takeReinstate (s : State) (a : AxisId) (c : Cmd) : State :=
  let w0 := wordAt c.words 0
  if w0 ≠ BitVec.ofNat 32 (0xc3a50000 + a.val) then s.fail c.id .keyMismatch 0 0 s.net
  else if wordAt c.words 1 ≠ ~~~w0 then s.fail c.id .keyMismatch 1 0 s.net
  else if (s.ax a).fault.retPhase ≠ .none then s.fail c.id .stateRefused 0 0 s.net
  else s.reinstate a (some c.id) false

/-- What an axis command that runs does. -/
def State.axisOp (s : State) (a : AxisId) (c : Cmd) : State :=
  match c.op with
  | .axisEnergise => s.takeEnergise a c.id
  | .axisRelease => (s.sendStarted c.id).takeRelease a c.id
  | .axisDiagOffstate => s.takeDiag a c.id false
  | .axisSelftestCmp => s.takeDiag a c.id true
  | .axisRetire => s.takeRetire a c.id
  | .axisReinstate => s.takeReinstate a c
  | .moveAbs => s.takeMove a c.id false c.words (s.startAt c)
  | .moveRel => s.takeMove a c.id true c.words (s.startAt c)
  | .moveVel => s.takeVel a c.id c.words (s.startAt c)
  | .segRun => s.takeRun a c.id c.words (s.startAt c)
  | .segAppend => s.takeAppend a c.id c.words
  | .followStart => s.takeFollow a c.id c.words
  | .followEnd => s.takeFollowEnd a c.id
  | .setPosition => s.takeSetPosition a c.id c.words
  | .stop => (s.sendStarted c.id).takeStop a c.id ((wordAt c.words 0).bit 0) (s.startAt c)
  | .abort => s.takeAbort a c
  | .hold => (s.sendStarted c.id).takeHold a c.id (s.startAt c)
  | .resume => s.takeResume a c.id (s.startAt c)
  | _ => s.done c.id

/-- A command is taken. -/
def State.taken (s : State) (c : Cmd) : Cmd :=
  { c with place := .running, taken := s.net, checked := some (s.stateOf c.target) }

/-- A legal axis command takes effect. -/
def State.runAxis (s : State) (a : AxisId) (c : Cmd) : State := (s.setCmd (s.taken c)).axisOp a (s.taken c)

/-- The axis sequencer takes a command and checks it (R50, Table 2-9, R358). -/
def State.takeAxis (s : State) (a : AxisId) (c : Cmd) : State :=
  match s.verdict a c.op with
  | .waits => s
  | .refused => s.fail c.id .stateRefused 0 0 s.net
  | .faulted => s.fail c.id .axisFaulted 0 0 s.net
  | .retired => s.fail c.id .axisRetired 0 0 s.net
  | .ok =>
    if s.stagedRefuses a c.op then s.fail c.id .stateRefused 0 0 s.net
    else if s.stages a c then s.stage a c
    else s.runAxis a c

/-! ## The axis command queue -/

/-- When a queued command is taken at the earliest: motion commands ahead of their stamp, others at it (R60). -/
def Cmd.takeAt (c : Cmd) : Nat := if opMotion c.op then c.due else c.stamp

/-- The head of an axis command queue: the earliest due time, then the earliest arrival (R61). -/
def headOf : List Cmd → Option Cmd
  | [] => none
  | c :: r =>
    match headOf r with
    | none => some c
    | some d => if d.due < c.due then some d else some c

def State.queueHead (s : State) (a : AxisId) : Option Cmd :=
  headOf (s.tags.filter fun c => c.on a && c.place == Place.queued)

/-- A command of the axis is running, a suspended one included (DEDUCED, log 28). -/
def State.busyAx (s : State) (a : AxisId) : Bool :=
  s.tags.any fun c => c.on a && (c.place == Place.running || c.place == Place.suspended)

/-- A release of the axis is under way. -/
def State.releasing (s : State) (a : AxisId) : Bool :=
  s.tags.any fun c => c.on a && c.op == Op.axisRelease && c.place == Place.running

/-- The kind of the command at the head allows it to be taken now. -/
def State.mayTake (s : State) (a : AxisId) (c : Cmd) : Bool :=
  decide (c.takeAt ≤ s.net) && !s.gatedOff c.op && (if kindOf c.op c.words == Kind.s then !s.releasing a else !s.busyAx a)

/-- The sequencer takes the head of the queue, if it may (R50); its entry goes to the oldest command that waits for one. -/
def State.takeHead (s : State) (a : AxisId) : State :=
  match s.queueHead a with
  | none => s
  | some c =>
    if s.mayTake a c && !s.resting && s.verdict a c.op != .waits
    then ((s.setCmd (s.taken c)).promote a.val).takeAxis a (s.taken c) else s

/-! ## Module commands -/

/-- The word a write through an address puts into a register that is not keyed: its key and the word. -/
def State.wordOf (s : State) (addr v : Word) : Nat × Word :=
  match decodeAddr addr with
  | .reg k => (k, v)
  | .bit k i => (k, s.aliasWord k i v)
  | .pool o => (o, v)

/-- A write that changes MSIZE, DRIVE or MODE of an axis on which a staged command waits (R358) (DEDUCED, log 43). -/
def State.stagedWrite (s : State) (k : Nat) (v : Word) : Bool :=
  decide (0x100000 ≤ k) && s.staged (keyAxis k) &&
    (match k % 0x1000 with
     | 0x200 => v.fld 0 4 != s.fld k 0 4
     | 0x400 => v.fld 11 2 != s.fld k 11 2
     | 0x80c => s.selected k == some (3, (keyAxis k).val, 0) &&
         (let m := v.fld 0 2; (if m = 3 then 0 else m) != (s.loopCfg (keyAxis k)).mode)
     | _ => false)

/-- REG_WRITE (R47, R189, R320, R358). -/
def State.takeRegWrite (s : State) (c : Cmd) : State :=
  let addr := wordAt c.words 0
  let v := wordAt c.words 1
  match decodeAddr addr with
  | .pool _ => s.fail c.id .outOfRange 0 0 s.net
  | _ =>
    let (k, w) := s.wordOf addr v
    if keyedReg k || (complementOf k).isSome then (s.refusedWrite c.port).fail c.id .keyMismatch 0 0 s.net
    else if s.stagedWrite k w then s.fail c.id .stateRefused 0 0 s.net
    else
      let refused := k == Reg.fltTripstat && (s.clearTrips w).1
      let s := s.busWrite c.port addr v
      if refused then s.fail c.id .tripActive 0 0 s.net else s.done c.id

/-- REG_WRITE_KEYED (R47, R323, Table 13-2) (DEDUCED, log 30). Through a bit-alias address, even of a keyed register, it is
refused with OUT_OF_RANGE, INDEX 0, and KEYSTAT records nothing: R47 speaks of registers only (DESIGN CHOICE, log 57). -/
def State.takeRegKeyed (s : State) (c : Cmd) : State :=
  let addr := wordAt c.words 0
  let v := wordAt c.words 1
  match decodeAddr addr with
  | .reg k =>
    if !keyedReg k then s.fail c.id .outOfRange 0 0 s.net
    else if wordAt c.words 2 ≠ ~~~v then (s.keyFail c.port 1).fail c.id .keyMismatch 2 0 s.net
    else (s.keyedWrite c.port (keyAddr k) v (~~~v)).done c.id
  | _ => s.fail c.id .outOfRange 0 0 s.net

def isPool (addr : Word) : Bool := match decodeAddr addr with | .pool _ => true | _ => false

/-- REG_READ (R47). It stays open while it waits for the write of an Ember entry (Table 17-3). -/
def State.takeRegRead (s : State) (c : Cmd) : State :=
  let addr := wordAt c.words 0
  if isPool addr then s.fail c.id .outOfRange 0 0 s.net
  else if s.windowBusy addr then s
  else (s.found addr).finish c.id .done [s.readAddr addr] s.net

/-- REG_READ_MULTI (R48). With a count out of range the word at fault is w1, unless w0 itself lies in the pool window: the
later addresses of such a run are not looked at (DESIGN CHOICE, log 57). -/
def State.takeRegMulti (s : State) (c : Cmd) : State :=
  let addr := wordAt c.words 0
  let n := (wordAt c.words 1).fld 0 6
  let addrs := (List.range n).map fun i => addr + BitVec.ofNat 32 (4 * i)
  if isPool addr then s.fail c.id .outOfRange 0 0 s.net
  else if n = 0 ∨ 60 < n then s.fail c.id .outOfRange 1 0 s.net
  else if addrs.any isPool then s.fail c.id .outOfRange 0 0 s.net
  else if addrs.any s.windowBusy then s
  else (addrs.foldl State.found s).finish c.id .done (addrs.map s.readAddr) s.net

/-- POOL_ALLOC (R74, R76). -/
def State.takeAlloc (s : State) (c : Cmd) : State :=
  let n := (wordAt c.words 0).fld 0 6
  if n = 0 ∨ 60 < n then s.fail c.id .outOfRange 0 0 s.net
  else if s.freeCount < n then s.fail c.id .poolEmpty 0 0 s.net
  else
    let (ks, s) := s.allocBlocks n (callerId c.port) 3
    s.finish c.id .done (ks.map fun k => BitVec.ofNat 32 k) s.net

/-- The first payload word a check refuses: its index and the status (R74). -/
def firstBad (f : Word → Option Status) : Nat → List Word → Option (Nat × Status)
  | _, [] => none
  | i, w :: r => match f w with
    | some st => some (i, st)
    | none => firstBad f (i + 1) r

/-- A refusal of a pool opcode; NOT_OWNER records a violation (R75). -/
def State.poolRefuse (s : State) (c : Cmd) (i : Nat) (st : Status) (block : Nat) : State :=
  (if st = .notOwner then s.violation (callerId c.port) block else s).fail c.id st i 0 s.net

/-- The checks of POOL_FREE on one word. -/
def State.freeCheck (s : State) (p : Port) (w : Word) : Option Status :=
  let k := w.fld 0 15
  if s.isFree k then some .alreadyFree else if s.controls (callerId p) k then none else some .notOwner

/-- POOL_FREE (R74, R76). -/
def State.takeFree (s : State) (c : Cmd) : State :=
  match firstBad (s.freeCheck c.port) 0 c.words with
  | some (i, st) => s.poolRefuse c i st ((wordAt c.words i).fld 0 15)
  | none => (c.words.foldl (fun s w => s.portFree (w.fld 0 15)) s).done c.id

/-- An axis that no block may be given to: RETIRED, from the start of its retirement on (R308), or FAULTED by a C2 or
higher action (Table 3-3). -/
def State.closedTo (s : State) (a : AxisId) : Bool :=
  s.retired a || s.retiring a || (s.ax a).st == .retired ||
    ((s.ax a).st == .faulted && ((s.ax a).rec?.map fun r => decide (2 ≤ r.cls)).getD false)

/-- The checks of POOL_GIVE on one word. -/
def State.giveCheck (s : State) (p : Port) (w : Word) : Option Status :=
  let o := w.fld 24 8
  if !(decide (o ≤ 2) || isAxisOwner o) then some .outOfRange
  else if isAxisOwner o && s.closedTo (axisNum (o - 0x10)) then some .outOfRange
  else s.freeCheck p w

/-- POOL_GIVE (R74, R76). -/
def State.takeGive (s : State) (c : Cmd) : State :=
  match firstBad (s.giveCheck c.port) 0 c.words with
  | some (i, st) => s.poolRefuse c i st ((wordAt c.words i).fld 0 15)
  | none =>
    (c.words.foldl (fun s w => s.giveBlock (callerId c.port) (w.fld 24 8) (w.fld 0 15)) s).done c.id

/-- The first data word of a POOL_WRITE that lies outside a block of the caller: its place and its block. -/
def State.writeCheck (s : State) (p : Port) (o n : Nat) : Option (Nat × Nat) :=
  ((List.range n).find? fun i =>
    let b := (o + 4 * i) / 256
    decide (32768 ≤ b) || (s.blk b).owner != callerId p).map fun i => (i, (o + 4 * i) / 256)

/-- POOL_WRITE (R69, R73, R74, R81). -/
def State.takePoolWrite (s : State) (c : Cmd) : State :=
  let o := (wordAt c.words 0).fld 0 23
  let data := c.words.drop 1
  if o % 4 ≠ 0 ∨ 0x800000 < o + 4 * data.length then s.fail c.id .outOfRange 0 0 s.net
  else match s.writeCheck c.port o data.length with
    | some (i, b) => s.poolRefuse c (1 + i) .notOwner b
    | none =>
      let (bad, s) := s.poolPuts data o
      if bad then s.fail c.id .internalError 0 0 s.net else s.done c.id

/-- POOL_READ (R69, R73, R81) (DEDUCED, log 31). -/
def State.takePoolRead (s : State) (c : Cmd) : State :=
  let o := (wordAt c.words 0).fld 0 23
  let n := (wordAt c.words 1).fld 0 6
  if o % 4 ≠ 0 ∨ 0x800000 < o + 4 * n then s.fail c.id .outOfRange 0 0 s.net
  else if n = 0 ∨ 60 < n then s.fail c.id .outOfRange 1 0 s.net
  else
    let (bad, s) := s.eccReads ((o + 4 * n + 7) / 8 - o / 8) (o / 8)
    if bad then (s.raiseC0 9 0x1b .module).fail c.id .internalError 0 0 s.net
    else s.finish c.id .done ((List.range n).map fun i => s.word (o + 4 * i)) s.net

/-- TIME_QUERY (Table 2-6). -/
def State.takeTimeQuery (s : State) (c : Cmd) : State :=
  let h := s.hearth
  s.finish c.id .done [hiWord64 s.net, loWord64 s.net, BitVec.ofNat 32 (h.sec / 0x100000000 % 256), BitVec.ofNat 32 h.sec,
    BitVec.ofNat 32 (h.acc / 65536 * 256 + s.timeStatus)] s.net

/-- LOG_READ (R408). -/
def State.takeLogRead (s : State) (c : Cmd) : State :=
  if (wordAt c.words 0).fld 16 3 = 0 then s.fail c.id .outOfRange 0 0 s.net else s.tryLogRead c

/-- LOG_MARK (R409, R410): it completes when its entry has been written. -/
def State.takeLogMark (s : State) (c : Cmd) : State :=
  let user := (c.words ++ List.replicate 5 0).take 5
  s.queueEmber ⟨.mark c.id, [emberHead 4 (portId c.port) false 0 0 127 0 false false false, 0, 0] ++ user⟩

/-- PL_REQUEST (R391). -/
def State.takePlRequest (s : State) (c : Cmd) : State :=
  let w := wordAt c.words 0
  if w.fld 2 30 ≠ 0 then s.fail c.id .outOfRange 0 0 s.net else s.requestLevel (w.fld 0 2) (some c.id) false

/-- What a command that the command engine executes itself does. -/
def State.moduleOp (s : State) (c : Cmd) : State :=
  match c.op with
  | .regRead => s.takeRegRead c
  | .regWrite => s.takeRegWrite c
  | .regWriteKeyed => s.takeRegKeyed c
  | .regReadMulti => s.takeRegMulti c
  | .poolAlloc => (s.poolItem c.hdr 127).takeAlloc c
  | .poolFree => (s.poolItem c.hdr 127).takeFree c
  | .poolGive => (s.poolItem c.hdr 127).takeGive c
  | .poolWrite => (s.poolItem c.hdr 127).takePoolWrite c
  | .poolRead => (s.poolItem c.hdr 127).takePoolRead c
  | .groupJoin => s.takeJoin c
  | .groupLeave => s.takeLeave c
  | .groupArm => s.takeArm c
  | .groupStartAt => s.takeStartAt c
  | .groupHalt => s.takeHalt c
  | .timeSourceSelect => s.takeSelect c
  | .timeQuery => s.takeTimeQuery c
  | .logRead => s.takeLogRead c
  | .logMark => s.takeLogMark c
  | .plRequest => s.takePlRequest c
  | .echo => s.finish c.id .done c.words s.net
  | _ => s.done c.id

/-- A command that the command engine executes itself (kind X). -/
def State.runModule (s : State) (c : Cmd) : State := (s.setCmd (s.taken c)).moduleOp (s.taken c)

/-- A U or X command is taken. -/
def State.takeNow (s : State) (c : Cmd) : State :=
  if s.resting || s.gatedOff c.op then s.setCmd { c with place := .stamped } else
  match opKind c.op, c.axis? with
  | .u, some a => s.takeAxis a c
  | _, _ => s.runModule c

/-! ## Entry (R43, R52 to R63) -/

/-- In a ring every packet is entered against port A (R343). -/
def State.entryPort (s : State) (p : Port) : Port := if p = .b ∧ s.bit Reg.netTopo 0 = true then .a else p

/-- The port uses STAMPED ordering; the boot port uses CREDIT (R387). -/
def State.stampedOrder (s : State) (p : Port) : Bool := p != .boot && s.bit (Reg.cmdPortcfg (portAcct p)) 16

/-- The command lead in ticks (R59). At PL1 no lead of a motion command is stated; that of PL2 is used (log 20). -/
def State.commandLead (s : State) (op : Op) : Nat :=
  if opMotion op then (if s.level = 3 ∧ s.slowLevel = false then 4000 else 8000)
  else if s.level ≤ 1 then 3200
  else if s.slowLevel then 1600 else 800

/-- The lead a stamp is checked against: GROUP_START_AT needs the planning lead of R359. -/
def State.stampLead (s : State) (op : Op) : Nat :=
  if op = .groupStartAt then (if s.level = 3 ∧ s.slowLevel = false then 4000 else 8000) else s.commandLead op

def targetOk (op : Op) (t : Nat) : Bool :=
  match opTarget op with
  | .any => t < 96 || t == 0x7fff || (0x8000 ≤ t && t ≤ 0x8fff)
  | .axis => t < 96
  | .group => 0x8000 ≤ t && t ≤ 0x8fff
  | .module => t == 0x7fff

/-- The stamp of the request decides when it executes: STAMPED ordering, and GROUP_START_AT on either; never GROUP_HALT. -/
def State.usesStamp (s : State) (op : Op) (p : Port) : Bool :=
  op == .groupStartAt || (s.stampedOrder p && op != .groupHalt)

/-- Entry checks 2 to 8 (Table 2-5), the stamp extended. -/
def State.entryCheck (s : State) (op : Op) (p : Packet) (port : Port) (src : Nat) : Option Status :=
  let tag := p.tag.toNat
  if s.locked && !opLocked op then some .locked
  else if s.fld (Reg.cmdPortcfg (portAcct port)) 0 16 ≤ s.tagsIn (portAcct port) then some .noCredit
  else if s.tags.any fun c => c.sameOrigin port src && c.tag == tag then some .tagInUse
  else if !targetOk op p.target.toNat then some .badTarget
  else if !lengthOk op p.words.length then some .badLength
  else if op == .groupStartAt && !p.stamped then some .stateRefused
  else if op != .groupStartAt && op != .groupHalt && p.stamped != s.stampedOrder port then some .stateRefused
  else if s.usesStamp op port && !p.lateOk && decide (extend s.net p.stamp.toNat < s.net + s.stampLead op) then
    some .stampPast
  else none

/-- A group target of which the module is no member, and no GROUP_JOIN: not executed (R42, R345). -/
def State.notMember (s : State) (op : Option Op) (target : Nat) : Bool :=
  decide (0x8000 ≤ target) && decide (target ≤ 0x8fff) && op != some .groupJoin && (s.member (target - 0x8000)).isNone

/-- A refusal at entry: its reply, and nothing else (R43) (DEDUCED, log 14). -/
def State.refuse (s : State) (op : Nat) (p : Packet) (port : Port) (src : Nat) (st : Status) (code : Nat) : State :=
  s.reply port src op p.tag.toNat p.target.toNat p.stamped st [detail code 0 0] s.net true false

/-- The command of a packet that has passed its entry checks (DEDUCED, log 27). -/
def State.newCmd (s : State) (op : Op) (p : Packet) (port : Port) (src : Nat) : Cmd :=
  let ext := extend s.net p.stamp.toNat
  let late := decide (ext < s.net + s.stampLead op)
  let st := if !s.usesStamp op port then s.net
    else if late then (if op = .groupStartAt then s.net + s.stampLead op else s.net) else ext
  { id := s.nextId, op := op, port := port, src := src, tag := p.tag.toNat, target := p.target.toNat, stamped := p.stamped
    wantAccept := p.wantAccept, wantStart := p.wantStart, came := p.port, arrival := s.net, stamp := st
    due := if s.usesStamp op port && !late then st - s.stampLead op else s.net
    words := p.words, place := .burst, taken := 0, checked := none }

/-- The axis command queue takes a newcomer: it holds fewer than 256, and none waits in the tag table before it
(Table 2-10). -/
def State.queueRoom (s : State) (target : Nat) : Bool :=
  decide ((s.tags.filter fun d => d.target == target && d.place == Place.queued).length < 256) &&
    s.tags.all fun d => !(d.target == target && d.place == Place.excess)

/-- A command leaves its burst, or arrives: into the axis queue, to its stamp, or into execution. -/
def State.place (s : State) (c : Cmd) : State :=
  match kindOf c.op c.words with
  | .s | .w =>
    s.setCmd { c with place := if s.queueRoom c.target then .queued else .excess }
  | _ =>
    if c.op == .groupStartAt || decide (c.stamp ≤ s.net) then s.takeNow c else s.setCmd { c with place := .stamped }

/-- After the whole burst has been placed, the queues are looked at. -/
def State.lookAt (s : State) (c : Cmd) : State :=
  match kindOf c.op c.words, c.axis? with
  | .s, some a => s.takeHead a
  | .w, some a => s.takeHead a
  | _, _ => s

/-- A command that is still open is placed: one that an earlier command of its burst has ended is not. -/
def State.placeOpen (s : State) (c : Cmd) : State := if (s.cmd c.id).isSome then s.place c else s

/-- Commands start together, in one atomic step (R56). -/
def State.launch (s : State) (cs : List Cmd) : State := cs.foldl State.lookAt (cs.foldl State.placeOpen s)

/-- A burst counts as one arrival (R58): what it held is due now, but for a start instant, which its stamp gives. -/
def State.dueNow (s : State) (c : Cmd) : Cmd := if s.usesStamp c.op c.port then c else { c with due := s.net }

/-- The commands an origin's burst holds, in order. -/
def State.held? (s : State) (port : Port) (src : Nat) : List Cmd :=
  s.tags.filter fun c => c.sameOrigin port src && c.place == Place.burst

def State.endBurst (s : State) (port : Port) (src : Nat) : State :=
  { s with bursts := s.bursts.filter fun b => !(b.port == port && b.src == src) }

/-- Commands arrive now, in their order: they stand behind every other open command. -/
def State.arriveNow (s : State) (cs : List Cmd) : State :=
  { s with tags := (s.tags.filter fun d => !cs.any fun c => c.id == d.id) ++ cs }

/-- A burst closes: what it held arrives now and is placed in one atomic step (R56, R58). -/
def State.closeBurst (s : State) (port : Port) (src : Nat) : State :=
  let cs := (s.held? port src).map s.dueNow
  ((s.endBurst port src).arriveNow cs).launch cs

/-- A burst is broken (R57). -/
def State.breakBurst (s : State) (port : Port) (src : Nat) : State :=
  let ids := (s.held? port src).map Cmd.id
  let s := s.finishAll ids .aborted
  ((s.endBurst port src).flag Reg.cmdCmdstat 2).raiseC0 8 0x2b .module

/-- A command that has been entered joins its burst, closes it, or starts on its own (R56, R362) (DEDUCED, log 26). -/
def State.burstStep (s : State) (c : Cmd) (last : Bool) : State :=
  if c.op == .groupHalt then
    let s := s.launch [c]
    if last then s.closeBurst c.port c.src else s
  else if s.stampedOrder c.port then s.launch [c]
  else if last then s.closeBurst c.port c.src
  else
    let open_ := s.bursts.any fun b => b.port == c.port && b.src == c.src
    let s := if open_ then s else { s with bursts := s.bursts ++ [⟨c.port, c.src, s.tb⟩] }
    if 64 ≤ (s.held? c.port c.src).length then s.breakBurst c.port c.src else s

/-- The source node by which a port tells its requesters apart. -/
def originOf (p : Packet) (port : Port) : Nat := if port = .a ∨ port = .b then p.src.toNat else 0

/-- ACCEPTED, if the command asked for it (R42); GROUP_START_AT sends its own. -/
def State.sendAccepted (s : State) (c : Cmd) : State :=
  if c.wantAccept && c.op != .groupStartAt
  then s.reply c.port c.src (opCode c.op) c.tag c.target c.stamped .accepted [] s.net false true else s

/-- A command is entered into the tag table, with its COMMAND item for the trace rings (Table 1-3). -/
def State.addCmd (s : State) (c : Cmd) : State :=
  { s with tags := s.tags ++ [c], nextId := s.nextId + 1 }.trace
    ⟨c.stamp, c.hdr, c.itemAxis, 0, false, List.replicate 16 0⟩

/-- A packet whose CRC holds and whose opcode is known is checked and entered (R43). -/
def State.enterPacket (s : State) (op : Op) (p : Packet) : State :=
  let port := s.entryPort p.port
  let src := originOf p port
  if s.notMember (some op) p.target.toNat then s
  else match s.entryCheck op p port src with
    | some st =>
      let code := if st = .stateRefused then 0xf else s.stateOf p.target.toNat
      s.refuse (opCode op) p port src st code
    | none =>
      let c := s.newCmd op p port src
      ((s.addCmd c).sendAccepted c).burstStep c p.lastInBurst

/-- A packet with an unknown opcode or format version (R43, step 1). -/
def State.enterBad (s : State) (version : Nat) (opcode : Nat) (p : Packet) : State :=
  let port := s.entryPort p.port
  let src := originOf p port
  if s.notMember none p.target.toNat then s
  else s.refuse (opcode + 256 * (version ^^^ 1)) p port src .badOpcode (s.stateOf p.target.toNat)

/-- A packet that fails its CRC or ends early is counted on the port it came on (R39, R336). -/
def State.badCrc (s : State) (p : Port) : State := s.bump Reg.cmdCrcerr (8 * portId p) 8

/-- What every opcode's command does: the packet arrives on a port that takes packets. The boot loader's packets come
with BOOT_PACKET only (DESIGN CHOICE, log 32). -/
def State.arrive (s : State) (op : Op) (p : Packet) : State :=
  if p.port != .boot && s.portOpen p.port then s.enterPacket op p else s

/-! ## Commands of the engine itself -/

def execPacketCrcDiscard (dt : Nat) (port : Port) (s : State) : Res :=
  .next <|
    let s := s.advance dt
    if s.portOpen port then s.badCrc port else s

def execBadOpcode (dt : Nat) (version : BitVec 4) (opcode : Byte) (p : Packet) (s : State) : Res :=
  .next <|
    let s := s.advance dt
    if p.port != .boot && s.portOpen p.port && (version != 1 || (opOf opcode.toNat).isNone)
    then s.enterBad version.toNat opcode.toNat p else s

/-- BURST_BROKEN: a burst has been open for 100 µs (R57). -/
def execBurstBroken (dt : Nat) (port : Port) (src : BitVec 14) (s : State) : Res :=
  .next <|
    let s := s.advance dt
    match s.bursts.find? fun b => b.port == port && b.src == src.toNat with
    | some b =>
      if b.since + 40000 ≤ s.tb ∨ 64 ≤ (s.held? port src.toNat).length then s.breakBurst port src.toNat else s
    | none => s

/-- STAMPED_COMMAND_DUE (R60). -/
def execStampedCommandDue (dt : Nat) (port : Port) (src : BitVec 14) (tag : BitVec 16) (s : State) : Res :=
  .next <|
    let s := s.advance dt
    match s.tags.find? fun c => c.sameOrigin port src.toNat && c.tag == tag.toNat && c.place == Place.stamped with
    | some c => if c.stamp ≤ s.net then s.takeNow c else s
    | none => s

/-- QUEUED_COMMAND_TAKEN (R50). -/
def execQueuedCommandTaken (dt : Nat) (a : AxisId) (s : State) : Res :=
  .next <|
    let s := s.advance dt
    s.takeHead a

end Sys2Proof.Machine
end

