-- ==== Sys2Proof/Machine/Wire.lean ====
section
/-! DEFINITION. Packets and replies as bytes (R36 to R40, Tables 2-1 and 2-2). -/

namespace Sys2Proof.Machine

/-- The number that bytes spell, most significant first (R36). -/
def numOf (bs : List Byte) : Nat := bs.foldl (fun n b => n * 256 + b.toNat) 0

/-- `n` bytes from an offset on, as a number. -/
def numAt (bs : List Byte) (i n : Nat) : Nat := numOf ((bs.drop i).take n)

/-- The bytes of the packet at the head of a list, by its LENGTH, and what follows it; none if it is cut short (R39). -/
def cutPacket (bs : List Byte) : Option (List Byte × List Byte) :=
  let n := 20 + 4 * numAt bs 7 1
  if 8 ≤ bs.length ∧ n ≤ bs.length then some (bs.take n, bs.drop n) else none

/-- The trailer of a whole packet matches (R38). -/
def crcHolds (bs : List Byte) : Bool :=
  let n := bs.length - 4
  (crc32c (bs.take n)).toNat == numAt bs n 4

/-- The fields of a whole packet (Tables 2-1 and 2-2). -/
def packetOf (port : Port) (src : Nat) (bs : List Byte) : Packet :=
  let flags := numAt bs 0 2
  let n := numAt bs 7 1
  { port := port, src := BitVec.ofNat 14 src
    stamped := flags.testBit 11, wantAccept := flags.testBit 10, wantStart := flags.testBit 9
    lastInBurst := flags.testBit 8, lateOk := flags.testBit 7
    tag := BitVec.ofNat 16 (numAt bs 3 2), target := BitVec.ofNat 16 (numAt bs 5 2)
    stamp := BitVec.ofNat 40 (numAt bs 8 5), words := wordsOfBytes ((bs.drop 16).take (4 * n)) }

/-- A request as bytes: header, payload and trailer (Tables 2-1 and 2-2, R38); what is reserved in a request is 0. -/
def requestBytes (op : Op) (p : Packet) : List Byte :=
  let body := bytesOf 2 (0x1000 + p.stamped.toNat * 0x800 + p.wantAccept.toNat * 0x400 + p.wantStart.toNat * 0x200 +
      p.lastInBurst.toNat * 0x100 + p.lateOk.toNat * 0x80) ++ bytesOf 1 (opCode op) ++ bytesOf 2 p.tag.toNat ++
    bytesOf 2 p.target.toNat ++ bytesOf 1 p.words.length ++ bytesOf 5 p.stamp.toNat ++ bytesOf 3 0 ++
    p.words.flatMap Word.bytes
  body ++ Word.bytes (crc32c body)

/-- A whole packet is received on a port: its CRC, its opcode and version, then its entry (R39, R43). -/
def State.receive (s : State) (port : Port) (src : Nat) (bs : List Byte) : State :=
  if !crcHolds bs then s.badCrc port
  else
    let p := packetOf port src bs
    let version := numAt bs 0 1 / 16
    match opOf (numAt bs 2 1) with
    | some op => if version = 1 then s.enterPacket op p else s.enterBad version (numAt bs 2 1) p
    | none => s.enterBad version (numAt bs 2 1) p

/-- Packets in the payload of a Zizel frame (R336). -/
def State.receiveFrame (s : State) (port : Port) (src : Nat) : Nat → List Byte → State
  | 0, _ => s
  | fuel + 1, bs =>
    if bs.length < 20 ∨ numAt bs 0 1 = 0 then s
    else match cutPacket bs with
      | none => s.badCrc port
      | some (p, r) => (s.receive port src p).receiveFrame port src fuel r

/-- A reply as bytes (R40). -/
def Reply.bytes (r : Reply) : List Byte :=
  let body := bytesOf 1 (((1 ^^^ (r.op / 256)) % 16) * 16 + r.stamped.toNat * 8) ++ bytesOf 1 0x40 ++ bytesOf 1 r.op ++
    bytesOf 2 r.tag ++ bytesOf 2 r.target ++ bytesOf 1 r.words.length ++ bytesOf 5 r.stamp ++ bytesOf 2 r.credit ++
    bytesOf 1 r.status.code ++ r.words.flatMap Word.bytes
  body ++ Word.bytes (crc32c body)

end Sys2Proof.Machine
end

