-- ==== Sys2Proof/Machine/Boot.lean ====
section
/-! DEFINITION. Boot from flash (R384 to R389). -/

namespace Sys2Proof.Machine

/-- The packets of an image, parsed with their LENGTH fields; none unless they fill the bytes. -/
def splitPackets : Nat → List Byte → Option (List (List Byte))
  | 0, bs => if bs.isEmpty then some [] else none
  | n + 1, bs =>
    match cutPacket bs with
    | none => none
    | some (p, r) => (splitPackets n r).map fun ps => p :: ps

/-- `n` bytes of the flash from the start of an image; what is not listed reads 0xFF. -/
def imageBytes (image : List Byte) (n : Nat) : List Byte := (image ++ List.replicate (n - image.length) 0xff#8).take n

/-- The packets of an image that the loader accepts (R386). -/
def imagePackets (image : List Byte) : Option (List (List Byte)) :=
  let h := imageBytes image 32
  let len := numAt h 8 4
  let rev := Config.idRev.toNat
  let min := numAt h 18 1 * 256 + numAt h 19 1
  if numAt h 0 4 ≠ 0x1a5e9600 ∨ numAt h 4 1 ≠ 1 ∨ numAt h 6 2 ≠ 0x9600 then none
  else if len % 4 ≠ 0 ∨ len < 36 ∨ 524288 < len then none
  else if rev < min then none
  else
    let bs := imageBytes image len
    let body := bs.take (len - 4)
    if (crc32c body).toNat ≠ numAt bs (len - 4) 4 then none else splitPackets (numAt h 12 4) (body.drop 32)

def erased (image : List Byte) : Bool := numOf (imageBytes image 4) == 0xffffffff

/-- A read command of the flash: 0x03, or 0x0B with a dummy byte, at a 3-byte address (R384). -/
def flashRead (src addr : Nat) : List Byte := if src = 2 then 0x0b#8 :: bytesOf 3 addr ++ [0#8] else 0x03#8 :: bytesOf 3 addr

/-- The loader sends a read command to the flash. -/
def State.readFlash (s : State) (addr : Nat) : State :=
  s.modPwr fun p => { p with boot := { p.boot with reads := p.boot.reads ++ [flashRead (s.fld Reg.pwrBoot 0 2) addr] } }

/-- The first bytes of the primary and of the fallback image in the flash (R384). -/
def imageAddr (fallback : Bool) : Nat := if fallback then 0x080000 else 0

/-- An image has been accepted: its packets are read again from their first byte on (R387). -/
def State.bootFrom (s : State) (image : List Byte) (packets : List (List Byte)) (fallback : Bool) : State :=
  let h := imageBytes image 32
  let flags := numAt h 5 1
  let s := if flags % 2 = 1 then s.writeNode (BitVec.ofNat 32 (numAt h 16 2)) else s
  let s := s.setReg Reg.pwrBootid (BitVec.ofNat 32 (numAt h 20 4))
  let s := (s.setFld Reg.pwrBoot 2 3 (if fallback then 2 else 1)).readFlash (imageAddr fallback + 32)
  s.bootState { packets := packets, index := 0, stopOnErr := flags.testBit 1, waiting := false, fallback := fallback
                ended := packets.isEmpty, reads := s.pwr.boot.reads }

/-- The boot ends without a packet. -/
def State.noBoot (s : State) (result : Nat) : State :=
  let s := s.setFld Reg.pwrBoot 2 3 result
  s.bootState { s.pwr.boot with ended := true }

/-- The loader is at work: step 5 of a Kindling, and the boot has not ended. -/
def State.booting (s : State) : Bool := s.pwr.phase == .kindling && s.kstep == 5 && !s.pwr.boot.ended

/-- BOOT_IMAGE_READ: the loader has read the images, each given from its first byte on (R384, R386). -/
def execBootImageRead (dt : Nat) (primary fallback : List Byte) (s : State) : Res :=
  .next <|
    let s := s.advance dt
    if !s.booting || s.pwr.boot.waiting || !s.pwr.boot.packets.isEmpty then s
    else
      let s := s.readFlash (imageAddr false)
      match imagePackets primary with
      | some ps => s.bootFrom primary ps false
      | none =>
        let s := s.readFlash (imageAddr true)
        match imagePackets fallback with
        | some ps => s.bootFrom fallback ps true
        | none => s.noBoot (if erased primary && erased fallback then 5 else 3)

/-- The opcodes the loader accepts (R387). -/
def opBoot : Op → Bool
  | .nop | .regWrite | .regWriteKeyed | .poolAlloc | .poolWrite | .poolGive | .logMark => true
  | _ => false

/-- A boot packet arrives at CMD (R387): its own checks beside those of Table 2-5. -/
def State.bootReceive (s : State) (bs : List Byte) : State :=
  let p := packetOf .boot 0 bs
  let code := numAt bs 2 1
  if crcHolds bs && s.locked then s.refuse (code + 256 * (numAt bs 0 1 / 16 ^^^ 1)) p .boot 0 .locked (s.stateOf p.target.toNat)
  else match opOf code with
    | some op =>
      if crcHolds bs && numAt bs 0 1 / 16 == 1 && !opBoot op && (s.entryCheck op p .boot 0).isNone
      then s.refuse code p .boot 0 .stateRefused 0xe else s.receive .boot 0 bs
    | none => s.receive .boot 0 bs

/-- BOOT_PACKET: the loader sends its next packet, once the final reply to the one before has come (R387). -/
def execBootPacket (dt : Nat) (s : State) : Res :=
  .next <|
    let s := s.advance dt
    if !s.booting then s
    else
      let s := s.bootAccount
      let b := s.pwr.boot
      if b.waiting || b.ended then s
      else match b.packets with
        | [] => s
        | bs :: r =>
          let s := s.modPwr fun p => { p with boot := { b with packets := r, index := b.index + 1, waiting := true } }
          s.bootReceive bs

end Sys2Proof.Machine
end

