-- ==== Sys2Proof/Machine/Hif.lean ====
section
/-! DEFINITION. The host port's frames (R327 to R330, Tables 13-5 and 13-6). -/

namespace Sys2Proof.Machine

/-- The host port takes every frame. -/
def State.hostOpen (s : State) : Bool := s.portOpen .host

/-- The host port answers READ frames: also from step 4 of a Kindling on, and while PL0 is being entered (R380)
(DEDUCED, log 47). -/
def State.hostReads (s : State) : Bool :=
  s.hostOpen || (s.pwr.phase == PwrPhase.kindling && decide (4 ≤ s.kstep)) || s.pwr.phase == PwrPhase.entering

/-- The host port answers PULL frames. -/
def State.hostPulls (s : State) : Bool := s.hostOpen || s.pwr.phase == PwrPhase.entering

/-- The status byte (Table 13-6). -/
def State.statusByte (s : State) : Byte :=
  BitVec.ofNat 8 (s.locked.toNat * 128 + (s.bit Reg.fltErrpin 0).toNat * 64 + s.hirq.toNat * 32 +
    (!(s.waiting .host).isEmpty).toNat * 16 + s.pushReady.toNat * 8 + (s.bit Reg.hifStat 3).toNat * 4 +
    (s.bit Reg.hifStat 4).toNat * 2 + 1)

/-- CMD takes the packets that wait in the ingress buffer (DESIGN CHOICE, log 49). -/
def State.drain (s : State) : State := s.ingress.foldl (fun s p => s.receive .host 0 p) { s with ingress := [] }

/-- An error of HIF: its bit of HIF.STAT, and HIFERR. -/
def State.hifErr (s : State) (i : Nat) : State := (s.flag Reg.hifStat i).irq 8

/-- A READ frame that still waited for the write of an Ember entry has ended without its data (R329, Table 17-3; DESIGN
CHOICE, log 64). -/
def State.endWait (s : State) : State := if s.hostWait.isSome then { s with hostWait := none }.hifErr 4 else s

/-- A frame begins: its status byte goes out while its opcode comes in, and what an earlier one pushed has been taken before
its words. -/
def State.frameIn (s : State) : State :=
  let s := s.endWait
  { s with hostStatus := s.statusByte }.drain

/-- Before a WRITE frame's first word the 256 ticks of a keyed write that waits have passed (R323). -/
def State.overdue (s : State) : State :=
  match s.keyed.get (portIx .host) with
  | some x => if x.expired || s.locked then s else (s.keyFail .host 3).setPend .host (some { x with expired := true })
  | none => s

/-- FRAME_ERR, if so. -/
def State.frameErr (s : State) (bad : Bool) : State := if bad then s.hifErr 3 else s

/-- Words written to rising addresses, each an access of its own (R328). -/
def State.hostWrites : List Word → Word → State → State
  | [], _, s => s
  | v :: r, addr, s => State.hostWrites r (addr + 4) (s.busWrite .host addr v)

/-- WRITE: a keyed write cannot be made so (R323, R328). -/
def execHifWrite (dt : Nat) (addr : Word) (words : List Word) (partialWord : Bool) (s : State) : Res :=
  .next <|
    let s := s.advance dt
    if s.hostOpen then
      (State.hostWrites words addr (if words.isEmpty then s.frameIn else s.frameIn.overdue)).frameErr partialWord
    else s

/-- WRITE_KEYED: V to the address, NOT V to the address + 0x40, in consecutive windows (R321, R323) (DESIGN CHOICE, log
49). -/
def execHifWriteKeyed (dt : Nat) (addr : Word) (words : List Word) (partialWord : Bool) (s : State) : Res :=
  .next <|
    let s := s.advance dt
    if !s.hostOpen then s
    else
      let s := s.frameIn
      let s := match words with
        | [] => s
        | [v] => s.busWrite .host addr v
        | v :: w :: _ => s.keyedWrite .host addr v w
      s.frameErr (partialWord || decide (2 < words.length))

/-- What a host read of an address answers: the register space, or the pool window (R329). -/
def State.hostWord (s : State) (addr : Word) : Word × State :=
  match decodeAddr addr with
  | .pool _ => s.windowRead addr
  | _ => (s.readAddr addr, s.found addr)

/-- The first word's data is not ready `due` ns after the last address bit (R329): `ready` ns are taken, at most 100 for a
register and 280 for the pool window. -/
def readLate (addr : Word) (due ready : Nat) : Bool :=
  match decodeAddr addr with
  | .pool _ => decide (due < min ready 280)
  | _ => decide (due < min ready 100)

/-- Words read from rising addresses. The first reads 0 and sets RD_LATE where it is late; the others are ready (R329). The
frame waits where it reaches an Ember entry that is being written (Table 17-3). -/
def State.hostReadWords : Nat → Bool → Word → State → State
  | 0, _, _, s => s
  | n + 1, late, addr, s =>
    if !late && s.windowBusy addr then { s with hostWait := some (n + 1, addr) }
    else
      let (w, s) := s.hostWord addr
      let s := if late then s.hifErr 4 else s
      State.hostReadWords n false (addr + 4) { s with hostOut := s.hostOut ++ [if late then 0 else w] }

/-- READ of `words` words: DUMMY bytes of eight bits of `bitNs` ns go before the first, whose data takes `ready` ns. A frame
that ends within a further word discards it and sets FRAME_ERR (R328). -/
def execHifRead (dt : Nat) (addr : Word) (words ready bitNs : Nat) (partialWord : Bool) (s : State) : Res :=
  .next <|
    let s := s.advance dt
    if !s.hostReads then s
    else
      let d := s.fld Reg.hifCfg 0 2
      let s := { s.frameIn with hostDummy := d }
      (State.hostReadWords words (readLate addr (d * 8 * bitNs) ready) addr s).frameErr partialWord

/-- The packets of a PUSH frame enter the ingress buffer one by one; one that would overflow it is discarded. CMD takes the
packet at its front once more than `left` wait (R330). -/
def State.pushAll (left : Nat) : Nat → List Byte → State → State
  | 0, _, s => s
  | fuel + 1, bs, s =>
    if bs.isEmpty then s
    else match cutPacket bs with
      | none => s.badCrc .host
      | some (p, r) =>
        let s := if 4096 < ingressBytes s.ingress + p.length then (s.badCrc .host).hifErr 2
          else { s with ingress := s.ingress ++ [p] }
        let s := match s.ingress with
          | q :: qs => if left ≤ qs.length then { s with ingress := qs }.receive .host 0 q else s
          | [] => s
        State.pushAll left fuel r s

/-- PUSH (R328, R330): CMD is `left` packets behind the host; those still in the buffer when the frame ends it takes when
the next begins (DESIGN CHOICE, log 49). -/
def execHifPush (dt : Nat) (bytes : List Byte) (left : Nat) (s : State) : Res :=
  .next <|
    let s := s.advance dt
    if s.hostOpen then (s.frameIn.pushAll left bytes.length bytes).frameErr (bytes.length % 4 != 0) else s

/-- A reply in a PULL frame: its length in bytes, and its words. -/
def Reply.pullWords (r : Reply) : List Word := BitVec.ofNat 32 r.bytes.length :: wordsOfBytes r.bytes

/-- How many of the replies are shifted out whole in `n` words. -/
def pulled : List Reply → Nat → Nat
  | [], _ => 0
  | r :: rs, n => if r.pullWords.length ≤ n then 1 + pulled rs (n - r.pullWords.length) else 0

/-- The replies of a port without its first `n`. -/
def dropReplies (p : Port) : Nat → List Reply → List Reply
  | 0, rs => rs
  | _, [] => []
  | n + 1, r :: rs => if r.port = p then dropReplies p n rs else r :: dropReplies p (n + 1) rs

/-- PULL: `words` words are shifted out after the dummy bytes (R330); a frame that ends within a further one sets FRAME_ERR
(R328). -/
def execHifPull (dt : Nat) (words : Nat) (partialWord : Bool) (s : State) : Res :=
  .next <|
    let s := s.advance dt
    if !s.hostPulls then s
    else
      let s := s.frameIn
      let rs := s.waiting .host
      let out := (rs.flatMap Reply.pullWords ++ List.replicate words 0).take words
      let s := { s with hostOut := out, hostDummy := s.fld Reg.hifCfg 0 2, replies := dropReplies .host (pulled rs words) s.replies }
      s.frameErr partialWord

/-- HIF_BAD_FRAME: any other opcode (Table 13-5). -/
def execHifBadFrame (dt : Nat) (opcode : Byte) (s : State) : Res :=
  .next <|
    let s := s.advance dt
    if s.hostOpen && opcode != 0x02 && opcode != 0x03 && opcode != 0x0b && opcode != 0x20 && opcode != 0x21
    then s.frameIn.frameErr true else s

end Sys2Proof.Machine
end

