-- ==== Sys2Proof/Machine/Ember.lean ====
section
/-! DEFINITION. The end of a write into the Ember log, and what waits for it (R303, R407, R410, Table 17-3). -/

namespace Sys2Proof.Machine

/-- A read that waits for a write goes on (Table 17-3). -/
def State.readOn (s : State) (c : Cmd) : State :=
  match c.op with
  | .logRead => s.tryLogRead c
  | .regRead => s.takeRegRead c
  | .regReadMulti => s.takeRegMulti c
  | _ => s

/-- The reads that wait for a write: commands, and a frame of the host port. -/
def State.logReads (s : State) : State :=
  let s := (s.tags.filter fun c => c.place == Place.running).foldl State.readOn s
  match s.hostWait with
  | some (n, addr) => State.hostReadWords n false addr { s with hostWait := none }
  | none => s

/-- The write of an entry ends, with what waited for it (R303, R407, R410) (DEDUCED, log 36). -/
def State.emberDone (s : State) (q : EmberReq) (ws : List Word) (ok zeroed : Bool) : State :=
  let i := s.hearth.next
  let s :=
    if ok then
      { s with hearth := { s.hearth with
        ember := putWords s.hearth.ember (8 * i) ws, next := (i + 1) % 512
        written := (s.hearth.written + 1) % 65536 } }
    else
      let junk := (List.range 7).map fun j => if zeroed then (0 : Word) else Config.emberGarbage (s.draws + j)
      { s with draws := s.draws + 7, hearth := { s.hearth with ember := putWords s.hearth.ember (8 * i) (0 :: junk) } }
  let idx : Option Nat := if ok then some i else none
  let s := match q.why with
    | .opening a n => s.openedEntry a n idx
    | .closing a r => s.closedEntry a r idx
    | .mark id => if ok then s.finish id .done [BitVec.ofNat 32 i] s.net else s.fail id .internalError 0 0 s.net
    | .notice | .kindling | .calset => s
  let s := s.logReads.emberBegin
  if ok then s else s.raiseSc 19 0x35 .module

/-- EMBER_WRITE_DONE: the write of the oldest entry ends; `ok`: it read back; `zeroed`: otherwise its slot could be zeroed
(R303, R407, R410). -/
def execEmberWriteDone (dt : Nat) (ok zeroed : Bool) (s : State) : Res :=
  .next <|
    let s := s.advance dt
    if !s.emberWrites then s
    else match s.hearth.queue, s.hearth.writing with
    | q :: rest, some ws => State.emberDone { s with hearth := { s.hearth with queue := rest, writing := none } } q ws ok zeroed
    | _, _ => s

end Sys2Proof.Machine
end

