-- ==== Sys2Proof/Machine/Frames.lean ====
section
/-! DEFINITION. Zizel frames: receiving and forwarding, the duplicate filter, and the frames that carry replies
(R335 to R344). -/

namespace Sys2Proof.Machine

/-! ## Layout (Table 14-1) -/

/-- One byte of the IEEE 802.3 CRC-32. -/
def fcsBits : Nat → BitVec 32 → BitVec 32
  | 0, c => c
  | n + 1, c => fcsBits n (if c.getLsbD 0 then (c >>> 1) ^^^ 0xedb88320#32 else c >>> 1)

/-- The frame check sequence over a frame's bytes, as its four bytes in their order on the wire (DESIGN CHOICE, log 18).
-/
def fcsOf (bs : List Byte) : List Byte :=
  let c := (bs.foldl (fun c b => fcsBits 8 (c ^^^ b.setWidth 32)) 0xffffffff#32) ^^^ 0xffffffff#32
  (Word.bytes c).reverse

/-- A frame of the module's own: destination, own source MAC, EtherType, header, packets, padding, FCS. -/
def State.frameBytes (s : State) (dest : Nat) (packets : List Byte) : List Byte :=
  let body := [0x03#8, 0x5a#8, 0x49#8, 0#8, 0#8, 0#8] ++ bytesOf 6 macNum ++ bytesOf 2 0x88b5 ++ bytesOf 2 dest ++
    bytesOf 2 (s.fld Reg.netNode 0 14) ++ bytesOf 2 s.netw.seq.toNat ++ [0#8, 0x10#8] ++ packets
  let body := body ++ List.replicate (60 - body.length) 0
  body ++ fcsOf body

/-! ## Replies in frames (R339, R344) -/

/-- The most bytes of packets in a frame the module originates (R336) (DESIGN CHOICE, log 18). -/
def State.packetRoom (s : State) : Nat := min 1492 (max 64 (min 1518 (s.fld Reg.netTopo 16 12)) - 26)

def Reply.isNet (r : Reply) : Bool := r.port == .a || r.port == .b

/-- A reply fits a frame: one that does not waits until MAXORIG lets it (DESIGN CHOICE, log 18). -/
def Reply.fits (r : Reply) (room : Nat) : Bool := r.isNet && decide (r.bytes.length ≤ room)

/-- The replies for one node that go into its next frame, in order, and those that stay; `full` once one did not fit beside
those before it. -/
def packFor (src room : Nat) : Bool → Nat → List Reply → List Reply × List Reply
  | _, _, [] => ([], [])
  | full, used, r :: rs =>
    let n := r.bytes.length
    if r.fits room && r.src == src && !full then
      if used + n ≤ room then
        let (i, o) := packFor src room false (used + n) rs
        (r :: i, o)
      else
        let (i, o) := packFor src room true used rs
        (i, r :: o)
    else
      let (i, o) := packFor src room full used rs
      (i, r :: o)

/-- Originate one frame on every port whose link is up (R337, R339). -/
def State.originate (s : State) (dest : Nat) (packets : List Byte) : State :=
  let bytes := s.frameBytes dest packets
  let out := ((List.finRange 2).filter s.linkUp).map fun p => (⟨p, bytes, false⟩ : TxFrame)
  s.modNet fun n => { n with seq := n.seq + 1, sent := n.sent ++ out }

/-- Every reply that waits for a network port leaves the module, packed for its node. -/
def State.sendReplies : Nat → State → State
  | 0, s => s
  | fuel + 1, s =>
    match s.replies.find? fun r => r.fits s.packetRoom with
    | none => s
    | some r =>
      let (i, o) := packFor r.src s.packetRoom false 0 s.replies
      State.sendReplies fuel ({ s with replies := o }.originate r.src (i.flatMap Reply.bytes))

/-- A network port can send. -/
def State.netSends (s : State) : Bool := s.up && (s.linkUp 0 || s.linkUp 1)

/-! ## The duplicate filter (R337, R340) -/

/-- An entry has not lapsed. -/
def Dup.alive (d : Dup) (now : Nat) : Bool := decide (now < d.heard + 4000000)

def quietest : List Dup → Option Dup
  | [] => none
  | d :: r =>
    match quietest r with
    | none => some d
    | some e => if e.heard < d.heard then some e else some d

/-- A frame (SRC, SEQ) comes to the filter: whether it is a duplicate or too old, and the filter after it. -/
def dupStep (ds : List Dup) (now src seq : Nat) : Bool × List Dup :=
  let ds := ds.filter fun d => d.alive now
  match ds.find? fun d => d.src == src with
  | none =>
    let ds := if 1024 ≤ ds.length then
        match quietest ds with
        | some q => ds.filter fun d => d.src != q.src
        | none => ds
      else ds
    (false, ds ++ [⟨src, seq, 1, now⟩])
  | some d =>
    let put (e : Dup) : List Dup := ds.map fun x => if x.src = src then e else x
    let ahead := (seq + 65536 - d.newest) % 65536
    if 1 ≤ ahead ∧ ahead ≤ 32767 then (false, put { d with newest := seq, window := (d.window <<< ahead) ||| 1, heard := now })
    else
      let back := (d.newest + 65536 - seq) % 65536
      if 64 < back then (true, put { d with heard := now })
      else if d.window.getLsbD back then (true, put { d with heard := now })
      else (false, put { d with window := d.window ||| (1#65 <<< back), heard := now })

/-! ## Receiving (R340, Table 14-2) -/

/-- What is decided on a frame's header. -/
inductive Route where
  | deliver | forward | both | dropHop | dropDup
  deriving DecidableEq, Repr

/-- The module's address for a frame of `n` bytes whose last has just come, 8 ns a byte: that in force when its first bit
came (R338). -/
def State.nodeFor (s : State) (n : Nat) : Nat :=
  ((s.netw.nodes.filter fun h => decide (s.tb ≤ h.2 + n * 16 / 5)).getLast?.map Prod.fst).getD (s.fld Reg.netNode 0 14)

/-- The rows of Table 14-2 after the first, and the filter after them. -/
def State.route (s : State) (own dest src seq hops : Nat) : Route × List Dup :=
  let mine := dest == 0 || dest == own
  let ds := s.netw.dups
  if src = 0 then (if mine || dest == 0x3fff then .deliver else .dropHop, ds)
  else if src = own then (.dropHop, ds)
  else if s.fld Reg.netTopo 8 8 < hops + 1 then (.dropHop, ds)
  else
    let (dup, ds) := dupStep ds s.tb src seq
    if dup then (.dropDup, ds)
    else if mine then (.deliver, ds)
    else if dest = 0x3fff then (.both, ds)
    else (.forward, ds)

/-- The frame that is forwarded: HOPS up by 1, FCS recalculated. -/
def hopOn (bytes : List Byte) : List Byte :=
  let n := bytes.length - 4
  let body := bytes.take 20 ++ bytesOf 1 (numAt bytes 20 1 + 1) ++ (bytes.take n).drop 21
  body ++ fcsOf body

def otherPort (p : Fin 2) : Fin 2 := 1 - p

/-- A copy of the frame leaves by the other port, if its link is up. -/
def State.forward (s : State) (p : Fin 2) (bytes : List Byte) (badFcs : Bool) : State :=
  if !s.linkUp (otherPort p) then s
  else
    let s := s.modNet fun n => { n with sent := n.sent ++ [⟨otherPort p, hopOn bytes, badFcs⟩] }
    if badFcs then s else s.bumpMod (Reg.netRxcnt p) 16 16

def netPort (p : Fin 2) : Port := if p = 0 then .a else .b

/-- The frame's packets are acted on (R336, R343). -/
def State.deliver (s : State) (p : Fin 2) (src : Nat) (bytes : List Byte) : State :=
  let s := s.bumpMod (Reg.netRxcnt p) 0 16
  let payload := (bytes.take (bytes.length - 4)).drop 22
  s.receiveFrame (netPort p) src payload.length payload

/-- A whole Zizel frame has been received. -/
def State.zizel (s : State) (p : Fin 2) (bytes : List Byte) : State :=
  let dest := numAt bytes 14 2 % 0x4000
  let src := numAt bytes 16 2 % 0x4000
  let n := bytes.length - 4
  let (r, ds) := s.route (s.nodeFor bytes.length) dest src (numAt bytes 18 2) (numAt bytes 20 1)
  if fcsOf (bytes.take n) != bytes.drop n then
    let s := if r = .forward ∨ r = .both then s.forward p bytes true else s
    s.bump (Reg.netDropcnt p) 0 8
  else
    let s := s.modNet fun n => { n with dups := ds }
    match r with
    | .dropHop => s.bump (Reg.netDropcnt p) 16 8
    | .dropDup => s.bump (Reg.netDropcnt p) 8 8
    | .deliver => s.deliver p src bytes
    | .both => (s.forward p bytes false).deliver p src bytes
    | .forward => s.forward p bytes false

/-- FRAME_RECEIVED: the bytes of a frame from its destination MAC to its FCS. A PTP frame has no effect here: it comes as
PTP_MESSAGE. -/
def execFrameReceived (dt : Nat) (port : Fin 2) (bytes : List Byte) (s : State) : Res :=
  .next <|
    let s := s.advance dt
    let etherType := numAt bytes 12 2
    if !(s.portOpen (netPort port) && s.linkUp port) then s
    else if bytes.length < 46 ∨ (etherType ≠ 0x88b5 ∧ etherType ≠ 0x88f7) then s.bump (Reg.netDropcnt port) 24 8
    else if etherType = 0x88f7 then s
    else s.zizel port bytes

end Sys2Proof.Machine
end

