-- ==== Sys2Proof/Machine/Opcodes.lean ====
section
/-! DEFINITION. The 39 opcodes of Table 2-6 as commands: a packet of the opcode has arrived whole on its port. What the
opcode does when it is taken stands in `runAxis` and `runModule`. -/

namespace Sys2Proof.Machine

/-- NOP (R44): DONE, and nothing else. -/
def execNop (dt : Nat) (p : Packet) (s : State) : Res :=
  .next <|
    let s := s.advance dt
    s.arrive .nop p

/-- REG_READ (R47). -/
def execRegRead (dt : Nat) (p : Packet) (s : State) : Res :=
  .next <|
    let s := s.advance dt
    s.arrive .regRead p

/-- REG_WRITE (R47). -/
def execRegWrite (dt : Nat) (p : Packet) (s : State) : Res :=
  .next <|
    let s := s.advance dt
    s.arrive .regWrite p

/-- REG_WRITE_KEYED (R323). -/
def execRegWriteKeyed (dt : Nat) (p : Packet) (s : State) : Res :=
  .next <|
    let s := s.advance dt
    s.arrive .regWriteKeyed p

/-- REG_READ_MULTI (R48). -/
def execRegReadMulti (dt : Nat) (p : Packet) (s : State) : Res :=
  .next <|
    let s := s.advance dt
    s.arrive .regReadMulti p

/-- AXIS_ENERGISE (R51, R156). -/
def execAxisEnergise (dt : Nat) (p : Packet) (s : State) : Res :=
  .next <|
    let s := s.advance dt
    s.arrive .axisEnergise p

/-- AXIS_RELEASE (R158). -/
def execAxisRelease (dt : Nat) (p : Packet) (s : State) : Res :=
  .next <|
    let s := s.advance dt
    s.arrive .axisRelease p

/-- AXIS_DIAG_OFFSTATE (R287). -/
def execAxisDiagOffstate (dt : Nat) (p : Packet) (s : State) : Res :=
  .next <|
    let s := s.advance dt
    s.arrive .axisDiagOffstate p

/-- AXIS_SELFTEST_CMP (R288). -/
def execAxisSelftestCmp (dt : Nat) (p : Packet) (s : State) : Res :=
  .next <|
    let s := s.advance dt
    s.arrive .axisSelftestCmp p

/-- AXIS_RETIRE (R308). -/
def execAxisRetire (dt : Nat) (p : Packet) (s : State) : Res :=
  .next <|
    let s := s.advance dt
    s.arrive .axisRetire p

/-- AXIS_REINSTATE (R309). -/
def execAxisReinstate (dt : Nat) (p : Packet) (s : State) : Res :=
  .next <|
    let s := s.advance dt
    s.arrive .axisReinstate p

/-- MOVE_ABS (R45, R93). -/
def execMoveAbs (dt : Nat) (p : Packet) (s : State) : Res :=
  .next <|
    let s := s.advance dt
    s.arrive .moveAbs p

/-- MOVE_REL (R45, R93). -/
def execMoveRel (dt : Nat) (p : Packet) (s : State) : Res :=
  .next <|
    let s := s.advance dt
    s.arrive .moveRel p

/-- MOVE_VEL (R99). -/
def execMoveVel (dt : Nat) (p : Packet) (s : State) : Res :=
  .next <|
    let s := s.advance dt
    s.arrive .moveVel p

/-- SEG_RUN (R103). -/
def execSegRun (dt : Nat) (p : Packet) (s : State) : Res :=
  .next <|
    let s := s.advance dt
    s.arrive .segRun p

/-- SEG_APPEND (R110). -/
def execSegAppend (dt : Nat) (p : Packet) (s : State) : Res :=
  .next <|
    let s := s.advance dt
    s.arrive .segAppend p

/-- FOLLOW_START (R135). -/
def execFollowStart (dt : Nat) (p : Packet) (s : State) : Res :=
  .next <|
    let s := s.advance dt
    s.arrive .followStart p

/-- FOLLOW_END (R137). -/
def execFollowEnd (dt : Nat) (p : Packet) (s : State) : Res :=
  .next <|
    let s := s.advance dt
    s.arrive .followEnd p

/-- SET_POSITION (R102). -/
def execSetPosition (dt : Nat) (p : Packet) (s : State) : Res :=
  .next <|
    let s := s.advance dt
    s.arrive .setPosition p

/-- STOP (R112). -/
def execStop (dt : Nat) (p : Packet) (s : State) : Res :=
  .next <|
    let s := s.advance dt
    s.arrive .stop p

/-- ABORT (R65, R66). -/
def execAbort (dt : Nat) (p : Packet) (s : State) : Res :=
  .next <|
    let s := s.advance dt
    s.arrive .abort p

/-- HOLD (R113). -/
def execHold (dt : Nat) (p : Packet) (s : State) : Res :=
  .next <|
    let s := s.advance dt
    s.arrive .hold p

/-- RESUME (R114). -/
def execResume (dt : Nat) (p : Packet) (s : State) : Res :=
  .next <|
    let s := s.advance dt
    s.arrive .resume p

/-- POOL_ALLOC (R74, R76). -/
def execPoolAlloc (dt : Nat) (p : Packet) (s : State) : Res :=
  .next <|
    let s := s.advance dt
    s.arrive .poolAlloc p

/-- POOL_FREE (R74, R76). -/
def execPoolFree (dt : Nat) (p : Packet) (s : State) : Res :=
  .next <|
    let s := s.advance dt
    s.arrive .poolFree p

/-- POOL_GIVE (R74, R76). -/
def execPoolGive (dt : Nat) (p : Packet) (s : State) : Res :=
  .next <|
    let s := s.advance dt
    s.arrive .poolGive p

/-- POOL_WRITE (R73, R74). -/
def execPoolWrite (dt : Nat) (p : Packet) (s : State) : Res :=
  .next <|
    let s := s.advance dt
    s.arrive .poolWrite p

/-- POOL_READ (R73, R81). -/
def execPoolRead (dt : Nat) (p : Packet) (s : State) : Res :=
  .next <|
    let s := s.advance dt
    s.arrive .poolRead p

/-- GROUP_JOIN (R354). -/
def execGroupJoin (dt : Nat) (p : Packet) (s : State) : Res :=
  .next <|
    let s := s.advance dt
    s.arrive .groupJoin p

/-- GROUP_LEAVE (R354). -/
def execGroupLeave (dt : Nat) (p : Packet) (s : State) : Res :=
  .next <|
    let s := s.advance dt
    s.arrive .groupLeave p

/-- GROUP_ARM (R356). -/
def execGroupArm (dt : Nat) (p : Packet) (s : State) : Res :=
  .next <|
    let s := s.advance dt
    s.arrive .groupArm p

/-- GROUP_START_AT (R359). -/
def execGroupStartAt (dt : Nat) (p : Packet) (s : State) : Res :=
  .next <|
    let s := s.advance dt
    s.arrive .groupStartAt p

/-- GROUP_HALT (R362). -/
def execGroupHalt (dt : Nat) (p : Packet) (s : State) : Res :=
  .next <|
    let s := s.advance dt
    s.arrive .groupHalt p

/-- TIME_SOURCE_SELECT (R349). -/
def execTimeSourceSelect (dt : Nat) (p : Packet) (s : State) : Res :=
  .next <|
    let s := s.advance dt
    s.arrive .timeSourceSelect p

/-- TIME_QUERY (R44). -/
def execTimeQuery (dt : Nat) (p : Packet) (s : State) : Res :=
  .next <|
    let s := s.advance dt
    s.arrive .timeQuery p

/-- LOG_READ (R408). -/
def execLogRead (dt : Nat) (p : Packet) (s : State) : Res :=
  .next <|
    let s := s.advance dt
    s.arrive .logRead p

/-- LOG_MARK (R410). -/
def execLogMark (dt : Nat) (p : Packet) (s : State) : Res :=
  .next <|
    let s := s.advance dt
    s.arrive .logMark p

/-- PL_REQUEST (R391). -/
def execPlRequest (dt : Nat) (p : Packet) (s : State) : Res :=
  .next <|
    let s := s.advance dt
    s.arrive .plRequest p

/-- ECHO (R44). -/
def execEcho (dt : Nat) (p : Packet) (s : State) : Res :=
  .next <|
    let s := s.advance dt
    s.arrive .echo p

end Sys2Proof.Machine
end

