-- ==== Sys2Proof/Machine/Lands.lean ====
section
/-! DEFINITION. Where the signals lie on the package (R416 to R420): the formulas of chapter 18; and the boundary
register's cells, which follow the lands (R424). -/

namespace Sys2Proof.Machine

/-- Column and row of a land, each 1 to 66 (R416). -/
structure Land where
  col : Nat
  row : Nat
  deriving DecidableEq, Repr

/-- The centre of a land from the package centre, viewed from the land side, in units of 0.1 mm (R416). -/
def Land.centre (l : Land) : Int × Int := (14 * l.col - 469, 14 * l.row - 469)

/-- The regions of Table 18-2. -/
inductive Region where
  | bank (b : BankId)
  | logic
  | empty
  deriving DecidableEq, Repr

/-- The region of a land position (R417). -/
def Land.region (l : Land) : Region :=
  let corner : Bool := (l.col == 26 || l.col == 41) && (decide (l.row ≤ 3) || decide (64 ≤ l.row))
  let bank (c : Nat) : Region := .bank (Fin.ofNat 8 (c / 12 + (if 34 ≤ l.row then 2 else 0)))
  if l.col = 25 ∨ l.col = 42 ∨ corner = true then .empty
  else if l.col ≤ 24 then bank (l.col - 1)
  else if l.col ≤ 41 then .logic
  else .bank (Fin.ofNat 8 (4 + (l.col - 43) / 12 + (if 34 ≤ l.row then 2 else 0)))

/-- The land at leg column `u` and block row `v` of an axis's block (R419). -/
def bankLand (a : AxisId) (u : LegId) (v : Fin 8) : Land :=
  let b := a.val / 12
  let j := a.val % 12
  let c0 := 1 + 12 * (b % 2) + 42 * (b / 4)
  ⟨c0 + 4 * (j % 3) + u.val, if b / 2 % 2 = 0 then 2 + 8 * (j / 3) + v.val else 65 - 8 * (j / 3) - v.val⟩

/-- The signals of an axis block (Table 18-3): of a leg, or of a coil's shunt. -/
inductive BankSignal where
  | bst | gh | sw | snh | snl | kl | gl
  | shp (c : CoilId)
  | shn (c : CoilId)
  deriving DecidableEq, Repr

/-- Table 18-3. -/
def blockSignal (u : LegId) (v : Fin 8) : BankSignal :=
  let c : CoilId := ⟨u.val / 2, by omega⟩
  match v with
  | 0 => .bst | 1 => .gh | 2 => .sw | 3 => .snh | 4 => .snl | 5 => .kl | 6 => .gl
  | 7 => if u.val % 2 = 0 then .shp c else .shn c

/-- The signals of a bank's power row. -/
inductive PowerSignal where
  | vbus | pgnd | shref | vg
  deriving DecidableEq, Repr

/-- Land `k` of the power row of a bank, and its signal (R419, Table 18-4). -/
def powerLand (b : BankId) (k : Fin 12) : Land × PowerSignal :=
  let c0 := 1 + 12 * (b.val % 2) + 42 * (b.val / 4)
  (⟨c0 + k.val, if b.val / 2 % 2 = 0 then 1 else 66⟩,
   if k.val = 0 then .vbus else if k.val = 2 then .shref else if 6 ≤ k.val ∧ k.val ≤ 8 then .vg else .pgnd)

/-- The lands of FB_n_0 to FB_n_2 and, last, of BRK_n (R420). -/
def channelLand (n : ChanId) (i : Fin 4) : Land :=
  ⟨26 + 4 * (n.val % 4) + i.val, if n.val < 48 then 4 + n.val / 4 else 52 + (n.val - 48) / 4⟩

/-- The lands of ECHO_k and TRIP_k (Table 18-5). -/
def echoLand (k : Fin 16) : Land := ⟨26 + k.val, 16⟩
def tripLand (k : Fin 16) : Land := ⟨26 + k.val, 51⟩

/-! ## Boundary scan (R424) -/

/-- The scanned signals of the logic side. -/
inductive LogicSignal where
  | fb (n : Nat) (i : Nat)
  | brk (n : Nat)
  | echo (k : Nat)
  | trip (k : Nat)
  | hsck | hcsN | hmosi | hmiso | hirq
  | flashSck | flashCsN | flashMosi | flashMiso
  | syncIn | syncOut
  | drven | nErr | nReset | wake
  | strap (i : Nat)
  /-- of the test access port itself, and not scanned -/
  | tdo
  deriving DecidableEq, Repr

/-- The scanned signal at a land of the logic region (Table 18-5). -/
def Land.scanned (l : Land) : Option LogicSignal :=
  let c := l.col - 26
  let chan (n : Nat) : LogicSignal := if c % 4 = 3 then .brk n else .fb n (c % 4)
  if l.col < 26 ∨ 41 < l.col then none
  else if 4 ≤ l.row ∧ l.row ≤ 15 then some (chan (4 * (l.row - 4) + c / 4))
  else if 52 ≤ l.row ∧ l.row ≤ 63 then some (chan (48 + 4 * (l.row - 52) + c / 4))
  else match l.row, l.col with
    | 16, _ => some (.echo c)
    | 51, _ => some (.trip c)
    | 24, 27 => some .hsck | 24, 28 => some .hcsN | 24, 29 => some .hmosi | 24, 30 => some .hmiso | 24, 31 => some .hirq
    | 24, 34 => some .flashSck | 24, 35 => some .flashCsN | 24, 36 => some .flashMosi | 24, 37 => some .flashMiso
    | 27, 34 => some .syncIn | 27, 35 => some .syncOut
    | 38, 27 => some .drven | 38, 28 => some .nErr | 38, 29 => some .nReset | 38, 30 => some .wake
    | 41, 27 => some (.strap 0) | 41, 28 => some (.strap 1) | 41, 29 => some (.strap 2)
    | 41, 31 => some (.strap 3) | 41, 32 => some (.strap 4) | 41, 34 => some (.strap 5)
    | _, _ => none

/-- A cell of the boundary register: of an input or an observed output, of an output, of its control. -/
inductive Cell where
  | sense (x : LogicSignal)
  | drive (x : LogicSignal)
  | control (x : LogicSignal)
  deriving DecidableEq, Repr

/-- The cells of a signal: one for an input, BRK_n and nERR; an output cell and its control cell for an output. -/
def LogicSignal.cells (x : LogicSignal) : List Cell :=
  match x with
  | .echo _ | .hmiso | .hirq | .flashSck | .flashCsN | .flashMosi | .syncOut => [.drive x, .control x]
  | _ => [.sense x]

/-- The boundary register from TDO towards TDI: ascending land designation, column first and then row. -/
def boundary : List Cell :=
  (List.range 16).flatMap fun c => (List.range 66).flatMap fun r =>
    ((Land.scanned ⟨26 + c, r + 1⟩).map LogicSignal.cells).getD []

end Sys2Proof.Machine
end

