-- ==== Sys2Proof/Machine/Pins.lean ====
section
/-! DEFINITION. What the logic side's output lands show (R380, R396, R421), and the test access port (R424). -/

namespace Sys2Proof.Machine

/-! ## Levels -/

/-- nERR is asserted: while nRESET is low, in Kindling, and while a shutdown that has ended waits for VIN_L; else by
FLT.ERRPIN.LEVEL (R311, R380, R396, R400, R421). -/
def State.nErr (s : State) : Bool :=
  match s.pwr.phase with
  | .held | .kindling | .waiting => true
  | .unpowered => false
  | _ => s.bit Reg.fltErrpin 0

/-- The level of an output land, none where it is not driven (Table 18-6). Between host frames HMISO is at high impedance;
the flash bus is at rest between the reads of the boot loader (R384); TDO is at high impedance but while a scan shifts
(`tdoAt`). -/
def State.outLevel (s : State) (x : LogicSignal) : Option Bool :=
  if s.pwr.phase = .unpowered then none
  else match x with
    | .echo k => some (s.echoLevel (Fin.ofNat 16 k))
    | .syncOut => some s.syncOutLevel
    | .hirq => some s.hirq
    | .flashCsN => some true
    | .flashSck | .flashMosi => some false
    | .brk n => if (s.ax (Fin.ofNat 96 n)).chp.brk then some false else none
    | .nErr => if s.nErr then some false else none
    | _ => none

/-- What the update latches hold for a cell. -/
def State.latch (s : State) (c : Cell) : Bool := s.tapCells.getLsbD (boundary.idxOf c)

/-- The level of an output land with EXTEST in force as well: the latches drive it, where its control cell is 1. A scan
never drives BRK_n and nERR (R424) (DESIGN CHOICE, log 64). -/
def State.pinLevel (s : State) (x : LogicSignal) : Option Bool :=
  if s.extest && x.cells.length == 2 then (if s.latch (.control x) then some (s.latch (.drive x)) else none)
  else s.outLevel x

/-! ## The test access port -/

/-- What a scan captures of a cell, with `pins` on the lands outside. -/
def State.capture (s : State) (pins : BitVec 459) (i : Nat) (c : Cell) : Bool :=
  match c with
  | .sense x => (s.outLevel x).getD (pins.getLsbD i)
  | .drive x => (s.outLevel x).getD false
  | .control x => (s.outLevel x).isSome

/-- The word a scan of the boundary register captures, its first bit nearest TDO. -/
def State.scanned (s : State) (pins : BitVec 459) : BitVec 459 :=
  BitVec.ofNat 459 ((boundary.zipIdx.map fun p => (s.capture pins p.2 p.1).toNat * 2 ^ p.2).sum)

/-- EXTEST comes into force or ends: every bank as with DRVEN low, every link stopped (DESIGN CHOICE, log 48). -/
def State.setExtest (s : State) (on : Bool) : State :=
  if on = s.extest then s
  else
    let was := s.drvenHigh
    let s := { s with extest := on }
    if !on then ((List.finRange 8).foldl State.freeBank s).eachAx fun s a => s.syncReady a
    else
      let s := if was then s.eachAx fun s a =>
          if s.activeAx a then s.raiseAx (bankOf a).val 0x0c 0 a else s.syncReady a
        else s
      (List.finRange 8).foldl (fun s b =>
        let up := (s.bank b).linkUp
        let s := s.modBank b fun k => { k with linkUp := false, linkHold := true }
        (if up && s.gateOn 10 && s.up then (s.bump (Reg.gdbLink b) 16 8).raiseBank 0x0b b else s).syncBank b) s

/-- TDO at bit `k` of the last scan; at high impedance before and after it (R421). -/
def State.tdoAt (s : State) (k : Nat) : Option Bool := if k < 459 then some (s.tapOut.getLsbD k) else none

/-- The instruction selects the boundary register: EXTEST or SAMPLE/PRELOAD; every other code acts as BYPASS. -/
def scansCells (code : BitVec 4) : Bool := code == 0 || code == 1

/-- EXTEST: an instruction is loaded; with `scan`, a scan through the register it selects follows, which captures what the
cells see (`pins` outside) and updates the latches (R424). Under BYPASS what goes in comes out one bit later, after the 0
that the bypass register captures (PRESUMED, log 48). -/
def execExtest (dt : Nat) (code : BitVec 4) (scan : Option (BitVec 459)) (pins : BitVec 459) (s : State) : Res :=
  .next <|
    let s := s.advance dt
    let s := { s.setExtest (code == 0) with tapIr := code }
    match scan with
    | some v => if scansCells code then { s with tapOut := s.scanned pins, tapCells := v } else { s with tapOut := v <<< 1 }
    | none => s

end Sys2Proof.Machine
end

