-- ==== Sys2Proof/Machine/Dispatch.lean ====
section
/-! DEFINITION. One arm per command: the meaning it calls. -/

namespace Sys2Proof.Machine

def exec (i : Instr) (s : State) : Host.Outcome State Fault Refusal :=
  match i with
  | .packetCrcDiscard dt port => Sys2Proof.Machine.execPacketCrcDiscard dt port s
  | .badOpcode dt version opcode p => Sys2Proof.Machine.execBadOpcode dt version opcode p s
  | .nop dt p => Sys2Proof.Machine.execNop dt p s
  | .regRead dt p => Sys2Proof.Machine.execRegRead dt p s
  | .regWrite dt p => Sys2Proof.Machine.execRegWrite dt p s
  | .regWriteKeyed dt p => Sys2Proof.Machine.execRegWriteKeyed dt p s
  | .regReadMulti dt p => Sys2Proof.Machine.execRegReadMulti dt p s
  | .axisEnergise dt p => Sys2Proof.Machine.execAxisEnergise dt p s
  | .axisRelease dt p => Sys2Proof.Machine.execAxisRelease dt p s
  | .axisDiagOffstate dt p => Sys2Proof.Machine.execAxisDiagOffstate dt p s
  | .axisSelftestCmp dt p => Sys2Proof.Machine.execAxisSelftestCmp dt p s
  | .axisRetire dt p => Sys2Proof.Machine.execAxisRetire dt p s
  | .axisReinstate dt p => Sys2Proof.Machine.execAxisReinstate dt p s
  | .moveAbs dt p => Sys2Proof.Machine.execMoveAbs dt p s
  | .moveRel dt p => Sys2Proof.Machine.execMoveRel dt p s
  | .moveVel dt p => Sys2Proof.Machine.execMoveVel dt p s
  | .segRun dt p => Sys2Proof.Machine.execSegRun dt p s
  | .segAppend dt p => Sys2Proof.Machine.execSegAppend dt p s
  | .followStart dt p => Sys2Proof.Machine.execFollowStart dt p s
  | .followEnd dt p => Sys2Proof.Machine.execFollowEnd dt p s
  | .setPosition dt p => Sys2Proof.Machine.execSetPosition dt p s
  | .stop dt p => Sys2Proof.Machine.execStop dt p s
  | .abort dt p => Sys2Proof.Machine.execAbort dt p s
  | .hold dt p => Sys2Proof.Machine.execHold dt p s
  | .resume dt p => Sys2Proof.Machine.execResume dt p s
  | .poolAlloc dt p => Sys2Proof.Machine.execPoolAlloc dt p s
  | .poolFree dt p => Sys2Proof.Machine.execPoolFree dt p s
  | .poolGive dt p => Sys2Proof.Machine.execPoolGive dt p s
  | .poolWrite dt p => Sys2Proof.Machine.execPoolWrite dt p s
  | .poolRead dt p => Sys2Proof.Machine.execPoolRead dt p s
  | .groupJoin dt p => Sys2Proof.Machine.execGroupJoin dt p s
  | .groupLeave dt p => Sys2Proof.Machine.execGroupLeave dt p s
  | .groupArm dt p => Sys2Proof.Machine.execGroupArm dt p s
  | .groupStartAt dt p => Sys2Proof.Machine.execGroupStartAt dt p s
  | .groupHalt dt p => Sys2Proof.Machine.execGroupHalt dt p s
  | .timeSourceSelect dt p => Sys2Proof.Machine.execTimeSourceSelect dt p s
  | .timeQuery dt p => Sys2Proof.Machine.execTimeQuery dt p s
  | .logRead dt p => Sys2Proof.Machine.execLogRead dt p s
  | .logMark dt p => Sys2Proof.Machine.execLogMark dt p s
  | .plRequest dt p => Sys2Proof.Machine.execPlRequest dt p s
  | .echo dt p => Sys2Proof.Machine.execEcho dt p s
  | .burstBroken dt port src => Sys2Proof.Machine.execBurstBroken dt port src s
  | .stampedCommandDue dt port src tag => Sys2Proof.Machine.execStampedCommandDue dt port src tag s
  | .queuedCommandTaken dt a => Sys2Proof.Machine.execQueuedCommandTaken dt a s
  | .entryFetch dt a => Sys2Proof.Machine.execEntryFetch dt a s
  | .segmentCommit dt a => Sys2Proof.Machine.execSegmentCommit dt a s
  | .splice dt a => Sys2Proof.Machine.execSplice dt a s
  | .segmentEnd dt a => Sys2Proof.Machine.execSegmentEnd dt a s
  | .waitStampReached dt a => Sys2Proof.Machine.execWaitStampReached dt a s
  | .edgeSolve dt a => Sys2Proof.Machine.execEdgeSolve dt a s
  | .edgeRelease dt a => Sys2Proof.Machine.execEdgeRelease dt a s
  | .setpointEffect dt a c => Sys2Proof.Machine.execSetpointEffect dt a c s
  | .followPulse dt a => Sys2Proof.Machine.execFollowPulse dt a s
  | .gridInstant dt a => Sys2Proof.Machine.execGridInstant dt a s
  | .brakeWaitEnd dt a => Sys2Proof.Machine.execBrakeWaitEnd dt a s
  | .releaseBrakeWaitEnd dt a => Sys2Proof.Machine.execReleaseBrakeWaitEnd dt a s
  | .releaseEnd dt a => Sys2Proof.Machine.execReleaseEnd dt a s
  | .holdTimerExpiry dt a => Sys2Proof.Machine.execHoldTimerExpiry dt a s
  | .tableLoad dt port a value => Sys2Proof.Machine.execTableLoad dt port a value s
  | .tableLoadDone dt a => Sys2Proof.Machine.execTableLoadDone dt a s
  | .tableSwap dt port a value => Sys2Proof.Machine.execTableSwap dt port a value s
  | .chopperCrossing dt a c => Sys2Proof.Machine.execChopperCrossing dt a c s
  | .blankingEnd dt a c above => Sys2Proof.Machine.execBlankingEnd dt a c above s
  | .offTimeEnd dt a c => Sys2Proof.Machine.execOffTimeEnd dt a c s
  | .carrierBoundary dt a => Sys2Proof.Machine.execCarrierBoundary dt a s
  | .legEdge dt a l => Sys2Proof.Machine.execLegEdge dt a l s
  | .dutyArrival dt a c => Sys2Proof.Machine.execDutyArrival dt a c s
  | .halfWrite dt port a value => Sys2Proof.Machine.execHalfWrite dt port a value s
  | .sampleStrobe dt a m => Sys2Proof.Machine.execSampleStrobe dt a m s
  | .sampleArrival dt a => Sys2Proof.Machine.execSampleArrival dt a s
  | .icoilBlind dt a c => Sys2Proof.Machine.execIcoilBlind dt a c s
  | .stall dt a => Sys2Proof.Machine.execStall dt a s
  | .rtrackDone dt a => Sys2Proof.Machine.execRtrackDone dt a s
  | .frozenWindowClose dt a => Sys2Proof.Machine.execFrozenWindowClose dt a s
  | .followErr dt a => Sys2Proof.Machine.execFollowErr dt a s
  | .freezeWrite dt port a value => Sys2Proof.Machine.execFreezeWrite dt port a value s
  | .freezeEnd dt a loop => Sys2Proof.Machine.execFreezeEnd dt a loop s
  | .modecfgWrite dt port a index value => Sys2Proof.Machine.execModecfgWrite dt port a index value s
  | .fbEdge dt ch levels fine => Sys2Proof.Machine.execFbEdge dt ch levels fine s
  | .speedWindowEnd dt ch => Sys2Proof.Machine.execSpeedWindowEnd dt ch s
  | .standstillTimeout dt ch => Sys2Proof.Machine.execStandstillTimeout dt ch s
  | .latchTrigger dt ch => Sys2Proof.Machine.execLatchTrigger dt ch s
  | .lattrig dt port ch value => Sys2Proof.Machine.execLattrig dt port ch value s
  | .echoPulse dt e => Sys2Proof.Machine.execEchoPulse dt e s
  | .fbkCfgWrite dt port ch wrap value => Sys2Proof.Machine.execFbkCfgWrite dt port ch wrap value s
  | .slotcfgWrite dt port slot value => Sys2Proof.Machine.execSlotcfgWrite dt port slot value s
  | .echoConfigWrite dt port e ratio value => Sys2Proof.Machine.execEchoConfigWrite dt port e ratio value s
  | .stpCfgWrite dt port a value => Sys2Proof.Machine.execStpCfgWrite dt port a value s
  | .chpCfgWrite dt port a value => Sys2Proof.Machine.execChpCfgWrite dt port a value s
  | .proParamWrite dt port a index value => Sys2Proof.Machine.execProParamWrite dt port a index value s
  | .scSense dt a m => Sys2Proof.Machine.execScSense dt a m s
  | .shuntOc dt a m => Sys2Proof.Machine.execShuntOc dt a m s
  | .vgUvlo dt b code => Sys2Proof.Machine.execVgUvlo dt b code s
  | .vgRecovery dt b code => Sys2Proof.Machine.execVgRecovery dt b code s
  | .bootUvlo dt a l volts => Sys2Proof.Machine.execBootUvlo dt a l volts s
  | .bootstrapRefresh dt a l => Sys2Proof.Machine.execBootstrapRefresh dt a l s
  | .prechargeDone dt a boots offsets => Sys2Proof.Machine.execPrechargeDone dt a boots offsets s
  | .senseDisagree dt a m => Sys2Proof.Machine.execSenseDisagree dt a m s
  | .noCurrent dt a m => Sys2Proof.Machine.execNoCurrent dt a m s
  | .autoDiagDone dt a continuity abortTrip vbus => Sys2Proof.Machine.execAutoDiagDone dt a continuity abortTrip vbus s
  | .shrefLost dt b offset => Sys2Proof.Machine.execShrefLost dt b offset s
  | .busOv dt b code => Sys2Proof.Machine.execBusOv dt b code s
  | .busUv dt b code => Sys2Proof.Machine.execBusUv dt b code s
  | .linkCrc dt b sameFrame => Sys2Proof.Machine.execLinkCrc dt b sameFrame s
  | .linkLost dt b up => Sys2Proof.Machine.execLinkLost dt b up s
  | .killMaskChange dt b bad => Sys2Proof.Machine.execKillMaskChange dt b bad s
  | .drvenLow dt ns => Sys2Proof.Machine.execDrvenLow dt ns s
  | .drvenClearing dt shunts boots => Sys2Proof.Machine.execDrvenClearing dt shunts boots s
  | .tileWarm dt b temp => Sys2Proof.Machine.execTileWarm dt b temp s
  | .tileOt dt b temp => Sys2Proof.Machine.execTileOt dt b temp s
  | .offstateDiagDone dt a pulse legs coils => Sys2Proof.Machine.execOffstateDiagDone dt a pulse legs coils s
  | .selftestDone dt a w0 => Sys2Proof.Machine.execSelftestDone dt a w0 s
  | .axisReadyChange dt a => Sys2Proof.Machine.execAxisReadyChange dt a s
  | .gdbEnableWrite dt port b value complement => Sys2Proof.Machine.execGdbEnableWrite dt port b value complement s
  | .tilePowerOn dt b => Sys2Proof.Machine.execTilePowerOn dt b s
  | .tripActive dt k => Sys2Proof.Machine.execTripActive dt k s
  | .tripClear dt port value => Sys2Proof.Machine.execTripClear dt port value s
  | .tripmapWrite dt port a value complement => Sys2Proof.Machine.execTripmapWrite dt port a value complement s
  | .delayLineSwap dt b trim error => Sys2Proof.Machine.execDelayLineSwap dt b trim error s
  | .guyHeadPulse dt => Sys2Proof.Machine.execGuyHeadPulse dt s
  | .guyPulseAccepted dt fine => Sys2Proof.Machine.execGuyPulseAccepted dt fine s
  | .guyLost dt => Sys2Proof.Machine.execGuyLost dt s
  | .causeRaised dt source disagree => Sys2Proof.Machine.execCauseRaised dt source disagree s
  | .flueWire dt source => Sys2Proof.Machine.execFlueWire dt source s
  | .flueStuck dt source => Sys2Proof.Machine.execFlueStuck dt source s
  | .ss1StopEnd dt a => Sys2Proof.Machine.execSs1StopEnd dt a s
  | .retryRelease dt a => Sys2Proof.Machine.execRetryRelease dt a s
  | .retirementRecordWritten dt a => Sys2Proof.Machine.execRetirementRecordWritten dt a s
  | .emberWriteDone dt ok zeroed => Sys2Proof.Machine.execEmberWriteDone dt ok zeroed s
  | .axctlClose dt port value complement => Sys2Proof.Machine.execAxctlClose dt port value complement s
  | .axctlRetire dt port value complement => Sys2Proof.Machine.execAxctlRetire dt port value complement s
  | .axctlReinstate dt port value complement => Sys2Proof.Machine.execAxctlReinstate dt port value complement s
  | .axctlCloseModule dt port value complement => Sys2Proof.Machine.execAxctlCloseModule dt port value complement s
  | .classWrite dt port k value complement => Sys2Proof.Machine.execClassWrite dt port k value complement s
  | .errpinWrite dt port value => Sys2Proof.Machine.execErrpinWrite dt port value s
  | .errPulseEnd dt => Sys2Proof.Machine.execErrPulseEnd dt s
  | .tmrScrub dt upsets pass => Sys2Proof.Machine.execTmrScrub dt upsets pass s
  | .keyedValueWrite dt port addr value => Sys2Proof.Machine.execKeyedValueWrite dt port addr value s
  | .keyedComplementWrite dt port addr value => Sys2Proof.Machine.execKeyedComplementWrite dt port addr value s
  | .keyedWriteTimeout dt port => Sys2Proof.Machine.execKeyedWriteTimeout dt port s
  | .bitAliasWrite dt port addr value => Sys2Proof.Machine.execBitAliasWrite dt port addr value s
  | .registerWrite dt port addr value => Sys2Proof.Machine.execRegisterWrite dt port addr value s
  | .portcfgWrite dt port which value => Sys2Proof.Machine.execPortcfgWrite dt port which value s
  | .hifWrite dt addr words partialWord => Sys2Proof.Machine.execHifWrite dt addr words partialWord s
  | .hifWriteKeyed dt addr words partialWord => Sys2Proof.Machine.execHifWriteKeyed dt addr words partialWord s
  | .hifRead dt addr words ready bitNs partialWord => Sys2Proof.Machine.execHifRead dt addr words ready bitNs partialWord s
  | .hifPush dt bytes left => Sys2Proof.Machine.execHifPush dt bytes left s
  | .hifPull dt words partialWord => Sys2Proof.Machine.execHifPull dt words partialWord s
  | .hifBadFrame dt opcode => Sys2Proof.Machine.execHifBadFrame dt opcode s
  | .hostWindowWrite dt addr value => Sys2Proof.Machine.execHostWindowWrite dt addr value s
  | .hostWindowRead dt addr => Sys2Proof.Machine.execHostWindowRead dt addr s
  | .poolLinkWrite dt port value => Sys2Proof.Machine.execPoolLinkWrite dt port value s
  | .blockZeroingDone dt block => Sys2Proof.Machine.execBlockZeroingDone dt block s
  | .traceEnable dt port t value => Sys2Proof.Machine.execTraceEnable dt port t value s
  | .traceCopy dt t => Sys2Proof.Machine.execTraceCopy dt t s
  | .poolScrub dt upsets => Sys2Proof.Machine.execPoolScrub dt upsets s
  | .frameReceived dt port bytes => Sys2Proof.Machine.execFrameReceived dt port bytes s
  | .portLinkChange dt port up anDone rateBad => Sys2Proof.Machine.execPortLinkChange dt port up anDone rateBad s
  | .nodeAddrWrite dt port value => Sys2Proof.Machine.execNodeAddrWrite dt port value s
  | .ptpMessage dt port msg => Sys2Proof.Machine.execPtpMessage dt port msg s
  | .ptpTransparentForward dt port msg => Sys2Proof.Machine.execPtpTransparentForward dt port msg s
  | .ptpLost dt => Sys2Proof.Machine.execPtpLost dt s
  | .ptpRequalified dt => Sys2Proof.Machine.execPtpRequalified dt s
  | .sourceCommit dt => Sys2Proof.Machine.execSourceCommit dt s
  | .srcselWrite dt port value complement => Sys2Proof.Machine.execSrcselWrite dt port value complement s
  | .epochWrite dt port value => Sys2Proof.Machine.execEpochWrite dt port value s
  | .groupStartInstant dt g => Sys2Proof.Machine.execGroupStartInstant dt g s
  | .groupWithdraw dt g => Sys2Proof.Machine.execGroupWithdraw dt g s
  | .refclkMeasure dt meas => Sys2Proof.Machine.execRefclkMeasure dt meas s
  | .pllLock dt => Sys2Proof.Machine.execPllLock dt s
  | .clockSwitchStep dt => Sys2Proof.Machine.execClockSwitchStep dt s
  | .rcperMeasure dt per => Sys2Proof.Machine.execRcperMeasure dt per s
  | .rcBad dt bad => Sys2Proof.Machine.execRcBad dt bad s
  | .clockLost dt reason gap => Sys2Proof.Machine.execClockLost dt reason gap s
  | .clockReturn dt => Sys2Proof.Machine.execClockReturn dt s
  | .calRoundDone dt => Sys2Proof.Machine.execCalRoundDone dt s
  | .gateWrite dt port which value => Sys2Proof.Machine.execGateWrite dt port which value s
  | .kindlingCold dt straps => Sys2Proof.Machine.execKindlingCold dt straps s
  | .nresetLow dt => Sys2Proof.Machine.execNresetLow dt s
  | .nresetRise dt straps => Sys2Proof.Machine.execNresetRise dt straps s
  | .wake dt high straps => Sys2Proof.Machine.execWake dt high straps s
  | .kindlingWarmSupply dt straps => Sys2Proof.Machine.execKindlingWarmSupply dt straps s
  | .kindlingStep5 dt => Sys2Proof.Machine.execKindlingStep5 dt s
  | .bootImageRead dt primary fallback => Sys2Proof.Machine.execBootImageRead dt primary fallback s
  | .bootPacket dt => Sys2Proof.Machine.execBootPacket dt s
  | .kindlingEnd dt => Sys2Proof.Machine.execKindlingEnd dt s
  | .powerFail dt => Sys2Proof.Machine.execPowerFail dt s
  | .vioFail dt => Sys2Proof.Machine.execVioFail dt s
  | .shutdownEnd dt => Sys2Proof.Machine.execShutdownEnd dt s
  | .vcoreUv dt => Sys2Proof.Machine.execVcoreUv dt s
  | .pwrReqGo dt port value => Sys2Proof.Machine.execPwrReqGo dt port value s
  | .vcoreOk dt => Sys2Proof.Machine.execVcoreOk dt s
  | .plRampStep dt => Sys2Proof.Machine.execPlRampStep dt s
  | .plChangeDone dt => Sys2Proof.Machine.execPlChangeDone dt s
  | .ceilWrite dt port value complement => Sys2Proof.Machine.execCeilWrite dt port value complement s
  | .pl0VcoreRemoval dt => Sys2Proof.Machine.execPl0VcoreRemoval dt s
  | .hearthSwitchover dt toMain => Sys2Proof.Machine.execHearthSwitchover dt toMain s
  | .calendarCycle dt => Sys2Proof.Machine.execCalendarCycle dt s
  | .calendarMeasure dt freq => Sys2Proof.Machine.execCalendarMeasure dt freq s
  | .calset dt port value complement => Sys2Proof.Machine.execCalset dt port value complement s
  | .ramdataAccess dt port value => Sys2Proof.Machine.execRamdataAccess dt port value s
  | .fastDecayEnd dt a c => Sys2Proof.Machine.execFastDecayEnd dt a c s
  | .tripInputHigh dt k => Sys2Proof.Machine.execTripInputHigh dt k s
  | .extest dt code scan pins => Sys2Proof.Machine.execExtest dt code scan pins s
  | .vioRise dt => Sys2Proof.Machine.execVioRise dt s
  | .hearthContentsLost dt => Sys2Proof.Machine.execHearthContentsLost dt s
  | .fluePairRestored dt source => Sys2Proof.Machine.execFluePairRestored dt source s
  | .syncInterval dt kind => Sys2Proof.Machine.execSyncInterval dt kind s
  | .reinstatementEnded dt a => Sys2Proof.Machine.execReinstatementEnded dt a s

end Sys2Proof.Machine
end

