-- ==== Sys2Proof/Machine/Step.lean ====
section
/-! DEFINITION. A step: the command at the front of the queue, or one cycle of an idle block. -/

namespace Sys2Proof.Machine

/-- The queue is empty: one cycle of the clock in use passes, and the replies that wait for the network leave in frames
(log 2). -/
def State.idle (s : State) : State :=
  let s := s.advance 1
  if s.netSends then State.sendReplies s.replies.length s else s

/-- Take the command at the front of the queue and run it with the rest of the queue. -/
def step (s : State) : Host.Outcome State Fault Refusal :=
  match s.pending with
  | [] => .next s.idle
  | c :: rest => exec c { s with pending := rest }

/-- A state with the command that a word spells at the front of its queue; the table gives no bits, so no word spells a
command. -/
def State.withFetchWord (s : State) (nbits w : Nat) : State :=
  match Sys2Proof.decodeTableWord nbits w with
  | some c => { s with pending := c :: s.pending }
  | none => s

end Sys2Proof.Machine
end

