-- ==== Sys2Proof/Safety.lean ====
section
/-! DEFINITION. What a sound state is: the canonical forms of sparse contents, and a tag table whose entries are told apart
by their numbers. Every step keeps it; what runs from reset has it. -/

namespace Sys2Proof.Machine

/-- The tag table: no two open commands have one number, and the next number is new. -/
def State.tagsOk (s : State) : Prop := (s.tags.map Cmd.id).Nodup ∧ ∀ c ∈ s.tags, c.id < s.nextId

/-- The retained storage in canonical form: the words for software, the retirement records, the Ember entries. -/
def Hearth.wf (h : Hearth) : Bool :=
  storeWf wordDefault h.sram && storeWf wordDefault h.retire && storeWf wordDefault h.ember

/-- A sound state: pool memory, registers with their copies, block descriptors and retained storage in canonical form, and a
sound tag table. -/
structure State.Wf (s : State) : Prop where
  mem : Memory.wf s.mem = true
  regs : storeWf regReset s.regs = true
  tmrB : storeWf regReset s.tmrB = true
  tmrC : storeWf regReset s.tmrC = true
  desc : storeWf descDefault s.desc = true
  tags : s.tagsOk
  hearth : s.hearth.wf = true

/-! ## What writes the pool -/

/-- The commands that can change a byte of the pool: those that write it (a host-window write, a write access of a
port, which may go to the window, a trace copy, a zeroing, a Kindling), the packets and the frames by which commands arrive
(a host frame of any kind lets in what an earlier one pushed), a boot packet, and the taking of a command that waited. -/
def mayWritePool : Instr → Bool
  | .hostWindowWrite .. | .traceCopy .. | .blockZeroingDone .. | .kindlingCold .. | .kindlingWarmSupply ..
  | .nresetRise .. | .wake .. | .hifWrite .. | .hifWriteKeyed .. | .hifRead .. | .hifPush .. | .hifPull ..
  | .hifBadFrame .. | .frameReceived .. | .bootPacket ..
  | .registerWrite .. | .bitAliasWrite .. | .keyedValueWrite .. | .keyedComplementWrite .. | .portcfgWrite ..
  | .axctlClose .. | .axctlRetire .. | .axctlReinstate .. | .axctlCloseModule .. | .classWrite .. | .tripmapWrite ..
  | .gdbEnableWrite .. | .calset .. | .ceilWrite .. | .srcselWrite .. | .stampedCommandDue .. | .queuedCommandTaken ..
  | .nop .. | .regRead .. | .regWrite .. | .regWriteKeyed .. | .regReadMulti .. | .axisEnergise .. | .axisRelease ..
  | .axisDiagOffstate .. | .axisSelftestCmp .. | .axisRetire .. | .axisReinstate .. | .moveAbs .. | .moveRel ..
  | .moveVel .. | .segRun .. | .segAppend .. | .followStart .. | .followEnd .. | .setPosition .. | .stop .. | .abort ..
  | .hold .. | .resume .. | .poolAlloc .. | .poolFree .. | .poolGive .. | .poolWrite .. | .poolRead .. | .groupJoin ..
  | .groupLeave .. | .groupArm .. | .groupStartAt .. | .groupHalt .. | .timeSourceSelect .. | .timeQuery .. | .logRead ..
  | .logMark .. | .plRequest .. | .echo .. => true
  | _ => false

/-! ## The CRC in the words of its rule -/

/-- One bit into the CRC register as R38 words it: polynomial 0x1EDC_6F41, most significant bit first. -/
def crcRefBit (c : BitVec 32) (b : Bool) : BitVec 32 :=
  if c.msb != b then (c <<< 1) ^^^ 0x1edc6f41#32 else c <<< 1

/-- The bits of a byte as reflected input takes them, least significant first. -/
def bitsOf (b : Byte) : List Bool := (List.range 8).map b.getLsbD

/-- CRC-32C as R38 words it: initial value, reflected input, reflected output, final XOR. -/
def crcRef (bs : List Byte) : BitVec 32 :=
  ((bs.flatMap bitsOf).foldl crcRefBit 0xffffffff#32).reverse ^^^ 0xffffffff#32

/-! ## A packet that goes on at once -/

/-- A packet of opcode `op` is entered and acted on as it arrives (R43, R52, R56): its port takes packets, its entry checks
pass, the port orders by CREDIT, it closes a burst that held nothing before it, and its number in the tag table is new. -/
structure State.Enters (u : State) (op : Op) (p : Packet) : Prop where
  port : p.port ≠ .boot
  isOpen : u.portOpen p.port = true
  member : u.notMember (some op) p.target.toNat = false
  checks : u.entryCheck op p (u.entryPort p.port) (originOf p (u.entryPort p.port)) = none
  order : u.stampedOrder (u.entryPort p.port) = false
  last : p.lastInBurst = true
  alone : u.held? (u.entryPort p.port) (originOf p (u.entryPort p.port)) = []
  fresh : ∀ c ∈ u.tags, c.id ≠ u.nextId

/-- The command of such a packet once it is taken: its entry of the tag table. -/
def State.cmdOf (u : State) (op : Op) (p : Packet) : Cmd :=
  { u.newCmd op p (u.entryPort p.port) (originOf p (u.entryPort p.port)) with
    place := .running, taken := u.net, checked := some (u.stateOf p.target.toNat) }

/-- What entry leaves of such a packet: an open command, ACCEPTED if it asked for it, and its burst closed. -/
def State.entered (u : State) (op : Op) (p : Packet) : State :=
  let c := u.newCmd op p (u.entryPort p.port) (originOf p (u.entryPort p.port))
  ((u.addCmd c).sendAccepted c).endBurst c.port c.src

/-- The same with the command taken: it runs. -/
def State.running (u : State) (op : Op) (p : Packet) : State := (u.entered op p).setCmd (u.cmdOf op p)

/-- The same while its burst is still open: GROUP_HALT acts before its burst goes on (R362). -/
def State.opened (u : State) (op : Op) (p : Packet) : State :=
  let c := u.newCmd op p (u.entryPort p.port) (originOf p (u.entryPort p.port))
  ((u.addCmd c).sendAccepted c).setCmd (u.cmdOf op p)

/-- A packet of opcode `op` is acted on as it arrives on a port that orders by stamp: no burst holds it (R56, R58). Its
command is `cmdOf`, the state with the command running `opened`. -/
structure State.EntersByStamp (u : State) (op : Op) (p : Packet) : Prop where
  port : p.port ≠ .boot
  isOpen : u.portOpen p.port = true
  member : u.notMember (some op) p.target.toNat = false
  checks : u.entryCheck op p (u.entryPort p.port) (originOf p (u.entryPort p.port)) = none
  order : u.stampedOrder (u.entryPort p.port) = true
  fresh : ∀ c ∈ u.tags, c.id ≠ u.nextId

/-- The axis sequencer looks at a command of axis `a` at once (R50): the engine that carries it out is not gated (Table
15-3), and, unless it is of kind U, nothing is queued before it and nothing runs that it waits for. -/
structure State.Reaches (u : State) (op : Op) (p : Packet) (a : AxisId) : Prop where
  enters : u.Enters op p
  target : p.target.toNat = a.val
  ungated : u.gatedOff op = false
  first : opKind op ≠ .u → ∀ c ∈ u.tags, c.on a = true → c.place ≠ .queued ∧ c.place ≠ .excess
  free : kindOf op p.words = .w → u.busyAx a = false
  held : kindOf op p.words = .s → u.releasing a = false

/-- The axis sequencer takes it at once (R50, Table 2-9, R358): its row of Table 2-9 allows it, and no staged command stands
against it. -/
structure State.Takes (u : State) (op : Op) (p : Packet) (a : AxisId) : Prop extends State.Reaches u op p a where
  legal : u.verdict a op = .ok
  unstaged : u.stagedRefuses a op = false
  stays : u.stages a (u.cmdOf op p) = false

/-- The command by which a packet of an axis opcode arrives. -/
def axisInstr (dt : Nat) (p : Packet) : Op → Option Instr
  | .axisEnergise => some (.axisEnergise dt p)
  | .axisRelease => some (.axisRelease dt p)
  | .axisDiagOffstate => some (.axisDiagOffstate dt p)
  | .axisSelftestCmp => some (.axisSelftestCmp dt p)
  | .axisRetire => some (.axisRetire dt p)
  | .axisReinstate => some (.axisReinstate dt p)
  | .moveAbs => some (.moveAbs dt p)
  | .moveRel => some (.moveRel dt p)
  | .moveVel => some (.moveVel dt p)
  | .segRun => some (.segRun dt p)
  | .segAppend => some (.segAppend dt p)
  | .followStart => some (.followStart dt p)
  | .followEnd => some (.followEnd dt p)
  | .setPosition => some (.setPosition dt p)
  | .stop => some (.stop dt p)
  | .abort => some (.abort dt p)
  | .hold => some (.hold dt p)
  | .resume => some (.resume dt p)
  | _ => none

/-- A packet that arrives `dt` cycles after the command before it is carried out at once: `c` is its command, `v` the state
with the command running. -/
structure State.Runs (s : State) (dt : Nat) (op : Op) (p : Packet) (c : Cmd) (v : State) : Prop where
  enters : (s.advance dt).Enters op p
  cmd : c = (s.advance dt).cmdOf op p
  now : v = (s.advance dt).running op p

/-- The same for a command that the sequencer of axis `a` takes at once. -/
structure State.RunsOn (s : State) (dt : Nat) (op : Op) (p : Packet) (a : AxisId) (c : Cmd) (v : State) : Prop where
  tags : s.tagsOk
  takes : (s.advance dt).Takes op p a
  cmd : c = (s.advance dt).cmdOf op p
  now : v = (s.advance dt).running op p

end Sys2Proof.Machine
end

