-- ==== Sys2Proof/Certificates/Slice0/Obligations.lean ====
section
/-! DEFINITION. The statements. In the statements about one command `u` is the state the command acts on: `s` once the
command's `dt` cycles have passed (log 1). -/

open Sys2Proof Sys2Proof.Machine

/-! ## The machine as a whole -/

/-- The step takes the command at the front of the queue and runs it with the rest of the queue. -/
def Obligations.StepRunsTheCommandInFront : Prop :=
  ∀ (s : State) (c : Instr) (rest : List Instr), s.pending = c :: rest → step s = exec c { s with pending := rest }

/-- With no command waiting one cycle of the running clock passes, and with no reply waiting for the network that is all
(the model's own choice: log 2). -/
def Obligations.EmptyQueueLetsOneCyclePass : Prop :=
  ∀ s : State, s.pending = [] → (s.replies.find? Reply.isNet = none → step s = .next (s.advance 1)) ∧
    ∃ t, step s = .next t ∧ t.tb = (s.pass 1).tb ∧ t.net = (s.pass 1).net ∧ (∀ a, t.ax a = s.ax a) ∧
      (∀ b, t.bank b = s.bank b) ∧ ∀ o, t.byte o = s.byte o

/-- After reset: nothing waits, every register holds its reset value, every axis is OFF with its gates low and its brake
engaged, no block is owned, and the state is sound. Before any Kindling these are the model's own choice (log 5). -/
def Obligations.ResetLeavesTheHarmlessState : Prop :=
  State.reset.Wf ∧ State.reset.pending = [] ∧ State.reset.locked = false ∧
  (∀ k, State.reset.reg k = regReset k) ∧
  (∀ a g, (State.reset.ax a).st = .off ∧ (State.reset.ax a).energised = false ∧ (State.reset.ax a).chp.brk = false ∧
    State.reset.gateLevel a g = false) ∧
  (∀ k, State.reset.blk k = Desc.free) ∧ ∀ o, State.reset.byte o = 0

/-- Every step keeps a sound state: canonical memory, registers and descriptors, and a tag table whose open commands are
told apart by their numbers. -/
def Obligations.EveryStepKeepsASoundState : Prop :=
  ∀ s t : State, s.Wf → step s = .next t → t.Wf

/-- Every step answers a next state, in which one command less waits, and the timebase has not run back. That a step goes on
where no command waits, and where an event's condition fails, is the model's own choice (logs 2 and 12). -/
def Obligations.EveryStepGoesOnAndTimeNeverRunsBack : Prop :=
  ∀ s : State, ∃ t, step s = .next t ∧ t.pending = s.pending.tail ∧ s.tb ≤ t.tb

/-- While the module is locked it stays so (R299), through a warm restart by nRESET as well; only the return of the supply
(a COLD or a WARM_SUPPLY Kindling) or the wake from a PL0, which a locked module never enters, may end it. -/
def Obligations.OnlyASupplyReturnEndsALock : Prop :=
  ∀ (s t : State) (c : Instr), s.locked = true → exec c s = .next t →
    (∀ dt q, c ≠ .kindlingCold dt q) → (∀ dt q, c ≠ .kindlingWarmSupply dt q) → (∀ dt h q, c ≠ .wake dt h q) →
    t.locked = true

/-- No other command changes a byte of the pool: not one of the events of the axes, coils, loops, banks, faults, network,
clocks, power or the Hearth. -/
def Obligations.OtherCommandsLeaveThePoolAlone : Prop :=
  ∀ (c : Instr) (s t : State), mayWritePool c = false → exec c s = .next t → ∀ o, t.byte o = s.byte o

/-- The two gates of a leg are never on together (R267), whatever is commanded and whatever the state. -/
def Obligations.GatesOfALegAreNeverOnTogether : Prop :=
  ∀ (s : State) (a : AxisId) (g : GateId), ¬(s.gateLevel a g = true ∧ s.gateLevel a (partner g) = true)

/-- A gate that is on, on a leg with no bootstrap refresh running, meets every condition of R267; no gate is on while its
axis's kill-mask bit is set, its bank is held, its last kill symbol was corrupted, or the module is in reset or Kindling
(R266, R271, R290, R380, R450); and the kill-mask bit wanted is the OR of four shares: the axis's own, its bank's, the
module's lock, and the trips it is mapped to (R296). -/
def Obligations.GatesObeyTheirConditionsAndTheKillMask : Prop :=
  (∀ (s : State) (a : AxisId) (g : GateId), (s.tile a).refreshing ⟨g.val / 2, by omega⟩ s.tb = false →
    s.gateLevel a g = true →
      (s.tile a).cmd.getLsbD g.val = true ∧ (s.tile a).cmd.getLsbD (partner g).val = false ∧
      (s.tile a).offAt.get (partner g) + Config.deadTicks * 16 ≤ s.tbFine ∧
      (s.tile a).soft.getLsbD g.val = false ∧ (s.tile a).hard.getLsbD g.val = false ∧
      (s.tile a).legHold.getLsbD (g.val / 2) = false ∧
      (s.bank (bankOf a)).kill.getLsbD (locOf a).val = false ∧ s.drvenHigh = true ∧ s.up = true ∧
      (s.bank (bankOf a)).vgLow = false ∧ (s.bank (bankOf a)).linkUp = true ∧ (s.bank (bankOf a)).linkHold = false ∧
      (s.bank (bankOf a)).killBad = false ∧
      (g.val % 2 = 0 → (s.tile a).bootLow.getLsbD (g.val / 2) = false ∨ (s.tile a).bootBand.getLsbD (g.val / 2) = true)) ∧
  (∀ (s : State) (a : AxisId) (g : GateId),
    ((s.bank (bankOf a)).kill.getLsbD (locOf a).val = true ∨ s.drven = false ∨ s.extest = true ∨
      (s.bank (bankOf a)).vgLow = true ∨ (s.bank (bankOf a)).linkUp = false ∨ (s.bank (bankOf a)).linkHold = true ∨
      (s.bank (bankOf a)).killBad = true ∨ s.up = false) →
    s.gateLevel a g = false) ∧
  (∀ (s : State) (a : AxisId), s.killWanted a = true ↔
    (s.ownShare a = true ∨ s.bankShare (bankOf a) = true ∨ s.locked = true ∨
      ∃ k, k < 16 ∧ (s.reg Reg.fltTripstat).bit k = true ∧ (s.reg (Reg.pwmTripmap a)).bit k = true)) ∧
  (∀ (s : State) (b : BankId) (j : Fin 12), (s.killMask b).getLsbD j.val = s.killWanted (axisOf b j))

/-- The extension of a short stamp (R63): the rule's own steps, against any network time; it ends in the stamp's 40 bits,
and undoes the cut of any instant less than 2^39 ticks away; the rule's worked example; and a stamped command that is in
time is given the extension of its stamp against the network time at which its packet arrived. -/
def Obligations.AShortStampExtendsByItsRule : Prop :=
  (∀ n s : Nat, s < 2 ^ 40 →
    (extend n s : Int) =
      let m : Int := 2 ^ 40
      let c : Int := ((n : Int) - (n : Int) % m) + s
      if c > n + m / 2 then (if c ≥ m then c - m else c)
      else if c ≤ n - m / 2 then c + m else c) ∧
  (∀ n s : Nat, s < 2 ^ 40 → extend n s % 2 ^ 40 = s) ∧
  (∀ n x : Nat, n < x + 2 ^ 39 → x < n + 2 ^ 39 → extend n (x % 2 ^ 40) = x) ∧
  extend 0x000002fffffff7d0 0x0000060a80 = 0x0000030000060a80 ∧
  ∀ (u : State) (op : Op) (p : Packet) (q : Port) (n : Nat), u.usesStamp op q = true →
    u.net + u.stampLead op ≤ extend u.net p.stamp.toNat →
    (u.newCmd op p q n).arrival = u.net ∧ (u.newCmd op p q n).stamp = extend u.net p.stamp.toNat

/-- Every register reads as it was last written: a software write of a register that does nothing else changes its RW bits,
clears the W1C bits written 1, leaves its other bits and every other register alone, and is ignored at a reserved slot
(Table 0-6, R13, R317). A flag that the module sets in the window of a write that clears it stays set, and an event counted
in the window of a write counts on from the value written (Table 13-4, R326). -/
def Obligations.ASoftwareWriteTouchesItsOwnBitsOnly : Prop :=
  ∀ (s : State) (k : Nat) (v : Word), s.Wf →
    (∀ r, rowOf k = some r → s.marks k = [] → ∀ i, i < 32 → ((s.plainWrite k v).reg k).bit i =
      if r.w1c.bit i && v.bit i then false
      else if r.rw.bit i then v.bit i else (s.reg k).bit i) ∧
    (∀ j, j ≠ k → (s.plainWrite k v).reg j = s.reg j) ∧
    (rowOf k = none → s.plainWrite k v = s) ∧
    (s.plainWrite k v).axes = s.axes ∧ (s.plainWrite k v).mem = s.mem ∧
    (∀ r i, rowOf k = some r → i < 32 → s.marks k = [] → ((s.flag k i).plainWrite k v).bit k i = true) ∧
    (∀ r lo w, rowOf k = some r → lo + w ≤ 32 → s.marks k = [] → r.w1c = 0 → (r.rw.fld lo w) = 2 ^ w - 1 →
      ((s.bump k lo w).plainWrite k v).fld k lo w = satAdd w (v.fld lo w) 1 ∧
      ((s.bumpMod k lo w).plainWrite k v).fld k lo w = (v.fld lo w + 1) % 2 ^ w)

/-- Each bit of a triplicated word reads as at least two of its three copies hold it, and a write puts the value into all
three (R324). -/
def Obligations.ATriplicatedBitReadsAsTwoOfThree : Prop :=
  (∀ (s : State) (k i : Nat), i < 32 → triplReg k = true →
    ∀ b : Bool, ((storeGet regReset s.regs k).bit i = b ∧ (storeGet regReset s.tmrB k).bit i = b ∨
      (storeGet regReset s.regs k).bit i = b ∧ (storeGet regReset s.tmrC k).bit i = b ∨
      (storeGet regReset s.tmrB k).bit i = b ∧ (storeGet regReset s.tmrC k).bit i = b) → s.bit k i = b) ∧
  (∀ (s : State) (k : Nat) (v : Word), s.Wf → triplReg k = true →
    storeGet regReset (s.setReg k v).regs k = v ∧ storeGet regReset (s.setReg k v).tmrB k = v ∧
    storeGet regReset (s.setReg k v).tmrC k = v)

/-- A keyed write takes effect when the port's next write is the complement of the value at the complement slot; a wrong
complement fails with CAUSE 1, and so does a complement with nothing pending; one at another register's complement slot
cancels what is pending with CAUSE 2 and then fails with CAUSE 1; the port's pending write is gone in every case; another
port's pending write stays when this port writes a value, or a complement that completes nothing (R321, R322, Table 13-2).
-/
def Obligations.AKeyedWriteNeedsItsComplement : Prop :=
  (∀ (s : State) (q : Port) (k : Nat) (v : Word),
    (s.valueWrite q k v).complementWrite q k (~~~v) = ((s.cancel q).setPend q none).takeKeyed k v) ∧
  (∀ (s : State) (q : Port) (k : Nat) (v w : Word), w ≠ ~~~v →
    (s.valueWrite q k v).complementWrite q k w = ((s.cancel q).setPend q none).keyFail q 1) ∧
  (∀ (s : State) (q : Port) (k : Nat) (w : Word), s.keyed.get (portIx q) = none →
    s.complementWrite q k w = s.keyFail q 1) ∧
  (∀ (s : State) (q : Port) (k j : Nat) (v w : Word), j ≠ k →
    (s.valueWrite q k v).complementWrite q j w =
      ((((s.cancel q).setPend q (some ⟨k, v, (s.cancel q).tb, false⟩)).keyFail q 2).setPend q none).keyFail q 1 ∧
    ((s.valueWrite q k v).complementWrite q j w).keyed.get (portIx q) = none) ∧
  (∀ (s : State) (q r : Port) (k j : Nat) (v w : Word), q ≠ r →
    (s.valueWrite q k v).keyed.get (portIx r) = s.keyed.get (portIx r) ∧
    (w ≠ ~~~v ∨ j ≠ k → ((s.valueWrite q k v).complementWrite q j w).keyed.get (portIx r) = s.keyed.get (portIx r))) ∧
  (∀ (s : State) (q : Port) (n : Nat), s.Wf → n < 4 →
    (s.keyFail q n).bit Reg.cmdKeystat 0 = true ∧ (s.keyFail q n).fld Reg.cmdKeystat 1 2 = n ∧
    (s.keyFail q n).fld Reg.cmdKeystat 4 2 = portId q ∧
    (s.keyFail q n).fld Reg.cmdKeystat 8 8 = min (s.fld Reg.cmdKeystat 8 8 + 1) 255)

/-- A packet as bytes and back: every request, with every operand at every value its field admits, is cut whole from what
follows it, its CRC holds, and it is read as the opcode and the packet it was made of (R36 to R39, Tables 2-1 and 2-2). -/
def Obligations.ARequestIsReadAsItWasMade : Prop :=
  ∀ (op : Op) (p : Packet) (rest : List Byte) (s : State), p.words.length ≤ 255 →
    cutPacket (requestBytes op p ++ rest) = some (requestBytes op p, rest) ∧
    crcHolds (requestBytes op p) = true ∧ packetOf p.port p.src.toNat (requestBytes op p) = p ∧
    s.receive p.port p.src.toNat (requestBytes op p) = s.enterPacket op p

/-- The trailer is the CRC-32C (R38): over every list of bytes the module's CRC is the one of polynomial 0x1EDC_6F41 with
reflected input and output, initial value 0xFFFF_FFFF and final XOR 0xFFFF_FFFF; that of "123456789" is 0xE306_9283; a
request and a reply carry it over their header of 16 bytes and their payload. -/
def Obligations.TheTrailerIsTheStatedCrc : Prop :=
  (∀ bs, crc32c bs = crcRef bs) ∧
  crc32c [0x31, 0x32, 0x33, 0x34, 0x35, 0x36, 0x37, 0x38, 0x39] = 0xe3069283#32 ∧
  (∀ (op : Op) (p : Packet), ∃ header, header.length = 16 ∧
    requestBytes op p = header ++ p.words.flatMap Word.bytes ++
      Word.bytes (crcRef (header ++ p.words.flatMap Word.bytes))) ∧
  (∀ r : Reply, ∃ header, header.length = 16 ∧
    r.bytes = header ++ r.words.flatMap Word.bytes ++ Word.bytes (crcRef (header ++ r.words.flatMap Word.bytes))) ∧
  ∀ bs, crcHolds bs = true ↔ (crcRef (bs.take (bs.length - 4))).toNat = numAt bs (bs.length - 4) 4

/-! ## Commands as packets: entry and reply -/

/-- A packet refused at entry enters no tag, has no effect and is answered with the status of the first check it fails
(R43); a packet for a group of which the module is no member is not even answered (R345). An axis command that Table 2-9
refuses when the sequencer looks at it closes its tag with the status of its cell, and has no other effect (R50); what the
table allows, and where a command waits, is said for every state. -/
def Obligations.ARefusedPacketIsOnlyAnswered : Prop :=
  (∀ (u : State) (op : Op) (p : Packet) (st : Status), u.notMember (some op) p.target.toNat = false →
    u.entryCheck op p (u.entryPort p.port) (originOf p (u.entryPort p.port)) = some st →
    (u.enterPacket op p).tags = u.tags ∧ (u.enterPacket op p).nextId = u.nextId ∧
    (u.enterPacket op p).axes = u.axes ∧ (u.enterPacket op p).banks = u.banks ∧ (u.enterPacket op p).mem = u.mem ∧
    (u.enterPacket op p).desc = u.desc ∧ (u.enterPacket op p).netw = u.netw ∧ (u.enterPacket op p).pwr = u.pwr ∧
    (u.enterPacket op p).hearth = u.hearth ∧ (u.enterPacket op p).flue = u.flue ∧
    (∀ k, (∀ i < 4, k ≠ Reg.poolTracePtr i) → (u.enterPacket op p).reg k = u.reg k) ∧
    ∃ r, (u.enterPacket op p).replies = u.replies ++ [r] ∧ r.port = u.entryPort p.port ∧
      r.src = originOf p (u.entryPort p.port) ∧ r.op = opCode op ∧ r.tag = p.tag.toNat ∧ r.target = p.target.toNat ∧
      r.status = st ∧ r.words = [detail (if st = .stateRefused then 0xf else u.stateOf p.target.toNat) 0 0]) ∧
  (∀ (u : State) (op : Op) (p : Packet), u.notMember (some op) p.target.toNat = true → u.enterPacket op p = u) ∧
  (∀ (s u : State) (dt : Nat) (op : Op) (p : Packet) (a : AxisId) (i : Instr) (st : Status), u = s.advance dt →
    axisInstr dt p op = some i → s.tagsOk → u.Reaches op p a →
    (∀ c ∈ u.tags, c.on a = true → c.place ≠ .queued ∧ c.place ≠ .excess) →
    (u.verdict a op = .refused ∧ st = .stateRefused ∨ u.verdict a op = .faulted ∧ st = .axisFaulted ∨
      u.verdict a op = .retired ∧ st = .axisRetired) →
    ∃ t r, exec i s = .next t ∧ t.tags = u.tags ∧ t.axes = u.axes ∧ t.banks = u.banks ∧ t.mem = u.mem ∧ t.desc = u.desc ∧
      t.netw = u.netw ∧ t.pwr = u.pwr ∧ t.hearth = u.hearth ∧ t.flue = u.flue ∧
      (∀ k, (∀ i < 4, k ≠ Reg.poolTracePtr i) → t.reg k = u.reg k) ∧
      t.replies = (u.entered op p).replies ++ [r] ∧ r.port = u.entryPort p.port ∧ r.tag = p.tag.toNat ∧
      r.target = a.val ∧ r.status = st ∧ r.words = [detail (u.stateOf a.val) 0 0]) ∧
  (∀ (s : State) (a : AxisId) (op : Op), op ≠ .axisDiagOffstate → op ≠ .axisSelftestCmp → s.verdict a op =
    legal op (if s.retired a = true ∨ (s.ax a).fault.retPhase = .stopping then .retired else (s.ax a).st)) ∧
  (∀ (op : Op) (st : AxState), opTarget op = .axis →
    (legal op st = .waits ↔ (st = .diag ∨ st = .energising ∨ st = .stopping) ∧ op ∈ [Op.axisEnergise, .axisDiagOffstate,
      .axisSelftestCmp, .moveAbs, .moveRel, .moveVel, .segRun, .followStart, .setPosition]) ∧
    (legal op st = .ok ↔ op ∈ (match st with
      | .off => [Op.axisRetire, .segAppend, .setPosition, .abort]
      | .diag => [.axisRetire, .segAppend, .abort]
      | .ready => [.axisEnergise, .axisDiagOffstate, .axisSelftestCmp, .axisRetire, .segAppend, .setPosition, .abort]
      | .energising => [.axisRelease, .axisRetire, .segAppend, .abort]
      | .holding => [.axisRelease, .axisRetire, .moveAbs, .moveRel, .moveVel, .segRun, .segAppend, .followStart,
          .setPosition, .resume, .abort]
      | .moving => [.axisRetire, .moveAbs, .moveRel, .moveVel, .segRun, .segAppend, .stop, .hold, .abort]
      | .following => [.axisRetire, .segAppend, .followEnd, .stop, .abort]
      | .stopping => [.axisRetire, .segAppend, .stop, .abort]
      | .faulted => [.axisRelease, .axisDiagOffstate, .axisSelftestCmp, .axisRetire, .abort]
      | .retired => [.axisDiagOffstate, .axisSelftestCmp, .axisReinstate, .abort])) ∧
    (legal op .faulted ≠ .ok → legal op .faulted = .faulted) ∧ (legal op .retired ≠ .ok → legal op .retired = .retired) ∧
    (st ≠ .faulted → st ≠ .retired → legal op st = .ok ∨ legal op st = .waits ∨ legal op st = .refused))

/-- Table 2-5 in its order (R43, R52, R53): a locked module, no credit, a tag in use, the target, the length, whether the
packet is STAMPED as its opcode and its port ask for (R359), and a stamp that is less than the lead ahead, unless LATE_OK
is set (R59). -/
def Obligations.EntryChecksGoInTheOrderOfTheirTable : Prop :=
  ∀ (u : State) (op : Op) (p : Packet) (q : Port) (n : Nat),
    (u.locked = true → opLocked op = false → u.entryCheck op p q n = some .locked) ∧
    ((u.locked = false ∨ opLocked op = true) →
      (u.fld (Reg.cmdPortcfg (portAcct q)) 0 16 ≤ u.tagsIn (portAcct q) → u.entryCheck op p q n = some .noCredit) ∧
      (u.tagsIn (portAcct q) < u.fld (Reg.cmdPortcfg (portAcct q)) 0 16 →
        ((∃ c ∈ u.tags, c.port = q ∧ c.src = n ∧ c.tag = p.tag.toNat) → u.entryCheck op p q n = some .tagInUse) ∧
        ((∀ c ∈ u.tags, ¬(c.port = q ∧ c.src = n ∧ c.tag = p.tag.toNat)) →
          (targetOk op p.target.toNat = false → u.entryCheck op p q n = some .badTarget) ∧
          (targetOk op p.target.toNat = true → lengthOk op p.words.length = false →
            u.entryCheck op p q n = some .badLength) ∧
          (targetOk op p.target.toNat = true → lengthOk op p.words.length = true → ∀ wrong uses late : Prop,
            (wrong ↔ op = .groupStartAt ∧ p.stamped = false ∨
              op ≠ .groupStartAt ∧ op ≠ .groupHalt ∧ p.stamped ≠ u.stampedOrder q) →
            (uses ↔ op = .groupStartAt ∨ u.stampedOrder q = true ∧ op ≠ .groupHalt) →
            (late ↔ extend u.net p.stamp.toNat < u.net + u.stampLead op) →
            (wrong → u.entryCheck op p q n = some .stateRefused) ∧
            (¬wrong → uses → late → p.lateOk = false → u.entryCheck op p q n = some .stampPast) ∧
            (¬wrong → (¬uses ∨ ¬late ∨ p.lateOk = true) → u.entryCheck op p q n = none))))) ∧
    (u.slowLevel = false → u.level = 3 → u.stampLead op = if opMotion op ∨ op = .groupStartAt then 4000 else 800) ∧
    (u.slowLevel = true → 2 ≤ u.level → u.stampLead op = if opMotion op ∨ op = .groupStartAt then 8000 else 1600) ∧
    (u.level ≤ 1 → opMotion op = false → op ≠ .groupStartAt → u.stampLead op = 3200)

/-- The final reply closes its command's tag and no other, is sent to the port and source the command came from with the
command's OPCODE, TAG and TARGET, and touches no axis, bank, byte of the pool or network state (R40, R42). -/
def Obligations.AFinalReplyClosesItsTag : Prop :=
  ∀ (s : State) (c : Cmd) (st : Status) (ws : List Word) (n : Nat), s.tagsOk → c ∈ s.tags →
    (s.finish c.id st ws n).tags.map Cmd.id = (s.tags.map Cmd.id).filter (fun i => i != c.id) ∧
    (∃ r, (s.finish c.id st ws n).replies = s.replies ++ [r] ∧ r.port = c.port ∧ r.src = c.src ∧ r.op = opCode c.op ∧
      r.tag = c.tag ∧ r.target = c.target ∧ r.stamped = c.stamped ∧ r.stamp = n % 2 ^ 40 ∧ r.status = st ∧ r.words = ws) ∧
    (s.finish c.id st ws n).axes = s.axes ∧ (s.finish c.id st ws n).banks = s.banks ∧
    (s.finish c.id st ws n).mem = s.mem ∧ (s.finish c.id st ws n).netw = s.netw ∧
    ∀ k, (∀ i < 4, k ≠ Reg.poolTracePtr i) → (s.finish c.id st ws n).reg k = s.reg k

/-- A packet that has been entered but must wait does nothing yet: one that does not close its burst is held in it (R56);
a STAMPED one of kind U or X waits for its stamp, one of kind S or W in the queue of its axis until it is due (R60); one
that Table 2-9 makes wait stays in that queue (R50). Each is one more open command. -/
def Obligations.AnEnteredPacketThatMustWaitOnlyWaits : Prop :=
  (∀ (u : State) (op : Op) (p : Packet), p.port ≠ .boot → u.portOpen p.port = true →
    u.notMember (some op) p.target.toNat = false →
    u.entryCheck op p (u.entryPort p.port) (originOf p (u.entryPort p.port)) = none → op ≠ .groupHalt →
    u.stampedOrder (u.entryPort p.port) = false → p.lastInBurst = false →
    (u.held? (u.entryPort p.port) (originOf p (u.entryPort p.port))).length < 63 →
    ∃ c, (u.arrive op p).tags = u.tags ++ [c] ∧ c.op = op ∧ c.place = .burst ∧ c.tag = p.tag.toNat ∧
      (u.arrive op p).axes = u.axes ∧ (u.arrive op p).mem = u.mem ∧ (u.arrive op p).desc = u.desc ∧
      (u.arrive op p).netw = u.netw ∧ (u.arrive op p).pwr = u.pwr) ∧
  (∀ (u : State) (op : Op) (p : Packet), u.tagsOk → p.port ≠ .boot → u.portOpen p.port = true →
    u.notMember (some op) p.target.toNat = false →
    u.entryCheck op p (u.entryPort p.port) (originOf p (u.entryPort p.port)) = none → op ≠ .groupHalt →
    op ≠ .groupStartAt → (opKind op = .u ∨ opKind op = .x) →
    u.stampedOrder (u.entryPort p.port) = true → u.net + u.stampLead op ≤ extend u.net p.stamp.toNat →
    u.net < extend u.net p.stamp.toNat →
    ∃ c, (u.arrive op p).tags = u.tags ++ [c] ∧ c.op = op ∧ c.place = .stamped ∧
      c.stamp = extend u.net p.stamp.toNat ∧ (u.arrive op p).axes = u.axes ∧ (u.arrive op p).mem = u.mem ∧
      (u.arrive op p).desc = u.desc ∧ (u.arrive op p).netw = u.netw ∧ (u.arrive op p).pwr = u.pwr) ∧
  (∀ (u : State) (op : Op) (p : Packet) (a : AxisId), u.tagsOk → p.port ≠ .boot → u.portOpen p.port = true →
    u.notMember (some op) p.target.toNat = false → opTarget op = .axis → p.target.toNat = a.val →
    u.entryCheck op p (u.entryPort p.port) (originOf p (u.entryPort p.port)) = none →
    (kindOf op p.words = .s ∨ kindOf op p.words = .w) → u.stampedOrder (u.entryPort p.port) = true →
    u.net + u.stampLead op < extend u.net p.stamp.toNat →
    (∀ c ∈ u.tags, c.on a = true → c.place ≠ .queued ∧ c.place ≠ .excess) →
    ∃ c, (u.arrive op p).tags = u.tags ++ [c] ∧ c.op = op ∧ c.place = .queued ∧ c.stamp = extend u.net p.stamp.toNat ∧
      c.due + u.stampLead op = c.stamp ∧ (u.arrive op p).axes = u.axes ∧ (u.arrive op p).mem = u.mem ∧
      (u.arrive op p).desc = u.desc ∧ (u.arrive op p).netw = u.netw ∧ (u.arrive op p).pwr = u.pwr) ∧
  (∀ (s u : State) (dt : Nat) (op : Op) (p : Packet) (a : AxisId) (i : Instr), u = s.advance dt →
    axisInstr dt p op = some i → s.tagsOk → u.Reaches op p a → u.verdict a op = .waits →
    ∃ t c, exec i s = .next t ∧ t.tags = u.tags ++ [c] ∧ c.op = op ∧ c.place = .queued ∧ c.tag = p.tag.toNat ∧
      t.axes = u.axes ∧ t.banks = u.banks ∧ t.mem = u.mem ∧ t.desc = u.desc ∧ t.netw = u.netw ∧ t.pwr = u.pwr)

/-! ## What each packet does

Each is said for a packet that is carried out at once: `State.Runs` and `State.RunsOn` (Safety) hold the conditions. `c` is
its command, `v` the state with the command running and its tag open. -/

/-- The queries answer from the state: NOP, ECHO, TIME_QUERY, REG_READ and REG_READ_MULTI (R47, R48, Table 2-6). A read
refuses the pool window, and a run that enters it at any word names the run's address at fault; a read repairs a
disagreement that it finds in a word it reads, also one that a data register or AXF.STATE shows (R324), and changes nothing
else; one that reaches an entry of the Ember log that is being written waits (Table 17-3). That a count out of range names
w1 only where w0 lies outside the pool window is log 57. -/
def Obligations.QueriesAnswerFromTheState : Prop :=
  ∀ (s v : State) (dt : Nat) (p : Packet) (c : Cmd),
    (s.Runs dt .nop p c v → exec (.nop dt p) s = .next (v.finish c.id .done [] v.net)) ∧
    (s.Runs dt .echo p c v → exec (.echo dt p) s = .next (v.finish c.id .done p.words v.net)) ∧
    (s.Runs dt .timeQuery p c v → exec (.timeQuery dt p) s = .next (v.finish c.id .done
      [hiWord64 v.net, loWord64 v.net, BitVec.ofNat 32 (v.hearth.sec / 2 ^ 32 % 256), BitVec.ofNat 32 v.hearth.sec,
        BitVec.ofNat 32 (v.hearth.acc / 65536 * 256 + v.timeStatus)] v.net)) ∧
    (s.Runs dt .regRead p c v → exec (.regRead dt p) s = .next (
      if isPool (wordAt p.words 0) then v.fail c.id .outOfRange 0 0 v.net
      else if v.windowBusy (wordAt p.words 0) then v
      else (v.found (wordAt p.words 0)).finish c.id .done [v.readAddr (wordAt p.words 0)] v.net)) ∧
    (s.Runs dt .regReadMulti p c v → ∀ (addr : Word) (n : Nat), addr = wordAt p.words 0 → n = (wordAt p.words 1).fld 0 6 →
      (1 ≤ n → n ≤ 60 → (∀ i < n, isPool (addr + BitVec.ofNat 32 (4 * i)) = false) →
        (∃ i < n, v.windowBusy (addr + BitVec.ofNat 32 (4 * i)) = true) → exec (.regReadMulti dt p) s = .next v) ∧
      (1 ≤ n → n ≤ 60 → (∀ i < n, isPool (addr + BitVec.ofNat 32 (4 * i)) = false) →
        (∀ i < n, v.windowBusy (addr + BitVec.ofNat 32 (4 * i)) = false) →
        exec (.regReadMulti dt p) s = .next (
          ((List.range n).foldl (fun t i => t.found (addr + BitVec.ofNat 32 (4 * i))) v).finish c.id .done
            ((List.range n).map fun i => v.readAddr (addr + BitVec.ofNat 32 (4 * i))) v.net)) ∧
      (1 ≤ n → n ≤ 60 → (∃ i < n, isPool (addr + BitVec.ofNat 32 (4 * i)) = true) →
        exec (.regReadMulti dt p) s = .next (v.fail c.id .outOfRange 0 0 v.net)) ∧
      (isPool addr = false → (n = 0 ∨ 60 < n) → exec (.regReadMulti dt p) s = .next (v.fail c.id .outOfRange 1 0 v.net)) ∧
      (isPool addr = true → exec (.regReadMulti dt p) s = .next (v.fail c.id .outOfRange 0 0 v.net))) ∧
    (∀ addr k, decodeAddr addr = .reg k →
      v.found addr = (if triplReg (v.shownWord k) = true ∧ v.mismatch (v.shownWord k) ≠ [] then v.scrubWord (v.shownWord k)
        else v) ∧
      (v.windowBusy addr = true ↔ k = Reg.hrtRamdata ∧ v.fld Reg.hrtRamaddr 14 2 = 2 ∧ v.hearth.writing ≠ none ∧
        v.fld Reg.hrtRamaddr 2 12 / 8 = v.hearth.next)) ∧
    (∀ a : AxisId, v.shownWord (Reg.loopPdata a) = paramKey 3 a (v.fld (Reg.loopPsel a) 0 10) ∧
      v.shownWord (Reg.axfState a) = retFlag a)

/-- REG_WRITE writes a register as a bus write does, and completes; a keyed register or a complement slot is refused with
KEY_MISMATCH and written by REG_WRITE_KEYED, both words in one command (R47, R320, R323). A write that changes MSIZE,
DRIVE or MODE of an axis with a staged command is refused with STATE_REFUSED and writes nothing (R358); one that would
clear a trip whose condition still holds is carried to FLT.TRIPSTAT, which refuses it, and answers TRIP_ACTIVE (R189). A
bit-alias address is no register to REG_WRITE_KEYED: that is the model's choice (log 57). -/
def Obligations.RegisterWritePacketsWriteTheRegister : Prop :=
  ∀ (s v : State) (dt : Nat) (p : Packet) (c : Cmd) (addr w : Word), addr = wordAt p.words 0 → w = wordAt p.words 1 →
    (s.Runs dt .regWrite p c v →
      (∀ k x, isPool addr = false → v.wordOf addr w = (k, x) → keyedReg k = false → complementOf k = none →
        (v.stagedWrite k x = true → exec (.regWrite dt p) s = .next (v.fail c.id .stateRefused 0 0 v.net)) ∧
        (v.stagedWrite k x = false → k = Reg.fltTripstat → v.trips.toNat &&& x.fld 0 16 ≠ 0 →
          exec (.regWrite dt p) s =
            .next ((v.busWrite c.port addr w).fail c.id .tripActive 0 0 (v.busWrite c.port addr w).net)) ∧
        (v.stagedWrite k x = false → (k = Reg.fltTripstat → v.trips.toNat &&& x.fld 0 16 = 0) →
          exec (.regWrite dt p) s = .next ((v.busWrite c.port addr w).done c.id))) ∧
      (∀ k x, isPool addr = false → v.wordOf addr w = (k, x) → (keyedReg k = true ∨ (complementOf k).isSome = true) →
        exec (.regWrite dt p) s = .next ((v.refusedWrite c.port).fail c.id .keyMismatch 0 0 (v.refusedWrite c.port).net)) ∧
      (isPool addr = true → exec (.regWrite dt p) s = .next (v.fail c.id .outOfRange 0 0 v.net))) ∧
    (s.Runs dt .regWriteKeyed p c v → ∀ k, decodeAddr addr = .reg k →
      (keyedReg k = true → wordAt p.words 2 = ~~~w →
        exec (.regWriteKeyed dt p) s =
          .next (((v.busWrite c.port (keyAddr k) w).busWrite c.port (keyAddr k + 0x40) (~~~w)).done c.id)) ∧
      (keyedReg k = true → wordAt p.words 2 ≠ ~~~w →
        exec (.regWriteKeyed dt p) s = .next ((v.keyFail c.port 1).fail c.id .keyMismatch 2 0 (v.keyFail c.port 1).net)) ∧
      (keyedReg k = false → exec (.regWriteKeyed dt p) s = .next (v.fail c.id .outOfRange 0 0 v.net))) ∧
    (s.Runs dt .regWriteKeyed p c v → (∀ k, decodeAddr addr ≠ .reg k) →
      exec (.regWriteKeyed dt p) s = .next (v.fail c.id .outOfRange 0 0 v.net)) ∧
    (∀ k, decodeAddr addr = .reg k → v.wordOf addr w = (k, w)) ∧
    (∀ k i, decodeAddr addr = .bit k i → v.wordOf addr w = (k, (v.readKey k &&& v.rwBits k).setBit i (w.bit 0)))

/-- PL_REQUEST, TIME_SOURCE_SELECT, LOG_READ and LOG_MARK (R391, R349, R408 to R410, Table 2-6): a power level is requested;
a time source is selected, given with its complement; whole entries of the log are read, once no write of one of them is
under way; an entry of the user's is queued and its command waits for the write. -/
def Obligations.ModuleRequestsReachTheirUnit : Prop :=
  ∀ (s v : State) (dt : Nat) (p : Packet) (c : Cmd) (w : Word), w = wordAt p.words 0 →
    (s.Runs dt .plRequest p c v →
      (w.fld 2 30 = 0 → exec (.plRequest dt p) s = .next (v.requestLevel (w.fld 0 2) (some c.id) false)) ∧
      (w.fld 2 30 ≠ 0 → exec (.plRequest dt p) s = .next (v.fail c.id .outOfRange 0 0 v.net))) ∧
    (s.Runs dt .timeSourceSelect p c v →
      (w.fld 0 4 ≤ 2 → wordAt p.words 1 = ~~~w →
        exec (.timeSourceSelect dt p) s = .next ((v.sendStarted c.id).select (w.fld 0 4) (some c.id))) ∧
      (w.fld 0 4 ≤ 2 → wordAt p.words 1 ≠ ~~~w →
        exec (.timeSourceSelect dt p) s = .next (v.fail c.id .keyMismatch 1 0 v.net)) ∧
      (2 < w.fld 0 4 → exec (.timeSourceSelect dt p) s = .next (v.fail c.id .outOfRange 0 0 v.net))) ∧
    (s.Runs dt .logRead p c v →
      (∀ slots, slots = (List.range (w.fld 16 3)).map (fun i => (w.fld 0 9 + i) % 512) → slots ≠ [] →
        v.hearth.writing ≠ none → v.hearth.next ∈ slots → exec (.logRead dt p) s = .next v) ∧
      (∀ slots, slots = (List.range (w.fld 16 3)).map (fun i => (w.fld 0 9 + i) % 512) → slots ≠ [] →
        (v.hearth.writing = none ∨ v.hearth.next ∉ slots) →
        exec (.logRead dt p) s = .next (v.finish c.id .done
          (slots.flatMap v.emberEntry) v.net)) ∧
      (w.fld 16 3 = 0 → exec (.logRead dt p) s = .next (v.fail c.id .outOfRange 0 0 v.net))) ∧
    (s.Runs dt .logMark p c v → ∃ q, exec (.logMark dt p) s = .next (v.queueEmber q) ∧
        (v.queueEmber q).hearth.queue = v.hearth.queue ++ [q] ∧ (v.queueEmber q).tags = v.tags ∧ q.why = .mark c.id ∧ q.words.length = 8 ∧
        q.words.drop 3 = (p.words ++ List.replicate 5 0).take 5)

/-- The pool's packets (R69, R73 to R76, R80 to R82, Table 3-3): POOL_ALLOC takes free blocks for the caller; POOL_FREE
and POOL_GIVE act when every block passes its check, and not at all otherwise, a block that is not the caller's being an
ownership violation; POOL_WRITE writes words into blocks the caller owns; POOL_READ reads any; an offset that is no
multiple of 4, or words past the end, are refused with OUT_OF_RANGE; a word whose doubleword holds a double-bit error is
not written, and a read of it fails. `y` is the state once the POOL item of the request is with the trace rings (Table
1-3; log 56). -/
def Obligations.PoolPacketsActOnTheirBlocks : Prop :=
  ∀ (s v y : State) (dt : Nat) (p : Packet) (c : Cmd) (w : Word), w = wordAt p.words 0 → y = v.poolItem c.hdr 127 →
    (s.Runs dt .poolAlloc p c v → ∀ n, n = w.fld 0 6 →
      (1 ≤ n → n ≤ 60 → n ≤ y.freeCount → ∃ ks t, State.allocBlocks n (callerId c.port) 3 y = (ks, t) ∧ ks.length = n ∧
        exec (.poolAlloc dt p) s = .next (t.finish c.id .done (ks.map fun k => BitVec.ofNat 32 k) t.net) ∧
        (v.Wf → ks.Nodup ∧ ∀ k ∈ ks, k < 32768 ∧ v.blk k = Desc.free ∧ k ∉ v.zeroing ∧
          t.blk k = { Desc.free with owner := callerId c.port, lender := 3 })) ∧
      (1 ≤ n → n ≤ 60 → y.freeCount < n → exec (.poolAlloc dt p) s = .next (y.fail c.id .poolEmpty 0 0 y.net)) ∧
      ((n = 0 ∨ 60 < n) → exec (.poolAlloc dt p) s = .next (y.fail c.id .outOfRange 0 0 y.net))) ∧
    (s.Runs dt .poolFree p c v →
      (firstBad (y.freeCheck c.port) 0 p.words = none →
        exec (.poolFree dt p) s = .next ((p.words.foldl (fun t w => t.portFree (w.fld 0 15)) y).done c.id)) ∧
      (∀ i, firstBad (y.freeCheck c.port) 0 p.words = some (i, .alreadyFree) →
        exec (.poolFree dt p) s = .next (y.fail c.id .alreadyFree i 0 y.net)) ∧
      (∀ i, firstBad (y.freeCheck c.port) 0 p.words = some (i, .notOwner) → exec (.poolFree dt p) s =
        .next ((y.violation (callerId c.port) ((wordAt p.words i).fld 0 15)).fail c.id .notOwner i 0 y.net))) ∧
    (s.Runs dt .poolGive p c v →
      (firstBad (y.giveCheck c.port) 0 p.words = none → exec (.poolGive dt p) s = .next
        ((p.words.foldl (fun t w => t.giveBlock (callerId c.port) (w.fld 24 8) (w.fld 0 15)) y).done c.id)) ∧
      (∀ i st, firstBad (y.giveCheck c.port) 0 p.words = some (i, st) → st ≠ .notOwner →
        exec (.poolGive dt p) s = .next (y.fail c.id st i 0 y.net)) ∧
      (∀ i, firstBad (y.giveCheck c.port) 0 p.words = some (i, .notOwner) → exec (.poolGive dt p) s =
        .next ((y.violation (callerId c.port) ((wordAt p.words i).fld 0 15)).fail c.id .notOwner i 0 y.net))) ∧
    (s.Runs dt .poolWrite p c v → ∀ o, o = w.fld 0 23 →
      ((o % 4 ≠ 0 ∨ 0x800000 < o + 4 * (p.words.length - 1)) →
        exec (.poolWrite dt p) s = .next (y.fail c.id .outOfRange 0 0 y.net)) ∧
      (o % 4 = 0 → o + 4 * (p.words.length - 1) ≤ 0x800000 →
        (∀ i b, y.writeCheck c.port o (p.words.length - 1) = some (i, b) → exec (.poolWrite dt p) s =
          .next ((y.violation (callerId c.port) b).fail c.id .notOwner (1 + i) 0 y.net)) ∧
        (y.writeCheck c.port o (p.words.length - 1) = none → v.ecc = [] → Memory.wf v.mem = true →
          ∃ t : State, exec (.poolWrite dt p) s = .next (t.done c.id) ∧ t.tags = v.tags ∧ t.axes = v.axes ∧ t.desc = v.desc ∧
            (∀ j, 1 ≤ j → j < p.words.length → t.word (o + 4 * (j - 1)) = wordAt p.words j) ∧
            ∀ b, (b < o ∨ o + 4 * (p.words.length - 1) ≤ b) → t.byte b = v.byte b) ∧
        (y.writeCheck c.port o (p.words.length - 1) = none → p.words.length = 2 →
          (v.ecc.find? fun e => e.1 == o / 8) = some (o / 8, true) → ∀ t, t = y.bump Reg.poolEccstat 16 8 →
          exec (.poolWrite dt p) s = .next ((t.setBlk (o / 8 / 32) { t.blk (o / 8 / 32) with poison := true }).fail c.id
            .internalError 0 0 y.net)))) ∧
    (s.Runs dt .poolRead p c v → ∀ o n, o = w.fld 0 23 → n = (wordAt p.words 1).fld 0 6 →
      ((o % 4 ≠ 0 ∨ 0x800000 < o + 4 * n) → exec (.poolRead dt p) s = .next (y.fail c.id .outOfRange 0 0 y.net)) ∧
      (o % 4 = 0 → o + 4 * n ≤ 0x800000 → (n = 0 ∨ 60 < n) →
        exec (.poolRead dt p) s = .next (y.fail c.id .outOfRange 1 0 y.net)) ∧
      (o % 4 = 0 → 1 ≤ n → n ≤ 60 → o + 4 * n ≤ 0x800000 → v.ecc = [] →
        exec (.poolRead dt p) s = .next (y.finish c.id .done ((List.range n).map fun i => v.word (o + 4 * i)) y.net)) ∧
      (o % 4 = 0 → 1 ≤ n → n ≤ 60 → o + 4 * n ≤ 0x800000 → ∀ t,
        y.eccReads ((o + 4 * n + 7) / 8 - o / 8) (o / 8) = (true, t) →
        exec (.poolRead dt p) s = .next ((t.raiseC0 9 0x1b .module).fail c.id .internalError 0 0 t.net)))

/-- The group packets (R354 to R359, R361, R362): JOIN makes the module a member with the axes of its mask or adds them,
when no other group has one of them, no seventeenth group arises and the member is JOINED; LEAVE takes axes away, with a
mask of 0 it disarms; ARM arms a JOINED member whose digest, command version and time agree; START_AT, on a port of either
order, commits an ARMED member whose every axis holds a staged command; HALT raises GROUP_HALT on each axis and disarms:
at C0 the staged commands end with it, above C0 the class action ends them, which is the model's choice (log 16). The rest
of what a halt or a disarm ends with is log 29's. -/
def Obligations.GroupPacketsMoveTheMember : Prop :=
  ∀ (s v : State) (dt : Nat) (p : Packet) (c : Cmd) (g : Nat), g = p.target.toNat - 0x8000 →
    (s.Runs dt .groupJoin p c v → ∀ i < 3,
      (∃ j ∈ v.netw.members, j.group ≠ g ∧ (j.axes &&& maskOf p.words).extractLsb' (32 * i) 32 ≠ 0) →
      (∀ k < i, ∀ j ∈ v.netw.members, j.group ≠ g → (j.axes &&& maskOf p.words).extractLsb' (32 * k) 32 = 0) →
      exec (.groupJoin dt p) s = .next (v.fail c.id .outOfRange i 0 v.net)) ∧
    (s.Runs dt .groupJoin p c v → (∀ j ∈ v.netw.members, j.group ≠ g → j.axes &&& maskOf p.words = 0) →
      (maskOf p.words = 0 → exec (.groupJoin dt p) s = .next (v.done c.id)) ∧
      (maskOf p.words ≠ 0 → v.member g = none → v.netw.members.length < 16 → exec (.groupJoin dt p) s =
        .next ((v.setMembers (v.netw.members ++ [⟨g, maskOf p.words, .joined, 0, 0, 0, none, 0, false⟩])).done c.id)) ∧
      (maskOf p.words ≠ 0 → v.member g = none → 16 ≤ v.netw.members.length →
        exec (.groupJoin dt p) s = .next (v.fail c.id .stateRefused 0 0 v.net)) ∧
      (∀ m, maskOf p.words ≠ 0 → v.member g = some m → m.st ≠ .joined →
        exec (.groupJoin dt p) s = .next (v.fail c.id .stateRefused 0 0 v.net)) ∧
      (∀ m, maskOf p.words ≠ 0 → v.member g = some m → m.st = .joined → exec (.groupJoin dt p) s =
        .next ((v.modMember g fun m => { m with axes := m.axes ||| maskOf p.words }).done c.id))) ∧
    (s.Runs dt .groupLeave p c v → ∀ m, v.member g = some m →
      (maskOf p.words = 0 → exec (.groupLeave dt p) s = .next ((v.disarm m).done c.id)) ∧
      (maskOf p.words ≠ 0 → m.st = .joined → m.axes &&& ~~~maskOf p.words ≠ 0 → exec (.groupLeave dt p) s =
        .next ((v.modMember g fun k => { k with axes := m.axes &&& ~~~maskOf p.words }).done c.id)) ∧
      (maskOf p.words ≠ 0 → m.st = .joined → m.axes &&& ~~~maskOf p.words = 0 → exec (.groupLeave dt p) s =
        .next ((v.setMembers (v.netw.members.filter fun k => k.group != g)).done c.id)) ∧
      (maskOf p.words ≠ 0 → m.st ≠ .joined → exec (.groupLeave dt p) s = .next (v.fail c.id .stateRefused 0 0 v.net))) ∧
    (s.Runs dt .groupArm p c v → ∀ m tol, v.member g = some m → m.st = .joined →
      tol = (if (wordAt p.words 2).fld 0 16 = 0 then 1000 else (wordAt p.words 2).fld 0 16) →
      (wordAt p.words 0 = v.digest m → (wordAt p.words 1).fld 0 16 = v.fld Reg.idCmdver 0 16 → v.timeWithin tol = true →
        exec (.groupArm dt p) s = .next ((v.modMember g fun m =>
          { m with st := .armed, tol := tol, digest := wordAt p.words 0, within := true }).done c.id)) ∧
      (wordAt p.words 0 ≠ v.digest m → exec (.groupArm dt p) s = .next
        (((v.modMember g fun m => { m with refusal := 1 }).grpEvent 1).fail c.id .groupMismatch 0 0 v.net)) ∧
      (wordAt p.words 0 = v.digest m → (wordAt p.words 1).fld 0 16 = v.fld Reg.idCmdver 0 16 → v.timeWithin tol = false →
        exec (.groupArm dt p) s = .next
          (((v.modMember g fun m => { m with refusal := 3 }).grpEvent 2).fail c.id .timeDiverged 0 0 v.net))) ∧
    ((s.Runs dt .groupStartAt p c v ∨ (s.advance dt).EntersByStamp .groupStartAt p ∧
        c = (s.advance dt).cmdOf .groupStartAt p ∧ v = (s.advance dt).opened .groupStartAt p) → ∀ m y, v.member g = some m → m.st = .armed →
      y = v.modMember g (fun k => { k with within := v.timeWithin m.tol }) →
      (v.timeWithin m.tol = true → (∀ a ∈ m.list, v.stagedOk a = true ∧ (v.ax a).hasRec = false) →
        exec (.groupStartAt dt p) s =
          .next (((if c.wantAccept then y.reply c.port c.src (opCode .groupStartAt) c.tag c.target c.stamped .accepted []
            v.net false true else y).sendStarted c.id).modMember g fun m =>
              { m with st := .committed, start := some c.id, at_ := c.stamp })) ∧
      (v.timeWithin m.tol = false →
        exec (.groupStartAt dt p) s = .next ((y.grpEvent 2).fail c.id .timeDiverged 0 0 v.net))) ∧
    ((s.advance dt).Enters .groupHalt p → c = (s.advance dt).cmdOf .groupHalt p → v = (s.advance dt).opened .groupHalt p →
      ∀ m w, v.member g = some m → w = m.list.foldl (fun t a => t.raiseAx 20 0x19 0 a) v →
      (v.classOf 0x19 = 0 ∨ m.st = .joined → exec (.groupHalt dt p) s =
        .next (((((w.disarm m).grpEvent 0).bump Reg.timeGrpstat 16 8).done c.id).endBurst c.port c.src)) ∧
      (v.classOf 0x19 ≠ 0 → m.st ≠ .joined → exec (.groupHalt dt p) s =
        .next ((((((((w.endStart m .aborted).modMember g fun m => { m with st := .joined, start := none }).grpEvent 4).grpEvent
          0).bump Reg.timeGrpstat 16 8).done c.id)).endBurst c.port c.src)))

/-- The commands that change an axis's state (R51, R156 to R158, R287, R308, R309, R373), taken where Table 2-9 allows:
energising and the diagnostics start unless the level, the clock or a gate that is on is against them, a release begins or
a second one joins it (log 42), a retirement and a reinstatement with its key begin; that a retirement counts from its
start on, but for the diagnostics, is log 60. -/
def Obligations.AxisStateCommandsBeginTheirWork : Prop :=
  ∀ (s v w : State) (dt : Nat) (p : Packet) (a : AxisId) (c : Cmd), w = v.sendStarted c.id →
    (s.RunsOn dt .axisEnergise p a c v →
      (2 ≤ v.level → v.gateShort = false → v.clockBad = false →
        exec (.axisEnergise dt p) s = .next (w.startEnergise a c.id)) ∧
      (v.level ≤ 1 → exec (.axisEnergise dt p) s = .next (v.fail c.id .stateRefused 0 0 v.net)) ∧
      (2 ≤ v.level → v.gateShort = true ∨ v.clockBad = true → exec (.axisEnergise dt p) s = .next (v.failState c.id 0xe))) ∧
    (s.RunsOn dt .axisRelease p a c v →
      (((v.ax a).st = .faulted → (v.ax a).energised = true) → (v.ax a).chp.ampst ≠ .release →
        exec (.axisRelease dt p) s = .next (w.beginRelease a c.id)) ∧
      (((v.ax a).st = .faulted → (v.ax a).energised = true) → (v.ax a).chp.ampst = .release →
        exec (.axisRelease dt p) s = .next w) ∧
      ((v.ax a).st = .faulted → (v.ax a).energised = false → exec (.axisRelease dt p) s = .next (w.done c.id))) ∧
    (s.RunsOn dt .axisDiagOffstate p a c v → ((v.ax a).st = .faulted → v.anyGate a = false) → v.clockBad = false →
      exec (.axisDiagOffstate dt p) s = .next (w.startDiag a c.id false)) ∧
    (s.RunsOn dt .axisDiagOffstate p a c v → (v.ax a).st = .faulted → v.anyGate a = true →
      exec (.axisDiagOffstate dt p) s = .next (v.fail c.id .axisFaulted 0 0 v.net)) ∧
    (s.RunsOn dt .axisSelftestCmp p a c v → ((v.ax a).st = .faulted → v.anyGate a = false) → v.clockBad = false →
      exec (.axisSelftestCmp dt p) s = .next (w.startDiag a c.id true)) ∧
    (s.RunsOn dt .axisRetire p a c v →
      exec (.axisRetire dt p) s = .next ((v.swRetire a (some c.id) false).spreadShares)) ∧
    (s.RunsOn dt .axisReinstate p a c v → ∀ k, k = BitVec.ofNat 32 (0xc3a50000 + a.val) → (v.ax a).fault.retPhase = .none →
      (wordAt p.words 0 = k → wordAt p.words 1 = ~~~k →
        exec (.axisReinstate dt p) s = .next (v.reinstate a (some c.id) false)) ∧
      (wordAt p.words 0 ≠ k → exec (.axisReinstate dt p) s = .next (v.fail c.id .keyMismatch 0 0 v.net)) ∧
      (wordAt p.words 0 = k → wordAt p.words 1 ≠ ~~~k →
        exec (.axisReinstate dt p) s = .next (v.fail c.id .keyMismatch 1 0 v.net))) ∧
    (s.RunsOn dt .axisReinstate p a c v → (v.ax a).fault.retPhase ≠ .none →
      wordAt p.words 0 = BitVec.ofNat 32 (0xc3a50000 + a.val) → wordAt p.words 1 = ~~~(wordAt p.words 0) →
      exec (.axisReinstate dt p) s = .next (v.fail c.id .stateRefused 0 0 v.net))

/-- The motion commands (R45, R91, R93 to R103): a payload value out of its range is refused with the index of its word;
else the plan is made from the state at the splice instant, a planning lead after the commit and with what PRO commits until
then, and takes over, unless NO_REVERSE forbids its reversal; a move to where the axis rests completes at once; a SEG_RUN
needs a block of the axis and entries that pass their checks; a double-bit error met among them ends the command by
POOL_ECC_UE (Table 3-5). A command that is refused leaves the running one as it is: nothing has been committed for it. A run
of a block that the axis does not own is refused for its soft limits first (log 64). The commit comes within the bound of
Table 4-4, at an instant that is free (log 40). -/
def Obligations.MotionCommandsAskForTheirPlan : Prop :=
  ∀ (s v y : State) (dt : Nat) (p : Packet) (a : AxisId) (c : Cmd) (ts commit : Nat) (p0 v0 : Rat),
    v.spliceAt a none = (ts, commit, y) → (y.ax a).pro.at ts = (p0, v0) →
    (v.net ≤ commit ∧ commit ≤ v.net + (if v.slowLevel = true then 2400 else 1200) ∧ ts = commit + v.lead ∧
      y = v.drawn.reach a ts) ∧
    (∀ i op rel, (i = Instr.moveAbs dt p ∧ op = Op.moveAbs ∧ rel = false ∨ i = .moveRel dt p ∧ op = .moveRel ∧ rel = true) →
      s.RunsOn dt op p a c v →
      (∀ j, v.moveValues a rel p.words = .inl j → exec i s = .next (v.fail c.id .outOfRange j 0 v.net)) ∧
      (∀ x vm acc dec nr, v.moveValues a rel p.words = .inr (.move x vm acc dec nr) → ∀ here,
        here = (v.restsUntil a ts && (v.traj a).1 == (x : Rat)) →
        (here = false → (nr = false ∨ needsReversal p0 v0 x dec = false) → ∀ w, w = y.beginMotion a c.id →
          exec i s = .next ((w.setPro a { (w.ax a).pro with target := x }).putPlan a ts (.move c.id x vm acc dec)
            (y.cmdHdr (some c.id)) (planMove p0 v0 x vm acc dec) 0)) ∧
        (here = false → nr = true → needsReversal p0 v0 x dec = true →
          exec i s = .next (v.drawn.fail c.id .outOfRange 8 0 v.net)) ∧
        (here = true → ∀ w, w = (((v.supersede a c.id).sendStarted c.id).rearm a).cutNow a →
          exec i s = .next (((w.setPro a { (w.ax a).pro with target := x, motion := .idle }).finish c.id .done []
            (v.takenAt c.id)).settle a)))) ∧
    (s.RunsOn dt .moveVel p a c v →
      (∀ i, v.velValues a p.words = .inl i → exec (.moveVel dt p) s = .next (v.fail c.id .outOfRange i 0 v.net)) ∧
      (∀ vt acc dec nr, v.velValues a p.words = .inr (.vel vt acc dec nr) →
        ((nr = false ∨ 0 ≤ v0 * vt) → exec (.moveVel dt p) s = .next ((y.beginMotion a c.id).putPlan a ts
          (.vel c.id vt acc dec) (y.cmdHdr (some c.id)) (planVel p0 v0 vt acc dec).1 (planVel p0 v0 vt acc dec).2)) ∧
        (nr = true → v0 * vt < 0 → exec (.moveVel dt p) s = .next (v.drawn.fail c.id .outOfRange 6 0 v.net)))) ∧
    (s.RunsOn dt .segRun p a c v → ∀ b r0, b = (wordAt p.words 0).fld 0 15 →
      r0 = ({ cmd := c.id, hdr := v.drawn.cmdHdr (some c.id), first := b, next := some (b, 0), lastAt := none, loops := [],
              controls := 0, fetched := [], endP := p0, endV := v0, endT := ts, wait := [], cur := none, bad := false, awaits := false,
              blocks := v.drawn.chainOf a 32768 [] b, rejoining := false, rejoinAt := none, rejoinP := 0,
              rejoinLoops := [] } : Run) →
      (v.slBad a = true → exec (.segRun dt p) s = .next (v.fail c.id .outOfRange 0 0 v.net)) ∧
      (v.slBad a = false → (v.blk b).owner ≠ axisOwner a → exec (.segRun dt p) s = .next (v.fail c.id .notOwner 0 0 v.net)) ∧
      (v.slBad a = false → (v.blk b).owner = axisOwner a →
        (∀ r ns z, (wordAt p.words 1).bit 16 = false → State.precheck a 16 r0 [] v.drawn = (.ok r ns, z) →
          exec (.segRun dt p) s = .next ((z.reach a ts).beginRun a ts c.id r ns)) ∧
        (∀ pos r ns z z', (wordAt p.words 1).bit 16 = true →
          v.drawn.findSeg (v.drawn.cmdHdr (some c.id)) a ((wordAt p.words 1).fld 0 16) (b, 0) = (.at_ pos, z) →
          State.precheck a 16 { r0 with hdr := z.cmdHdr (some c.id), next := some pos, blocks := z.chainOf a 32768 [] b } [] z
            = (.ok r ns, z') → exec (.segRun dt p) s = .next ((z'.reach a ts).beginRun a ts c.id r ns)) ∧
        (∀ f z, (wordAt p.words 1).bit 16 = false → State.precheck a 16 r0 [] v.drawn = (f, z) →
          ((∃ id k, f = .bad id k) ∨ ∃ k, f = .chain k) → exec (.segRun dt p) s = .next (z.fail c.id .outOfRange 0 0 z.net)) ∧
        (∀ z, (wordAt p.words 1).bit 16 = true → v.drawn.findSeg (v.drawn.cmdHdr (some c.id)) a ((wordAt p.words 1).fld 0 16) (b, 0) = (.missing, z)
          → exec (.segRun dt p) s = .next (z.fail c.id .outOfRange 0 0 z.net)) ∧
        (∀ z, (wordAt p.words 1).bit 16 = false → State.precheck a 16 r0 [] v.drawn = (.ecc, z) →
          exec (.segRun dt p) s = .next (z.tableUe a c.id)) ∧
        (∀ z, (wordAt p.words 1).bit 16 = true → v.drawn.findSeg (v.drawn.cmdHdr (some c.id)) a ((wordAt p.words 1).fld 0 16) (b, 0) = (.ecc, z)
          → exec (.segRun dt p) s = .next (z.tableUe a c.id))))

/-- SEG_APPEND, refused for its own entries before its table is looked at (log 64), writes its entries behind the last of
a table that the axis owns and moves LAST to the end; a run's chain, which they may have lengthened, is INUSE, and a run
that had fetched that last entry goes on with them;
FOLLOW_START puts the axis into FOLLOWING with the ratio and the channel it names; FOLLOW_END stops the counting;
SET_POSITION shifts the position, and with it the encoder's offset and measured position and a sample on its way (R77,
R102, R110, R123, R135, R137, R209). -/
def Obligations.TableFollowAndPositionCommandsAct : Prop :=
  ∀ (s v : State) (dt : Nat) (p : Packet) (a : AxisId) (c : Cmd),
    (s.RunsOn dt .segAppend p a c v → ∀ first es, first = (wordAt p.words 0).fld 0 15 →
      es = chunk8 ((p.words.length - 1) / 8) (p.words.drop 1) →
      ((v.blk first).owner ≠ axisOwner a → exec (.segAppend dt p) s = .next (v.fail c.id .notOwner 0 0 v.net)) ∧
      ((v.blk first).owner = axisOwner a →
        (∀ i, badAppend 0 es = some i → exec (.segAppend dt p) s = .next (v.fail c.id .outOfRange (1 + 8 * i) 0 v.net)) ∧
        (badAppend 0 es = none → ∀ h, h = v.cmdHdr (some c.id) →
          (∀ z, v.findLast h a first = (.missing, z) → exec (.segAppend dt p) s = .next (z.fail c.id .outOfRange 0 0 z.net)) ∧
          (∀ z, v.findLast h a first = (.ecc, z) → exec (.segAppend dt p) s = .next (z.tableUe a c.id)) ∧
          (∀ b i z, v.findLast h a first = (.at_ (b, i), z) → ∀ res t u,
            State.appendFrom h a (z.blk first).lender es b (i + 1) z = (res, t) →
            u = t.setWord (b * 256 + i * 32) ((t.word (b * 256 + i * 32)).setBit 0 false) →
            (res = .full → exec (.segAppend dt p) s = .next (z.fail c.id .poolEmpty 0 0 z.net)) ∧
            (res = .foreign → exec (.segAppend dt p) s = .next (z.fail c.id .outOfRange 0 0 z.net)) ∧
            (res = .ok → (u.ax a).pro.run = none → exec (.segAppend dt p) s = .next (u.done c.id)) ∧
            (∀ r r' w, res = .ok → (u.ax a).pro.run = some r → r' = { r with blocks := u.chainOf a 32768 [] r.first } →
              w = u.setInuse r'.blocks true →
              exec (.segAppend dt p) s = .next ((w.setPro a { (w.ax a).pro with
                run := some (if r'.lastAt = some (b, i) ∧ r'.next = none ∧ r'.bad = false
                  then { r' with next := some (b, i + 1), lastAt := none } else r') }).done c.id)))))) ∧
    (s.RunsOn dt .followStart p a c v → ∀ ch : ChanId, (wordAt p.words 0).fld 0 7 = ch.val →
      v.fld (fbkPar ch 0) 0 3 = (if (wordAt p.words 0).bit 8 then 4 else 3) →
      (wordAt p.words 1).fld 16 16 ≠ 0 → (wordAt p.words 1).fld 0 16 ≠ 0 →
      (wordAt p.words 1).fld 16 16 ≤ 16 * (wordAt p.words 1).fld 0 16 →
      ∃ (t : State) (f : Follow), exec (.followStart dt p) s = .next (t.done c.id) ∧ t.tags = v.tags ∧
        (t.ax a).st = .following ∧ (t.ax a).stp.follow = some f ∧ f.chan = ch ∧ f.upDown = (wordAt p.words 0).bit 8 ∧
        f.num = (wordAt p.words 1).fld 16 16 ∧ f.den = (wordAt p.words 1).fld 0 16 ∧ f.counting = true ∧
        f.inbox = [] ∧ f.derived = [] ∧ (t.ax a).stp.rem = 0 ∧ (t.ax a).stp.pulses = 0 ∧
        (∀ b, b ≠ a → t.ax b = v.ax b) ∧ t.banks = v.banks ∧ t.mem = v.mem) ∧
    (s.RunsOn dt .followEnd p a c v →
      exec (.followEnd dt p) s = .next (((v.stopCounting a).addEnder a c.id).followEnd a)) ∧
    (s.RunsOn dt .setPosition p a c v → ∀ x d, x = s48 (wordAt p.words 0) (wordAt p.words 1) →
      d = x - roundAway (v.ax a).pro.pos →
      (v.slBad a = false → v.inLimits a x = true → ∃ t : State, exec (.setPosition dt p) s = .next (t.done c.id) ∧
        (t.ax a).pro.pos = x ∧ (t.ax a).stp.q = (v.ax a).stp.q + d ∧
        (t.ax a).loop.ofs = (v.ax a).loop.ofs + (if (v.loopCfg a).encoder then d else 0) ∧
        (t.ax a).loop.pMeas = (v.ax a).loop.pMeas + (if (v.loopCfg a).encoder then d else 0) ∧
        (t.ax a).sample.map Sample.cpos = (v.ax a).sample.map (fun m => m.cpos + d) ∧
        (∀ b, b ≠ a → t.ax b = v.ax b) ∧ t.banks = v.banks ∧ t.mem = v.mem ∧ t.tags = v.tags) ∧
      ((v.slBad a = true ∨ v.inLimits a x = false) →
        exec (.setPosition dt p) s = .next (v.fail c.id .outOfRange 0 0 v.net)))

/-- STOP, HOLD, RESUME and ABORT (R65, R66, R111 to R115, R137, R138): a STOP ends the motion commands and asks for a stop
that it completes with, a second one waits with the first, and in FOLLOWING it ends the following; a stop slows at D_s, an
emergency stop at EDEC; a HOLD suspends the motion command that runs and stops the axis; a RESUME puts the suspended
command in force again; an ABORT ends what it means, and is refused when it means nothing. Where a plan comes into force,
and where an axis that rests, dwells or waits stops at once, is log 40; a STOP that waits for a stop under way is log 59.
-/
def Obligations.StopsAndSuspensionsActOnTheMotion : Prop :=
  ∀ (s v w : State) (dt : Nat) (p : Packet) (a : AxisId) (c : Cmd), w = v.sendStarted c.id →
    (s.RunsOn dt .stop p a c v → ∀ e, e = (wordAt p.words 0).bit 0 →
      ((v.ax a).stp.follow.isSome = true → exec (.stop dt p) s =
        .next ((((if e then w.purgeFollow a else w.stopCounting a).addEnder a c.id).setSt a .stopping).followEnd a)) ∧
      ((v.ax a).stp.follow = none → (v.ax a).st = .stopping →
        ((e = false ∨ (v.ax a).pro.motion.emergency = true) →
          exec (.stop dt p) s = .next (w.addAtRest a [(c.id, .done)])) ∧
        (e = true → (v.ax a).pro.motion.emergency = false → exec (.stop dt p) s =
          .next ((w.addAtRest a ((v.ax a).pro.failing ++ [(c.id, .done)])).askStop a true (some c.id) none))) ∧
      ((v.ax a).stp.follow = none → (v.ax a).st ≠ .stopping → ∀ u ts commit y p0 v0 d,
        u = (w.supersede a c.id).addAtRest a [(c.id, .done)] → u.spliceAt a none = (ts, commit, y) →
        (y.ax a).pro.at ts = (p0, v0) →
        d = (if e then y.edec a else stopDecel (y.stopLimit a) ((y.ax a).pro.slowing ts) (y.edec a)) →
        (y.restsUntil a ts = true → exec (.stop dt p) s = .next (y.stopHere a)) ∧
        (y.restsUntil a ts = false → exec (.stop dt p) s = .next ((y.setSt a .stopping).putPlan a ts (.stop e)
          (y.cmdHdr (some c.id)) (planStop p0 v0 d (if e then .estop else .stop)) 0)))) ∧
    (s.RunsOn dt .hold p a c v → ∀ ts commit y q (now : Bool), w.spliceAt a none = (ts, commit, y) → q = (y.ax a).pro →
      (now = true ↔ ((∃ j, q.motion = .table j) ∧ y.restsUntil a (y.net + 1) = true)) →
      (∀ d u, q.motion.suspends.cmd?.bind y.cmd = some d → u = y.setCmd { d with place := .suspended } →
        (now = false → exec (.hold dt p) s = .next (((u.setPro a { q with
          susp := q.motion.suspends, run := q.interrupted ts }).addAtRest a [(c.id, .done)]).stopAt a ts false (some c.id))) ∧
        (now = true → exec (.hold dt p) s = .next (((u.setPro a { q with
          susp := q.motion.suspends, run := q.interrupted y.net }).addAtRest a [(c.id, .done)]).stopHere a))) ∧
      (q.motion.suspends.cmd?.bind y.cmd = none → now = false → exec (.hold dt p) s = .next (((y.setPro a { q with
          susp := .none, run := q.interrupted ts }).addAtRest a [(c.id, .done)]).stopAt a ts false (some c.id)))) ∧
    (s.RunsOn dt .resume p a c v → ∀ ts commit y p0 v0, v.spliceAt a none = (ts, commit, y) →
      (y.ax a).pro.at ts = (p0, v0) →
      ((v.ax a).pro.susp = .none → exec (.resume dt p) s = .next (v.fail c.id .stateRefused 0 0 v.net)) ∧
      (∀ j x vm acc dec, (v.ax a).pro.susp = .move j x vm acc dec → exec (.resume dt p) s =
        .next ((y.resumeWith a c.id j commit).putPlan a ts (.move j x vm acc dec) (y.cmdHdr (some j))
          (planMove p0 v0 x vm acc dec) 0)) ∧
      (∀ j vt acc dec, (v.ax a).pro.susp = .vel j vt acc dec → exec (.resume dt p) s =
        .next ((y.resumeWith a c.id j commit).putPlan a ts (.vel j vt acc dec) (y.cmdHdr (some j))
          (planVel p0 v0 vt acc dec).1 (planVel p0 v0 vt acc dec).2)) ∧
      (∀ j r, (v.ax a).pro.susp = .table j → (v.ax a).pro.run = some r →
        ((v.proQ a 0 ≤ 0 ∨ v.proQ a 2 ≤ 0 ∨ v.proQ a 4 ≤ 0) →
          exec (.resume dt p) s = .next (v.fail c.id .outOfRange 0 0 v.net)) ∧
        (0 < v.proQ a 0 → 0 < v.proQ a 2 → 0 < v.proQ a 4 →
          (∀ next pos loops z, v.rejoinPoint a r = (.at_ next pos loops, z) →
            exec (.resume dt p) s = .next (z.resumeRun a c.id j r next pos loops none)) ∧
          (∀ z, v.rejoinPoint a r = (.missing, z) →
            exec (.resume dt p) s = .next (z.fail c.id .outOfRange 0 0 z.net)) ∧
          (∀ z, v.rejoinPoint a r = (.ecc, z) → exec (.resume dt p) s = .next (z.tableUe a c.id))))) ∧
    (s.RunsOn dt .abort p a c v → ∀ hit k, k = wordAt p.words 0 →
      hit = (v.tags.filter fun d => (d.id != c.id && d.on a && d.sameOrigin c.port c.src && (k.bit 16 || d.tag == k.fld 0 16)) &&
        (d.waiting || d.place == .staged || d.stoppable)) →
      (hit = [] → exec (.abort dt p) s = .next (v.fail c.id .nothingToAbort 0 (if k.bit 16 then 0 else k.fld 0 16) v.net)) ∧
      (hit ≠ [] → (∀ d ∈ hit, d.stoppable = false) → exec (.abort dt p) s =
        .next ((hit.foldl (fun t d => t.abortOne a c.id none d) w).done c.id)) ∧
      ((∃ d ∈ hit, d.stoppable = true) → exec (.abort dt p) s = .next (hit.foldl (fun t d => t.abortOne a c.id none d) w)))

/-- Packets that carry no command: one of a wrong version or opcode is answered BAD_OPCODE, one that fails its CRC is
counted against the port it came on; a burst open for 100 µs is broken; a stamped command is taken at its stamp, a queued
one when it is at the head and may be (R39, R43, R50, R57, R60); its place in the queue goes to the oldest command that
waits for one (Table 2-10). A motion command is taken one planning lead before its stamp (log 27), and one whose engine is
gated waits (Table 15-3). -/
def Obligations.TheEngineActsOnWhatWaits : Prop :=
  ∀ (s u : State) (dt : Nat), u = s.advance dt →
    (∀ (ver : BitVec 4) (opc : Byte) (p : Packet), p.port ≠ .boot → u.portOpen p.port = true →
      (ver ≠ 1 ∨ opOf opc.toNat = none) → u.notMember none p.target.toNat = false →
      exec (.badOpcode dt ver opc p) s = .next (u.reply (u.entryPort p.port) (originOf p (u.entryPort p.port))
        (opc.toNat + 256 * (ver.toNat ^^^ 1)) p.tag.toNat p.target.toNat p.stamped .badOpcode
        [detail (u.stateOf p.target.toNat) 0 0] u.net true false)) ∧
    (∀ q, u.portOpen q = true → ∃ t, exec (.packetCrcDiscard dt q) s = .next t ∧
      t = u.bump Reg.cmdCrcerr (8 * portId q) 8 ∧
      (u.Wf → q ≠ .boot → t.fld Reg.cmdCrcerr (8 * portId q) 8 = min (u.fld Reg.cmdCrcerr (8 * portId q) 8 + 1) 255)) ∧
    (∀ (q : Port) (n : BitVec 14) b, (u.bursts.find? fun b => b.port == q && b.src == n.toNat) = some b →
      (b.since + 40000 ≤ u.tb → exec (.burstBroken dt q n) s =
        .next (((((u.held? q n.toNat).map Cmd.id).foldl (fun t i => t.fail i .aborted 0 0 t.net) u).endBurst q n.toNat).flag
          Reg.cmdCmdstat 2 |>.raiseC0 8 0x2b .module)) ∧
      (u.tb < b.since + 40000 → (u.held? q n.toNat).length < 64 → exec (.burstBroken dt q n) s = .next u)) ∧
    (∀ (q : Port) (n : BitVec 14) (tag : BitVec 16) c,
      (u.tags.find? fun c => c.sameOrigin q n.toNat && c.tag == tag.toNat && c.place == Place.stamped) = some c →
      (u.net < c.stamp → exec (.stampedCommandDue dt q n tag) s = .next u) ∧
      (c.stamp ≤ u.net → (u.resting = true ∨ u.gatedOff c.op = true) → exec (.stampedCommandDue dt q n tag) s =
        .next (u.setCmd { c with place := .stamped })) ∧
      (c.stamp ≤ u.net → u.resting = false → u.gatedOff c.op = false → opKind c.op = .x → exec (.stampedCommandDue dt q n tag) s =
        .next ((u.setCmd (u.taken c)).moduleOp (u.taken c))) ∧
      (∀ a, c.stamp ≤ u.net → u.resting = false → u.gatedOff c.op = false → opKind c.op = .u → c.axis? = some a →
        exec (.stampedCommandDue dt q n tag) s = .next (u.takeAxis a c))) ∧
    (∀ a c v, u.queueHead a = some c → v = (u.setCmd (u.taken c)).promote a.val →
      (c.takeAt ≤ u.net → u.resting = false → u.gatedOff c.op = false →
        (if kindOf c.op c.words = .s then u.releasing a = false else u.busyAx a = false) →
        (u.verdict a c.op = .ok → v.stagedRefuses a c.op = false → v.stages a c = false →
          exec (.queuedCommandTaken dt a) s = .next ((v.setCmd (v.taken c)).axisOp a (v.taken c))) ∧
        (u.verdict a c.op = .ok → v.stagedRefuses a c.op = true →
          exec (.queuedCommandTaken dt a) s = .next (v.fail c.id .stateRefused 0 0 v.net)) ∧
        (u.verdict a c.op = .refused →
          exec (.queuedCommandTaken dt a) s = .next (v.fail c.id .stateRefused 0 0 v.net)) ∧
        (u.verdict a c.op = .faulted →
          exec (.queuedCommandTaken dt a) s = .next (v.fail c.id .axisFaulted 0 0 v.net)) ∧
        (u.verdict a c.op = .retired →
          exec (.queuedCommandTaken dt a) s = .next (v.fail c.id .axisRetired 0 0 v.net))) ∧
      (u.mayTake a c = false ∨ u.resting = true ∨ u.verdict a c.op = .waits → exec (.queuedCommandTaken dt a) s = .next u)) ∧
    (∀ a, u.queueHead a = none → exec (.queuedCommandTaken dt a) s = .next u)

/-! ## What each event does

`u` is the state at the event's instant: `s` once `dt` cycles have passed (log 1). -/

/-- PRO's work for an axis (R88, R90 to R92, R103, R109, R118): the next phase of a plan, cruise segment or entry is
committed while the queue has room and PRO is clocked (Table 15-3), and where a run's last good entry ends in motion a
stop is appended; an entry is fetched while fewer than 16 are ahead; a segment of a new plan comes into force at its
start; a segment that has ended gives way to the next one, or the axis stands where it ended; a wait ends when the stamps it
waits for have passed. -/
def Obligations.ProfileEventsAdvanceTheTrajectory : Prop :=
  ∀ (s u : State) (dt : Nat) (a : AxisId) (p : Pro), u = s.advance dt → p = (u.ax a).pro →
    (∀ j r f t, p.motion = .table j → p.run = some r → r.bad = false → r.next ≠ none →
      r.fetched.length + (p.segs.filter fun g => !g.entered && g.hdr.segv).length < 16 → u.fetchOne a r = (f, t) →
        exec (.entryFetch dt a) s = .next (((t.fetched a f r).passWait a).settle a)) ∧
    ((u.ax a).room = false ∨ u.gateOn 3 = false → exec (.segmentCommit dt a) s = .next u) ∧
    (u.gateOn 3 = true → (u.ax a).room = true → p.plan ≠ [] →
      (∀ g, p.segs.getLast? = some g → exec (.segmentCommit dt a) s = .next (u.commitPhase a g.endTick false g.hdr)) ∧
      (p.segs = [] → exec (.segmentCommit dt a) s = .next (u.commitPhase a (u.net + u.lead) true (u.axisHdr a)))) ∧
    (u.gateOn 3 = true → (u.ax a).room = true → p.plan = [] → ∀ j r, p.motion = .table j → p.run = some r →
      (∀ f rest, r.fetched = f :: rest → exec (.segmentCommit dt a) s = .next (u.commitEntry a r f rest none)) ∧
      (r.fetched = [] → r.bad = true → r.awaits = false → r.endV ≠ 0 → p.segs ≠ [] →
        exec (.segmentCommit dt a) s = .next (u.appendStop a r))) ∧
    (u.gateOn 3 = true → (u.ax a).room = true → p.plan = [] → ∀ g, p.segs.getLast? = some g → g.soft = false →
      ∀ vt d, ((∃ j acc, p.motion = .vel j vt acc d) ∨ p.motion = .cruise vt d) → vt ≠ 0 →
        exec (.segmentCommit dt a) s = .next (u.commitCruise a g.endTick false g.hdr vt d)) ∧
    (∀ g rest, p.segs = g :: rest → g.splice = true → g.entered = false → exec (.splice dt a) s = .next (u.enter a)) ∧
    (∀ g h rest, p.segs = g :: h :: rest → g.entered = true → h.splice = true → h.entered = false → g.endTick ≤ h.start →
      h.start ≤ u.net → exec (.splice dt a) s = .next ((u.popSeg a g).enter a)) ∧
    (∀ g h rest, p.segs = g :: h :: rest → g.entered = true → g.endTick ≤ u.net →
      (h.start = g.endTick → h.splice = false → exec (.segmentEnd dt a) s = .next (((u.popSeg a g).syncHold a).enter a)) ∧
      (h.start = g.endTick → h.splice = true → exec (.segmentEnd dt a) s = .next u) ∧
      (h.start ≠ g.endTick → exec (.segmentEnd dt a) s = .next ((u.popSeg a g).syncHold a))) ∧
    (∀ g, p.segs = [g] → g.entered = true → g.endTick ≤ u.net → ∀ t, t = (u.popSeg a g).passWait a →
      ((t.ax a).pro.finished = true → exec (.segmentEnd dt a) s = .next (t.settle a)) ∧
      ((t.ax a).pro.finished = false → (∀ j, (t.ax a).pro.motion ≠ .table j) →
        exec (.segmentEnd dt a) s = .next (t.starved a g)) ∧
      (∀ j r, (t.ax a).pro.finished = false → (t.ax a).pro.motion = .table j → (t.ax a).pro.run = some r →
        (r.awaits = true ∨ (r.fetched = [] ∧ t.net < waitEnd r.wait) ∨ ∃ f l, r.fetched = f :: l ∧ t.net < waitEnd f.wait) →
        g.endState.2 = 0 → exec (.segmentEnd dt a) s = .next (t.syncHold a))) ∧
    (∀ g rest, p.segs = g :: rest → g.wait ≠ [] → exec (.waitStampReached dt a) s = .next (u.enter a)) ∧
    (∀ j r, p.segs = [] → p.motion = .table j → p.run = some r → r.next = none → r.fetched = [] →
      ((∀ w ∈ r.wait, w.at_ ≤ u.net) → exec (.waitStampReached dt a) s =
        .next ((u.setPro a { p with run := some { r with wait := [] } }).settle a)) ∧
      ((∃ w ∈ r.wait, u.net < w.at_) → exec (.waitStampReached dt a) s = .next u))

/-- Step synthesis (R26, R27, R122, R126 to R131, R137): the next threshold of the committed segments makes an edge in the
queue, one microstep on, while STP is clocked (Table 15-3); the head edge goes to the coils 112 ticks before its stamp, at
its own fine instant when it reached the head 128 ticks ahead; one that reached it later is late: it goes as early as the
emitter can reach, in order and never before its stamp, and the first of a late episode sets its flag, is counted and raises
STEP_LATE (the fine tick of one that leaves its stamp is log 59's); a grid setpoint that is owed by then goes first, but
that of the edge's own tick waits for it (log 42), and the lag is looked at before and after (logs 40, 44); a pulse stamped
outside the counting is dropped; a setpoint takes effect in a coil at its instant, and completes when both coils have taken
it. -/
def Obligations.EdgesAndSetpointsTakeEffectInOrder : Prop :=
  ∀ (s u : State) (dt : Nat) (a : AxisId), u = s.advance dt →
    (u.gateOn 4 = false → exec (.edgeSolve dt a) s = .next u ∧ exec (.edgeRelease dt a) s = .next u) ∧
    (∀ g up t fb q, u.gateOn 4 = true → (u.ax a).stp.edges.length < 64 → Stp.solveNext (u.msize a) 17 (u.ax a).stp = (some (g, up, t, fb), q) →
      ∃ v e, exec (.edgeSolve dt a) s = .next v ∧ (v.ax a).stp.edges = q.edges ++ [e] ∧ e.dir = up ∧ e.fallback = fb ∧
        e.instant = g.start * 16 + (t * 16 + 1 / 2).floor.toNat ∧ e.q = (if up then q.q + u.msize a else q.q - u.msize a) ∧
        e.ep = epMove q.ep (u.msize a) up ∧ e.hdr = g.hdr ∧ e.enq = u.net ∧ (v.ax a).stp.q = e.q ∧
        (∀ b, b ≠ a → v.ax b = u.ax b) ∧ v.banks = u.banks ∧ v.tags = u.tags ∧ v.regs = u.regs) ∧
    (∀ q, u.gateOn 4 = true → (u.ax a).stp.edges.length < 64 → Stp.solveNext (u.msize a) 17 (u.ax a).stp = (none, q) →
      exec (.edgeSolve dt a) s = .next (u.setStp a q)) ∧
    (64 ≤ (u.ax a).stp.edges.length → exec (.edgeSolve dt a) s = .next u) ∧
    (∀ e rest, (u.ax a).stp.edges = e :: rest → u.net + 112 < e.instant / 16 → exec (.edgeRelease dt a) s = .next u) ∧
    (∀ e rest o, u.gateOn 4 = true → o = (u.ax a).stp → o.edges = e :: rest → e.instant / 16 ≤ u.net + 112 →
      (max e.enq (o.lastEffect - 112) + 128 ≤ e.instant / 16 → ∀ w p v, w = (u.gridFor a (e.instant / 16)).lagCheck a →
        p = (w.ax a).stp →
        v = (w.setStp a { p with edges := rest, qRel := e.q, epRel := e.ep, lastRel := some e.instant
                                 lastEffect := e.instant / 16, lateEpisode := p.lateEpisode }).trace
          ⟨e.instant / 16, e.hdr, a.val, 2, false, e.payload (w.fld (Reg.stpCfg a) 0 4)⟩ →
        exec (.edgeRelease dt a) s = .next (((v.driveEdge a e (v.msize a)).placeDerived a 64).lagCheck a)) ∧
      (e.instant / 16 < max e.enq (o.lastEffect - 112) + 128 → ∀ eff w p i x y v,
        eff = max (o.lastEffect + 1) (max (e.instant / 16) (u.net + 112)) →
        w = (u.gridFor a eff).lagCheck a → p = (w.ax a).stp →
        i = (if eff = e.instant / 16 then e.instant else eff * 16) →
        x = w.setStp a { p with edges := rest, qRel := e.q, epRel := e.ep, lastRel := some i, lastEffect := eff
                                lateEpisode := true } →
        y = (if p.lateEpisode then x else ((x.flag (Reg.stpStat a) 8).bump (Reg.stpStat a) 16 16).raiseAx 11 0x10 0 a) →
        v = y.trace ⟨eff, e.hdr, a.val, 2, true, { e with instant := i }.payload (y.fld (Reg.stpCfg a) 0 4)⟩ →
        exec (.edgeRelease dt a) s =
          .next (((v.driveEdge a { e with instant := i } (v.msize a)).placeDerived a 64).lagCheck a))) ∧
    (∀ f x rest, (u.ax a).stp.follow = some f → f.inbox = x :: rest → f.counts (x.instant / 16) = false →
      exec (.followPulse dt a) s =
        .next ((u.setStp a { (u.ax a).stp with follow := some { f with inbox := rest } }).followEnd a)) ∧
    (∀ f x rest v, (u.ax a).stp.follow = some f → f.inbox = x :: rest → f.counts (x.instant / 16) = true →
      v = u.takePulse a { f with inbox := rest } x →
      exec (.followPulse dt a) s = .next (((v.placeDerived a 64).lagCheck a).followEnd a) ∧
      (v.ax a).stp.pulses = ((u.ax a).stp.pulses + 1) % 32768 ∧ (v.ax a).stp.rem =
        (derive (if x.dir then (u.ax a).stp.rem + f.num else (u.ax a).stp.rem - f.num) f.den).2) ∧
    (∀ (k : CoilId) sp, (u.ax a).chp.setpoints.find? (fun p => !p.done.get k) = some sp →
      (u.fine < (if u.stepCoarse a then sp.instant / 16 * 16 else sp.instant) → exec (.setpointEffect dt a k) s = .next u) ∧
      ((if u.stepCoarse a then sp.instant / 16 * 16 else sp.instant) ≤ u.fine → ∀ sp' l,
        sp' = { sp with done := sp.done.set k true } →
        l = ((u.ax a).chp.setpoints.map (fun r => if r = sp then sp' else r)).filter
          (fun r => !(r.done.get 0 && r.done.get 1)) → ∀ v, v = (u.setChp a { (u.ax a).chp with setpoints := l }).coilSetpoint a k sp →
        exec (.setpointEffect dt a k) s =
          .next (if sp'.done.get 0 && sp'.done.get 1 && sp.edge then v.edgeDone a sp else v)))

/-- The current engine's instants (R148, R151 to R158, Tables 6-1 and 6-2): the setpoint of a grid instant, with the next
step of the amplitude, is released from 112 ticks before it on, ahead of whatever it could miss (log 42); one that waited for
an edge which did not come is sent by itself; and the sequence moves on at the instant itself; the brake waits end; 50 µs
after the last step of a release the gates go low and the axis is READY, or stays FAULTED; the hold timer, at the length it
was started with, starts the ramp to IHOLD. A ramp that starts releases what is due by then first. -/
def Obligations.CurrentEngineInstantsMoveTheAmplitude : Prop :=
  ∀ (s u : State) (dt : Nat) (a : AxisId) (c : Chp), u = s.advance dt → c = (u.ax a).chp →
    (u.gateOn 5 = false → exec (.gridInstant dt a) s = .next u) ∧
    (∀ g, g = u.net / 20000 * 20000 → u.gateOn 5 = true →
      (c.lastGrid < g → c.gridSent = g → exec (.gridInstant dt a) s =
        .next (((((u.flushGrid a).setChp a { ((u.flushGrid a).ax a).chp with lastGrid := g }).gridStage a).lagCheck a).droopCheck
          a)) ∧
      (c.gridSent ≤ c.lastGrid → c.gridSent < g → ∀ amp mode v, (u.setChp a { c with gridSent := g }).gridAmp a g = (amp, mode, v) →
        exec (.gridInstant dt a) s = .next ((v.gridSetpoint a g amp mode (u.rampStep a) none).gridArrive a)) ∧
      (g ≤ c.gridSent → c.gridSent ≤ c.lastGrid ∨ u.net < c.gridSent → exec (.gridInstant dt a) s = .next u)) ∧
    (∀ g w b, g = (u.net + 112) / 20000 * 20000 → w = u.gridUnwait a (u.edgeDue a) → b = (w.ax a).chp →
      b.gridSent ≤ b.lastGrid → (g ≤ b.gridSent → u.gridRelease a = w) ∧
      (b.gridSent < g → ∀ amp mode v, (w.setChp a { b with gridSent := g }).gridAmp a g = (amp, mode, v) →
        u.gridRelease a = v.gridSetpoint a g amp mode (w.rampStep a) (u.edgeDue a))) ∧
    (∀ t, c.brakeEnd = some t → t ≤ u.tb →
      (c.ampst = .brakeWait → (u.ax a).st = .energising → exec (.brakeWaitEnd dt a) s = .next (u.energiseDone a)) ∧
      ((u.ax a).st ≠ .energising → exec (.brakeWaitEnd dt a) s = .next u) ∧
      (c.ampst = .release → ∀ z b, z = u.gridRelease a → b = (z.ax a).chp → exec (.releaseBrakeWaitEnd dt a) s =
        .next (z.setChp a { b with brakeEnd := none, ramp := some ⟨b.amp, 0, z.erampK a, 0⟩ }))) ∧
    (∀ t, c.releasedAt = some t → t + 20000 ≤ u.net → exec (.releaseEnd dt a) s =
      .next (((u.tags.filter fun d => d.on a && d.op == .axisRelease && d.place == .running).map Cmd.id).foldl
        (fun v i => v.done i) ((u.killAxis a).setSt a
          (if c.releaseFaulted || (u.ax a).st == .faulted then .faulted else .ready)))) ∧
    (∀ z b t, z = u.gridRelease a → b = (z.ax a).chp → b.holdFrom = some t → b.ampst = .run → (z.loopCfg a).mode = 0 →
      b.holdDelay ≠ 0 → t + b.holdDelay * 4000000 ≤ z.tb → exec (.holdTimerExpiry dt a) s = .next (z.setChp a { b with
        ampst := .hramp, ramp := some ⟨b.amp, z.fld (chpPar a 1) 0 15, max 1 (200 * z.fld (chpPar a 2) 8 8), 0⟩ }))

/-- The current tables (R21, R172): LOAD of a block that holds data starts a load, one request to the pool with its item; of a
free, quarantined or poisoned one it sets TABERR and ends a load that runs, and a SWAP that waited for that end is made; its
end fills the shadow copy from the block's bytes, unless a double-bit error is found among them, which sets TABERR
(Table 3-5); SWAP exchanges the two copies at once, or when the load that runs has ended, and has the next grid setpoint
sent with the header of the write that asked for it (R149), once one that is due has gone (log 42). While CHP is gated what
a write asks for waits until it is clocked (R369). -/
def Obligations.CurrentTablesLoadAndSwap : Prop :=
  ∀ (s u w z v : State) (dt : Nat) (q : Port) (a : AxisId) (x : Word) (h : Hdr), u = s.advance dt → u.portOpen q = true →
    u.locked = false → w = u.cancel q → z = w.setFld (chpPar a 0x0a) 0 15 (x.fld 0 15) → v = z.gridRelease a →
    h = z.writerHdr →
    (w.gateOn 5 = true → x.bit 16 = true → x.bit 17 = false →
      ((v.blk (x.fld 0 15)).owner ≠ 0xff → (v.blk (x.fld 0 15)).owner ≠ 0xf0 → (v.blk (x.fld 0 15)).poison = false →
        exec (.tableLoad dt q a x) s =
          .next ((v.poolItem h a).setChp a { (v.ax a).chp with load := some (x.fld 0 15) })) ∧
      (((v.blk (x.fld 0 15)).owner = 0xff ∨ (v.blk (x.fld 0 15)).owner = 0xf0 ∨ (v.blk (x.fld 0 15)).poison = true) →
        exec (.tableLoad dt q a x) s =
          .next (((v.setChp a { (v.ax a).chp with load := none }).flag (Reg.chpStat a) 10).swapWaiting a))) ∧
    (w.gateOn 5 = true → x.bit 16 = true → x.bit 17 = true → ∀ i, i = Instr.tableLoad dt q a x ∨ i = .tableSwap dt q a x →
      ((v.blk (x.fld 0 15)).owner ≠ 0xff → (v.blk (x.fld 0 15)).owner ≠ 0xf0 → (v.blk (x.fld 0 15)).poison = false →
        ∀ y, y = (v.poolItem h a).setChp a { (v.ax a).chp with load := some (x.fld 0 15) } →
        exec i s = .next (y.setChp a { (y.ax a).chp with swapAfter := some h })) ∧
      (((v.blk (x.fld 0 15)).owner = 0xff ∨ (v.blk (x.fld 0 15)).owner = 0xf0 ∨ (v.blk (x.fld 0 15)).poison = true) →
        ∀ y, y = (v.setChp a { (v.ax a).chp with load := none }).flag (Reg.chpStat a) 10 → (v.ax a).chp.swapAfter = none →
        exec i s = .next (y.swapTables a h))) ∧
    (w.gateOn 5 = true → x.bit 16 = false → x.bit 17 = true →
      ((v.ax a).chp.load = none → exec (.tableSwap dt q a x) s = .next (v.setChp a { (v.ax a).chp with
        active := (v.ax a).chp.shadow, shadow := (v.ax a).chp.active, swapAfter := none, resend := some h })) ∧
      ((v.ax a).chp.load ≠ none → exec (.tableSwap dt q a x) s =
        .next (v.setChp a { (v.ax a).chp with swapAfter := some h }))) ∧
    (w.gateOn 5 = false → ∀ i, (i = Instr.tableLoad dt q a x ∧ x.bit 16 = true) ∨ (i = .tableSwap dt q a x ∧ x.bit 17 = true) →
      exec i s = .next { z with deferred := z.deferred ++ [.table a x h] }) ∧
    (∀ t : State, (t.ax a).chp.swapAfter = none → t.swapWaiting a = t) ∧
    (∀ (t : State) g, (t.ax a).chp.swapAfter = some g → t.swapWaiting a = t.swapTables a g) ∧
    (u.gateOn 5 = false → exec (.tableLoadDone dt a) s = .next u) ∧
    (∀ k, u.gateOn 5 = true → (u.ax a).chp.load = some k → u.ecc = [] → ∀ t,
      t = u.setChp a { (u.ax a).chp with load := none, shadow := u.tableOf (k * 256) (u.ax a).chp.shadow } →
      exec (.tableLoadDone dt a) s = .next ((t.gridRelease a).swapWaiting a)) ∧
    (∀ k y t, u.gateOn 5 = true → (u.ax a).chp.load = some k → State.eccReads 32 (k * 32) u = (true, y) →
      t = ((y.setChp a { (y.ax a).chp with load := none }).flag (Reg.chpStat a) 10).raiseC0 9 0x1b .module →
      exec (.tableLoadDone dt a) s = .next ((t.gridRelease a).swapWaiting a))

/-- The chopper (R159 to R162): a crossing after blanking starts the off-time; at the end of blanking a current above the
setpoint does; fast decay gives way to slow decay; at the end of the off-time the next on-time starts with blanking, unless
the setpoint's code is 0. -/
def Obligations.ChopperGoesOnOffAndDecays : Prop :=
  ∀ (s u : State) (dt : Nat) (a : AxisId) (k : CoilId) (q : Coil), u = s.advance dt → q = u.coil a k →
    (∀ tf, tf = q.frac * u.offTicks a / 16 → ∀ v, v = u.bridge a k { q with
        bridge := if tf = 0 then .slow else .fast, since := u.tb, toff := u.offTicks a, tfast := tf, armed := false } →
      (q.bridge = .drive → q.armed = true → exec (.chopperCrossing dt a k) s = .next v) ∧
      (q.bridge = .drive → q.armed = false → q.since + q.blank ≤ u.tb →
        exec (.blankingEnd dt a k true) s = .next v ∧
        exec (.blankingEnd dt a k false) s = .next (u.setCoil a k { q with armed := true }))) ∧
    ((q.bridge ≠ .drive ∨ q.armed = false) → exec (.chopperCrossing dt a k) s = .next u) ∧
    (q.bridge = .fast → exec (.fastDecayEnd dt a k) s = .next (u.bridge a k { q with bridge := .slow })) ∧
    (q.bridge ≠ .fast → exec (.fastDecayEnd dt a k) s = .next u) ∧
    ((q.bridge = .fast ∨ q.bridge = .slow) → q.volt = false → 0 < q.toff → q.since + q.toff ≤ u.tb →
      (dacCode q.s ≠ 0 → exec (.offTimeEnd dt a k) s = .next (u.bridge a k { q with
        bridge := .drive, since := u.tb, blank := (u.fld (Reg.chpCfg a) 7 4 + 1) * 100, armed := false })) ∧
      (dacCode q.s = 0 → exec (.offTimeEnd dt a k) s = .next (u.bridge a k { q with
        bridge := .slow, since := u.tb, toff := 0, armed := false })))

/-- The PWM (R173 to R186, R213, R214): a carrier period begins at its boundary with the half in force, while PWM is
clocked (Table 15-3), both coils' edges are planned, and stretched or dropped pulses are flagged; a leg's edge drives its
pair of gates, on a whole tick where its delay line is withdrawn; a coil duty takes effect at its arrival and its latency
is recorded, and one for a coil no longer in voltage mode is dropped; the strobe samples once in a period, at the instant
that is fixed for it; the delay lines take turns at calibration, at a tick at which the line that leaves has no edge or
when 100 µs have passed, a line that cannot be trimmed is withdrawn, and the loss of one is reported. How a coil that
enters voltage mode starts its legs is log 60, whose header a sample carries log 56. -/
def Obligations.PwmEventsFollowTheCarrier : Prop :=
  ∀ (s u : State) (dt : Nat) (a : AxisId) (p : Pwm), u = s.advance dt → p = (u.ax a).pwm →
    (∀ w b h x, w = u.guySync → b = (if p.started then p.e else p.b) → p.run = true → w.gateOn 6 = true → b ≤ u.net →
      h = halfEff (w.half a) w.pwr.div8 (w.spreadAt a b) →
      x = (if w.phases a then phaseOf (w.carrierRef b) (b + h) (2 * h) else 0) →
      ∃ v, exec (.carrierBoundary dt a) s = .next v ∧ (v.ax a).pwm.started = true ∧ (v.ax a).pwm.b = b ∧
        (v.ax a).pwm.c = b + h ∧ (v.ax a).pwm.halfEff = h ∧
        (v.ax a).pwm.e = ((b + 2 * h : Nat) + x.sign * (min x.natAbs 16 : Nat) : Int).toNat ∧
        (v.ax a).pwm.strobeAt = ((b + h : Nat) + w.sfld (Reg.pwmCfg a) 27 5 * 16 : Int).toNat ∧
        (v.ax a).pwm.strobed = false ∧ (v.ax a).pwm.u = p.u ∧
        (v.ax a).loop = { (u.ax a).loop with
          odiv := (w.loopCfg a).odiv
          periods := if (u.ax a).loop.periods = 0 ∨ (w.loopCfg a).odiv ≤ (u.ax a).loop.periods then 1
            else (u.ax a).loop.periods + 1 } ∧
        (s.Wf → ((v.ax a).pwm.stretched = true → v.bit (Reg.pwmStat a) 3 = true) ∧
          ((v.ax a).pwm.dropped = true → v.bit (Reg.pwmStat a) 4 = true)) ∧
        (∀ c, c ≠ a → v.ax c = u.ax c) ∧ v.banks = u.banks ∧ v.tags = u.tags ∧ v.mem = u.mem) ∧
    ((p.run = false ∨ u.guySync.gateOn 6 = false ∨ u.net < (if p.started then p.e else p.b)) →
      exec (.carrierBoundary dt a) s = .next u.guySync) ∧
    (∀ (l : LegId) t x rest due, (p.legs.get l).edges = (t, x) :: rest →
      due = (if u.legCoarse a l then t / 16 * 16 else t) →
      ((u.coil a ⟨l.val / 2, by omega⟩).volt = true → (u.coil a ⟨l.val / 2, by omega⟩).bridge = .pwm → t < p.e * 16 →
        due ≤ u.fine → ∀ v, v = u.setPwm a { p with
          legs := p.legs.set l { p.legs.get l with edges := rest, last := some due, high := x } } →
        exec (.legEdge dt a l) s = .next (v.setTile a ((v.tile a).commandLeg l x (!x) (v.tbFine - (v.fine - due))))) ∧
      ((u.fine < due ∨ p.e * 16 ≤ t) → exec (.legEdge dt a l) s = .next u)) ∧
    (∀ (l : LegId), (p.legs.get l).edges = [] → exec (.legEdge dt a l) s = .next u) ∧
    (∀ (k : CoilId) d v, p.duty.get k = some d → d.arrival ≤ u.net → v = u.setPwm a { p with duty := p.duty.set k none } →
      ((v.coil a k).volt = false → exec (.dutyArrival dt a k) s = .next v) ∧
      ((v.coil a k).volt = true → ∀ t n q r, n = min 65535 (u.net - d.stamp) →
        t = (v.setFld (loopPar a 7) 0 16 n).peak (loopPar a 7) 16 16 n → q = (t.ax a).pwm.note t.net (t.half a) →
        r = ((t.setPwm a { q with u := q.u.set k d.u }).startLegs a k).replanCoil a k →
        exec (.dutyArrival dt a k) s = .next (r.trace ⟨d.stamp, d.hdr, a.val, 4, false,
          dutyPayload (r.ax a).pwm #v[(r.coil a 0).volt, (r.coil a 1).volt]⟩) ∧
        (s.Wf → t.fld (loopPar a 7) 0 16 = n ∧
          t.fld (loopPar a 7) 16 16 = max n (u.fld (loopPar a 7) 16 16)))) ∧
    (∀ m : Strobe, (u.ax a).energised = true → p.run = true → p.started = true → p.strobed = false →
      p.strobeAt ≤ u.net → s.Wf → ∀ t used, t = p.strobeAt →
      used = ((!(u.coil a 0).volt || u.settledAt a 0 t) && (!(u.coil a 1).volt || u.settledAt a 1 t)) →
      ∃ v k, exec (.sampleStrobe dt a m) s = .next v ∧ (v.ax a).sample = some k ∧ k.stamp = t ∧
        k.i = #v[u.coilValue a 0 (u.coilCode a 0 m.a), u.coilValue a 1 (u.coilCode a 1 m.b)] ∧
        k.vbus = m.vbus.toNat * 8 ∧ k.chop = #v[!(u.coil a 0).volt, !(u.coil a 1).volt] ∧
        k.settled = #v[u.settledAt a 0 t, u.settledAt a 1 t] ∧
        k.dn = #v[(m.a1.toNat : Int) - m.a2.toNat, (m.b1.toNat : Int) - m.b2.toNat] ∧ k.hdr = u.axisHdr a ∧
        (v.ax a).pwm = { p with strobed := true, lastStrobe := if used then some t else p.lastStrobe } ∧
        v.fld (Reg.gdbVbus (bankOf a)) 0 12 = m.vbus.toNat ∧
        (∀ c, c ≠ a → v.ax c = u.ax c) ∧ v.banks = u.banks ∧ v.tags = u.tags ∧ v.mem = u.mem) ∧
    (∀ (m : Strobe), ((u.ax a).energised = false ∨ p.strobed = true ∨ u.net < p.strobeAt) →
      exec (.sampleStrobe dt a m) s = .next u) ∧
    (∀ (b : BankId) (trim error : Int) k g turn late ok v w y, k = u.bank b → u.onPll = true → u.resting = false →
      g = u.net / 400000 * 400000 → k.lastSwap < g → late = decide (g + 40000 ≤ u.net) →
      turn = (if k.swaps = 60 then 0 else k.swaps + 1) → (ok = true ↔ (trim.natAbs ≤ 25 ∧ error.natAbs ≤ 10)) →
      v = u.setBank b { k with
        lastSwap := g, swapAt := k.swapAt + 1, swaps := turn
        serve := if late then k.serve else k.serve.set k.swapAt k.spare
        spare := if late then k.spare else k.serve.get k.swapAt
        withdrawn := if ok then k.withdrawn.filter fun l => l != k.spare
          else (k.withdrawn.filter fun l => l != k.spare) ++ [k.spare]
        calibrated := k.calibrated ||| (1#61 <<< k.spare) } →
      w = (if turn = 0 then v.bumpMod Reg.clkDlev 0 16 else v) →
      y = (if late then w.bump Reg.clkDlev 24 8 else w) →
      (u.lineBusy b k.swapAt = false ∨ late = true → exec (.delayLineSwap dt b trim error) s =
        .next (if ok = true ∨ k.spare ∈ k.withdrawn then y
          else (y.bump Reg.clkDlev 16 8).raiseC0 17 0x28 (if late then .module else .axis (lineAxis b k.swapAt)))) ∧
      (u.lineBusy b k.swapAt = true → late = false → exec (.delayLineSwap dt b trim error) s = .next u))

/-- The loops and the observer (R195, R208 to R218, R226, R229 to R235): a sample goes to the current loops, the observer
and, in its turn, the outer loops, once a grid setpoint that is due has gone (log 42); each supervision raises its fault
once; a freeze ends when its count is used up; a stall sets its flag, is counted and disarms the detection; the resistance
is taken from 256 samples of current, unless software writes it in the same window (Table 9-2); a window in which the
rotor moved and the encoder did not raises FB_FROZEN. -/
def Obligations.LoopAndObserverEventsAct : Prop :=
  ∀ (s u : State) (dt : Nat) (a : AxisId) (l : LoopAxis) (o : Obs), u = s.advance dt → l = (u.ax a).loop →
    o = (u.ax a).obs →
    (∀ w m t, w = u.gridRelease a → w.gateOn 7 = true → (w.ax a).sample = some m →
      t = w.setAx a { w.ax a with sample := none } → ∀ r,
      r = ((t.icoil a m 0).icoil a m 1).observe a m →
      exec (.sampleArrival dt a) s = .next (if m.outer then r.outerEval a m else r)) ∧
    (∀ w, w = u.gridRelease a → w.gateOn 7 = false ∨ (w.ax a).sample = none →
      exec (.sampleArrival dt a) s = .next w) ∧
    (∀ k : CoilId,
      (16 ≤ l.unset.get k → l.blindNoted.get k = false → exec (.icoilBlind dt a k) s =
        .next ((u.setLoop a { l with blindNoted := l.blindNoted.set k true }).raiseC0 14 0x25 (.axis a))) ∧
      ((l.unset.get k < 16 ∨ l.blindNoted.get k = true) → exec (.icoilBlind dt a k) s = .next u)) ∧
    (∀ t n, l.feSince = some t → n = u.fld (loopPar a 4) 0 16 →
      (u.supervised a = true → l.feNoted = false → t + n * 40000 ≤ u.net → exec (.followErr dt a) s =
        .next ((u.setLoop a { l with feNoted := true }).raiseAx 14 0x14 0 a)) ∧
      ((n = 0 ∨ l.feNoted = true ∨ u.net < t + n * 40000) → exec (.followErr dt a) s = .next u)) ∧
    (∀ i : Fin 7,
      ((l.unit i).frz = 0 → exec (.freezeEnd dt a i) s =
        .next (u.setReg (Reg.loopFreeze a) ((u.reg (Reg.loopFreeze a)).setBit i.val false))) ∧
      ((l.unit i).frz ≠ 0 → exec (.freezeEnd dt a i) s = .next u)) ∧
    (∀ sub t, o.stallDue = some sub →
      t = ((u.setObs a { o with stallDue := none, armed := false, low := 0 }).flag (obsPar a 0) 1).bump (obsPar a 0) 8 8 →
      exec (.stall dt a) s = .next (if (t.obsCfg a).stallen then t.raiseAx 15 0x15 sub a else t)) ∧
    (∀ t w k, o.trackDue = true → u.gateOn 8 = true → k = obsPar a 2 →
      t = u.setObs a { o with trackDue := false, trackN := 0, trackV := 0, trackI := 0 } →
      w = t.setObs a { (t.ax a).obs with tracked := some (t.tb, t.bit (obsPar a 0) 4) } →
      exec (.rtrackDone dt a) s = .next (if 256 * 4096 ≤ o.trackI ∧ t.mayTrack a = true ∧
        t.justWritten k = false then
        ((w.setFld k 0 16 (max 0 (min 65535 (32768 * o.trackV / o.trackI))).toNat).mark k 0 16
          (.result (w.fld k 0 16))).flag (obsPar a 0) 4 else t)) ∧
    (∀ t dObs dFb, o.windowDue = some (dObs, dFb) → t = u.setObs a { o with windowDue := none } →
      exec (.frozenWindowClose dt a) s = .next (if u.fld (obsPar a 7) 0 16 ≤ dObs.natAbs ∧ 8 * dFb.natAbs < dObs.natAbs
        then (t.flag (obsPar a 0) 3).raiseAx 15 0x16 0 a else t)) ∧
    (o.stallDue = none → exec (.stall dt a) s = .next u) ∧ (o.trackDue = false ∨ u.gateOn 8 = false → exec (.rtrackDone dt a) s = .next u) ∧
    (o.windowDue = none → exec (.frozenWindowClose dt a) s = .next u)

/-- Writes of an axis's configuration (R101, R119, R124, R141, R147, R165, R173, R181, R218, R358): a change that the
axis's state forbids leaves the old value and sets its flag, while a command is staged it does nothing; a half that runs
takes its new length where it still can; the parts of a 48-bit parameter load together. A grid setpoint that is due goes
before CHP.CFG changes (log 42), and a write of STP.CFG looks at the lag (log 44). -/
def Obligations.AxisConfigurationWritesActOrAreRefused : Prop :=
  ∀ (s u w : State) (dt : Nat) (q : Port) (a : AxisId) (x : Word), u = s.advance dt → u.portOpen q = true →
    u.locked = false → w = u.cancel q →
    (∀ old, old = w.fld (Reg.stpCfg a) 0 4 → ∀ free : Prop, (free ↔ (w.ax a).st = .off ∨ (w.ax a).st = .ready ∨
        ((w.ax a).st = .holding ∧ (w.ax a).pro.segs = []) ∨
        ((w.ax a).st = .faulted ∧ (w.traj a).2 = 0)) →
      ((x.fld 0 4 = old ∨ w.staged a = false ∧ free ∧ x.fld 0 4 ≤ 10) →
        exec (.stpCfgWrite dt q a x) s = .next ((w.plainWrite (Reg.stpCfg a) x).lagCheck a)) ∧
      (x.fld 0 4 ≠ old → w.staged a = true → exec (.stpCfgWrite dt q a x) s = .next w) ∧
      (x.fld 0 4 ≠ old → w.staged a = false → (¬free ∨ 10 < x.fld 0 4) → exec (.stpCfgWrite dt q a x) s =
        .next ((((w.plainWrite (Reg.stpCfg a) x).setFld (Reg.stpCfg a) 0 4 old).flag (Reg.stpStat a) 9).lagCheck a))) ∧
    (∀ old y, old = w.bit (Reg.chpCfg a) 13 → y = w.gridRelease a →
      (y.staged a = true → x.fld 11 2 ≠ y.fld (Reg.chpCfg a) 11 2 → exec (.chpCfgWrite dt q a x) s = .next y) ∧
      ((y.staged a = false ∨ x.fld 11 2 = y.fld (Reg.chpCfg a) 11 2) →
        (x.bit 13 = old ∨ (w.ax a).st = .off ∨ (w.ax a).st = .ready →
          exec (.chpCfgWrite dt q a x) s = .next (y.plainWrite (Reg.chpCfg a) x)) ∧
        (x.bit 13 ≠ old → (w.ax a).st ≠ .off → (w.ax a).st ≠ .ready → exec (.chpCfgWrite dt q a x) s =
          .next (((y.plainWrite (Reg.chpCfg a) x).setBit (Reg.chpCfg a) 13 old).flag (Reg.chpStat a) 8)))) ∧
    (∀ v1 v, v1 = (if x.fld 0 16 < 2000 ∨ 32787 < x.fld 0 16
          then (w.plainWrite (Reg.pwmCfg a) x).flag (Reg.pwmStat a) 6 else w.plainWrite (Reg.pwmCfg a) x) →
      v = (if x.bit 26 ∧ x.fld 24 2 ≠ 0 then v1.flag (Reg.pwmStat a) 2 else v1) → ∀ p, p = (v.ax a).pwm →
      (p.run = false → exec (.halfWrite dt q a x) s = .next v) ∧
      (p.run = true → ∀ p1 hz t,
        p1 = (if v.half a = w.half a then p else p.note v.net (w.half a)) → hz = v.net + 112 →
        (v.half a = w.half a ∨ p.started = false → t = v.setPwm a { p1 with
            strobeAt := if p1.strobeAt < hz then p1.strobeAt else max hz (v.strobeOf a p1.c) } →
          exec (.halfWrite dt q a x) s = .next t) ∧
        (v.half a ≠ w.half a → p.started = true → ∀ p2, p2 = p1.newHalf v.net (v.half a) → t = v.setPwm a { p2 with
            strobeAt := if p2.strobeAt < hz then p2.strobeAt else max hz (v.strobeOf a p2.c) } →
          exec (.halfWrite dt q a x) s = .next ((t.replanCoil a 0).replanCoil a 1)))) ∧
    (∀ v, v = w.plainWrite (Reg.loopFreeze a) x → exec (.freezeWrite dt q a x) s =
      .next (v.setLoop a { (v.ax a).loop with units := Vector.ofFn fun i => { (v.ax a).loop.unit i with
        frz := if v.bit (Reg.loopFreeze a) i.val then v.fld (Reg.loopFreeze a) 8 3 + 1 else 0 } })) ∧
    (∀ i : BitVec 5, i.toNat < 14 → i.toNat % 2 = 0 → exec (.proParamWrite dt q a i x) s =
      .next (w.hold (proPar a i.toNat) x)) ∧
    (∀ i : BitVec 5, i.toNat < 14 → i.toNat % 2 = 1 → ∀ lo v, lo = w.heldWord (proPar a i.toNat - 1) →
      v = (w.setReg (proPar a i.toNat - 1) lo).setReg (proPar a i.toNat) (hiWord48 (s48 x lo)) →
      (i.toNat < 10 → (i.toNat = 7 → 0 < s48 x lo) → exec (.proParamWrite dt q a i x) s = .next v) ∧
      (i.toNat = 7 → s48 x lo ≤ 0 → exec (.proParamWrite dt q a i x) s = .next (w.flag (Reg.proStat a) 22)) ∧
      (10 ≤ i.toNat → exec (.proParamWrite dt q a i x) s = .next (v.slCheck a))) ∧
    (∀ i : BitVec 5, 14 < i.toNat → exec (.proParamWrite dt q a i x) s = .next w) ∧
    exec (.proParamWrite dt q a 14 x) s = .next ((w.plainWrite (proPar a 14) x).slCheck a)

/-- Writes of the mode configuration (R219, R206, R358): MODE, FBCH and FBRATIO change in OFF, READY or HOLDING with nothing
committed, else the old value stays and CFG_REFUSED is set; leaving the closed modes stops the outer loops, entering one in
HOLDING starts them in the first carrier period after it (R195); clearing ICEN hands the coils back to the chopper. A
grid setpoint that is due goes first (log 42). -/
def Obligations.ModeConfigurationWritesActOrAreRefused : Prop :=
  ∀ (s u w : State) (dt : Nat) (q : Port) (a : AxisId) (x : Word) (c : LoopCfg), u = s.advance dt → u.portOpen q = true →
    u.locked = false → w = (u.cancel q).gridRelease a → c = w.loopCfg a →
    (∀ k new m icen t, k = loopPar a 0 → new = (w.reg k &&& ~~~(loopRow a 0).rw) ||| (x &&& (loopRow a 0).rw) →
      m = (if new.fld 0 2 = 3 then 0 else new.fld 0 2) → icen = (c.icen && !new.bit 2) →
      t = (if icen then (w.setReg k new).coilsToChopper a else w.setReg k new) →
      (m = c.mode → (new.bit 5 = true → c.mon = true ∨ c.fbd ≠ 0) → exec (.modecfgWrite dt q a 0 x) s = .next t) ∧
      (m ≠ c.mode → w.staged a = true → exec (.modecfgWrite dt q a 0 x) s = .next w) ∧
      (m ≠ c.mode → w.staged a = false → w.modeFree a = true → c.fbd ≠ 0 →
        (m = 0 → exec (.modecfgWrite dt q a 0 x) s = .next (t.stopOuter a)) ∧
        (m ≠ 0 → (t.ax a).loop.running = false → t.closedMode a = false → exec (.modecfgWrite dt q a 0 x) s = .next t) ∧
        (m ≠ 0 → (t.ax a).loop.running = false → t.closedMode a = true → exec (.modecfgWrite dt q a 0 x) s =
          .next (t.setAx a { t.ax a with
            loop := { (t.ax a).loop with running := true, presetDue := true, periods := 0
                                         winner := regulating m, selected := (t.ax a).chp.amp, dir := 1 }
            sample := (t.ax a).sample.map fun k => { k with outer := false } })) ∧
        (m ≠ 0 → (t.ax a).loop.running = true → exec (.modecfgWrite dt q a 0 x) s =
          .next (t.setLoop a { (t.ax a).loop with presetDue := true }))) ∧
      (m ≠ c.mode → w.staged a = false → w.modeFree a = false → icen = false → exec (.modecfgWrite dt q a 0 x) s =
        .next ((w.setReg k ((new.put 0 2 ((w.reg k).fld 0 2)).setBit 5 (new.bit 5 && (c.mon || c.fbd != 0)))).flag
          (Reg.loopWinner a) 18))) ∧
    (∀ k new, k = loopPar a 1 → new = (w.reg k &&& ~~~(loopRow a 1).rw) ||| (x &&& (loopRow a 1).rw) → new ≠ w.reg k →
      (w.modeFree a = true → exec (.modecfgWrite dt q a 1 x) s = .next ((w.setReg k new).useChannel a)) ∧
      (w.modeFree a = false → exec (.modecfgWrite dt q a 1 x) s = .next (w.flag (Reg.loopWinner a) 18))) ∧
    (∀ k new, k = loopPar a 2 → new = (w.reg k &&& ~~~(loopRow a 2).rw) ||| (x &&& (loopRow a 2).rw) → new ≠ w.reg k →
      (w.modeFree a = true → (c.encoder = false ∨ new.fld 0 16 ≠ 0) →
        exec (.modecfgWrite dt q a 2 x) s = .next (w.setReg k new)) ∧
      ((w.modeFree a = false ∨ c.encoder = true ∧ new.fld 0 16 = 0) →
        exec (.modecfgWrite dt q a 2 x) s = .next (w.flag (Reg.loopWinner a) 18))) ∧
    ∀ i : BitVec 10, 3 ≤ i.toNat → exec (.modecfgWrite dt q a i x) s = .next u

/-- The feedback interface (R241 to R262): a level that a channel's pins have kept for the filter time is stamped and
decoded; a speed window closes; a channel at rest past its limit reads speed 0; the oldest latch trigger taken shows what
it captured; an echo pulse rises at its instant; a LATTRIG write, a configuration, slot or echo write acts, at once
while FBK is clocked (R369). -/
def Obligations.FeedbackEventsCountAndCapture : Prop :=
  ∀ (s u : State) (dt : Nat) (ch : ChanId) (x : Chan), u = s.advance dt → x = u.chan ch →
    (∀ (raw : BitVec 3) (f : Fin 16) n at_ lv, n = filterTicks (u.fld (fbkPar ch 0) 7 3) →
      at_ = (u.tb - n) * 16 + f.val → lv = x.accepted at_ n raw →
      (u.fbkOn = true → x.levels ≠ lv → ∀ st v, st = (u.net - n) * 16 + f.val →
        v = (u.setChan ch { x with
            levels := lv
            edges := Vector.ofFn fun i =>
              if x.levels.getLsbD i.val == lv.getLsbD i.val then x.edges.get i else some at_ }).decodeEdge ch
          (u.pins ch x.levels) (u.pins ch lv) st →
        exec (.fbEdge dt ch raw f) s = .next (if (u.pins ch x.levels).getLsbD 2 != (u.pins ch lv).getLsbD 2
          then v.pinTriggers ch ((u.pins ch lv).getLsbD 2) st else v)) ∧
      ((u.fbkOn = false ∨ x.levels = lv) → exec (.fbEdge dt ch raw f) s = .next u)) ∧
    (∀ w e r, u.fbkOn = true → w = gridAt (max 1 (u.fld (fbkPar ch 2) 0 8) * 40000) u.net → x.winEnd < w →
      (x.hist.find? fun e => decide (e.1 / 16 ≤ w)) = some e → x.winEnd < e.1 / 16 → x.ref = some r →
      ∀ v, v = speedOver ch (e.2 - r.2) (e.1 - r.1) → exec (.speedWindowEnd dt ch) s = .next (u.setChan ch
        ({ x with winEnd := w, ref := some e, speed := v }.change fun r => { r with since := w * 16, speed := v }))) ∧
    (∀ e rest n, x.hist = e :: rest → n = u.fld (fbkPar ch 2) 8 16 → u.fbkOn = true → n ≠ 0 → x.still = false →
      e.1 / 16 + n * 40000 ≤ u.net → ∀ i, i = (e.1 / 16 + n * 40000) * 16 → exec (.standstillTimeout dt ch) s =
        .next (u.setChan ch ({ x with speed := 0, ref := none, still := true }.change fun r =>
          { r with since := i, cleared := i, speed := 0 }))) ∧
    (∀ t rest, x.trigs = t :: rest → s.Wf →
      ∃ v, exec (.latchTrigger dt ch) s = .next v ∧ v.reg (fbkPar ch 0x0d) = loWord t.count ∧
        v.reg (fbkPar ch 0x0e) = hiWord48 t.count ∧ v.reg (fbkPar ch 0x0f) = loWord t.speed ∧
        v.reg (fbkPar ch 0x10) = hiWord48 t.speed ∧ v.reg (fbkPar ch 0x11) = loWord64 (t.stamp / 16) ∧
        v.reg (fbkPar ch 0x12) = hiWord64 (t.stamp / 16) ∧ v.reg (fbkPar ch 0x13) = BitVec.ofNat 32 (t.stamp % 16) ∧
        v.bit (Reg.fbkStat ch) 10 = true ∧ (v.chan ch).trigs = rest ∧ v.axes = u.axes ∧ v.tags = u.tags ∧ v.mem = u.mem) ∧
    (x.trigs = [] → exec (.latchTrigger dt ch) s = .next u) ∧
    (∀ (e : Fin 16) p rest, (u.echoes.get e).queue = p :: rest → u.fbkOn = true → p.rise ≤ u.fine →
      exec (.echoPulse dt e) s = .next { u with echoes := u.echoes.set e { u.echoes.get e with
        queue := rest, rose := some (if u.onPll then p else { p with rise := u.fine }) } }) ∧
    (∀ (q : Port) (v : Word) w, u.portOpen q = true → u.locked = false → w = u.cancel q →
      (w.fbkOn = true → v.bit 0 = true → exec (.lattrig dt q ch v) s = .next (w.trigger ch w.fine true)) ∧
      (w.up = true → w.gateOn 9 = false → v.bit 0 = true → exec (.lattrig dt q ch v) s =
        .next { w with deferred := w.deferred ++ [.trigger ch] }) ∧
      (v.bit 0 = false → exec (.lattrig dt q ch v) s = .next w) ∧
      (∀ (wrap : Bool) k new change t r, k = fbkPar ch wrap.toNat →
        new = (w.reg k &&& ~~~(fbkRow wrap.toNat).rw) ||| (v &&& (fbkRow wrap.toNat).rw) →
        change = (if wrap then w.reg k != new
          else (w.reg k).fld 0 4 != new.fld 0 4 || (w.reg k).bit 11 != new.bit 11) →
        t = (if change then ((w.settleCount ch).setReg k new).resetChan ch else w.setReg k new) →
        r = (if w.decoder ch = t.decoder ch then t
          else (t.setChan ch { t.chan ch with hallBad := false }).dropFollowers ch) →
        (w.gateOn 9 = false → exec (.fbkCfgWrite dt q ch wrap v) s =
          .next { w.setReg k new with deferred := w.deferred ++ [.chan ch wrap.toNat (w.reg k)] }) ∧
        (w.gateOn 9 = true → r.decoder ch ≠ 2 → exec (.fbkCfgWrite dt q ch wrap v) s = .next r) ∧
        (w.gateOn 9 = true → r.decoder ch = 2 → exec (.fbkCfgWrite dt q ch wrap v) s =
          .next (r.hallStep ch (r.pins ch (r.chan ch).levels) r.fine))) ∧
      (∀ (k : Fin 8) key old n was t taken, key = fbgPar (0x40 + k.val) → old = w.reg key → n = axisNum (v.fld 0 7) →
        was = axisNum (old.fld 0 7) → t = w.setReg key (v &&& 0x7ff) → (taken ↔ ∃ j : Fin 8, j ≠ k ∧ w.bit (fbgPar (0x40 + j.val)) 7 = true ∧
          axisNum (w.fld (fbgPar (0x40 + j.val)) 0 7) = n) →
        (w.gateOn 9 = false → (v.bit 7 = true → ¬taken) → exec (.slotcfgWrite dt q k v) s =
          .next { t with deferred := w.deferred ++ [.slot k old] }) ∧
        (w.gateOn 9 = true → v.bit 7 = false → old.bit 7 = false → exec (.slotcfgWrite dt q k v) s = .next t) ∧
        (w.gateOn 9 = true → v.bit 7 = true → ¬taken → (old.bit 7 = true → n = was) → exec (.slotcfgWrite dt q k v) s =
          .next (t.setChan n ((t.chan n).change fun r => { r with
            since := t.fine, slot := some (2 ^ v.fld 8 3), cleared := if old.bit 7 then r.cleared else t.fine }))) ∧
        (w.gateOn 9 = true → v.bit 7 = false → old.bit 7 = true → exec (.slotcfgWrite dt q k v) s =
          .next (t.setChan was ((t.chan was).change fun r => { r with since := t.fine, slot := none, speed := 0 }))) ∧
        (w.gateOn 9 = true → v.bit 7 = true → taken → old.bit 7 = false → exec (.slotcfgWrite dt q k v) s =
          .next ((w.flag (fbgPar 0x71) 0).setReg key (v.setBit 7 false &&& 0x7ff)))) ∧
      (∀ e : Fin 16, ((v.fld 16 16 = 0 ∨ v.fld 0 16 = 0 ∨ v.fld 0 16 < v.fld 16 16) →
          exec (.echoConfigWrite dt q e true v) s = .next (w.flag (fbgPar 0x71) 1)) ∧
        ∀ (ratio : Bool) t, (ratio = true → v.fld 16 16 ≠ 0 ∧ v.fld 0 16 ≠ 0 ∧ v.fld 16 16 ≤ v.fld 0 16) →
          t = w.setReg (fbgPar ((if ratio then 0x60 else 0x50) + e.val)) (if ratio then v else v &&& 0xff01ff) →
          (w.gateOn 9 = false → exec (.echoConfigWrite dt q e ratio v) s =
            .next { t with deferred := w.deferred ++ [.echo e] }) ∧
          (w.gateOn 9 = true → exec (.echoConfigWrite dt q e ratio v) s = .next { t with
            echoes := t.echoes.set e ((t.echoes.get e).restart (t.bit (fbgPar (0x50 + e.val)) 7)) })))
/-- The detectors of an axis's bridges (R270, R272 to R276, R279, R283, R284): each measures what it is given against its
threshold, acts on the gates by itself, latches, counts its event and sends its cause to the Flue; where its condition
does not hold it does nothing more. In a diagnostic a crossing of the first two ends the test pulse of its coil, if one
runs, and does nothing else (R287). -/
def Obligations.BridgeDetectorsActAndReport : Prop :=
  ∀ (s u : State) (dt : Nat) (a : AxisId) (b : BankId) (t : TileAxis), u = s.advance dt → b = bankOf a → t = u.tile a →
    (∀ m : SenseHit,
      ((u.ax a).diagOn = false → u.scActive a m = true → exec (.scSense dt a m) s = .next (((u.setTile a { t with
        soft := t.soft ||| (1#8 <<< m.gate.val), legHold := t.legHold ||| (1#4 <<< (legOfGate m.gate).val) }).evt b 0).raiseAx
          b.val 0x01 0 a)) ∧
      ((u.ax a).diagOn = false → u.scActive a m = false → exec (.scSense dt a m) s = .next u) ∧
      ((u.ax a).diagOn = true → ∀ k : CoilId, k.val = m.gate.val / 4 →
        (u.scActive a m = true ∨ u.condCross a m = true → exec (.scSense dt a m) s = .next (u.abortPulse a k)) ∧
        (u.scActive a m = false → u.condCross a m = false → exec (.scSense dt a m) s = .next u))) ∧
    (∀ m : ShuntHit,
      ((u.ax a).diagOn = false → u.shuntFactor a * u.fullScale a < m.volts * 100 → exec (.shuntOc dt a m) s =
        .next (((u.setTile a { t with hard := t.hard ||| coilGates m.coil, shoc := t.shoc ||| (1#2 <<< m.coil.val) }).evt b
          1).raiseAx b.val 0x02 0 a)) ∧
      ((u.ax a).diagOn = true → u.shuntFactor a * u.fullScale a < m.volts * 100 →
        exec (.shuntOc dt a m) s = .next (u.abortPulse a m.coil)) ∧
      (m.volts * 100 ≤ u.shuntFactor a * u.fullScale a → exec (.shuntOc dt a m) s = .next u)) ∧
    (∀ k : CoilId,
      (∀ p, (u.ax a).diagPulses.getLast? = some p → p.1 &&& coilGates k &&& t.cmd ≠ 0 → u.abortPulse a k =
        (u.gatesOff a).modAx a fun x => { x with diagPulses := x.diagPulses.dropLast ++ [(p.1, true)] }) ∧
      ((∀ p, (u.ax a).diagPulses.getLast? = some p → p.1 &&& coilGates k &&& t.cmd = 0) → u.abortPulse a k = u)) ∧
    (∀ (m : SenseCheck) k due, k = m.coil →
      due = (u.bit (Reg.gdbDiscfg b) 8 && (u.ax a).energised && u.checkDue a k) →
      (due = true → ∀ n at_, at_ = (u.ax a).sample.map Sample.stamp →
        n = (if u.condActive a m = true ∧ u.shuntLow a m = true then t.failRun.get k + 1 else 0) →
        (n < u.failLimit a → exec (.senseDisagree dt a m) s = .next (u.setTile a { t with
          failRun := t.failRun.set k n, checked := t.checked.set k at_ })) ∧
        (u.failLimit a ≤ n → exec (.senseDisagree dt a m) s = .next (((u.setTile a { t with
          failRun := t.failRun.set k 0, checked := t.checked.set k at_
          hard := t.hard ||| coilGates k, sdis := t.sdis ||| (1#2 <<< k.val)
          autoDiag := t.autoDiag.set k (some 0x05) }).evt b 3).raiseAx b.val 0x05 0 a))) ∧
      (due = false → exec (.senseDisagree dt a m) s = .next u)) ∧
    (∀ (m : SenseCheck) k q n stays, k = m.coil → q = u.coil a k → n = u.fld (Reg.gdbDiscfg b) 16 8 →
      (stays ↔ n ≠ 0 ∧ q.volt = false ∧ q.bridge = .drive ∧ 64 ≤ dacCode q.s ∧ u.condActive a m = false ∧
        (u.coilValue a k m.code).natAbs < 1024 ∧ max q.since (t.noCurAt.get k) + n * 100000 ≤ u.tb) →
      (stays → exec (.noCurrent dt a m) s = .next (((u.setTile a { t with
        nocur := t.nocur ||| (1#2 <<< k.val), noCurAt := t.noCurAt.set k u.tb
        autoDiag := t.autoDiag.set k (some 0x06) }).evt b 3).raiseAx b.val 0x06 0 a)) ∧
      (¬stays → exec (.noCurrent dt a m) s = .next u)) ∧
    (∀ (l : LegId) (x : BitVec 12) v, v = u.measureBoot a l x.toNat → ∀ on long, on = u.gateLevel a (highOf l) →
      (long ↔ t.cmd.getLsbD (2 * l.val) = true ∧ ∃ r, t.onSince.get (highOf l) = some r ∧ r + 800 * 16 ≤ u.tbFine) →
      ((x.toNat : Int) < u.bstThreshold b (!on) → on = true ∨ long → t.soft.getLsbD (2 * l.val) = false →
        t.hard.getLsbD (2 * l.val) = false → exec (.bootUvlo dt a l x) s = .next (v.bootHold a l)) ∧
      ((u.bstThreshold b (!on) ≤ x.toNat ∨ on = false ∧ ¬long ∨ t.soft.getLsbD (2 * l.val) = true ∨
        t.hard.getLsbD (2 * l.val) = true) → exec (.bootUvlo dt a l x) s = .next v)) ∧
    (∀ (l : LegId) g, g = highOf l →
      (u.gateLevel a g = true → t.turnOn g u.tbFine + 400000 * 16 ≤ u.tbFine → exec (.bootstrapRefresh dt a l) s =
        .next ((u.setTile a { t with
          refresh := t.refresh.set l (some u.tb), bootBand := t.bootBand &&& ~~~(1#4 <<< l.val)
          onSince := t.onSince.set g (some (u.tbFine + (160 + 2 * Config.deadTicks) * 16)) }).bumpMod
            (Reg.gdbRefresh b) 0 16)) ∧
      ((u.gateLevel a g = false ∨ u.tbFine < t.turnOn g u.tbFine + 400000 * 16) →
        exec (.bootstrapRefresh dt a l) s = .next u)) ∧
    (∀ (boots : Vector (BitVec 12) 4) (off : Vector (BitVec 12) 2) rest, (u.ax a).chp.ampst = .precharge →
      t.prech = false → t.prechAt + 60000 ≤ u.tb → ∀ low v w,
      low = ((List.finRange 4).filter fun l => !decide (u.bstThreshold b true ≤ ((boots.get l).toNat : Int))) →
      rest = (List.finRange 4).foldl (fun r l => r.measureBoot a l (boots.get l).toNat) (u.setTile a { t with prech := true }) →
      v = (rest.takeOffset a 0 (off.get 0)).takeOffset a 1 (off.get 1) →
      w = low.foldl (fun r l => r.bootHold a l) (if low = [] then v else v.bump (Reg.gdbRefresh b) 16 16) →
      exec (.prechargeDone dt a boots off) s = .next (if (u.ax a).st = .energising
        then w.setChp a { (w.ax a).chp with awaitG0 := true } else w)) ∧
    (∀ (boots : Vector (BitVec 12) 4) (off : Vector (BitVec 12) 2), u.tb < t.prechAt + 60000 →
      exec (.prechargeDone dt a boots off) s = .next u)

/-- What a bank's tile measures (R271, R279, R282, R286, Table 11-6): VG, the shunt reference, the bus and the temperature
are stored as measured; a limit passed raises its cause where it had not been passed before, so once until the value has
come back past its second limit; the axes of the bank become READY or OFF as the conditions then stand. -/
def Obligations.BankMeasurementsRaiseTheirCausesOnce : Prop :=
  ∀ (s u : State) (dt : Nat) (b : BankId) (x : BitVec 12), u = s.advance dt →
    (∀ v k w, v = u.setFld (Reg.gdbVg b) 0 12 x.toNat → k = v.bank b → w = v.setBank b { k with vgLow := true } →
      exec (.vgUvlo dt b x) s = .next (if (x.toNat : Int) < v.vgThreshold b false
        then (if k.vgLow = false then w.raiseBank 0x04 b else w).syncBank b else v) ∧
      exec (.vgRecovery dt b x) s = .next (if v.vgThreshold b true ≤ x.toNat
        then (v.setBank b { k with vgLow := false }).freeBank b else v)) ∧
    (∀ v k w, v = u.setFld (Reg.gdbShref b) 0 12 x.toNat → k = v.bank b →
      w = v.setBank b { k with shrefLost := decide (400 < x.toInt.natAbs) } →
      exec (.shrefLost dt b x) s =
        .next (if 400 < x.toInt.natAbs ∧ k.shrefLost = false then w.raiseBank 0x07 b else w)) ∧
    (∀ v k, v = u.busCode b x.toNat → k = v.bank b →
      (∀ w, w = v.setBank b { k with busOv := decide (v.fld (Reg.gdbBuslim b) 16 12 ≤ x.toNat) } →
        exec (.busOv dt b x) s = .next ((if v.fld (Reg.gdbBuslim b) 16 12 ≤ x.toNat ∧ k.busOv = false
          then w.raiseBank 0x08 b else w).syncBank b)) ∧
      (∀ w, (∃ j, (v.ax (axisOf b j)).energised = true) →
        w = v.setBank b { k with busUv := decide (x.toNat < v.fld (Reg.gdbBuslim b) 0 12) } →
        exec (.busUv dt b x) s = .next ((if x.toNat < v.fld (Reg.gdbBuslim b) 0 12 ∧ k.busUv = false
          then w.raiseBank 0x09 b else w).syncBank b)) ∧
      (∀ w, (∀ j, (v.ax (axisOf b j)).energised = false) →
        w = v.setBank b { k with busUv := decide (x.toNat < v.fld (Reg.gdbBuslim b) 0 12) && k.busUv } →
        exec (.busUv dt b x) s = .next (w.syncBank b))) ∧
    (∀ v k, v = u.setFld (Reg.gdbTemp b) 0 12 x.toNat → k = v.bank b →
      (∀ warm : Bool, (warm = true ↔ 1000 ≤ x.toInt ∨ k.warm = true ∧ 920 ≤ x.toInt) →
        exec (.tileWarm dt b x) s = .next (if warm = true ∧ k.warm = false
          then (v.setBank b { k with warm := warm }).raiseBank 0x0d b else v.setBank b { k with warm := warm })) ∧
      (∀ ot : Bool, (ot = true ↔ 1200 ≤ x.toInt ∨ k.ot = true ∧ 1080 ≤ x.toInt) →
        exec (.tileOt dt b x) s = .next ((if ot = true ∧ k.ot = false
          then (v.setBank b { k with ot := ot }).raiseBank 0x0e b else v.setBank b { k with ot := ot }).syncBank b)))

/-- The links, the kill mask and DRVEN (R30, R266, R277, R290, R296, R424, R450, R454): a frame that fails three times in
a row raises LINK_CRC; a lost link holds the bank's gates until the link is up and the class action done; the tile takes
the mask its shares call for, and an energised axis under it is switched off, and a corrupted symbol holds the bank's
gates until the next valid one; DRVEN low, for 50 ns at least (R451), is told to every active axis, and DRVEN rising after
20 µs clears the latches of a bank where none of their causes persists; EXTEST acts as DRVEN low and stops the links, what
its start and its end do to the latches being log 48; a scan captures the cells and sets the latches of the pins, and under
BYPASS, whose bit captures 0 (log 48), it sends out what comes in one bit later. -/
def Obligations.LinksMasksAndDrivenActOnTheBanks : Prop :=
  ∀ (s u : State) (dt : Nat) (b : BankId) (k : Bank), u = s.advance dt → k = u.bank b →
    (k.linkUp = true → ∀ v, v = u.bump (Reg.gdbLink b) 0 16 → ∀ w, w = v.setBank b { v.bank b with crcRun := k.crcRun + 1 } →
      exec (.linkCrc dt b false) s = .next (v.setBank b { v.bank b with crcRun := 1 }) ∧
      (k.crcRun = 2 → exec (.linkCrc dt b true) s = .next (w.raiseBank 0x0a b)) ∧
      (k.crcRun ≠ 2 → exec (.linkCrc dt b true) s = .next w)) ∧
    (k.linkUp = false → ∀ x, exec (.linkCrc dt b x) s = .next u) ∧
    (u.gateOn 10 = true → u.extest = false → exec (.linkLost dt b true) s = .next ((u.setBank b { k with
      linkUp := true, linkHold := u.linkItem b, crcRun := 0 }).freeBank b |>.syncBank b)) ∧
    (u.gateOn 10 = false ∨ u.extest = true → exec (.linkLost dt b true) s = .next u) ∧
    (∀ v, v = u.setBank b { k with linkUp := false, linkHold := true } →
      (k.linkUp = true → v.gateOn 10 = true → exec (.linkLost dt b false) s =
        .next (((v.bump (Reg.gdbLink b) 16 8).raiseBank 0x0b b).syncBank b)) ∧
      ((k.linkUp = false ∨ v.gateOn 10 = false) → exec (.linkLost dt b false) s = .next (v.syncBank b))) ∧
    (∀ x v m, x = u.setBank b { k with killBad := false } →
      v = (if k.killBad then x.freeBank b else x).spreadShares → m = v.killMask b → ∀ w hold f,
      w = (List.finRange 12).foldl (fun r j => if m.getLsbD j.val then if (r.ax (axisOf b j)).energised
        then r.killAxis (axisOf b j) else r.clearFreeze (axisOf b j) else r) v →
      hold = ((w.bank b).linkHold && (!(w.bank b).linkUp || w.linkItem b)) →
      f = (if (w.bank b).linkHold && !hold then w.freeBank b else w) →
      exec (.killMaskChange dt b false) s = .next ((f.setBank b { f.bank b with kill := m, linkHold := hold }).syncBank b)) ∧
    exec (.killMaskChange dt b true) s = .next (u.setBank b { k with killBad := true }) ∧
    (∀ ns v, v = { u with drven := false, drvenLowAt := u.tb } →
      (u.drven = false ∨ ns < 50 → exec (.drvenLow dt ns) s = .next u) ∧
      (u.drven = true → 50 ≤ ns → u.extest = true → exec (.drvenLow dt ns) s = .next v) ∧
      (u.drven = true → 50 ≤ ns → u.extest = false → exec (.drvenLow dt ns) s = .next (v.eachAx fun r a =>
        if r.activeAx a then r.raiseAx (bankOf a).val 0x0c 0 a else r.syncReady a))) ∧
    (u.drven = true → ∀ o l, exec (.drvenClearing dt o l) s = .next u) ∧
    (u.drven = false → ∀ (o : List (AxisId × ShuntHit)) (l : List (AxisId × LegId × BitVec 12)) x v,
      x = { u with drven := true } → v = (List.finRange 8).foldl State.freeBank
        (l.foldl (fun r m => r.measureBoot m.1 m.2.1 m.2.2.toNat) x) →
      (u.extest = true → exec (.drvenClearing dt o l) s = .next x) ∧
      (u.extest = false → (u.tb < u.drvenLowAt + 8000 ∨ v.locked = true) → exec (.drvenClearing dt o l) s = .next v) ∧
      (u.extest = false → u.drvenLowAt + 8000 ≤ u.tb → v.locked = false → exec (.drvenClearing dt o l) s =
        .next ((List.finRange 8).foldl (fun r c => if r.latchPersists c o
          then (r.flag (Reg.gdbStat c) 5).raiseC0 c.val 0x0f .module
          else r.setBank c { r.bank c with axes := (r.bank c).axes.map TileAxis.cleared }) v))) ∧
    exec (.tilePowerOn dt b) s = .next ((u.setBank b { k with
      vgLow := true
      axes := k.axes.map fun t => { TileAxis.reset with cmd := t.cmd, offAt := t.offAt, onSince := t.onSince } }).syncBank b) ∧
    (∀ (code : BitVec 4) (pins : BitVec 459) y, y = { u.setExtest (code == 0) with tapIr := code } →
      exec (.extest dt code none pins) s = .next y ∧
      (∀ v, code.toNat < 2 → exec (.extest dt code (some v) pins) s =
        .next { y with tapOut := y.scanned pins, tapCells := v }) ∧
      (∀ v, 2 ≤ code.toNat → exec (.extest dt code (some v) pins) s = .next { y with tapOut := v <<< 1 })) ∧
    u.setExtest u.extest = u ∧
    (u.extest = true → u.setExtest false =
      ((List.finRange 8).foldl State.freeBank { u with extest := false }).eachAx fun r a => r.syncReady a) ∧
    (u.extest = false → ∀ v, v = { u with extest := true } → u.setExtest true =
      (List.finRange 8).foldl (fun r c => State.syncBank (if (r.bank c).linkUp && (r.setBank c { r.bank c with
            linkUp := false, linkHold := true }).gateOn 10 && (r.setBank c { r.bank c with
            linkUp := false, linkHold := true }).up
          then ((r.setBank c { r.bank c with linkUp := false, linkHold := true }).bump (Reg.gdbLink c) 16 8).raiseBank 0x0b c
          else r.setBank c { r.bank c with linkUp := false, linkHold := true }) c)
        (if u.drvenHigh then v.eachAx fun r a => if r.activeAx a then r.raiseAx (bankOf a).val 0x0c 0 a else r.syncReady a
          else v))

/-- The diagnostics (R264, R285, R287, R288, R297): one that ends turns its gates off, stores its result for the bank,
answers its command with it and gives the axis the state it came from, or leaves it FAULTED where a C1 action came between;
a test pulse of the off-state diagnostic, one of those that its steps make and in their order, turns its gates on alone (how
a pulse is commanded, and that the automatic test of coil A comes first, is log 60); the automatic test waits until the
gates are low, and its result goes into the open record of its cause and so into its opening entry. A command that finds no
diagnostic of its kind changes nothing. -/
def Obligations.DiagnosticsEndWithTheirResults : Prop :=
  ∀ (s u : State) (dt : Nat) (a : AxisId) (b : BankId) (x : Axis), u = s.advance dt → b = bankOf a → x = u.ax a →
    (∀ (k : Bool) (legs : Vector LegMeas 4) (coils : Vector CoilMeas 2) (w0 : Word) i ws, x.diagOn = true → x.diagKind = k →
      i = (if k then Instr.selftestDone dt a w0 else .offstateDiagDone dt a none legs coils) →
      ws = (if k then [w0 &&& 0x001fffff] else u.diagWords a legs coils) → ∀ v r,
      v = (((u.gatesOff a).bumpMod (Reg.gdbDiaginfo b) 16 8).setFld (Reg.gdbDiaginfo b) 0 10
        ((locOf a).val + k.toNat * 0x100)).setReg (Reg.gdbDiagres0 b) (wordAt ws 0) →
      r = (if k then v else v.setReg (Reg.gdbDiagres1 b) (wordAt ws 1)) → ∀ t,
      t = (r.setAx a { r.ax a with
        st := if x.st = .diag then x.diagFrom else x.st, diagCmd := none, diagOn := false }).syncReady a →
      (∀ id, x.diagCmd = some id → exec i s = .next (t.finish id .done ws t.net)) ∧
      (x.diagCmd = none → exec i s = .next t)) ∧
    (∀ (g : BitVec 8) (legs : Vector LegMeas 4) (coils : Vector CoilMeas 2) v, x.diagOn = true → x.diagKind = false →
      v = u.gatesOff a →
      (v.pulseOk a legs coils g = true → ∀ w,
        w = v.modAx a (fun y => { y with diagPulses := y.diagPulses ++ [(g, false)] }) →
        exec (.offstateDiagDone dt a (some g) legs coils) s =
          .next ((w.commandCoil a 0 (g.extractLsb' 0 4)).commandCoil a 1 (g.extractLsb' 4 4))) ∧
      (v.pulseOk a legs coils g = false → exec (.offstateDiagDone dt a (some g) legs coils) s = .next v)) ∧
    (∀ p (legs : Vector LegMeas 4) (coils : Vector CoilMeas 2), x.diagOn = false ∨ x.diagKind = true →
      exec (.offstateDiagDone dt a p legs coils) s = .next u) ∧
    (∀ w0 : Word, x.diagOn = false ∨ x.diagKind = false → exec (.selftestDone dt a w0) s = .next u) ∧
    (∀ (con trip : Bool) (vb : BitVec 12) (c : CoilId) cause t, t = u.tile a →
      t.autoDiag.get c = some cause → (c = 1 → t.autoDiag.get 0 = none) →
      ((∃ g : GateId, u.gateLevel a g = true) → exec (.autoDiagDone dt a con trip vb) s = .next u) ∧
      ((∀ g : GateId, u.gateLevel a g = false) → ∀ v sub,
        sub = (if cause = 0x05 then (if con then 1 else 2) else if con then 3 else 4) →
        v = ((((u.setTile a { t with autoDiag := t.autoDiag.set c none }).setReg (Reg.gdbDiagres0 b) 0x58585858).setReg
          (Reg.gdbDiagres1 b)
          (BitVec.ofNat 32 ((!con).toNat * 2 ^ c.val + trip.toNat * 0x100 + vb.toNat * 0x10000))).bumpMod
            (Reg.gdbDiaginfo b) 16 8).setFld (Reg.gdbDiaginfo b) 0 10 ((locOf a).val + 0x200) →
        ((v.ax a).rec? = none → exec (.autoDiagDone dt a con trip vb) s = .next v) ∧
        (∀ r, (v.ax a).rec? = some r → r.mask.testBit cause = false → exec (.autoDiagDone dt a con trip vb) s = .next v) ∧
        (∀ r r' w, (v.ax a).rec? = some r → r.mask.testBit cause = true →
          r' = { r with sub := if r.sub = 0 then sub else r.sub, awaitSub := false } →
          w = v.modRec a (fun _ => r') → exec (.autoDiagDone dt a con trip vb) s = .next
            (if r.awaitSub then w.queueEmber ⟨.opening a.val r'.seq, w.recEntry r' a.val false⟩ else w)))) ∧
    ((u.tile a).autoDiag = #v[none, none] → ∀ (con trip : Bool) (vb : BitVec 12),
      exec (.autoDiagDone dt a con trip vb) s = .next u) ∧
    ((x.st = .off ∨ x.st = .ready) → exec (.axisReadyChange dt a) s =
      .next (u.setAx a { x with st := if u.readyOk a then .ready else .off })) ∧
    (x.st ≠ .off → x.st ≠ .ready → exec (.axisReadyChange dt a) s = .next u)

/-- TRIP inputs and the Guyline (R187 to R195): an input that becomes active latches, counts and raises EXT_TRIP on every
axis it is mapped to, as a notice where the axis is OFF or READY, or a notice of the module where it is mapped to none;
while the module is not up it is only held (it latches as Kindling ends, log 60); a clear that names the latch of an
active input is refused, with every bit it named in CLRREF; a head sends a pulse at each grid instant; a follower takes a
pulse unless it comes too early, measures it and raises GUY_OFFSET once; two periods without one raise GUY_LOST once. -/
def Obligations.TripsLatchAndTheGuylineFollows : Prop :=
  ∀ (s u : State) (dt : Nat), u = s.advance dt →
    (∀ k : Fin 16, (u.trips.getLsbD k.val = false → u.up = true → ∀ v,
        v = (({ u with trips := u.trips ||| (1#16 <<< k.val) }.flag Reg.fltTripstat k.val).irq 4).bump Reg.fltTripev 16 8 →
        ((∀ a : AxisId, v.bit (Reg.pwmTripmap a) k.val = false) → exec (.tripActive dt k) s = .next (v.raiseC0 13 0x18 .module)) ∧
        ((∃ a : AxisId, v.bit (Reg.pwmTripmap a) k.val = true) → exec (.tripActive dt k) s =
          .next ((v.mapped k).foldl (fun r a => r.extTrip a) v))) ∧
      (u.trips.getLsbD k.val = true → exec (.tripActive dt k) s = .next u) ∧
      (u.trips.getLsbD k.val = false → u.up = false → exec (.tripActive dt k) s =
        .next { u with trips := u.trips ||| (1#16 <<< k.val) }) ∧
      exec (.tripInputHigh dt k) s = .next { u with trips := u.trips &&& ~~~(1#16 <<< k.val) }) ∧
    (∀ (q : Port) (x : Word) w, u.portOpen q = true → u.locked = false → w = u.cancel q →
      (w.trips.toNat &&& x.fld 0 16 = 0 → exec (.tripClear dt q x) s =
        .next ((w.setReg Reg.fltTripstat (w.reg Reg.fltTripstat &&& ~~~(x &&& 0xffff))).landed Reg.fltTripstat x)) ∧
      (w.trips.toNat &&& x.fld 0 16 ≠ 0 → exec (.tripClear dt q x) s =
        .next ((List.range 16).foldl (fun r i => if x.bit i then r.flag Reg.fltTripev i else r) w))) ∧
    (∀ v p, v = u.guySync → p = v.guyPeriod →
      (v.netw.guyRole = 1 → v.up = true → v.netw.guyHead < v.net / p * p → exec (.guyHeadPulse dt) s = .next { v with
        netw := { v.netw with guyHead := v.net / p * p, syncOut := some (v.outAt (v.net / p * p * 16)) } }) ∧
      (v.netw.guyRole ≠ 1 → exec (.guyHeadPulse dt) s = .next v) ∧
      (∀ (f : Fin 16) t, t = (v.net - 200) * 16 + f.val → v.netw.guyRole = 2 → v.up = true →
        (∀ x n, v.netw.guyAcc = some (x, n) → t < x + p / 2 * 16 → exec (.guyPulseAccepted dt f) s = .next v) ∧
        ((∀ x n, v.netw.guyAcc = some (x, n) → x + p / 2 * 16 ≤ t) → ∀ r (ofs : Int) off w, r = t - v.fld Reg.timeGuycfg 16 16 →
          ofs = (if p * 16 < 2 * (r % (p * 16)) then ((r % (p * 16) : Nat) : Int) - (p * 16 : Nat) else (r % (p * 16) : Nat)) →
          off = (decide (v.fld Reg.timeGuycfg 2 6 ≠ 0) && decide (v.fld Reg.timeGuycfg 2 6 * 640 < ofs.natAbs)) →
          w = (({ v with netw := { v.netw with
              guyAcc := some (t, v.tb), guyRef := r, guySince := v.tb, guyOff := off, guyMissed := false
              syncOut := some (v.outAt (t + 240 * 16)) } }.setReg Reg.timeGuyofs (loWord ofs)).setBit Reg.timeGuyflag 0 true).bumpMod
                Reg.timeGuyflag 8 8 →
          exec (.guyPulseAccepted dt f) s = .next (if off then (if v.netw.guyOff then w.flag Reg.timeGuyflag 2
            else (w.flag Reg.timeGuyflag 2).raiseC0 17 0x29 .module) else w))) ∧
      (v.netw.guyRole = 2 → v.up = true → v.netw.guyMissed = false →
        (v.netw.guySince + 2 * p ≤ v.tb → exec (.guyLost dt) s =
          .next ((({ v with netw := { v.netw with guyMissed := true } }.setBit Reg.timeGuyflag 0 false).flag
            Reg.timeGuyflag 1).raiseC0 17 0x2a .module)) ∧
        (v.tb < v.netw.guySince + 2 * p → exec (.guyLost dt) s = .next v)))

/-- FLT takes causes (R289 to R292, R295, R296, R298, R305, R396): the oldest item of a source is qualified for nERR and
acted on at its class, on its axis, on the active axes of its bank (on the module where none is active), or on the module
and its energised axes, at C3 and above those in DIAG too; C4 locks; the shares are spread; where FLT's classification paths
disagree on it, FLT_SELF, FLT's own cause, locks the module after it (R299; that the item itself is acted on first is the
model's choice, log 54). A broken pair raises FLUE_WIRE, FLT's own cause too, once; one that is stuck counts as broken once
no item of its source was taken for 500 ns. While VCORE is removed FLT takes nothing (R396, Table 17-4). The end of an SS1
stop takes the C2 action; a retry whose backoff has run out closes its record and releases the soft holds, unless something
persists. -/
def Obligations.CausesAreTakenAtTheirClass : Prop :=
  ∀ (s u : State) (dt : Nat), u = s.advance dt →
    (u.fltRuns = false → ∀ (src : Fin 22) e i, i = Instr.causeRaised dt src e ∨ i = .flueWire dt src ∨ i = .flueStuck dt src →
      exec i s = .next u) ∧
    (∀ (src : Fin 22) it c v, u.fltRuns = true → u.flue.find? (fun i => i.source == src.val) = some it → c = it.cls →
      v = { u with
          flue := u.flue.erase it
          flueSince := Vector.ofFn fun i => if i.val = src.val then u.tb else u.flueSince.get i }.qualify c →
      (∀ a, it.scope = .axis a →
        (c = 0 → exec (.causeRaised dt src false) s = .next (v.notice it a.val).spreadShares) ∧
        (1 ≤ c → c ≤ 3 → exec (.causeRaised dt src false) s = .next (v.recordAx a it c false).spreadShares) ∧
        (4 ≤ c → exec (.causeRaised dt src false) s = .next (v.recordAx a it c false).lock.spreadShares)) ∧
      (∀ b, it.scope = .bank b → (∀ j, v.activeAx (axisOf b j) = false) →
        (c = 0 → exec (.causeRaised dt src false) s = .next (v.notice it 127).spreadShares) ∧
        (1 ≤ c → exec (.causeRaised dt src false) s =
          .next ((v.recordMod it c (1#8 <<< b.val) [(b.val, it.cause)]).lockIf c).spreadShares)) ∧
      (∀ b l, it.scope = .bank b → l = ((List.finRange 12).map fun j => axisOf b j).filter (fun a => v.activeAx a) → l ≠ [] →
        exec (.causeRaised dt src false) s =
          .next ((l.foldl (fun r a => r.causeAx a { it with hdr := it.hdrOn a } c false) v).lockIf c).spreadShares) ∧
      (it.scope = .module → (c = 0 → exec (.causeRaised dt src false) s = .next (v.notice it 127).spreadShares) ∧
        (1 ≤ c → ∀ l, l = (List.finRange 96).filter (fun a => if c ≤ 2 then (v.ax a).energised else v.activeAx a) →
          exec (.causeRaised dt src false) s = .next ((l.foldl (fun r a => r.causeAx a { it with hdr := it.hdrOn a } c
            false) (v.recordMod it c 0xff [])).lockIf c).spreadShares))) ∧
    (∀ (src : Fin 22) e, (u.flue.find? fun i => i.source == src.val) = none → exec (.causeRaised dt src e) s = .next u) ∧
    (∀ (src : Fin 22) it, u.fltRuns = true → u.flue.find? (fun i => i.source == src.val) = some it →
      ∃ t w, exec (.causeRaised dt src false) s = .next t ∧ exec (.causeRaised dt src true) s = .next w ∧ w.locked = true ∧
        ∀ f q, f = t.item 22 0x36 0 .module 4 → q = t.qualify 4 →
          w = ((q.recordMod f 4 0xff []).causeEach (q.reached 4) f 4).lock.spreadShares) ∧
    (∀ (src : Fin 22) i, u.fltRuns = true → i = Instr.flueWire dt src ∨ i = .flueStuck dt src ∧ u.flueSince.get src + 200 ≤ u.tb →
      (u.broken.getLsbD src.val = true → exec i s = .next u) ∧
      (u.broken.getLsbD src.val = false → ∀ v c it, v = { u with broken := u.broken ||| (1#22 <<< src.val) } →
        c = u.wireClass src.val → it = v.item 22 0x2f 0 .module c →
        (∀ b : BankId, b.val = src.val → ∀ as, as = (List.finRange 12).map (fun j => axisOf b j) →
          exec i s = .next (((((v.qualify c).causeEach (as.filter fun a => v.activeAx a) it c).causeEach
            (as.filter fun a => !v.activeAx a) it c).lockIf c).spreadShares)) ∧
        (8 ≤ src.val → exec i s = .next (v.takeItem it)))) ∧
    (∀ src : Fin 22, u.tb < u.flueSince.get src + 200 → exec (.flueStuck dt src) s = .next u) ∧
    (∀ src : Fin 22, exec (.fluePairRestored dt src) s = .next { u with broken := u.broken &&& ~~~(1#22 <<< src.val) }) ∧
    (∀ (a : AxisId) f, f = (u.ax a).fault →
      (f.ss1 = none → exec (.ss1StopEnd dt a) s = .next u) ∧
      (∀ t, f.ss1 = some t → (u.ax a).st ≠ .faulted → u.tb < t → exec (.ss1StopEnd dt a) s = .next u) ∧
      (∀ t, f.ss1 = some t → ((u.ax a).st = .faulted ∨ t ≤ u.tb) →
        (f.retPhase = .stopping → exec (.ss1StopEnd dt a) s =
          .next ((u.actC2 a .axisRetired).retireSteps a).spreadShares) ∧
        (f.retPhase ≠ .stopping → exec (.ss1StopEnd dt a) s = .next (u.actC2 a .axisFaulted).spreadShares)) ∧
      ((u.ax a).rec? = none → exec (.retryRelease dt a) s = .next u) ∧
      (∀ r, (u.ax a).rec? = some r → r.backoff = none → exec (.retryRelease dt a) s = .next u) ∧
      (∀ r t, (u.ax a).rec? = some r → r.backoff = some t →
        ((u.tb < t ∨ r.pending = true ∨ f.acting = true ∨ f.ss1 ≠ none ∨ u.persistsAx a r = true ∨ u.wirePersists r = true) →
          exec (.retryRelease dt a) s = .next u) ∧
        (t ≤ u.tb → r.pending = false → f.acting = false → f.ss1 = none → u.persistsAx a r = false →
          u.wirePersists r = false → ∀ g v w, g = u.tile a → v = u.setTile a { (g.freed u.tbFine) with
              soft := 0, legHold := 0, bootSoft := g.bootSoft &&& highLines g.hard
              retryAt := if g.soft = 0 then g.retryAt else some u.tb } →
          w = v.closeRec a false → exec (.retryRelease dt a) s = .next (State.eachOf (w.setFault a { (w.ax a).fault with
            retries := (w.tb :: (w.ax a).fault.retries).take 16 }) (bankOf a) fun r b => r.syncReady b))))

/-- Retirement, Ember and nERR (R303, R307 to R311, R406 to R411): a retirement record written ends what asked for it and
closes the record; a reinstatement ended clears the flag, the record in the Hearth and the history, and the axis is OFF; an
entry written takes its slot, one that failed leaves NEXT where it was (log 36) and raises EMBER_FAIL, and either lets what
waited for it go on and the next entry begin; without VIN_L, and in PL0, none of these is written (Table 17-4); a write of
ERRPIN acts at once, waits for the end of the pulse, or does nothing while locked; outside running none takes effect, so
nERR stays through a Kindling and from the entry of PL0 on (R380, R396). -/
def Obligations.RetirementEmberAndErrPinEnd : Prop :=
  ∀ (s u : State) (dt : Nat), u = s.advance dt →
    (∀ (a : AxisId) x, x = u.ax a →
      (x.fault.retPhase ≠ .writing ∨ u.emberWrites = false → exec (.retirementRecordWritten dt a) s = .next u) ∧
      (x.fault.retPhase = .writing → u.emberWrites = true → ∀ c k v, (c, k) = ((x.rec?.map fun r => (r.first, r.cls)).getD (0x1a, 2)) →
        v = State.setFault { u with hearth := { u.hearth with
            retire := putWords u.hearth.retire (4 * a.val) (retireWords a c k u.hearth.sec 0 false) } } a { x.fault with
          retPhase := if x.hasRec then .closing else .none, retCmd := none, retCtl := false } →
        ∀ d, (∀ id, x.fault.retCmd = some id → d = v.done id) → (x.fault.retCmd = none → d = v) →
        exec (.retirementRecordWritten dt a) s =
          .next ((if x.fault.retCtl = true then d.axctlResult 0 else d).closeRec a true)) ∧
      (x.fault.retPhase ≠ .erasing ∨ u.emberWrites = false → exec (.reinstatementEnded dt a) s = .next u) ∧
      (x.fault.retPhase = .erasing → u.emberWrites = true → ∀ t w y v, t = u.setReg (retFlag a) 0 → w = { t with hearth := { t.hearth with
            retire := putWords t.hearth.retire (4 * a.val) [0, 0, 0, 0] } } → y = w.ax a → v = w.setAx a { y with
          st := .off, fault := { y.fault with retPhase := .none, retCmd := none, retCtl := false, retries := [] } } →
        ∀ d, (∀ id, x.fault.retCmd = some id → d = v.done id) → (x.fault.retCmd = none → d = v) →
        exec (.reinstatementEnded dt a) s = .next (if x.fault.retCtl = true then d.axctlResult 0 else d))) ∧
    (∀ k z, u.emberWrites = false ∨ u.hearth.queue = [] ∨ u.hearth.writing = none → exec (.emberWriteDone dt k z) s = .next u) ∧
    (∀ (z : Bool) q rest ws v h, u.emberWrites = true → u.hearth.queue = q :: rest → u.hearth.writing = some ws →
      h = u.hearth → v = { u with hearth := { u.hearth with queue := rest, writing := none } } →
      (∀ t w, t = { v with hearth := { v.hearth with
          ember := putWords h.ember (8 * h.next) ws, next := (h.next + 1) % 512
          written := (h.written + 1) % 65536 } } →
        (∀ a n, q.why = .opening a n → w = t.openedEntry a n (some h.next)) →
        (∀ a r, q.why = .closing a r → w = t.closedEntry a r (some h.next)) →
        (∀ id, q.why = .mark id → w = t.finish id .done [BitVec.ofNat 32 h.next] t.net) →
        ((q.why = .notice ∨ q.why = .kindling ∨ q.why = .calset) → w = t) →
        exec (.emberWriteDone dt true z) s = .next w.logReads.emberBegin) ∧
      (∀ t w, t = { v with draws := v.draws + 7, hearth := { v.hearth with
          ember := putWords h.ember (8 * h.next) (0 :: (List.range 7).map fun j =>
            if z then (0 : Word) else Config.emberGarbage (v.draws + j)) } } →
        (∀ a n, q.why = .opening a n → w = t.openedEntry a n none) →
        (∀ a r, q.why = .closing a r → w = t.closedEntry a r none) →
        (∀ id, q.why = .mark id → w = t.fail id .internalError 0 0 t.net) →
        ((q.why = .notice ∨ q.why = .kindling ∨ q.why = .calset) → w = t) →
        exec (.emberWriteDone dt false z) s = .next (w.logReads.emberBegin.raiseSc 19 0x35 .module))) ∧
    (∀ (q : Port) (x : Word), (u.portOpen q = false ∨ u.locked = true) → exec (.errpinWrite dt q x) s = .next u) ∧
    (∀ (q : Port) (x : Word) w v, u.portOpen q = true → u.locked = false → w = u.cancel q →
      v = (w.setFld Reg.fltErrpin 16 8 (x.fld 16 8)).landed Reg.fltErrpin x → v.locked = false →
      (∀ t, v.errPulse = some t → exec (.errpinWrite dt q x) s =
        .next (v.setFld Reg.fltErrpin 1 2 (1 + 2 * (x.bit 0).toNat))) ∧
      (v.errPulse = none → v.pwr.phase = .running → exec (.errpinWrite dt q x) s =
        .next { v.setBit Reg.fltErrpin 0 (x.bit 0) with errPulse := if x.bit 0 then some (v.tb + 400000) else none }) ∧
      (v.errPulse = none → v.pwr.phase ≠ .running → exec (.errpinWrite dt q x) s = .next v)) ∧
    (u.errPulse = none → exec (.errPulseEnd dt) s = .next u) ∧
    (∀ t, u.errPulse = some t → (u.tb < t → exec (.errPulseEnd dt) s = .next u) ∧
      (t ≤ u.tb → ∀ v, v = { u with errPulse := none }.setFld Reg.fltErrpin 1 2 0 →
        (u.bit Reg.fltErrpin 1 = false ∨ v.locked = true ∨ v.pwr.phase ≠ .running → exec (.errPulseEnd dt) s = .next v) ∧
        (u.bit Reg.fltErrpin 1 = true → v.locked = false → v.pwr.phase = .running → exec (.errPulseEnd dt) s =
          .next { v.setBit Reg.fltErrpin 0 (u.bit Reg.fltErrpin 2) with
            errPulse := if u.bit Reg.fltErrpin 2 then some (v.tb + 400000) else none })))
/-- Keyed registers written through both slots (R188, R264, R265, R294, R304, R308, R309, R321, R349, R395, R405): with
the right complement the value is taken: a class no lower than its cause admits, a trip map whose newly mapped latched
trip is raised, an ENABLE that stays while an axis of the bank is active, the calendar, the ceiling, the selection, and an
operation of AXCTL with the result of its first check that fails (that a CLOSE during a retirement has RESULT 5 is log
38). With any other word nothing is written and KEYSTAT shows CAUSE 1. -/
def Obligations.KeyedRegistersTakeTheirValue : Prop :=
  ∀ (s u w : State) (dt : Nat) (q : Port) (x : Word) (m : Nat → State), u = s.advance dt → u.portOpen q = true →
    u.locked = false → w = (u.cancel q).setPend q none → (∀ k, m k = w.mark k 0 32 (.soft x)) →
    (∀ k : Fin 8, exec (.classWrite dt q k x (~~~x)) s = .next ((m (Reg.fltClass k)).writeClass k x) ∧
      (s.Wf → ∀ i, i < 8 → ((m (Reg.fltClass k)).writeClass k x).fld (Reg.fltClass k) (4 * i) 4 =
        if classFixed (8 * k + i) then w.fld (Reg.fltClass k) (4 * i) 4
        else max (lowestClass (8 * k + i)) (x.fld (4 * i) 3))) ∧
    (∀ (a : AxisId) t, t = (m (Reg.pwmTripmap a)).setReg (Reg.pwmTripmap a) (x &&& 0xffff) → exec (.tripmapWrite dt q a x (~~~x)) s =
      .next (if (t.reg Reg.fltTripstat &&& x &&& ~~~(w.reg (Reg.pwmTripmap a)) &&& 0xffff) != 0 then t.extTrip a else t)) ∧
    (∀ b : BankId, (x.bit 0 = false → w.bit (Reg.gdbEnable b) 0 = true → (∃ j, w.activeAx (axisOf b j) = true) →
        exec (.gdbEnableWrite dt q b x (~~~x)) s = .next ((m (Reg.gdbEnable b)).flag (Reg.gdbStat b) 0)) ∧
      ((x.bit 0 = true ∨ w.bit (Reg.gdbEnable b) 0 = false ∨ ∀ j, w.activeAx (axisOf b j) = false) →
        exec (.gdbEnableWrite dt q b x (~~~x)) s = .next (((m (Reg.gdbEnable b)).setReg (Reg.gdbEnable b) (x &&& 1)).syncBank b))) ∧
    (x.bit 0 = true → ∀ w' t hi lo, w' = m Reg.hrtCalctl →
      t = State.setReg { w' with hearth := { w'.hearth with inc := w'.calInc } } Reg.hrtCalctl (x &&& 2) → hi = t.reg Reg.hrtCalsetHi →
      lo = t.reg Reg.hrtCalsetLo → exec (.calset dt q x (~~~x)) s = .next (State.queueEmber { t with hearth := { t.hearth with
          sec := hi.fld 0 8 * 0x100000000 + lo.toNat, acc := hi.fld 8 24 * 65536, calValid := true } }
        ⟨.calset, [emberHead 6 7 false 0 0 127 0 t.timeValid false false, hi, lo,
          BitVec.ofNat 32 (t.hearth.sec / 0x100000000 % 256), BitVec.ofNat 32 t.hearth.sec, 0, 0, 0]⟩)) ∧
    (∀ t, t = (m Reg.pwrCeil).setReg Reg.pwrCeil (x &&& 3) → exec (.ceilWrite dt q x (~~~x)) s =
      .next (t.setBit Reg.pwrStat 1 (decide (x.fld 0 2 < t.level)))) ∧
    exec (.srcselWrite dt q x (~~~x)) s = .next ((m Reg.timeSrcsel).select (x.fld 0 4) none) ∧
    (∀ (op : Nat) (i : Instr) (a : AxisId) t, (op = 1 ∧ i = Instr.axctlClose dt q x (~~~x) ∨ op = 2 ∧ i = .axctlRetire dt q x (~~~x) ∨
        op = 3 ∧ i = .axctlReinstate dt q x (~~~x) ∨ op = 4 ∧ i = .axctlCloseModule dt q x (~~~x)) → x.fld 8 3 = op →
      a = axisNum (x.fld 0 7) → t = (m Reg.fltAxctl).setFld Reg.fltAxctl 0 11 (x.fld 0 7 + op * 0x100) →
      (x.fld 16 16 ≠ (if op = 3 then 0xc3a5 else 0) → exec i s = .next (t.axctlResult 6)) ∧
      (x.fld 16 16 = (if op = 3 then 0xc3a5 else 0) →
        (op = 1 → ((t.ax a).rec? = none → exec i s = .next (t.axctlResult 1)) ∧
          ∀ r, (t.ax a).rec? = some r → (r.pending = true ∨ r.mergedAt = some t.tb → exec i s = .next (t.axctlResult 2)) ∧
            (r.pending = false → r.mergedAt ≠ some t.tb → (t.persistsAx a r = true ∨ t.wirePersists r = true) → exec i s = .next (t.axctlResult 3)) ∧
            (r.pending = false → r.mergedAt ≠ some t.tb → t.persistsAx a r = false → t.wirePersists r = false → (t.ax a).fault.retPhase = .none →
              exec i s = .next (((t.closeRec a false).axctlResult 0).eachOf (bankOf a) fun r b =>
                (r.shareAx b).syncReady b)) ∧
            (r.pending = false → r.mergedAt ≠ some t.tb → t.persistsAx a r = false → t.wirePersists r = false →
              (t.ax a).fault.retPhase ≠ .none → exec i s = .next (t.axctlResult 5))) ∧
        (op = 2 → (t.retiring a = true → exec i s = .next (t.axctlResult 5)) ∧
          (t.retiring a = false → exec i s = .next ((t.axctlResult 7).swRetire a none true).spreadShares)) ∧
        (op = 3 → ((t.ax a).st = .retired → (t.ax a).fault.retPhase = .none →
            exec i s = .next ((t.axctlResult 7).reinstate a none true)) ∧
          (((t.ax a).st ≠ .retired ∨ (t.ax a).fault.retPhase ≠ .none) → exec i s = .next (t.axctlResult 5))) ∧
        (op = 4 → (openRec t.modRecs = none → exec i s = .next (t.axctlResult 1)) ∧
          ∀ r, openRec t.modRecs = some r → (r.pending = true ∨ r.mergedAt = some t.tb → exec i s = .next (t.axctlResult 2)) ∧
            (r.pending = false → r.mergedAt ≠ some t.tb → (t.persistsMod r = true ∨ t.wirePersists r = true) → exec i s = .next (t.axctlResult 3)) ∧
            (r.pending = false → r.mergedAt ≠ some t.tb → t.persistsMod r = false → t.wirePersists r = false →
              exec i s = .next (t.closeMod.axctlResult 0).spreadShares)))) ∧
    (∀ (y : Word) (i : Instr), y ≠ ~~~x → (∃ (k : Fin 8) (a : AxisId) (b : BankId), i = Instr.classWrite dt q k x y ∨
        i = .tripmapWrite dt q a x y ∨ i = .gdbEnableWrite dt q b x y ∨ i = .ceilWrite dt q x y ∨ i = .srcselWrite dt q x y ∨
        x.bit 0 = true ∧ i = .calset dt q x y ∨ x.fld 8 3 = 1 ∧ i = .axctlClose dt q x y ∨
        x.fld 8 3 = 2 ∧ i = .axctlRetire dt q x y ∨ x.fld 8 3 = 3 ∧ i = .axctlReinstate dt q x y ∨
        x.fld 8 3 = 4 ∧ i = .axctlCloseModule dt q x y) → exec i s = .next (w.keyFail q 1))

/-- Accesses of a port to the register space (R54, R62, R314 to R322, R325): a write of a keyed register waits for its
complement, 256 ticks at most; a write of a bit alias writes one bit and the other RW bits as they were before what the
module itself wrote in that window, never a keyed register; any other write cancels what is pending and acts; credits change
within the 32,768 tags; a locked module takes none of it. The scrubber puts the vote into all three copies of a register
that software does not write in the same window. -/
def Obligations.RegisterWritesActAsTheirSpaceSays : Prop :=
  ∀ (s u w : State) (dt : Nat) (q : Port) (ad x : Word), u = s.advance dt → u.portOpen q = true → w = u.cancel q →
    (u.locked = false →
      (∀ k, decodeAddr ad = .reg k → keyedReg k = true → exec (.keyedValueWrite dt q ad x) s =
        .next (w.setPend q (some ⟨k, x, w.tb, false⟩))) ∧
      (∀ k r, decodeAddr ad = .reg k → keyedReg k = false → complementOf k = some r →
        exec (.keyedComplementWrite dt q ad x) s = .next (u.complementWrite q r x)) ∧
      (∀ p, u.keyed.get (portIx q) = some p → p.expired = false →
        (p.at_ + 256 < u.tb → exec (.keyedWriteTimeout dt q) s = .next ((u.keyFail q 3).setPend q (some { p with expired := true }))) ∧
        (u.tb ≤ p.at_ + 256 → exec (.keyedWriteTimeout dt q) s = .next u)) ∧
      (u.keyed.get (portIx q) = none → exec (.keyedWriteTimeout dt q) s = .next u) ∧
      (∀ k i y, ad.bit 29 = true → decodeAddr ad = .bit k i → y = w.unwound (w.wordKey k) →
        ((keyedReg k = true ∨ complementOf k ≠ none) → exec (.bitAliasWrite dt q ad x) s = .next (w.keyFail q 1)) ∧
        (keyedReg k = false → complementOf k = none → w.writeOnly k = true → exec (.bitAliasWrite dt q ad x) s = .next w) ∧
        (keyedReg k = false → complementOf k = none → w.writeOnly k = false → exec (.bitAliasWrite dt q ad x) s =
          .next (w.writeKey q k ((y.readKey k &&& y.rwBits k).setBit i (x.bit 0))))) ∧
      (∀ k, decodeAddr ad = .reg k → keyedReg k = false → complementOf k = none →
        exec (.registerWrite dt q ad x) s = .next (w.writeKey q k x)) ∧
      (∀ o, decodeAddr ad = .pool o → q = .host → exec (.registerWrite dt q ad x) s = .next (w.windowWrite ad x)) ∧
      (∀ (i : Fin 3) n m v, n = x.fld 0 16 → m = w.fld (Reg.cmdPortcfg i) 0 16 →
        (n = m → v = w) →
        (n ≠ m → (∀ t, t = n + ((List.finRange 3).filter fun j => j != i).foldl
            (fun (r : Nat) j => r + w.fld (Reg.cmdPortcfg j.val) 0 16) 0 →
          (32768 < t → v = w.flag Reg.cmdCmdstat 1) ∧
          (t ≤ 32768 → v = { w.setFld (Reg.cmdPortcfg i) 0 16 n with
            creditBonus := w.creditBonus.set i (w.creditBonus.get i + (n - m))
            creditHold := w.creditHold.set i (w.creditHold.get i + (m - n)) }))) →
        (x.bit 16 = v.bit (Reg.cmdPortcfg i) 16 → exec (.portcfgWrite dt q i x) s = .next v) ∧
        (x.bit 16 ≠ v.bit (Reg.cmdPortcfg i) 16 →
          ((∃ c ∈ v.tags, portId c.port = i.val) → exec (.portcfgWrite dt q i x) s = .next (v.flag Reg.cmdCmdstat 0)) ∧
          ((∀ c ∈ v.tags, portId c.port ≠ i.val) → exec (.portcfgWrite dt q i x) s =
            .next (v.setBit (Reg.cmdPortcfg i) 16 (x.bit 16)))))) ∧
    (u.locked = true → ∀ i : Instr, (i = Instr.keyedValueWrite dt q ad x ∨ i = .keyedComplementWrite dt q ad x ∨
      i = .keyedWriteTimeout dt q ∨ i = .bitAliasWrite dt q ad x ∨ i = .registerWrite dt q ad x ∨
      ∃ k : Fin 3, i = .portcfgWrite dt q k x) → exec i s = .next u) ∧
    (∀ (l : List Upset) t, t = l.foldl State.upset u → exec (.tmrScrub dt l false) s = .next t ∧ exec (.tmrScrub dt l true) s = .next
      ((((t.regs ++ t.tmrB ++ t.tmrC).map Prod.fst).filter triplReg).eraseDups.foldl State.scrubWord t) ∧
      ∀ k, triplReg k = true → t.justWritten k = false → t.Wf → ∀ v, v = vote (storeGet regReset t.regs k) (storeGet regReset t.tmrB k) (storeGet regReset t.tmrC k) →
        ∀ r, r = t.scrubWord k → storeGet regReset r.regs k = v ∧ storeGet regReset r.tmrB k = v ∧ storeGet regReset r.tmrC k = v ∧
          r.reg k = t.reg k ∧ ∀ j, j ≠ k → (∀ i < 4, j ≠ Reg.poolTracePtr i) → r.reg j = t.reg j)

/-- The host port's frames (R321, R323, R327 to R331, Tables 13-5 and 13-6): each answers the status byte, after the packets
that wait in the ingress buffer are taken (log 49); WRITE makes its words at rising addresses, and no keyed write;
WRITE_KEYED makes the two writes of a keyed write; READ answers from the register space or the window, a first word that is
not ready after the dummy bytes as 0 with RD_LATE, and waits where it reaches an Ember entry that is being written, until
the next frame ends it with RD_LATE (Table 17-3); PUSH gives its packets to the buffer, and one that would overflow its
4,096 bytes is discarded with PUSH_OVF; PULL shifts out the replies that fit whole and removes them; a broken frame, a part
of a word and any other opcode set FRAME_ERR. A port that is not open takes none of them; in a Kindling READ alone is
answered, and while PL0 is entered READ and PULL (log 47). -/
def Obligations.HostFramesDoWhatTheirOpcodeSays : Prop :=
  ∀ (s u e v : State) (dt : Nat) (ad x y : Word), u = s.advance dt →
    (u.hostWait = none → e = u) → (u.hostWait ≠ none → e = { u with hostWait := none }.hifErr 4) →
    v = e.ingress.foldl (fun r p => r.receive .host 0 p) { e with hostStatus := e.statusByte, ingress := [] } →
    (u.hostOpen = true →
      exec (.hifWrite dt ad [] false) s = .next v ∧ exec (.hifWrite dt ad [] true) s = .next (v.hifErr 3) ∧
      exec (.hifWrite dt ad [x] false) s = .next (v.overdue.busWrite .host ad x) ∧
      (∀ (z : Word) l b, exec (.hifWrite dt ad (x :: z :: l) b) s =
        .next (if b then (State.hostWrites (z :: l) (ad + 4) (v.overdue.busWrite .host ad x)).hifErr 3
          else State.hostWrites (z :: l) (ad + 4) (v.overdue.busWrite .host ad x))) ∧
      (∀ p, v.locked = false → v.keyed.get (portIx .host) = some p → p.expired = false →
        v.overdue = (v.keyFail .host 3).setPend .host (some { p with expired := true })) ∧
      (v.keyed.get (portIx .host) = none → v.overdue = v) ∧
      exec (.hifWriteKeyed dt ad [x] false) s = .next (v.busWrite .host ad x) ∧
      exec (.hifWriteKeyed dt ad [x, y] false) s = .next ((v.busWrite .host ad x).busWrite .host (ad + 0x40) y) ∧
      (∀ (z : Word) l b, exec (.hifWriteKeyed dt ad (x :: y :: z :: l) b) s =
        .next (((v.busWrite .host ad x).busWrite .host (ad + 0x40) y).hifErr 3)) ∧
      (∀ op p, v.ingress = [] → p.words.length ≤ 255 → p.port = .host → p.src = 0 →
        exec (.hifPush dt (requestBytes op p) 0) s = .next (v.enterPacket op p) ∧
        ∀ n, exec (.hifPush dt (requestBytes op p) (n + 1)) s = .next { v with ingress := [requestBytes op p] }) ∧
      (∀ (l : List Byte) n w, cutPacket l = none → l ≠ [] → w = v.badCrc .host →
        (l.length % 4 = 0 → exec (.hifPush dt l n) s = .next w) ∧
        (l.length % 4 ≠ 0 → exec (.hifPush dt l n) s = .next (w.hifErr 3))) ∧
      (∀ o : Byte, o ≠ 0x02 → o ≠ 0x03 → o ≠ 0x0b → o ≠ 0x20 → o ≠ 0x21 →
        exec (.hifBadFrame dt o) s = .next (v.hifErr 3))) ∧
    (∀ (r : State) (l p q : List Byte) (left n : Nat), cutPacket l = some (p, q) → r.ingress.length ≤ left →
      (4096 < (r.ingress.map List.length).sum + p.length →
        r.pushAll left (n + 1) l = ((r.badCrc .host).hifErr 2).pushAll left n q) ∧
      ((r.ingress.map List.length).sum + p.length ≤ 4096 → r.ingress.length < left →
        r.pushAll left (n + 1) l = { r with ingress := r.ingress ++ [p] }.pushAll left n q) ∧
      (∀ f rest, (r.ingress.map List.length).sum + p.length ≤ 4096 → r.ingress.length = left → r.ingress ++ [p] = f :: rest →
        r.pushAll left (n + 1) l = ({ r with ingress := rest }.receive .host 0 f).pushAll left n q)) ∧
    (u.hostReads = true → ∀ (ready ns due : Nat) (b : Bool) t, t = { v with hostDummy := u.fld Reg.hifCfg 0 2 } →
      due = u.fld Reg.hifCfg 0 2 * 8 * ns →
      (∀ z r, t.hostWord ad = (z, r) → ∀ n l, (l = true ↔ due < min ready (if ad.bit 29 = false ∧ ad.bit 24 = true then 280 else 100)) →
        ∀ o, (l = true ∨ t.windowBusy ad = false → o = State.hostReadWords n false (ad + 4)
            (if l then { r.hifErr 4 with hostOut := (r.hifErr 4).hostOut ++ [0] } else { r with hostOut := r.hostOut ++ [z] })) →
          (l = false → t.windowBusy ad = true → o = { t with hostWait := some (n + 1, ad) }) →
          exec (.hifRead dt ad (n + 1) ready ns b) s = .next (if b then o.hifErr 3 else o)) ∧
      exec (.hifRead dt ad 0 ready ns b) s = .next (if b then t.hifErr 3 else t) ∧
      (∀ r n, r.windowBusy ad = false → State.hostReadWords (n + 1) false ad r = State.hostReadWords n false (ad + 4)
        { (r.hostWord ad).2 with hostOut := (r.hostWord ad).2.hostOut ++ [(r.hostWord ad).1] }) ∧
      (∀ r n, r.windowBusy ad = true → State.hostReadWords (n + 1) false ad r = { r with hostWait := some (n + 1, ad) }) ∧
      ((∀ o, decodeAddr ad ≠ .pool o) → t.hostWord ad = (t.readAddr ad, t.found ad)) ∧
      (∀ o, decodeAddr ad = .pool o → t.hostWord ad = t.windowRead ad)) ∧
    (u.hostPulls = true → ∀ n (b : Bool) t, t = { v with
        hostDummy := v.fld Reg.hifCfg 0 2
        hostOut := ((v.waiting .host).flatMap Reply.pullWords ++ List.replicate n 0).take n
        replies := dropReplies .host (pulled (v.waiting .host) n) v.replies } →
      exec (.hifPull dt n b) s = .next (if b then t.hifErr 3 else t)) ∧
    (u.hostOpen = false → ∀ (i : Instr) l m b k (o : Byte) r t n,
      (i = Instr.hifWrite dt ad l b ∨ i = .hifWriteKeyed dt ad l b ∨ i = .hifPush dt m k ∨ i = .hifBadFrame dt o ∨
        u.hostReads = false ∧ i = .hifRead dt ad r t n b ∨ u.hostPulls = false ∧ i = .hifPull dt k b) → exec i s = .next u)

/-- The pool's window, links, zeroing and trace rings (R69, R73, R75, R76, R78, R80, R83, R84): the host window writes a
word of a block the host owns and no other, reads any, each access a POOL item of the trace (log 56); a link is written by
who controls the block while it is not in use, else the violation is recorded; zeroing puts zeros in one block; a ring is
set up over a closed chain of the caller's blocks, anew where it is enabled or still closing (log 58), and its oldest item
goes to its next 32 bytes, whatever errors stood there (log 64), the last item of a ring that closes taking it down. -/
def Obligations.PoolWindowLinksAndTraceRings : Prop :=
  ∀ (s u w : State) (dt : Nat) (q : Port) (ad x : Word), u = s.advance dt → s.Wf → u.locked = false → w = u.cancel q →
    (∀ o, o = ad.fld 0 23 / 4 * 4 → inWindow ad = true → u.portOpen q = true → q = .host →
      ∀ item : State → State, (∀ r, item r = r.poolItem ⟨0, 0, 0, false⟩ 127) →
      ((w.blk (o / 256)).owner ≠ 0 → exec (.hostWindowWrite dt ad x) s =
        .next (((item w).flag Reg.poolStat 1).violation 0 (o / 256))) ∧
      ((w.blk (o / 256)).owner = 0 → w.ecc = [] → ∃ t, exec (.hostWindowWrite dt ad x) s = .next t ∧ t.word o = x ∧
        (∀ j, (j < o ∨ o + 4 ≤ j) → t.byte j = w.byte j) ∧ t.regs = (item w).regs ∧ t.desc = w.desc ∧ t.axes = w.axes ∧
        t.tags = w.tags) ∧
      (u.ecc = [] → exec (.hostWindowRead dt ad) s = .next { item u with hostOut := [u.word o] })) ∧
    (inWindow ad = false → exec (.hostWindowWrite dt ad x) s = .next u ∧ exec (.hostWindowRead dt ad) s = .next u) ∧
    (∀ k d, k = x.fld 0 15 → d = w.blk k → u.portOpen q = true → ∀ may : Prop,
      (may ↔ w.controls (portId q) k = true ∧ ¬(0x10 ≤ d.owner ∧ d.owner ≤ 0x6f) ∧ d.inuse = false) →
      (may → exec (.poolLinkWrite dt q x) s = .next (w.setBlk k { d with next := x.fld 16 15, nextv := x.bit 15 })) ∧
      (¬may → exec (.poolLinkWrite dt q x) s = .next ((w.flag Reg.poolStat 0).violation (portId q) k))) ∧
    (∀ k : BitVec 15, (k.toNat ∉ u.zeroing → exec (.blockZeroingDone dt k) s = .next u) ∧
      (k.toNat ∈ u.zeroing → ∃ t, exec (.blockZeroingDone dt k) s = .next t ∧ k.toNat ∉ t.zeroing ∧
        (∀ j, t.byte j = if j / 256 = k.toNat then 0 else u.byte j) ∧ t.desc = u.desc ∧ t.regs = u.regs ∧
        t.axes = u.axes ∧ t.tags = u.tags)) ∧
    (∀ (t : Fin 4) v r, u.portOpen q = true → v = w.setReg (Reg.poolTraceCfg t.val) (x &&& 0x07ff7fff) → r = w.rings.get t →
      (x.bit 15 = false → r.buf = [] → exec (.traceEnable dt q t x) s = .next (v.dropRing t)) ∧
      (x.bit 15 = false → r.buf ≠ [] → exec (.traceEnable dt q t x) s =
        .next { v with rings := v.rings.set t { r with closing := true } }) ∧
      (x.bit 15 = true → ∀ k y, k = x.fld 0 15 → y = v.dropRing t →
        (y.ringChain k 256 k = none → exec (.traceEnable dt q t x) s = .next (y.flag Reg.poolStat 3)) ∧
        (∀ ks, y.ringChain k 256 k = some ks → ∀ ok : Prop, (ok ↔ ∀ b ∈ ks, (y.blk b).owner = portId q ∧
            ∀ j : Fin 4, j ≠ t → b ∉ (y.rings.get j).chain) →
          (ok → ∃ z, exec (.traceEnable dt q t x) s = .next z ∧ z.rings.get t = ⟨ks, [], 0, 0, false⟩ ∧
            z = { ((y.setInuse ks true).setBit (Reg.poolTraceCfg t.val) 15 true).setFld (Reg.poolTracePtr t.val) 0 16 0 with
              rings := z.rings }) ∧
          (¬ok → exec (.traceEnable dt q t x) s = .next (y.flag Reg.poolStat 3))))) ∧
    (∀ (t : Fin 4) r, r = u.rings.get t → (r.buf = [] → exec (.traceCopy dt t) s = .next u) ∧
      (∀ i rest, r.buf = i :: rest → ∃ z o, exec (.traceCopy dt t) s = .next z ∧
        o = r.chain.getD (r.slot / 8) 0 * 256 + r.slot % 8 * 32 ∧
        z.rings.get t = (if rest = [] ∧ r.closing = true then TraceRing.empty
          else { r with buf := rest, written := (r.written + 1) % 65536, slot := (r.slot + 1) % (8 * r.chain.length) }) ∧
        (∀ j, j < o ∨ o + 32 ≤ j → z.byte j = u.byte j) ∧
        (∀ j, j < 32 → z.byte (o + j) = (i.bytes r.written).getD j 0) ∧ z.axes = u.axes ∧
        z.desc = if rest = [] ∧ r.closing = true then (u.setInuse r.chain false).desc else u.desc)) ∧
    (u.ecc = [] → exec (.poolScrub dt []) s = .next { u with ceNoted := [] } ∧ ∀ (d : BitVec 20) (b : Bool),
      exec (.poolScrub dt [(d, b)]) s = .next { u with ceNoted := [], ecc := [(d.toNat, b)] }) ∧
    (∀ d, u.ecc = [(d, false)] → exec (.poolScrub dt []) s =
      .next ({ { u with ecc := [] }.bump Reg.poolEccstat 0 16 with ceNoted := [d / 32] }.raiseC0 9 0x2d .module)) ∧
    (∀ d, u.ecc = [(d, true)] → ∀ v, v = { u with ceNoted := [] }.bump Reg.poolEccstat 16 8 → exec (.poolScrub dt []) s =
      .next ((v.setBlk (d / 32) { v.blk (d / 32) with poison := true }).raiseC0 9 0x1b .module))

/-- Frames and ports (R333, R335 to R343, Table 14-2): a frame that is too short or of another type is counted; one that
the rows of Table 14-2 drop is counted at its row; one for this node is delivered, one for another is forwarded by the
other port one hop on, one for all both; a frame with a bad FCS is forwarded marked bad and not delivered (the FCS itself,
and that it leaves the duplicate filter alone, are log 18). A port's link follows its line, with ANEN once
auto-negotiation has completed, without at once, and with SGMII at its one rate only; a node address acts on frames whose
first bit comes after it, and the reserved one is not taken. -/
def Obligations.FramesAreRoutedByTheirHeader : Prop :=
  ∀ (s u : State) (dt : Nat) (p : Fin 2) (l : List Byte), u = s.advance dt →
    ((u.portOpen (netPort p) = false ∨ u.linkUp p = false) → exec (.frameReceived dt p l) s = .next u) ∧
    (u.portOpen (netPort p) = true → u.linkUp p = true →
      ((l.length < 46 ∨ numAt l 12 2 ≠ 0x88b5 ∧ numAt l 12 2 ≠ 0x88f7) →
        exec (.frameReceived dt p l) s = .next (u.bump (Reg.netDropcnt p) 24 8)) ∧
      (46 ≤ l.length → numAt l 12 2 = 0x88f7 → exec (.frameReceived dt p l) s = .next u) ∧
      (46 ≤ l.length → numAt l 12 2 = 0x88b5 → ∀ src dst own seq hops r ds v, dst = numAt l 14 2 % 0x4000 →
        src = numAt l 16 2 % 0x4000 → seq = numAt l 18 2 → hops = numAt l 20 1 → own = u.nodeFor l.length →
        u.route own dst src seq hops = (r, ds) → v = { u with netw := { u.netw with dups := ds } } →
        (∀ good : Prop, (good ↔ fcsOf (l.take (l.length - 4)) = l.drop (l.length - 4)) →
          (good → r = .deliver → exec (.frameReceived dt p l) s = .next (v.deliver p src l)) ∧
          (good → r = .forward → exec (.frameReceived dt p l) s = .next (v.forward p l false)) ∧
          (good → r = .both → exec (.frameReceived dt p l) s = .next ((v.forward p l false).deliver p src l)) ∧
          (good → r = .dropHop → exec (.frameReceived dt p l) s = .next (v.bump (Reg.netDropcnt p) 16 8)) ∧
          (good → r = .dropDup → exec (.frameReceived dt p l) s = .next (v.bump (Reg.netDropcnt p) 8 8)) ∧
          (¬good → (r = .forward ∨ r = .both) → exec (.frameReceived dt p l) s =
            .next ((u.forward p l true).bump (Reg.netDropcnt p) 0 8)) ∧
          (¬good → r ≠ .forward → r ≠ .both → exec (.frameReceived dt p l) s = .next (u.bump (Reg.netDropcnt p) 0 8))) ∧
        (src = 0 → r = (if dst = 0 ∨ dst = own ∨ dst = 0x3fff then .deliver else .dropHop)) ∧
        (src ≠ 0 → (src = own ∨ u.fld Reg.netTopo 8 8 ≤ hops) → r = .dropHop) ∧
        (src ≠ 0 → src ≠ own → hops < u.fld Reg.netTopo 8 8 → ((dupStep u.netw.dups u.tb src seq).1 = true → r = .dropDup) ∧
          ((dupStep u.netw.dups u.tb src seq).1 = false →
            r = if dst = 0 ∨ dst = own then .deliver else if dst = 0x3fff then .both else .forward)))) ∧
    (∀ (up an bad on sg ne lk : Bool) v, on = (u.up && u.gateOn (1 + p.val) && u.portMode p != 0) →
      sg = decide (u.portMode p = 1) → ne = (!sg && u.bit (Reg.netPcfg p) 2) →
      v = (u.setBit (Reg.netPstat p) 1 (on && an && (sg || ne))).setBit (Reg.netPstat p) 2 (on && bad && sg) →
      lk = (on && up && !(on && bad && sg) && (!ne || an)) →
      (v.linkUp p = true → lk = false → exec (.portLinkChange dt p up an bad) s =
        .next ((v.bump (Reg.netPstat p) 8 8).setBit (Reg.netPstat p) 0 false)) ∧
      ((v.linkUp p = false ∨ lk = true) → exec (.portLinkChange dt p up an bad) s =
        .next (v.setBit (Reg.netPstat p) 0 lk))) ∧
    (∀ (q : Port) (x : Word) w, u.portOpen q = true → u.locked = false → w = u.cancel q →
      (x.fld 0 14 ≠ 0x3fff → exec (.nodeAddrWrite dt q x) s = .next (State.setFld { w with netw := { w.netw with
        nodes := (w.fld Reg.netNode 0 14, w.tb) :: w.netw.nodes.filter fun h => decide (w.tb < h.2 + 8000) } } Reg.netNode 0 14
          (x.fld 0 14))) ∧
      (x.fld 0 14 = 0x3fff → exec (.nodeAddrWrite dt q x) s = .next w))

/-! ## Time, PTP and groups -/

/-- PTP messages (R334, R346 to R348, R350): on an open port with a role and the right domain the ordinary clock takes an
Announce of another clock, the two-step Sync, the Follow_Up that belongs to it and the Delay_Resp to its request, of the
master it follows and of no other, flags a one-step Sync of any, and as master answers a Delay_Req with its stamp to the
last 2^-16 ns; the transparent clock passes every message to the other port and adds the residence time to the
corrections; at its intervals the ordinary clock sends its own, a Delay_Req no sooner than LOGDREQ lets it. How masters
compare is log 19. -/
def Obligations.PtpMessagesAreHeardAnsweredAndPassedOn : Prop :=
  ∀ (s u : State) (dt : Nat) (p : Fin 2) (m : PtpMsg), u = s.advance dt →
    (∀ hears : Prop, (hears ↔ u.ptpOpen p = true ∧ u.ptpRole ≠ 0 ∧ m.domain.toNat = u.ptpDomain) →
      (¬hears → exec (.ptpMessage dt p m) s = .next u) ∧
      (hears → m.kind = .announce → exec (.ptpMessage dt p m) s = .next (if m.src = clockId then u else u.hearAnnounce p m)) ∧
      (hears → m.kind = .sync → exec (.ptpMessage dt p m) s = .next (if m.twoStep = false then u.flag Reg.netPtpstat 16
        else if u.fromMaster p m = false then u
        else u.modPtp fun t => { t with sync := some (m.seq, u.fine - m.ago, m.corr) })) ∧
      (hears → m.kind = .followUp → (u.netw.ptp.sync = none ∨ u.fromMaster p m = false) →
        exec (.ptpMessage dt p m) s = .next u) ∧
      (hears → m.kind = .followUp → u.fromMaster p m = true → ∀ q t2 c, u.netw.ptp.sync = some (q, t2, c) →
        (q ≠ m.seq → exec (.ptpMessage dt p m) s = .next u) ∧
        (q = m.seq → m.sec < u.epoch → exec (.ptpMessage dt p m) s = .next (State.timeSource ((u.modPtp fun t => { t with
          sync := none, good := 0 }).modServo fun v => { v with ptpQual := false, heldSince := none }))) ∧
        (q = m.seq → u.epoch ≤ m.sec → ∀ d v,
          d = fineNs t2 - (u.rxLat p * 65536 : Nat) - u.stampNs m.sec m.ns - (c + m.corr) →
          v = u.modPtp (fun t => { t with sync := none, msDiff := some d }) → exec (.ptpMessage dt p m) s =
            .next (if u.netw.ptp.delayOk then v.pairDone (d - (u.reg Reg.netPtpdelay).toNat * 65536) else v))) ∧
      (hears → m.kind = .delayResp → ∀ q t3 d, u.netw.ptp.req = some (q, t3) → u.netw.ptp.msDiff = some d →
        (u.fromMaster p m = true → q = m.seq → m.reqId = clockId → m.reqPort = 1 → ∀ e,
          e = u.stampNs m.sec m.ns - (fineNs t3 + (u.txLat p * 65536 : Nat)) - m.corr → exec (.ptpMessage dt p m) s =
            .next ((u.modPtp fun t => { t with req := none, delayOk := true }).setReg Reg.netPtpdelay
              (BitVec.ofNat 32 (max 0 (min (2 ^ 32 - 1) (nsOf ((d + e) / 2)))).toNat))) ∧
        ((u.fromMaster p m = false ∨ q ≠ m.seq ∨ m.reqId ≠ clockId ∨ m.reqPort ≠ 1) →
          exec (.ptpMessage dt p m) s = .next u)) ∧
      (hears → m.kind = .delayReq → exec (.ptpMessage dt p m) s = .next (if u.isMaster then
        u.sendPtp p { u.ownMsg .delayResp m.seq with
          corr := m.corr - (u.ptpTime (u.rxStamp p m.ago)).2.2, sec := (u.ptpTime (u.rxStamp p m.ago)).1
          ns := (u.ptpTime (u.rxStamp p m.ago)).2.1, reqId := m.src, reqPort := m.srcPort }
        else u)) ∧
      (hears → m.kind = .other → exec (.ptpMessage dt p m) s = .next u)) ∧
    (∀ f : Nat, u.rxStamp p f = ((u.fine - f) * 10240 : Nat) - ((u.rxLat p * 65536 : Nat) : Int) ∧
      u.txStamp p = ((u.fine * 10240 + u.txLat p * 65536 : Nat) : Int)) ∧
    (∀ n ns r : Nat, ns < 1000000000 → r < 65536 → u.ptpTime (((n * 1000000000 + ns) * 65536 + r : Nat) : Int) =
      (n + u.epoch, ns, (r : Int))) ∧
    (∀ sec ns : Nat, u.netOf sec ns = ((sec : Int) - u.epoch) * 400000000 + ((ns * 2 + 2) / 5 : Nat)) ∧
    (∀ passes : Prop, (passes ↔ u.ptpOpen p = true ∧ u.ptpOpen (1 - p) = true ∧ u.bit Reg.netTccfg 0 = true ∧
        u.isMaster = false) → ∀ (r : Int) (keep : Bool → State), r = u.residence p m →
      (∀ b, keep b = (u.modPtp fun t => { t with residences := ⟨m.src, m.srcPort, m.seq, b, r⟩ :: t.residences }).peak
        Reg.netTccfg 16 16 (min 65535 (nsOf r).toNat)) →
      (¬passes → exec (.ptpTransparentForward dt p m) s = .next u) ∧
      (passes → (m.kind = .announce ∨ m.kind = .other) → exec (.ptpTransparentForward dt p m) s = .next (u.sendPtp (1 - p) m)) ∧
      (passes → m.kind = .sync → exec (.ptpTransparentForward dt p m) s =
        .next ((if m.twoStep then keep false else u).sendPtp (1 - p) m)) ∧
      (passes → m.kind = .delayReq → exec (.ptpTransparentForward dt p m) s = .next ((keep true).sendPtp (1 - p) m)) ∧
      (passes → m.kind = .followUp → ∀ (k : Int), k = (((u.netw.ptp.residences.find? fun e => e.src == m.src &&
          e.srcPort == m.srcPort && e.seq == m.seq && e.delayReq == false).map Residence.res).getD 0) →
        exec (.ptpTransparentForward dt p m) s = .next (u.sendPtp (1 - p) { m with corr := m.corr + k })) ∧
      (passes → m.kind = .delayResp → ∀ (k : Int), k = (((u.netw.ptp.residences.find? fun e => e.src == m.reqId &&
          e.srcPort == m.reqPort && e.seq == m.seq && e.delayReq == true).map Residence.res).getD 0) →
        exec (.ptpTransparentForward dt p m) s = .next (u.sendPtp (1 - p) { m with corr := m.corr + k }))) ∧
    (u.up = false → ∀ k, exec (.syncInterval dt k) s = .next u) ∧
    (u.up = true → ∀ t, t = u.netw.ptp →
      (u.isMaster = true → ∀ v w, v = (u.sendPtp 0 (u.ownMsg .announce t.seqAnn)).sendPtp 1 (u.ownMsg .announce t.seqAnn) →
        w = (u.sendPtp 0 (u.ownMsg .sync t.seqSync)).sendPtp 1 (u.ownMsg .sync t.seqSync) → ∀ f : Fin 2 → PtpMsg,
        (∀ q, f q = { u.ownMsg .followUp t.seqSync with
          corr := (u.ptpTime (u.txStamp q)).2.2, sec := (u.ptpTime (u.txStamp q)).1, ns := (u.ptpTime (u.txStamp q)).2.1 }) →
        exec (.syncInterval dt .announce) s = .next (v.modPtp fun t => { t with seqAnn := t.seqAnn + 1 }) ∧
        exec (.syncInterval dt .sync) s =
          .next (((w.sendPtp 0 (f 0)).sendPtp 1 (f 1)).modPtp fun y => { y with seqSync := t.seqSync + 1 })) ∧
      (u.isMaster = false → exec (.syncInterval dt .announce) s = .next u ∧ exec (.syncInterval dt .sync) s = .next u) ∧
      (∀ k, k = .followUp ∨ k = .delayResp ∨ k = .other → exec (.syncInterval dt k) s = .next u) ∧
      ((u.ocMaster = none ∨ u.ptpState ≠ 8 ∧ u.ptpState ≠ 9 ∨ ∃ r, t.reqAt = some r ∧ u.tb < r + u.dreqTicks) →
        exec (.syncInterval dt .delayReq) s = .next u) ∧
      u.dreqTicks = 2 ^ min 5 (u.fld Reg.netPtpcfg 18 3) * 400000000 ∧
      (∀ q n, u.ocMaster = some (q, n) → (u.ptpState = 8 ∨ u.ptpState = 9) → (∀ r, t.reqAt = some r → r + u.dreqTicks ≤ u.tb) →
        exec (.syncInterval dt .delayReq) s = .next ((u.sendPtp q (u.ownMsg .delayReq t.seqReq)).modPtp fun y =>
          { y with req := some (t.seqReq, u.fine), reqAt := some u.tb, seqReq := t.seqReq + 1 })))

/-- The time source (R349 to R352): a change commits at a multiple of 400,000 ticks of network time after its request and
not before; a slave whose pairs stop loses its qualification, and one that has been away is qualified again after 2 s; a
master whose own Announces find no better one takes over; EPOCH is written only while the time is unset. -/
def Obligations.TheTimeSourceChangesByItsRules : Prop :=
  ∀ (s u w : State) (dt : Nat) (q : Port) (x : Word), u = s.advance dt → u.locked = false → w = u.cancel q →
    (u.netw.servo.pend = none → exec (.sourceCommit dt) s = .next u) ∧
    (∀ k r, u.netw.servo.pend = some (k, r) →
      ((u.netw.servo.source = 2 ∨ u.net < gridAt 400000 r + 400000) → exec (.sourceCommit dt) s = .next u) ∧
      (u.netw.servo.source ≠ 2 → gridAt 400000 r + 400000 ≤ u.net → ∀ v,
        v = u.modServo (fun v => { v with source := k, pend := none, phase := if k = 0 then 0 else v.phase
                                          away := k == 0, ptpQual := v.ptpQual && k != 0, heldSince := none }) →
        exec (.sourceCommit dt) s = .next (State.endSelect (State.checkTimes
          (if k = 1 ∧ u.netw.ptp.delayOk = true then v.discipline u.lastOffset else v)) .done 0))) ∧
    (u.portOpen q = true →
      (w.netw.servo.unset = true → exec (.epochWrite dt q x) s = .next ((w.setReg Reg.timeEpochLo
        (w.heldWord Reg.timeEpochLo)).setReg Reg.timeEpochHi (x &&& 0xffff))) ∧
      (w.netw.servo.unset = false → exec (.epochWrite dt q x) s = .next (w.flag Reg.timeDisc 1))) ∧
    (∀ slave gone : Prop, (slave ↔ u.ptpState = 8 ∨ u.ptpState = 9) →
        (gone ↔ u.bestMaster = none ∨ u.ocMaster = none ∨ u.dropMasters.netw.ptp ≠ u.netw.ptp) →
      (u.up = true → slave → gone → exec (.ptpLost dt) s = .next u.dropMasters.ptpDecide) ∧
      (u.up = true → slave → ¬gone → u.netw.ptp.lastPair + 4 * u.syncTicks ≤ u.tb → exec (.ptpLost dt) s =
        .next ((u.modPtp fun t => { t with good := 0 }).modServo fun v => { v with ptpQual := false, heldSince := none }).timeSource) ∧
      (u.up = true → u.ptpState = 4 → u.ptpRole = 2 → u.netw.ptp.lastAnn + u.annTicks ≤ u.tb → exec (.ptpLost dt) s =
        .next (u.ptpForget.ptpShow 6 0 0 clockId).timeSource) ∧
      ((u.up = false ∨ slave ∧ ¬gone ∧ u.tb < u.netw.ptp.lastPair + 4 * u.syncTicks ∨
          ¬slave ∧ (u.ptpState ≠ 4 ∨ u.ptpRole ≠ 2 ∨ u.tb < u.netw.ptp.lastAnn + u.annTicks)) →
        exec (.ptpLost dt) s = .next u)) ∧
    (u.netw.servo.heldSince = none → exec (.ptpRequalified dt) s = .next u) ∧
    (∀ t, u.netw.servo.heldSince = some t → ∀ good : Prop, (good ↔ u.netw.servo.away = true ∧ u.ptpState = 9 ∧
        u.netw.ptp.good = 8 ∧ t + 2 * tickHz ≤ u.tb) →
      (good → exec (.ptpRequalified dt) s =
        .next (u.modServo fun v => { v with ptpQual := true, away := false, heldSince := none }).timeSource) ∧
      (¬good → exec (.ptpRequalified dt) s = .next u))

/-- A member of a motion group at its start instant and before it (R359, R360): a committed member that loses the time, a
staged command or an axis goes back to armed, its start ended by the status that says why (which one is log 29); one that
loses nothing starts each staged command at the start instant itself, and GROUP_START_AT is done then. A member in any other
state does neither. -/
def Obligations.CommittedMembersStartTogetherOrWithdraw : Prop :=
  ∀ (s u : State) (dt : Nat) (g : BitVec 12), u = s.advance dt →
    (u.member g.toNat = none → exec (.groupWithdraw dt g) s = .next u ∧ exec (.groupStartInstant dt g) s = .next u) ∧
    (∀ m, u.member g.toNat = some m →
      (m.st ≠ .committed → exec (.groupWithdraw dt g) s = .next u ∧ exec (.groupStartInstant dt g) s = .next u) ∧
      (m.st = .committed → m.within = false → exec (.groupWithdraw dt g) s =
        .next (((u.endStart m .timeDiverged).modMember m.group fun m => { m with st := .armed, start := none }).grpEvent 2) ∧
        exec (.groupStartInstant dt g) s = .next u) ∧
      (∀ ready : Prop, (ready ↔ ∀ a ∈ m.list, u.stagedOk a = true ∧ (u.ax a).hasRec = false) →
        m.st = .committed → m.within = true →
        (¬ready → exec (.groupWithdraw dt g) s =
          .next ((u.endStart m .axisFaulted).modMember m.group fun m => { m with st := .armed, start := none }) ∧
          exec (.groupStartInstant dt g) s = .next u) ∧
        (ready → exec (.groupWithdraw dt g) s = .next u ∧
          (u.net < m.at_ → exec (.groupStartInstant dt g) s = .next u) ∧
          (m.at_ ≤ u.net → ∀ v, v = m.list.foldl (fun s a => match s.stagedOn a with
              | some c => s.startStaged a c m.at_
              | none => s) (u.modMember m.group fun m => { m with st := .joined, start := none }) →
            (m.start = none → exec (.groupStartInstant dt g) s = .next v) ∧
            (∀ id, m.start = some id → exec (.groupStartInstant dt g) s = .next (v.finish id .done [] m.at_))))))

/-! ## Clocks -/

/-- The way to the PLL and back (R363 to R368, R374, R377): a measurement that is due is shown and, off the PLL, chooses
the multiplier and starts a lock, and ends a lock on another value; a lock starts a planned switch; a switch makes its
sixteen steps, none within 20,000 ticks of the one before, and changes the source at the eighth; a switch that falls back
ends at step 0; a round of calibration on the PLL sets CALDONE once every line has been calibrated since the switch; a
REFCLK that has been good for 10 ms after a loss starts a lock again. -/
def Obligations.ClocksLockAndSwitchStepByStep : Prop :=
  ∀ (s u : State) (dt : Nat), u = s.advance dt →
    (∀ x : BitVec 12, (u.refDue = false → exec (.refclkMeasure dt x) s = .next u) ∧
      (u.refDue = true → ∀ r v w, r = refOf x.toNat →
        v = ((if u.pwr.phase = .kindling ∧ u.kstep = 2 then u.setStep 3 else u).setFld Reg.clkRef 16 12 x.toNat).modClk
          (fun k => { k with measAt := u.tb }) → w = (v.clkFlag 3 r.isSome).clkFlag 4 r.isNone →
        ∀ c, c = (r.map Prod.fst).getD 0 → ∀ rests : Prop, (rests ↔ w.onPll = true ∨ w.clk.sw ≠ none ∨
          w.clk.locking = true ∧ c = w.fld Reg.clkRef 4 3 ∨ w.pwr.phase = .pl0) →
        (rests → exec (.refclkMeasure dt x) s = .next w) ∧
        (¬rests → ∀ y, y = (w.modClk fun k => { k with locking := false }).setFld Reg.clkRef 4 3 c →
          (w.clk.lost = false → r = none → exec (.refclkMeasure dt x) s = .next y) ∧
          (w.clk.lost = false → ∀ m, r = some (c, m) → exec (.refclkMeasure dt x) s =
            .next ((y.setFld Reg.clkRef 8 8 m).modClk fun k => { k with locking := true })) ∧
          (w.clk.lost = true → ∀ g,
            g = (if c = 0 then none else if c = w.fld Reg.clkRef 4 3 then some (w.clk.goodSince.getD u.tb) else some u.tb) →
            exec (.refclkMeasure dt x) s = .next (y.modClk fun k => { k with goodSince := g }))))) ∧
    (u.clk.locking = false → exec (.pllLock dt) s = .next u) ∧
    (u.clk.locking = true → exec (.pllLock dt) s =
      .next (if u.ramping then u.clkFlag 2 true else (u.clkFlag 2 true).startSwitch true)) ∧
    (∀ w, u.clk.sw = some w →
      (u.tb < w.at_ + 20000 → exec (.clockSwitchStep dt) s = .next u) ∧
      (w.at_ + 20000 ≤ u.tb → w.back = false →
        (w.step + 1 ≠ 16 → exec (.clockSwitchStep dt) s =
          .next ((if w.step = 7 then u.setSource w.toPll else u).modClk fun k =>
            { k with sw := some { w with step := w.step + 1, at_ := u.tb } })) ∧
        (w.step + 1 = 16 → ∀ v, v = (u.modClk fun k => { k with sw := none }).clkFlag 1 false →
          (w.toPll = true → exec (.clockSwitchStep dt) s = .next v.onPllAgain) ∧
          (w.toPll = false → v.pwr.change = none → exec (.clockSwitchStep dt) s = .next v) ∧
          (w.toPll = false → ∀ c, v.pwr.change = some c → exec (.clockSwitchStep dt) s =
            .next (v.modPwr fun p => { p with change := some { c with stage := .last } })))) ∧
      (w.at_ + 20000 ≤ u.tb → w.back = true →
        (1 < w.step → exec (.clockSwitchStep dt) s =
          .next ((if w.step = 8 then u.setSource false else u).modClk fun k =>
            { k with sw := some { w with step := w.step - 1, at_ := u.tb } })) ∧
        (w.step = 1 → exec (.clockSwitchStep dt) s = .next ((u.modClk fun k => { k with sw := none }).clkFlag 1 false)))) ∧
    (u.clk.sw = none →
      (u.ramping = true → exec (.clockSwitchStep dt) s = .next u) ∧
      (u.ramping = false → u.clk.locking = true → u.bit Reg.clkStat 2 = true → exec (.clockSwitchStep dt) s =
        .next (u.startSwitch true)) ∧
      (u.ramping = false → (u.clk.locking = false ∨ u.bit Reg.clkStat 2 = false) →
        (∀ c, u.pwr.change = some c → c.stage ≠ .deep) → exec (.clockSwitchStep dt) s = .next u) ∧
      ((u.clk.locking = false ∨ u.bit Reg.clkStat 2 = false) → ∀ c, u.pwr.change = some c → c.stage = .deep →
        exec (.clockSwitchStep dt) s =
        .next (if u.onPll then u.startSwitch false else u.modPwr fun p => { p with change := some { c with stage := .last } }))) ∧
    (exec (.calRoundDone dt) s = .next (if u.onPll = true ∧ u.clk.sw = none ∧
      ∀ b : BankId, (u.bank b).calibrated = BitVec.allOnes 61 then u.clkFlag 6 true else u)) ∧
    (u.clk.goodSince = none → exec (.clockReturn dt) s = .next u) ∧
    (∀ t, u.clk.goodSince = some t → ∀ back : Prop, (back ↔ u.clk.lost = true ∧ u.onPll = false ∧ u.clk.sw = none ∧
        u.clk.locking = false ∧ t + 4000000 ≤ u.tb) →
      (¬back → exec (.clockReturn dt) s = .next u) ∧
      (back → ∀ m, m = (((refTable.find? fun r => r.1 == u.fld Reg.clkRef 4 3).map fun r => r.2.2).getD 0) →
        exec (.clockReturn dt) s = .next ((u.setFld Reg.clkRef 8 8 m).modClk fun k => { k with locking := true, goodSince := none })))

/-- Clock loss, the watch over the RC, and gating (R367, R369, R370, R372, R373, R375, Tables 15-3 and 15-4): a detector
acts while its clock is in use and RC_BAD is clear; on the PLL the source goes to the RC at once, network time advanced by
the RC cycles without an edge; in a switch up a lost REFCLK makes it fall back, the same time bridged; RC_BAD comes with a
period off by more than a tenth and goes after 1 s; a gate whose unit is in use stays open and sets GATE_REFUSED. -/
def Obligations.ClockLossRcWatchAndGatesAct : Prop :=
  ∀ (s u w : State) (dt : Nat) (q : Port) (x : Word), u = s.advance dt → u.locked = false → w = u.cancel q →
    (∀ (r : Fin 4) (gap : BitVec 16) (live : Prop), (live ↔ r ≠ 0 ∧ u.bit Reg.clkStat 5 = false ∧
        (u.pwr.phase = .running ∨ u.pwr.phase = .kindling ∨ u.pwr.phase = .entering)) →
      (¬live → exec (.clockLost dt r gap) s = .next u) ∧
      (∀ g (force : Bool → State), g = (if u.onPll = true then gap.toNat else 0) → (∀ during, force during =
          (State.pass (((u.modClk fun k => { k with sw := none }).clkFlag 1 false).setSource false) g).clockLoss r.val g during) →
        (live → u.clk.sw = none → exec (.clockLost dt r gap) s = .next (if u.onPll then force u.ramping else u)) ∧
        (live → ∀ k, u.clk.sw = some k →
          (k.back = true → u.onPll = false → exec (.clockLost dt r gap) s = .next u) ∧
          (k.back = true → u.onPll = true → exec (.clockLost dt r gap) s = .next (force true)) ∧
          (k.back = false → (k.toPll = false ∨ r ≠ 1) → exec (.clockLost dt r gap) s = .next (force true)) ∧
          (k.back = false → k.toPll = true → r = 1 → ∀ v,
            v = (((u.clkFlag 0 false).pass g).clkFlag 0 u.onPll).clockLoss 1 g true → exec (.clockLost dt r gap) s =
              .next (if k.step = 0 then (v.modClk fun k => { k with sw := none }).clkFlag 1 false
                else v.modClk fun y => { y with sw := some { k with back := true, at_ := v.tb } }))))) ∧
    (∀ b, (u.onPll = false → exec (.rcBad dt b) s = .next u) ∧
      (u.onPll = true → b = true → exec (.rcBad dt b) s =
        .next ((u.clkFlag 5 true).modClk fun k => { k with rcGood := none })) ∧
      (u.onPll = true → b = false → u.bit Reg.clkStat 5 = false → exec (.rcBad dt b) s = .next u) ∧
      (u.onPll = true → b = false → u.bit Reg.clkStat 5 = true → u.clk.rcGood = none → exec (.rcBad dt b) s =
        .next (u.modClk fun k => { k with rcGood := some u.tb })) ∧
      (u.onPll = true → b = false → u.bit Reg.clkStat 5 = true → ∀ t, u.clk.rcGood = some t → exec (.rcBad dt b) s =
        .next (if t + tickHz ≤ u.tb then (u.clkFlag 5 false).modClk fun k => { k with rcGood := none } else u))) ∧
    (∀ per : BitVec 24, (u.onPll = true → u.clk.rcAt + 400000 ≤ u.tb → exec (.rcperMeasure dt per) s =
        .next (((u.setFld Reg.clkRcper 0 24 per.toNat).modClk fun k => { k with rcAt := u.tb }).rcWatch
          (decide (16384 < ((per.toNat : Int) - 16384).natAbs * 10)))) ∧
      ((u.onPll = false ∨ u.tb < u.clk.rcAt + 400000) → exec (.rcperMeasure dt per) s = .next u)) ∧
    (u.portOpen q = true → ∀ n : Fin 3,
      (n = 2 → exec (.gateWrite dt q n x) s = .next (w.plainWrite Reg.clkGateDeep x)) ∧
      (n ≠ 2 → w.gateInForce n.val = false → exec (.gateWrite dt q n x) s =
        .next (w.setReg (Reg.clkGateRun + 4 * n.val) (x &&& 0x7ff)).applyGates) ∧
      (n ≠ 2 → (∀ i < 11, x.bit i = false → w.gateRefused q i = true → (w.reg (Reg.clkGateRun + 4 * n.val)).bit i = false) →
        exec (.gateWrite dt q n x) s = .next (w.setReg (Reg.clkGateRun + 4 * n.val) (x &&& 0x7ff)).applyGates) ∧
      (∀ i < 11, n ≠ 2 → w.gateInForce n.val = true → x.bit i = false → w.gateRefused q i = true →
        (w.reg (Reg.clkGateRun + 4 * n.val)).bit i = true → ∃ v, exec (.gateWrite dt q n x) s =
          .next ((w.setReg (Reg.clkGateRun + 4 * n.val) v).flag Reg.clkStat 7).applyGates ∧
        ∀ j < 32, v.bit j = (decide (j < 11) && (x.bit j || (w.reg (Reg.clkGateRun + 4 * n.val)).bit j && w.gateRefused q j))))

/-! ## Kindling, performance levels, shutdown and the Hearth -/

/-- What starts a Kindling, and what it keeps (R379 to R382, R396, R397, R400, Tables 16-1, 16-3 and 16-8): a supply,
nRESET, WAKE or a returning supply starts one in its phase of the supply and in no other; nRESET that rises before VIN_L
is back waits for it; after it every axis is OFF, the pool empty, no command open and no group joined; the retirement
flags stand, and the Hearth's contents and registers, but CALMEAS is not valid until the next measurement, and entries
that wait to be written are dropped (log 47); with the snapshot a warm one also keeps the classes, the gates, the ceiling,
the count of clock losses, and whether the module is locked (log 48), each item that the snapshot still holds; network
time goes on through a warm one (log 22); every other register but those a Kindling sets is at its reset value. -/
def Obligations.KindlingsStartAndKeepWhatTheyMay : Prop :=
  ∀ (s u : State) (dt : Nat) (st : Straps), u = s.advance dt →
    (exec (.kindlingCold dt st) s =
      .next (if u.pwr.phase = .unpowered ∨ u.pwr.phase = .waiting ∨ u.pwr.phase = .held ∧ u.pwr.vinOk = false
        then u.kindle 0 st else u)) ∧
    (u.pwr.phase = .waiting → exec (.kindlingWarmSupply dt st) s = .next (u.kindle 2 st)) ∧
    (u.pwr.phase = .held → exec (.kindlingWarmSupply dt st) s = .next (u.modPwr fun p => { p with vinOk := true })) ∧
    (u.pwr.phase ≠ .waiting → u.pwr.phase ≠ .held → exec (.kindlingWarmSupply dt st) s = .next u) ∧
    (∀ v, v = u.modPwr (fun p => { p with nresetLow := true }) →
      ((u.pwr.phase = .unpowered ∨ u.pwr.phase = .shutdown ∨ u.pwr.phase = .waiting) → exec (.nresetLow dt) s = .next v) ∧
      (u.pwr.phase ≠ .unpowered → u.pwr.phase ≠ .shutdown → u.pwr.phase ≠ .waiting → exec (.nresetLow dt) s =
        .next ((v.allSafe.modPwr fun p => { p with phase := .held, since := u.tb, change := none }).eachAx fun r a =>
          r.syncReady a))) ∧
    (∀ v, v = u.modPwr (fun p => { p with nresetLow := false }) →
      exec (.nresetRise dt st) s = .next (if u.pwr.phase = .held then (if u.pwr.vinOk then v.kindle 1 st
        else v.modPwr fun p => { p with phase := .waiting, since := u.tb }) else v)) ∧
    (∀ high v, v = u.modPwr (fun p => { p with wakeHigh := high }) →
      ((high = false ∨ u.pwr.wakeHigh = true ∨ u.pwr.phase ≠ .pl0 ∧ u.pwr.phase ≠ .entering) → exec (.wake dt high st) s = .next v) ∧
      (high = true → u.pwr.wakeHigh = false → u.pwr.phase = .pl0 → exec (.wake dt high st) s = .next (v.kindle 3 st)) ∧
      (high = true → u.pwr.wakeHigh = false → u.pwr.phase = .entering → exec (.wake dt high st) s =
        .next (if u.clk.sw.isSome then v else if u.bit Reg.clkStat 2 then v.startSwitch true
          else ((v.modPwr fun p => { p with phase := .running }).setLevel 1).applyGates))) ∧
    (s.Wf → ∀ (kind : Nat) t, t = u.kindle kind st → ∀ has : Nat → Prop,
      (∀ i, has i ↔ kind ≠ 0 ∧ u.pwr.snapOk = true ∧ i ∉ st.snapLost) →
      t.axes = State.reset.axes ∧ t.mem = [] ∧ t.desc = [] ∧ t.tags = [] ∧ t.replies = [] ∧ t.netw.members = [] ∧
      t.hearth = { u.hearth with onMain := true, inc := u.calInc, queue := [], writing := none, notices := [] } ∧ t.tb = u.tb ∧
      (kind = 0 → t.net = 0) ∧ (kind ≠ 0 → t.net = u.net) ∧ (t.locked = true ↔ has lockItem ∧ u.locked = true) ∧
      (∀ a, t.retired a = u.retired a) ∧ (∀ k ∈ hearthKeys, k ≠ Reg.hrtCalmeas → t.reg k = u.reg k) ∧
      t.reg Reg.hrtCalmeas = (u.reg Reg.hrtCalmeas).setBit 24 false ∧ (∀ k ∈ keptKeys, has k → t.reg k = u.reg k) ∧
      (has Reg.clkLoss → t.fld Reg.clkLoss 8 8 = u.fld Reg.clkLoss 8 8) ∧
      (∀ k, k ∉ hearthKeys → (k ∈ keptKeys → ¬has k) → (∀ a, k ≠ retFlag a) → k ≠ Reg.timeDisc → k ≠ Reg.clkLoss →
        k ≠ Reg.pwrKstat → k ≠ Reg.clkRef → k ≠ Reg.pwrBoot → k ≠ Reg.netNode → k ≠ Reg.pwrStat → t.reg k = regReset k))

/-- A Kindling goes on (R382 to R388, R426, Table 16-2): VIO ends step 1; step 5 comes after step 4 with the delay lines
calibrated, finds the Hearth, applies the retirements and brings the links up; the loader sends its read commands to the
flash, takes the first good image (which it then reads from its first packet on, log 64) and sends its packets one by one,
each when the one before has been answered; where the boot ends, or there is none, step 6 is reached; it hands over what
Boot owned and brings the module up at PL1, with the trip inputs that are active (log 60) and the ordinary clock at its
start. -/
def Obligations.KindlingGoesOnStepByStep : Prop :=
  ∀ (s u : State) (dt : Nat), u = s.advance dt →
    (∀ v, v = u.modPwr (fun p => { p with vioOk := true }) → exec (.vioRise dt) s =
      .next (if u.pwr.phase = .kindling ∧ u.kstep = 1 then (v.setStep 2).setBit Reg.pwrStat 0 true else v)) ∧
    ((u.pwr.phase ≠ .kindling ∨ u.kstep ≠ 4 ∨ u.bit Reg.clkStat 6 = false) → exec (.kindlingStep5 dt) s = .next u) ∧
    (u.pwr.phase = .kindling → u.kstep = 4 → u.bit Reg.clkStat 6 = true → ∀ v w, v = u.hearthFound.emberTidy.applyRetired →
      w = (List.finRange 8).foldl (fun s b => s.modBank b fun k => { k with linkUp := !s.extest, linkHold := s.extest }) v →
      ∀ none : Prop, (none ↔ w.fld Reg.pwrBoot 0 2 = 0 ∨ w.fld Reg.pwrBoot 0 2 = 3) →
      (none → exec (.kindlingStep5 dt) s =
        .next ((w.modPwr fun p => { p with boot := { Boot.reset with ended := true } }).setStep 6)) ∧
      (¬none → exec (.kindlingStep5 dt) s = .next ((w.modPwr fun p => { p with boot := Boot.reset }).setStep 5))) ∧
    (∀ (x y : List Byte) (reads : Prop), (reads ↔ u.booting = true ∧ u.pwr.boot.waiting = false ∧ u.pwr.boot.packets = []) →
      (¬reads → exec (.bootImageRead dt x y) s = .next u) ∧
      (reads → ∀ v w : State, v = u.readFlash 0 → w = v.readFlash 0x080000 →
        (∀ ps, imagePackets x = some ps → exec (.bootImageRead dt x y) s = .next (v.bootFrom x ps false)) ∧
        (imagePackets x = none → ∀ ps, imagePackets y = some ps → exec (.bootImageRead dt x y) s =
          .next (w.bootFrom y ps true)) ∧
        (imagePackets x = none → imagePackets y = none → exec (.bootImageRead dt x y) s =
          .next (w.noBoot (if erased x ∧ erased y then 5 else 3))))) ∧
    (∀ a, u.readFlash a = u.modPwr fun p => { p with boot := { p.boot with reads := p.boot.reads ++
      [if u.fld Reg.pwrBoot 0 2 = 2 then 0x0b#8 :: bytesOf 3 a ++ [0#8] else 0x03#8 :: bytesOf 3 a] } }) ∧
    (∀ b : Boot, u.bootState b = if b.ended then (u.modPwr fun p => { p with boot := b }).setStep 6
      else u.modPwr fun p => { p with boot := b }) ∧
    (u.booting = false → exec (.bootPacket dt) s = .next u) ∧
    (u.booting = true → ∀ v, v = u.bootAccount →
      ((v.pwr.boot.waiting = true ∨ v.pwr.boot.ended = true ∨ v.pwr.boot.packets = []) → exec (.bootPacket dt) s = .next v) ∧
      (v.pwr.boot.waiting = false → v.pwr.boot.ended = false → ∀ b r, v.pwr.boot.packets = b :: r → exec (.bootPacket dt) s =
        .next (State.bootReceive (v.modPwr fun p => { p with boot := { v.pwr.boot with
          packets := r, index := v.pwr.boot.index + 1, waiting := true } }) b))) ∧
    (u.pwr.phase ≠ .kindling → exec (.kindlingEnd dt) s = .next u) ∧
    (∀ v, u.pwr.phase = .kindling → v = (if u.kstep = 5 then u.bootAccount else u) →
      (v.kstep ≠ 6 → exec (.kindlingEnd dt) s = .next v) ∧
      (v.pwr.phase = .kindling → v.kstep = 6 → ∀ a b c, a = v.handOver →
      b = (((if a.locked || a.pwr.errKept then a else a.setFld Reg.fltErrpin 0 3 0).setFld Reg.pwrLevel 0 2 1).setBit
        Reg.pwrKstat 3 true) → c = b.queueEmber ⟨.kindling, [emberHead 5 7 false (b.fld Reg.pwrKstat 0 2) 0 127 0
          b.timeValid false b.hearth.lost, 0, 0, hiWord64 b.net, loWord64 b.net, b.reg Reg.pwrBootid,
          BitVec.ofNat 32 ((b.reg Reg.pwrBoot).fld 2 3 + (b.reg Reg.pwrBoot).fld 8 8 * 0x100), 0]⟩ →
      ∀ d e, d = State.applyGates { c with hearth := { c.hearth with lost := false }, pwr := { c.pwr with phase := .running, since := c.tb } } →
      e = d.modNet (fun n => { n with guySince := d.tb }) → exec (.kindlingEnd dt) s =
        .next (e.eachAx fun s a => s.syncReady a).latchTrips.ptpInit))

/-- Changes of performance level (R370, R390 to R396): PWR.REQ's GO asks for one; the checks refuse it by their statuses,
the level in force is done at once, and a change goes through its stages: VCORE first when it rises, ramp steps between PL2
and PL3 until the divider of the new level is reached, the clock switch into PL0, from PL2 and PL3 by way of PL1, and its
end sets the level and answers who asked; the gating register of the level that is entered is checked as a write of it is
(log 64); a level at or below the ceiling clears ABOVE_CEIL; an undervoltage stops a change. -/
def Obligations.PerformanceLevelsChangeInStages : Prop :=
  ∀ (s u w : State) (dt : Nat) (q : Port) (x : Word), u = s.advance dt → u.locked = false → w = u.cancel q →
    (u.portOpen q = true → ∀ v l, v = w.setFld Reg.pwrReq 0 2 (x.fld 0 2) → l = x.fld 0 2 →
      (x.bit 2 = false → exec (.pwrReqGo dt q x) s = .next v) ∧
      (x.bit 2 = true → ∀ st, v.levelCheck l = some st →
        exec (.pwrReqGo dt q x) s = .next (v.reqResult (if st = .done then 0 else if st = .outOfRange then 3 else 2))) ∧
      (x.bit 2 = true → v.levelCheck l = none →
        (l = v.level → exec (.pwrReqGo dt q x) s = .next (v.reqResult 0)) ∧
        (l ≠ v.level → ∀ y, y = (v.reqResult 1).setFld Reg.pwrLevel 16 4 0 →
          (y.level < l → exec (.pwrReqGo dt q x) s = .next ((y.setBit Reg.pwrStat 0 false).setChange ⟨l, .vcore, v.tb, none, true⟩)) ∧
          (l = 2 → l < y.level → exec (.pwrReqGo dt q x) s = .next (y.setChange ⟨l, .ramp, v.tb, none, true⟩)) ∧
          (l = 1 → l < y.level → exec (.pwrReqGo dt q x) s =
            .next ((y.setDiv 8).setChange ⟨l, .last, v.tb, none, true⟩).enterGates) ∧
          (l = 0 → l < y.level → ∀ g h z, g = ((y.setDiv 8).setLevel 1).setChange ⟨l, .deep, v.tb, none, true⟩ →
            h = (if y.level = 1 then g else g.enterGates.setVcore 700) → z = h.modClk (fun k => { k with locking := false }) →
            exec (.pwrReqGo dt q x) s = .next (if z.clk.sw.isSome then z else if z.onPll then z.startSwitch false
              else z.setChange ⟨l, .last, v.tb, none, true⟩))))) ∧
    (∀ l, (w.fld Reg.pwrCeil 0 2 < l → w.levelCheck l = some .outOfRange) ∧
      (l ≤ w.fld Reg.pwrCeil 0 2 → (w.pwr.change ≠ none ∨ l ≤ 1 ∧ w.mayLower = false ∨
        l = 0 ∧ (w.bit Reg.clkStat 5 = true ∨ w.pwr.wakeHigh = true)) → w.levelCheck l = some .stateRefused) ∧
      (l ≤ w.fld Reg.pwrCeil 0 2 → w.pwr.change = none → (l ≤ 1 → w.mayLower = true) →
        (l = 0 → w.bit Reg.clkStat 5 = false ∧ w.pwr.wakeHigh = false) → w.levelCheck l = none)) ∧
    (u.up = false → exec (.vcoreOk dt) s = .next u ∧ exec (.vcoreUv dt) s = .next u) ∧
    (u.up = true → ∀ v, v = u.setBit Reg.pwrStat 0 true →
      ((∀ c, v.pwr.change = some c → c.stage ≠ .vcore) → exec (.vcoreOk dt) s = .next v) ∧
      (∀ c y, v.pwr.change = some c → c.stage = .vcore → y = v.setVcore (levelMv c.target) →
        (v.level = 2 → exec (.vcoreOk dt) s = .next (y.setChange { c with stage := .ramp, at_ := v.tb }).enterGates) ∧
        (v.level ≠ 2 → exec (.vcoreOk dt) s =
          .next ((y.setChange { c with stage := .last }).enterGates.setDiv (if c.target = 2 then 16 else 8)))) ∧
      exec (.vcoreUv dt) s =
        .next (((u.setBit Reg.pwrStat 0 false).flag Reg.pwrStat 2).stopChange.raiseSc 18 0x32 .module)) ∧
    (u.pwr.change = none → exec (.plRampStep dt) s = .next u ∧ exec (.plChangeDone dt) s = .next u) ∧
    (∀ c, u.pwr.change = some c →
      ((c.stage ≠ .ramp ∨ u.clk.sw ≠ none ∨ u.tb < c.at_ + 20000) → exec (.plRampStep dt) s = .next u) ∧
      (c.stage = .ramp → u.clk.sw = none → c.at_ + 20000 ≤ u.tb → ∀ n d g, n = u.fld Reg.pwrLevel 16 4 + 1 →
        g = (if c.target = 2 then 16 else 8) →
        d = (if u.pwr.div8 < g then u.pwr.div8 + 1 else if g < u.pwr.div8 then u.pwr.div8 - 1 else u.pwr.div8) →
        exec (.plRampStep dt) s = .next (((u.setFld Reg.pwrLevel 16 4 n).setDiv d).setChange { c with
          stage := if d = g then .last else .ramp, at_ := u.tb })) ∧
      (c.stage ≠ .last ∨ u.pwr.phase ≠ .running → exec (.plChangeDone dt) s = .next u) ∧
      (c.stage = .last → u.pwr.phase = .running → ∀ y z,
        y = ((u.setLevel c.target).setVcore (levelMv c.target)).modPwr (fun p => { p with change := none }) →
        z = y.endRequest c.cmd c.viaReg .done → exec (.plChangeDone dt) s = .next (if c.target = 0
          then (List.finRange 8).foldl (fun s b => (s.modBank b fun k => { k with linkUp := false, linkHold := true }).syncBank b)
            (z.modPwr fun p => { p with phase := .entering, since := z.tb, snapOk := true })
          else z.applyGates))) ∧
    ((u.pwr.phase ≠ .entering ∨ u.clk.sw ≠ none ∨ u.tb < u.pwr.since + 400000) → exec (.pl0VcoreRemoval dt) s = .next u) ∧
    (u.pwr.phase = .entering → u.clk.sw = none → u.pwr.since + 400000 ≤ u.tb → ∀ v,
      v = ((u.setLink 0 false).setLink 1 false).clkFlag 2 false → exec (.pl0VcoreRemoval dt) s =
        .next ((if v.bit Reg.clkGateDeep 0 then v else v.clkFlag 3 false).modPwr fun p => { p with phase := .pl0, since := u.tb, vcore := 0 })) ∧
    (∀ l, u.setLevel l = if l ≤ (u.setFld Reg.pwrLevel 0 2 l).fld Reg.pwrCeil 0 2
      then (u.setFld Reg.pwrLevel 0 2 l).setBit Reg.pwrStat 1 false else u.setFld Reg.pwrLevel 0 2 l) ∧
    (∀ k, k = (if u.clockLevel ≤ 1 then Reg.clkGateSleep else Reg.clkGateRun) →
      ((∀ i < 11, u.bit k i = false → u.gateRefused .boot i = false) → u.enterGates = u.applyGates) ∧
      (∀ i < 11, u.bit k i = false → u.gateRefused .boot i = true → ∃ v,
        u.enterGates = ((u.setReg k v).flag Reg.clkStat 7).applyGates ∧
        ∀ j < 32, v.bit j = ((u.reg k).bit j || decide (j < 11) && u.gateRefused .boot j)))

/-- The end of power and the Hearth (R398, R400 to R405, R413, R426): a failing supply or VIO shuts the module down once,
every gate off and every command gone, with the pending opening entries kept, the module's first, and no other, and the
write of the first of them begun; the shutdown ends after 50 µs and what is unwritten is lost; the Hearth's supply changes
without loss and an entry that waits is written from the return of VIN_L on; without it the snapshot goes, and a Hearth
without main supply that loses its contents is emptied; a cycle of the calendar adds INC to a 40-bit accumulator that
carries into the seconds; its oscillator is measured over each second of the PLL; RAMDATA is written in area 0 only. -/
def Obligations.ShutdownAndHearthFollowTheirRules : Prop :=
  ∀ (s u w : State) (dt : Nat) (q : Port) (x : Word), u = s.advance dt → u.locked = false → w = u.cancel q →
    (exec (.powerFail dt) s = .next u.powerFail) ∧
    (∀ v, v = u.modPwr (fun p => { p with vioOk := false }) →
      exec (.vioFail dt) s = .next (if u.pwr.vioOk then v.powerFail else v)) ∧
    ((u.pwr.phase = .unpowered ∨ u.pwr.phase = .shutdown ∨ u.pwr.phase = .waiting) → u.powerFail = u) ∧
    (u.pwr.phase ≠ .unpowered → u.pwr.phase ≠ .shutdown → u.pwr.phase ≠ .waiting → ∀ t, t = u.powerFail →
      t.pwr.phase = .shutdown ∧ t.pwr.snapOk = true ∧ t.pwr.change = none ∧ t.tags = [] ∧ t.replies = [] ∧
      t.bursts = [] ∧ (∀ b, (t.bank b).kill = 0xfff) ∧ t.mem = u.mem ∧ ∀ v r, v = u.setBit Reg.pwrStat 3 true →
      r = v.takeItem (v.item 18 0x33 0 .module 3) → ∀ l, l = pendingOpenings r.hearth.queue → t.hearth.queue = l ∧
      (l = [] ∨ r.hearth.onMain = false → t.hearth = { r.hearth with queue := l, writing := none }) ∧
      (∀ e y, l = e :: y → r.hearth.onMain = true → ∃ ws, t.hearth.writing = some ws ∧ ws.drop 3 = e.words.drop 3 ∧
        t.hearth.next = r.hearth.next ∧ t.hearth.ember = storeSet wordDefault r.hearth.ember (8 * r.hearth.next) 0)) ∧
    (∀ l (e : EmberReq), e ∈ pendingOpenings l ↔ e ∈ l ∧ ∃ a n, e.why = .opening a n) ∧
    (∀ l (e f : EmberReq) y z n, pendingOpenings l = y ++ e :: z → e.why = .opening 127 n → f ∈ y →
      ∃ m, f.why = .opening 127 m) ∧
    ((u.pwr.phase ≠ .shutdown ∨ u.tb < u.pwr.since + 20000) → exec (.shutdownEnd dt) s = .next u) ∧
    (u.pwr.phase = .shutdown → u.pwr.since + 20000 ≤ u.tb → exec (.shutdownEnd dt) s =
      .next { u with flue := [], hearth := { u.hearth with queue := [], writing := none }
                     pwr := { u.pwr with phase := if u.pwr.nresetLow then .held else .waiting, since := u.tb, vinOk := false } }) ∧
    (∀ b, exec (.hearthSwitchover dt b) s =
      .next (State.emberBegin { u with hearth := { u.hearth with onMain := b, backupOk := u.hearth.backupOk || !b }
                                       pwr := { u.pwr with snapOk := u.pwr.snapOk && b } })) ∧
    (u.hearth.onMain = true → exec (.hearthContentsLost dt) s = .next u) ∧
    (u.hearth.onMain = false → ∃ t, exec (.hearthContentsLost dt) s = .next t ∧ t.hearth.lost = true ∧ t.hearth.ember = [] ∧
      t.hearth.retire = [] ∧ t.hearth.sram = [] ∧ t.hearth.calValid = false ∧ t.pwr.snapOk = false ∧
      (s.Wf → ∀ k ∈ hearthKeys, t.reg k = regReset k) ∧ (∀ k, k ∉ hearthKeys → t.reg k = u.reg k) ∧ t.axes = u.axes ∧ t.mem = u.mem) ∧
    (u.hearthOn = false → exec (.calendarCycle dt) s = .next u) ∧
    (u.hearthOn = true → ∃ (h : Hearth), exec (.calendarCycle dt) s = .next { u with hearth := h } ∧
      h = { u.hearth with inc := u.calInc, acc := h.acc, sec := h.sec } ∧ h.acc < 2 ^ 40 ∧
      (h.sec * 2 ^ 40 + h.acc) % 2 ^ 80 = (u.hearth.sec * 2 ^ 40 + u.hearth.acc + u.calInc) % 2 ^ 80) ∧
    (u.bit Reg.hrtCalctl 1 = false → u.calInc = u.fld Reg.hrtCaltrim 0 27) ∧
    (∀ f : BitVec 24, exec (.calendarMeasure dt f) s =
      .next (if u.onPll = true ∧ u.clk.calFrom + tickHz ≤ u.tb then
          { u.setReg Reg.hrtCalmeas (BitVec.ofNat 32 (f.toNat + 0x1000000)) with clk := { u.clk with calFrom := u.tb } }
        else u)) ∧
    (u.portOpen q = true →
      (w.fld Reg.hrtRamaddr 14 2 ≠ 0 → exec (.ramdataAccess dt q x) s = .next w) ∧
      (w.fld Reg.hrtRamaddr 14 2 = 0 → s.Wf → ∃ t, exec (.ramdataAccess dt q x) s = .next t ∧ t.ramWord = x ∧
        t = { w with hearth := { w.hearth with sram := t.hearth.sram } } ∧
        (∀ i, i ≠ w.fld Reg.hrtRamaddr 2 12 → storeGet wordDefault t.hearth.sram i = storeGet wordDefault w.hearth.sram i)))
end

