-- ==== Sys2Proof/Laws/State.lean ====
section
/-! SUPPORT. What each update of the state leaves as it was: one lemma for each field and update. -/

namespace Sys2Proof.Machine

variable {s : State}

theorem foldl_field {α β : Type} (g : State → β) {f : State → α → State} (h : ∀ s x, g (f s x) = g s) (xs : List α)
    (s : State) : g (xs.foldl f s) = g s := by
  induction xs generalizing s with
  | nil => rfl
  | cons x xs ih => exact (ih _).trans (h s x)

/-! An axis is put. -/
@[simp] theorem State.setAx_regs {a : AxisId} {x : Axis} : (s.setAx a x).regs = s.regs := rfl
@[simp] theorem State.setAx_tmrB {a : AxisId} {x : Axis} : (s.setAx a x).tmrB = s.tmrB := rfl
@[simp] theorem State.setAx_tmrC {a : AxisId} {x : Axis} : (s.setAx a x).tmrC = s.tmrC := rfl
@[simp] theorem State.setAx_tmrAt {a : AxisId} {x : Axis} : (s.setAx a x).tmrAt = s.tmrAt := rfl
@[simp] theorem State.setAx_held {a : AxisId} {x : Axis} : (s.setAx a x).held = s.held := rfl
@[simp] theorem State.setAx_net {a : AxisId} {x : Axis} : (s.setAx a x).net = s.net := rfl
@[simp] theorem State.setAx_netFrac {a : AxisId} {x : Axis} : (s.setAx a x).netFrac = s.netFrac := rfl
@[simp] theorem State.setAx_tb {a : AxisId} {x : Axis} : (s.setAx a x).tb = s.tb := rfl
@[simp] theorem State.setAx_tbFrac {a : AxisId} {x : Axis} : (s.setAx a x).tbFrac = s.tbFrac := rfl
@[simp] theorem State.setAx_banks {a : AxisId} {x : Axis} : (s.setAx a x).banks = s.banks := rfl
@[simp] theorem State.setAx_tags {a : AxisId} {x : Axis} : (s.setAx a x).tags = s.tags := rfl
@[simp] theorem State.setAx_nextId {a : AxisId} {x : Axis} : (s.setAx a x).nextId = s.nextId := rfl
@[simp] theorem State.setAx_bursts {a : AxisId} {x : Axis} : (s.setAx a x).bursts = s.bursts := rfl
@[simp] theorem State.setAx_replies {a : AxisId} {x : Axis} : (s.setAx a x).replies = s.replies := rfl
@[simp] theorem State.setAx_hostOut {a : AxisId} {x : Axis} : (s.setAx a x).hostOut = s.hostOut := rfl
@[simp] theorem State.setAx_hostStatus {a : AxisId} {x : Axis} : (s.setAx a x).hostStatus = s.hostStatus := rfl
@[simp] theorem State.setAx_creditBonus {a : AxisId} {x : Axis} : (s.setAx a x).creditBonus = s.creditBonus := rfl
@[simp] theorem State.setAx_creditHold {a : AxisId} {x : Axis} : (s.setAx a x).creditHold = s.creditHold := rfl
@[simp] theorem State.setAx_keyed {a : AxisId} {x : Axis} : (s.setAx a x).keyed = s.keyed := rfl
@[simp] theorem State.setAx_desc {a : AxisId} {x : Axis} : (s.setAx a x).desc = s.desc := rfl
@[simp] theorem State.setAx_mem {a : AxisId} {x : Axis} : (s.setAx a x).mem = s.mem := rfl
@[simp] theorem State.setAx_ecc {a : AxisId} {x : Axis} : (s.setAx a x).ecc = s.ecc := rfl
@[simp] theorem State.setAx_ceNoted {a : AxisId} {x : Axis} : (s.setAx a x).ceNoted = s.ceNoted := rfl
@[simp] theorem State.setAx_zeroing {a : AxisId} {x : Axis} : (s.setAx a x).zeroing = s.zeroing := rfl
@[simp] theorem State.setAx_quar {a : AxisId} {x : Axis} : (s.setAx a x).quar = s.quar := rfl
@[simp] theorem State.setAx_rings {a : AxisId} {x : Axis} : (s.setAx a x).rings = s.rings := rfl
@[simp] theorem State.setAx_flue {a : AxisId} {x : Axis} : (s.setAx a x).flue = s.flue := rfl
@[simp] theorem State.setAx_broken {a : AxisId} {x : Axis} : (s.setAx a x).broken = s.broken := rfl
@[simp] theorem State.setAx_modRecs {a : AxisId} {x : Axis} : (s.setAx a x).modRecs = s.modRecs := rfl
@[simp] theorem State.setAx_modSeq {a : AxisId} {x : Axis} : (s.setAx a x).modSeq = s.modSeq := rfl
@[simp] theorem State.setAx_locked {a : AxisId} {x : Axis} : (s.setAx a x).locked = s.locked := rfl
@[simp] theorem State.setAx_errPulse {a : AxisId} {x : Axis} : (s.setAx a x).errPulse = s.errPulse := rfl
@[simp] theorem State.setAx_hearth {a : AxisId} {x : Axis} : (s.setAx a x).hearth = s.hearth := rfl
@[simp] theorem State.setAx_chans {a : AxisId} {x : Axis} : (s.setAx a x).chans = s.chans := rfl
@[simp] theorem State.setAx_hostWait {a : AxisId} {x : Axis} : (s.setAx a x).hostWait = s.hostWait := rfl
@[simp] theorem State.setAx_deferred {a : AxisId} {x : Axis} : (s.setAx a x).deferred = s.deferred := rfl
@[simp] theorem State.setAx_echoes {a : AxisId} {x : Axis} : (s.setAx a x).echoes = s.echoes := rfl
@[simp] theorem State.setAx_netw {a : AxisId} {x : Axis} : (s.setAx a x).netw = s.netw := rfl
@[simp] theorem State.setAx_clk {a : AxisId} {x : Axis} : (s.setAx a x).clk = s.clk := rfl
@[simp] theorem State.setAx_pwr {a : AxisId} {x : Axis} : (s.setAx a x).pwr = s.pwr := rfl
@[simp] theorem State.setAx_drven {a : AxisId} {x : Axis} : (s.setAx a x).drven = s.drven := rfl
@[simp] theorem State.setAx_drvenLowAt {a : AxisId} {x : Axis} : (s.setAx a x).drvenLowAt = s.drvenLowAt := rfl
@[simp] theorem State.setAx_trips {a : AxisId} {x : Axis} : (s.setAx a x).trips = s.trips := rfl
@[simp] theorem State.setAx_extest {a : AxisId} {x : Axis} : (s.setAx a x).extest = s.extest := rfl
@[simp] theorem State.setAx_tapIr {a : AxisId} {x : Axis} : (s.setAx a x).tapIr = s.tapIr := rfl
@[simp] theorem State.setAx_tapCells {a : AxisId} {x : Axis} : (s.setAx a x).tapCells = s.tapCells := rfl
@[simp] theorem State.setAx_tapOut {a : AxisId} {x : Axis} : (s.setAx a x).tapOut = s.tapOut := rfl
@[simp] theorem State.setAx_ingress {a : AxisId} {x : Axis} : (s.setAx a x).ingress = s.ingress := rfl
@[simp] theorem State.setAx_hostDummy {a : AxisId} {x : Axis} : (s.setAx a x).hostDummy = s.hostDummy := rfl
@[simp] theorem State.setAx_window {a : AxisId} {x : Axis} : (s.setAx a x).window = s.window := rfl
@[simp] theorem State.setAx_flueSince {a : AxisId} {x : Axis} : (s.setAx a x).flueSince = s.flueSince := rfl
@[simp] theorem State.setAx_draws {a : AxisId} {x : Axis} : (s.setAx a x).draws = s.draws := rfl
@[simp] theorem State.setAx_pending {a : AxisId} {x : Axis} : (s.setAx a x).pending = s.pending := rfl

/-! A bank is put. -/
@[simp] theorem State.setBank_regs {b : BankId} {x : Bank} : (s.setBank b x).regs = s.regs := rfl
@[simp] theorem State.setBank_tmrB {b : BankId} {x : Bank} : (s.setBank b x).tmrB = s.tmrB := rfl
@[simp] theorem State.setBank_tmrC {b : BankId} {x : Bank} : (s.setBank b x).tmrC = s.tmrC := rfl
@[simp] theorem State.setBank_tmrAt {b : BankId} {x : Bank} : (s.setBank b x).tmrAt = s.tmrAt := rfl
@[simp] theorem State.setBank_held {b : BankId} {x : Bank} : (s.setBank b x).held = s.held := rfl
@[simp] theorem State.setBank_net {b : BankId} {x : Bank} : (s.setBank b x).net = s.net := rfl
@[simp] theorem State.setBank_netFrac {b : BankId} {x : Bank} : (s.setBank b x).netFrac = s.netFrac := rfl
@[simp] theorem State.setBank_tb {b : BankId} {x : Bank} : (s.setBank b x).tb = s.tb := rfl
@[simp] theorem State.setBank_tbFrac {b : BankId} {x : Bank} : (s.setBank b x).tbFrac = s.tbFrac := rfl
@[simp] theorem State.setBank_axes {b : BankId} {x : Bank} : (s.setBank b x).axes = s.axes := rfl
@[simp] theorem State.setBank_tags {b : BankId} {x : Bank} : (s.setBank b x).tags = s.tags := rfl
@[simp] theorem State.setBank_nextId {b : BankId} {x : Bank} : (s.setBank b x).nextId = s.nextId := rfl
@[simp] theorem State.setBank_bursts {b : BankId} {x : Bank} : (s.setBank b x).bursts = s.bursts := rfl
@[simp] theorem State.setBank_replies {b : BankId} {x : Bank} : (s.setBank b x).replies = s.replies := rfl
@[simp] theorem State.setBank_hostOut {b : BankId} {x : Bank} : (s.setBank b x).hostOut = s.hostOut := rfl
@[simp] theorem State.setBank_hostStatus {b : BankId} {x : Bank} : (s.setBank b x).hostStatus = s.hostStatus := rfl
@[simp] theorem State.setBank_creditBonus {b : BankId} {x : Bank} : (s.setBank b x).creditBonus = s.creditBonus := rfl
@[simp] theorem State.setBank_creditHold {b : BankId} {x : Bank} : (s.setBank b x).creditHold = s.creditHold := rfl
@[simp] theorem State.setBank_keyed {b : BankId} {x : Bank} : (s.setBank b x).keyed = s.keyed := rfl
@[simp] theorem State.setBank_desc {b : BankId} {x : Bank} : (s.setBank b x).desc = s.desc := rfl
@[simp] theorem State.setBank_mem {b : BankId} {x : Bank} : (s.setBank b x).mem = s.mem := rfl
@[simp] theorem State.setBank_ecc {b : BankId} {x : Bank} : (s.setBank b x).ecc = s.ecc := rfl
@[simp] theorem State.setBank_ceNoted {b : BankId} {x : Bank} : (s.setBank b x).ceNoted = s.ceNoted := rfl
@[simp] theorem State.setBank_zeroing {b : BankId} {x : Bank} : (s.setBank b x).zeroing = s.zeroing := rfl
@[simp] theorem State.setBank_quar {b : BankId} {x : Bank} : (s.setBank b x).quar = s.quar := rfl
@[simp] theorem State.setBank_rings {b : BankId} {x : Bank} : (s.setBank b x).rings = s.rings := rfl
@[simp] theorem State.setBank_flue {b : BankId} {x : Bank} : (s.setBank b x).flue = s.flue := rfl
@[simp] theorem State.setBank_broken {b : BankId} {x : Bank} : (s.setBank b x).broken = s.broken := rfl
@[simp] theorem State.setBank_modRecs {b : BankId} {x : Bank} : (s.setBank b x).modRecs = s.modRecs := rfl
@[simp] theorem State.setBank_modSeq {b : BankId} {x : Bank} : (s.setBank b x).modSeq = s.modSeq := rfl
@[simp] theorem State.setBank_locked {b : BankId} {x : Bank} : (s.setBank b x).locked = s.locked := rfl
@[simp] theorem State.setBank_errPulse {b : BankId} {x : Bank} : (s.setBank b x).errPulse = s.errPulse := rfl
@[simp] theorem State.setBank_hearth {b : BankId} {x : Bank} : (s.setBank b x).hearth = s.hearth := rfl
@[simp] theorem State.setBank_chans {b : BankId} {x : Bank} : (s.setBank b x).chans = s.chans := rfl
@[simp] theorem State.setBank_hostWait {b : BankId} {x : Bank} : (s.setBank b x).hostWait = s.hostWait := rfl
@[simp] theorem State.setBank_deferred {b : BankId} {x : Bank} : (s.setBank b x).deferred = s.deferred := rfl
@[simp] theorem State.setBank_echoes {b : BankId} {x : Bank} : (s.setBank b x).echoes = s.echoes := rfl
@[simp] theorem State.setBank_netw {b : BankId} {x : Bank} : (s.setBank b x).netw = s.netw := rfl
@[simp] theorem State.setBank_clk {b : BankId} {x : Bank} : (s.setBank b x).clk = s.clk := rfl
@[simp] theorem State.setBank_pwr {b : BankId} {x : Bank} : (s.setBank b x).pwr = s.pwr := rfl
@[simp] theorem State.setBank_drven {b : BankId} {x : Bank} : (s.setBank b x).drven = s.drven := rfl
@[simp] theorem State.setBank_drvenLowAt {b : BankId} {x : Bank} : (s.setBank b x).drvenLowAt = s.drvenLowAt := rfl
@[simp] theorem State.setBank_trips {b : BankId} {x : Bank} : (s.setBank b x).trips = s.trips := rfl
@[simp] theorem State.setBank_extest {b : BankId} {x : Bank} : (s.setBank b x).extest = s.extest := rfl
@[simp] theorem State.setBank_tapIr {b : BankId} {x : Bank} : (s.setBank b x).tapIr = s.tapIr := rfl
@[simp] theorem State.setBank_tapCells {b : BankId} {x : Bank} : (s.setBank b x).tapCells = s.tapCells := rfl
@[simp] theorem State.setBank_tapOut {b : BankId} {x : Bank} : (s.setBank b x).tapOut = s.tapOut := rfl
@[simp] theorem State.setBank_ingress {b : BankId} {x : Bank} : (s.setBank b x).ingress = s.ingress := rfl
@[simp] theorem State.setBank_hostDummy {b : BankId} {x : Bank} : (s.setBank b x).hostDummy = s.hostDummy := rfl
@[simp] theorem State.setBank_window {b : BankId} {x : Bank} : (s.setBank b x).window = s.window := rfl
@[simp] theorem State.setBank_flueSince {b : BankId} {x : Bank} : (s.setBank b x).flueSince = s.flueSince := rfl
@[simp] theorem State.setBank_draws {b : BankId} {x : Bank} : (s.setBank b x).draws = s.draws := rfl
@[simp] theorem State.setBank_pending {b : BankId} {x : Bank} : (s.setBank b x).pending = s.pending := rfl

/-! A byte of the pool is written. -/
@[simp] theorem State.setByte_regs {o : Nat} {v : Byte} : (s.setByte o v).regs = s.regs := rfl
@[simp] theorem State.setByte_tmrB {o : Nat} {v : Byte} : (s.setByte o v).tmrB = s.tmrB := rfl
@[simp] theorem State.setByte_tmrC {o : Nat} {v : Byte} : (s.setByte o v).tmrC = s.tmrC := rfl
@[simp] theorem State.setByte_tmrAt {o : Nat} {v : Byte} : (s.setByte o v).tmrAt = s.tmrAt := rfl
@[simp] theorem State.setByte_held {o : Nat} {v : Byte} : (s.setByte o v).held = s.held := rfl
@[simp] theorem State.setByte_net {o : Nat} {v : Byte} : (s.setByte o v).net = s.net := rfl
@[simp] theorem State.setByte_netFrac {o : Nat} {v : Byte} : (s.setByte o v).netFrac = s.netFrac := rfl
@[simp] theorem State.setByte_tb {o : Nat} {v : Byte} : (s.setByte o v).tb = s.tb := rfl
@[simp] theorem State.setByte_tbFrac {o : Nat} {v : Byte} : (s.setByte o v).tbFrac = s.tbFrac := rfl
@[simp] theorem State.setByte_axes {o : Nat} {v : Byte} : (s.setByte o v).axes = s.axes := rfl
@[simp] theorem State.setByte_banks {o : Nat} {v : Byte} : (s.setByte o v).banks = s.banks := rfl
@[simp] theorem State.setByte_tags {o : Nat} {v : Byte} : (s.setByte o v).tags = s.tags := rfl
@[simp] theorem State.setByte_nextId {o : Nat} {v : Byte} : (s.setByte o v).nextId = s.nextId := rfl
@[simp] theorem State.setByte_bursts {o : Nat} {v : Byte} : (s.setByte o v).bursts = s.bursts := rfl
@[simp] theorem State.setByte_replies {o : Nat} {v : Byte} : (s.setByte o v).replies = s.replies := rfl
@[simp] theorem State.setByte_hostOut {o : Nat} {v : Byte} : (s.setByte o v).hostOut = s.hostOut := rfl
@[simp] theorem State.setByte_hostStatus {o : Nat} {v : Byte} : (s.setByte o v).hostStatus = s.hostStatus := rfl
@[simp] theorem State.setByte_creditBonus {o : Nat} {v : Byte} : (s.setByte o v).creditBonus = s.creditBonus := rfl
@[simp] theorem State.setByte_creditHold {o : Nat} {v : Byte} : (s.setByte o v).creditHold = s.creditHold := rfl
@[simp] theorem State.setByte_keyed {o : Nat} {v : Byte} : (s.setByte o v).keyed = s.keyed := rfl
@[simp] theorem State.setByte_desc {o : Nat} {v : Byte} : (s.setByte o v).desc = s.desc := rfl
@[simp] theorem State.setByte_ecc {o : Nat} {v : Byte} : (s.setByte o v).ecc = s.ecc := rfl
@[simp] theorem State.setByte_ceNoted {o : Nat} {v : Byte} : (s.setByte o v).ceNoted = s.ceNoted := rfl
@[simp] theorem State.setByte_zeroing {o : Nat} {v : Byte} : (s.setByte o v).zeroing = s.zeroing := rfl
@[simp] theorem State.setByte_quar {o : Nat} {v : Byte} : (s.setByte o v).quar = s.quar := rfl
@[simp] theorem State.setByte_rings {o : Nat} {v : Byte} : (s.setByte o v).rings = s.rings := rfl
@[simp] theorem State.setByte_flue {o : Nat} {v : Byte} : (s.setByte o v).flue = s.flue := rfl
@[simp] theorem State.setByte_broken {o : Nat} {v : Byte} : (s.setByte o v).broken = s.broken := rfl
@[simp] theorem State.setByte_modRecs {o : Nat} {v : Byte} : (s.setByte o v).modRecs = s.modRecs := rfl
@[simp] theorem State.setByte_modSeq {o : Nat} {v : Byte} : (s.setByte o v).modSeq = s.modSeq := rfl
@[simp] theorem State.setByte_locked {o : Nat} {v : Byte} : (s.setByte o v).locked = s.locked := rfl
@[simp] theorem State.setByte_errPulse {o : Nat} {v : Byte} : (s.setByte o v).errPulse = s.errPulse := rfl
@[simp] theorem State.setByte_hearth {o : Nat} {v : Byte} : (s.setByte o v).hearth = s.hearth := rfl
@[simp] theorem State.setByte_chans {o : Nat} {v : Byte} : (s.setByte o v).chans = s.chans := rfl
@[simp] theorem State.setByte_hostWait {o : Nat} {v : Byte} : (s.setByte o v).hostWait = s.hostWait := rfl
@[simp] theorem State.setByte_deferred {o : Nat} {v : Byte} : (s.setByte o v).deferred = s.deferred := rfl
@[simp] theorem State.setByte_echoes {o : Nat} {v : Byte} : (s.setByte o v).echoes = s.echoes := rfl
@[simp] theorem State.setByte_netw {o : Nat} {v : Byte} : (s.setByte o v).netw = s.netw := rfl
@[simp] theorem State.setByte_clk {o : Nat} {v : Byte} : (s.setByte o v).clk = s.clk := rfl
@[simp] theorem State.setByte_pwr {o : Nat} {v : Byte} : (s.setByte o v).pwr = s.pwr := rfl
@[simp] theorem State.setByte_drven {o : Nat} {v : Byte} : (s.setByte o v).drven = s.drven := rfl
@[simp] theorem State.setByte_drvenLowAt {o : Nat} {v : Byte} : (s.setByte o v).drvenLowAt = s.drvenLowAt := rfl
@[simp] theorem State.setByte_trips {o : Nat} {v : Byte} : (s.setByte o v).trips = s.trips := rfl
@[simp] theorem State.setByte_extest {o : Nat} {v : Byte} : (s.setByte o v).extest = s.extest := rfl
@[simp] theorem State.setByte_tapIr {o : Nat} {v : Byte} : (s.setByte o v).tapIr = s.tapIr := rfl
@[simp] theorem State.setByte_tapCells {o : Nat} {v : Byte} : (s.setByte o v).tapCells = s.tapCells := rfl
@[simp] theorem State.setByte_tapOut {o : Nat} {v : Byte} : (s.setByte o v).tapOut = s.tapOut := rfl
@[simp] theorem State.setByte_ingress {o : Nat} {v : Byte} : (s.setByte o v).ingress = s.ingress := rfl
@[simp] theorem State.setByte_hostDummy {o : Nat} {v : Byte} : (s.setByte o v).hostDummy = s.hostDummy := rfl
@[simp] theorem State.setByte_window {o : Nat} {v : Byte} : (s.setByte o v).window = s.window := rfl
@[simp] theorem State.setByte_flueSince {o : Nat} {v : Byte} : (s.setByte o v).flueSince = s.flueSince := rfl
@[simp] theorem State.setByte_draws {o : Nat} {v : Byte} : (s.setByte o v).draws = s.draws := rfl
@[simp] theorem State.setByte_pending {o : Nat} {v : Byte} : (s.setByte o v).pending = s.pending := rfl

/-! A block descriptor is put. -/
@[simp] theorem State.setBlk_regs {k : Nat} {d : Desc} : (s.setBlk k d).regs = s.regs := rfl
@[simp] theorem State.setBlk_tmrB {k : Nat} {d : Desc} : (s.setBlk k d).tmrB = s.tmrB := rfl
@[simp] theorem State.setBlk_tmrC {k : Nat} {d : Desc} : (s.setBlk k d).tmrC = s.tmrC := rfl
@[simp] theorem State.setBlk_tmrAt {k : Nat} {d : Desc} : (s.setBlk k d).tmrAt = s.tmrAt := rfl
@[simp] theorem State.setBlk_held {k : Nat} {d : Desc} : (s.setBlk k d).held = s.held := rfl
@[simp] theorem State.setBlk_net {k : Nat} {d : Desc} : (s.setBlk k d).net = s.net := rfl
@[simp] theorem State.setBlk_netFrac {k : Nat} {d : Desc} : (s.setBlk k d).netFrac = s.netFrac := rfl
@[simp] theorem State.setBlk_tb {k : Nat} {d : Desc} : (s.setBlk k d).tb = s.tb := rfl
@[simp] theorem State.setBlk_tbFrac {k : Nat} {d : Desc} : (s.setBlk k d).tbFrac = s.tbFrac := rfl
@[simp] theorem State.setBlk_axes {k : Nat} {d : Desc} : (s.setBlk k d).axes = s.axes := rfl
@[simp] theorem State.setBlk_banks {k : Nat} {d : Desc} : (s.setBlk k d).banks = s.banks := rfl
@[simp] theorem State.setBlk_tags {k : Nat} {d : Desc} : (s.setBlk k d).tags = s.tags := rfl
@[simp] theorem State.setBlk_nextId {k : Nat} {d : Desc} : (s.setBlk k d).nextId = s.nextId := rfl
@[simp] theorem State.setBlk_bursts {k : Nat} {d : Desc} : (s.setBlk k d).bursts = s.bursts := rfl
@[simp] theorem State.setBlk_replies {k : Nat} {d : Desc} : (s.setBlk k d).replies = s.replies := rfl
@[simp] theorem State.setBlk_hostOut {k : Nat} {d : Desc} : (s.setBlk k d).hostOut = s.hostOut := rfl
@[simp] theorem State.setBlk_hostStatus {k : Nat} {d : Desc} : (s.setBlk k d).hostStatus = s.hostStatus := rfl
@[simp] theorem State.setBlk_creditBonus {k : Nat} {d : Desc} : (s.setBlk k d).creditBonus = s.creditBonus := rfl
@[simp] theorem State.setBlk_creditHold {k : Nat} {d : Desc} : (s.setBlk k d).creditHold = s.creditHold := rfl
@[simp] theorem State.setBlk_keyed {k : Nat} {d : Desc} : (s.setBlk k d).keyed = s.keyed := rfl
@[simp] theorem State.setBlk_mem {k : Nat} {d : Desc} : (s.setBlk k d).mem = s.mem := rfl
@[simp] theorem State.setBlk_ecc {k : Nat} {d : Desc} : (s.setBlk k d).ecc = s.ecc := rfl
@[simp] theorem State.setBlk_ceNoted {k : Nat} {d : Desc} : (s.setBlk k d).ceNoted = s.ceNoted := rfl
@[simp] theorem State.setBlk_zeroing {k : Nat} {d : Desc} : (s.setBlk k d).zeroing = s.zeroing := rfl
@[simp] theorem State.setBlk_quar {k : Nat} {d : Desc} : (s.setBlk k d).quar = s.quar := rfl
@[simp] theorem State.setBlk_rings {k : Nat} {d : Desc} : (s.setBlk k d).rings = s.rings := rfl
@[simp] theorem State.setBlk_flue {k : Nat} {d : Desc} : (s.setBlk k d).flue = s.flue := rfl
@[simp] theorem State.setBlk_broken {k : Nat} {d : Desc} : (s.setBlk k d).broken = s.broken := rfl
@[simp] theorem State.setBlk_modRecs {k : Nat} {d : Desc} : (s.setBlk k d).modRecs = s.modRecs := rfl
@[simp] theorem State.setBlk_modSeq {k : Nat} {d : Desc} : (s.setBlk k d).modSeq = s.modSeq := rfl
@[simp] theorem State.setBlk_locked {k : Nat} {d : Desc} : (s.setBlk k d).locked = s.locked := rfl
@[simp] theorem State.setBlk_errPulse {k : Nat} {d : Desc} : (s.setBlk k d).errPulse = s.errPulse := rfl
@[simp] theorem State.setBlk_hearth {k : Nat} {d : Desc} : (s.setBlk k d).hearth = s.hearth := rfl
@[simp] theorem State.setBlk_chans {k : Nat} {d : Desc} : (s.setBlk k d).chans = s.chans := rfl
@[simp] theorem State.setBlk_hostWait {k : Nat} {d : Desc} : (s.setBlk k d).hostWait = s.hostWait := rfl
@[simp] theorem State.setBlk_deferred {k : Nat} {d : Desc} : (s.setBlk k d).deferred = s.deferred := rfl
@[simp] theorem State.setBlk_echoes {k : Nat} {d : Desc} : (s.setBlk k d).echoes = s.echoes := rfl
@[simp] theorem State.setBlk_netw {k : Nat} {d : Desc} : (s.setBlk k d).netw = s.netw := rfl
@[simp] theorem State.setBlk_clk {k : Nat} {d : Desc} : (s.setBlk k d).clk = s.clk := rfl
@[simp] theorem State.setBlk_pwr {k : Nat} {d : Desc} : (s.setBlk k d).pwr = s.pwr := rfl
@[simp] theorem State.setBlk_drven {k : Nat} {d : Desc} : (s.setBlk k d).drven = s.drven := rfl
@[simp] theorem State.setBlk_drvenLowAt {k : Nat} {d : Desc} : (s.setBlk k d).drvenLowAt = s.drvenLowAt := rfl
@[simp] theorem State.setBlk_trips {k : Nat} {d : Desc} : (s.setBlk k d).trips = s.trips := rfl
@[simp] theorem State.setBlk_extest {k : Nat} {d : Desc} : (s.setBlk k d).extest = s.extest := rfl
@[simp] theorem State.setBlk_tapIr {k : Nat} {d : Desc} : (s.setBlk k d).tapIr = s.tapIr := rfl
@[simp] theorem State.setBlk_tapCells {k : Nat} {d : Desc} : (s.setBlk k d).tapCells = s.tapCells := rfl
@[simp] theorem State.setBlk_tapOut {k : Nat} {d : Desc} : (s.setBlk k d).tapOut = s.tapOut := rfl
@[simp] theorem State.setBlk_ingress {k : Nat} {d : Desc} : (s.setBlk k d).ingress = s.ingress := rfl
@[simp] theorem State.setBlk_hostDummy {k : Nat} {d : Desc} : (s.setBlk k d).hostDummy = s.hostDummy := rfl
@[simp] theorem State.setBlk_window {k : Nat} {d : Desc} : (s.setBlk k d).window = s.window := rfl
@[simp] theorem State.setBlk_flueSince {k : Nat} {d : Desc} : (s.setBlk k d).flueSince = s.flueSince := rfl
@[simp] theorem State.setBlk_draws {k : Nat} {d : Desc} : (s.setBlk k d).draws = s.draws := rfl
@[simp] theorem State.setBlk_pending {k : Nat} {d : Desc} : (s.setBlk k d).pending = s.pending := rfl

/-! An open command changes. -/
@[simp] theorem State.setCmd_regs {c : Cmd} : (s.setCmd c).regs = s.regs := rfl
@[simp] theorem State.setCmd_tmrB {c : Cmd} : (s.setCmd c).tmrB = s.tmrB := rfl
@[simp] theorem State.setCmd_tmrC {c : Cmd} : (s.setCmd c).tmrC = s.tmrC := rfl
@[simp] theorem State.setCmd_tmrAt {c : Cmd} : (s.setCmd c).tmrAt = s.tmrAt := rfl
@[simp] theorem State.setCmd_held {c : Cmd} : (s.setCmd c).held = s.held := rfl
@[simp] theorem State.setCmd_net {c : Cmd} : (s.setCmd c).net = s.net := rfl
@[simp] theorem State.setCmd_netFrac {c : Cmd} : (s.setCmd c).netFrac = s.netFrac := rfl
@[simp] theorem State.setCmd_tb {c : Cmd} : (s.setCmd c).tb = s.tb := rfl
@[simp] theorem State.setCmd_tbFrac {c : Cmd} : (s.setCmd c).tbFrac = s.tbFrac := rfl
@[simp] theorem State.setCmd_axes {c : Cmd} : (s.setCmd c).axes = s.axes := rfl
@[simp] theorem State.setCmd_banks {c : Cmd} : (s.setCmd c).banks = s.banks := rfl
@[simp] theorem State.setCmd_nextId {c : Cmd} : (s.setCmd c).nextId = s.nextId := rfl
@[simp] theorem State.setCmd_bursts {c : Cmd} : (s.setCmd c).bursts = s.bursts := rfl
@[simp] theorem State.setCmd_replies {c : Cmd} : (s.setCmd c).replies = s.replies := rfl
@[simp] theorem State.setCmd_hostOut {c : Cmd} : (s.setCmd c).hostOut = s.hostOut := rfl
@[simp] theorem State.setCmd_hostStatus {c : Cmd} : (s.setCmd c).hostStatus = s.hostStatus := rfl
@[simp] theorem State.setCmd_creditBonus {c : Cmd} : (s.setCmd c).creditBonus = s.creditBonus := rfl
@[simp] theorem State.setCmd_creditHold {c : Cmd} : (s.setCmd c).creditHold = s.creditHold := rfl
@[simp] theorem State.setCmd_keyed {c : Cmd} : (s.setCmd c).keyed = s.keyed := rfl
@[simp] theorem State.setCmd_desc {c : Cmd} : (s.setCmd c).desc = s.desc := rfl
@[simp] theorem State.setCmd_mem {c : Cmd} : (s.setCmd c).mem = s.mem := rfl
@[simp] theorem State.setCmd_ecc {c : Cmd} : (s.setCmd c).ecc = s.ecc := rfl
@[simp] theorem State.setCmd_ceNoted {c : Cmd} : (s.setCmd c).ceNoted = s.ceNoted := rfl
@[simp] theorem State.setCmd_zeroing {c : Cmd} : (s.setCmd c).zeroing = s.zeroing := rfl
@[simp] theorem State.setCmd_quar {c : Cmd} : (s.setCmd c).quar = s.quar := rfl
@[simp] theorem State.setCmd_rings {c : Cmd} : (s.setCmd c).rings = s.rings := rfl
@[simp] theorem State.setCmd_flue {c : Cmd} : (s.setCmd c).flue = s.flue := rfl
@[simp] theorem State.setCmd_broken {c : Cmd} : (s.setCmd c).broken = s.broken := rfl
@[simp] theorem State.setCmd_modRecs {c : Cmd} : (s.setCmd c).modRecs = s.modRecs := rfl
@[simp] theorem State.setCmd_modSeq {c : Cmd} : (s.setCmd c).modSeq = s.modSeq := rfl
@[simp] theorem State.setCmd_locked {c : Cmd} : (s.setCmd c).locked = s.locked := rfl
@[simp] theorem State.setCmd_errPulse {c : Cmd} : (s.setCmd c).errPulse = s.errPulse := rfl
@[simp] theorem State.setCmd_hearth {c : Cmd} : (s.setCmd c).hearth = s.hearth := rfl
@[simp] theorem State.setCmd_chans {c : Cmd} : (s.setCmd c).chans = s.chans := rfl
@[simp] theorem State.setCmd_hostWait {c : Cmd} : (s.setCmd c).hostWait = s.hostWait := rfl
@[simp] theorem State.setCmd_deferred {c : Cmd} : (s.setCmd c).deferred = s.deferred := rfl
@[simp] theorem State.setCmd_echoes {c : Cmd} : (s.setCmd c).echoes = s.echoes := rfl
@[simp] theorem State.setCmd_netw {c : Cmd} : (s.setCmd c).netw = s.netw := rfl
@[simp] theorem State.setCmd_clk {c : Cmd} : (s.setCmd c).clk = s.clk := rfl
@[simp] theorem State.setCmd_pwr {c : Cmd} : (s.setCmd c).pwr = s.pwr := rfl
@[simp] theorem State.setCmd_drven {c : Cmd} : (s.setCmd c).drven = s.drven := rfl
@[simp] theorem State.setCmd_drvenLowAt {c : Cmd} : (s.setCmd c).drvenLowAt = s.drvenLowAt := rfl
@[simp] theorem State.setCmd_trips {c : Cmd} : (s.setCmd c).trips = s.trips := rfl
@[simp] theorem State.setCmd_extest {c : Cmd} : (s.setCmd c).extest = s.extest := rfl
@[simp] theorem State.setCmd_tapIr {c : Cmd} : (s.setCmd c).tapIr = s.tapIr := rfl
@[simp] theorem State.setCmd_tapCells {c : Cmd} : (s.setCmd c).tapCells = s.tapCells := rfl
@[simp] theorem State.setCmd_tapOut {c : Cmd} : (s.setCmd c).tapOut = s.tapOut := rfl
@[simp] theorem State.setCmd_ingress {c : Cmd} : (s.setCmd c).ingress = s.ingress := rfl
@[simp] theorem State.setCmd_hostDummy {c : Cmd} : (s.setCmd c).hostDummy = s.hostDummy := rfl
@[simp] theorem State.setCmd_window {c : Cmd} : (s.setCmd c).window = s.window := rfl
@[simp] theorem State.setCmd_flueSince {c : Cmd} : (s.setCmd c).flueSince = s.flueSince := rfl
@[simp] theorem State.setCmd_draws {c : Cmd} : (s.setCmd c).draws = s.draws := rfl
@[simp] theorem State.setCmd_pending {c : Cmd} : (s.setCmd c).pending = s.pending := rfl

/-! A register is written. -/
@[simp] theorem State.setReg_tmrAt {k : Nat} {v : Word} : (s.setReg k v).tmrAt = s.tmrAt := by unfold State.setReg; split <;> rfl
@[simp] theorem State.setReg_held {k : Nat} {v : Word} : (s.setReg k v).held = s.held := by unfold State.setReg; split <;> rfl
@[simp] theorem State.setReg_net {k : Nat} {v : Word} : (s.setReg k v).net = s.net := by unfold State.setReg; split <;> rfl
@[simp] theorem State.setReg_netFrac {k : Nat} {v : Word} : (s.setReg k v).netFrac = s.netFrac := by unfold State.setReg; split <;> rfl
@[simp] theorem State.setReg_tb {k : Nat} {v : Word} : (s.setReg k v).tb = s.tb := by unfold State.setReg; split <;> rfl
@[simp] theorem State.setReg_tbFrac {k : Nat} {v : Word} : (s.setReg k v).tbFrac = s.tbFrac := by unfold State.setReg; split <;> rfl
@[simp] theorem State.setReg_axes {k : Nat} {v : Word} : (s.setReg k v).axes = s.axes := by unfold State.setReg; split <;> rfl
@[simp] theorem State.setReg_banks {k : Nat} {v : Word} : (s.setReg k v).banks = s.banks := by unfold State.setReg; split <;> rfl
@[simp] theorem State.setReg_tags {k : Nat} {v : Word} : (s.setReg k v).tags = s.tags := by unfold State.setReg; split <;> rfl
@[simp] theorem State.setReg_nextId {k : Nat} {v : Word} : (s.setReg k v).nextId = s.nextId := by unfold State.setReg; split <;> rfl
@[simp] theorem State.setReg_bursts {k : Nat} {v : Word} : (s.setReg k v).bursts = s.bursts := by unfold State.setReg; split <;> rfl
@[simp] theorem State.setReg_replies {k : Nat} {v : Word} : (s.setReg k v).replies = s.replies := by unfold State.setReg; split <;> rfl
@[simp] theorem State.setReg_hostOut {k : Nat} {v : Word} : (s.setReg k v).hostOut = s.hostOut := by unfold State.setReg; split <;> rfl
@[simp] theorem State.setReg_hostStatus {k : Nat} {v : Word} : (s.setReg k v).hostStatus = s.hostStatus := by unfold State.setReg; split <;> rfl
@[simp] theorem State.setReg_creditBonus {k : Nat} {v : Word} : (s.setReg k v).creditBonus = s.creditBonus := by unfold State.setReg; split <;> rfl
@[simp] theorem State.setReg_creditHold {k : Nat} {v : Word} : (s.setReg k v).creditHold = s.creditHold := by unfold State.setReg; split <;> rfl
@[simp] theorem State.setReg_keyed {k : Nat} {v : Word} : (s.setReg k v).keyed = s.keyed := by unfold State.setReg; split <;> rfl
@[simp] theorem State.setReg_desc {k : Nat} {v : Word} : (s.setReg k v).desc = s.desc := by unfold State.setReg; split <;> rfl
@[simp] theorem State.setReg_mem {k : Nat} {v : Word} : (s.setReg k v).mem = s.mem := by unfold State.setReg; split <;> rfl
@[simp] theorem State.setReg_ecc {k : Nat} {v : Word} : (s.setReg k v).ecc = s.ecc := by unfold State.setReg; split <;> rfl
@[simp] theorem State.setReg_ceNoted {k : Nat} {v : Word} : (s.setReg k v).ceNoted = s.ceNoted := by unfold State.setReg; split <;> rfl
@[simp] theorem State.setReg_zeroing {k : Nat} {v : Word} : (s.setReg k v).zeroing = s.zeroing := by unfold State.setReg; split <;> rfl
@[simp] theorem State.setReg_quar {k : Nat} {v : Word} : (s.setReg k v).quar = s.quar := by unfold State.setReg; split <;> rfl
@[simp] theorem State.setReg_rings {k : Nat} {v : Word} : (s.setReg k v).rings = s.rings := by unfold State.setReg; split <;> rfl
@[simp] theorem State.setReg_flue {k : Nat} {v : Word} : (s.setReg k v).flue = s.flue := by unfold State.setReg; split <;> rfl
@[simp] theorem State.setReg_broken {k : Nat} {v : Word} : (s.setReg k v).broken = s.broken := by unfold State.setReg; split <;> rfl
@[simp] theorem State.setReg_modRecs {k : Nat} {v : Word} : (s.setReg k v).modRecs = s.modRecs := by unfold State.setReg; split <;> rfl
@[simp] theorem State.setReg_modSeq {k : Nat} {v : Word} : (s.setReg k v).modSeq = s.modSeq := by unfold State.setReg; split <;> rfl
@[simp] theorem State.setReg_locked {k : Nat} {v : Word} : (s.setReg k v).locked = s.locked := by unfold State.setReg; split <;> rfl
@[simp] theorem State.setReg_errPulse {k : Nat} {v : Word} : (s.setReg k v).errPulse = s.errPulse := by unfold State.setReg; split <;> rfl
@[simp] theorem State.setReg_hearth {k : Nat} {v : Word} : (s.setReg k v).hearth = s.hearth := by unfold State.setReg; split <;> rfl
@[simp] theorem State.setReg_chans {k : Nat} {v : Word} : (s.setReg k v).chans = s.chans := by unfold State.setReg; split <;> rfl
@[simp] theorem State.setReg_hostWait {k : Nat} {v : Word} : (s.setReg k v).hostWait = s.hostWait := by unfold State.setReg; split <;> rfl
@[simp] theorem State.setReg_deferred {k : Nat} {v : Word} : (s.setReg k v).deferred = s.deferred := by unfold State.setReg; split <;> rfl
@[simp] theorem State.setReg_echoes {k : Nat} {v : Word} : (s.setReg k v).echoes = s.echoes := by unfold State.setReg; split <;> rfl
@[simp] theorem State.setReg_netw {k : Nat} {v : Word} : (s.setReg k v).netw = s.netw := by unfold State.setReg; split <;> rfl
@[simp] theorem State.setReg_clk {k : Nat} {v : Word} : (s.setReg k v).clk = s.clk := by unfold State.setReg; split <;> rfl
@[simp] theorem State.setReg_pwr {k : Nat} {v : Word} : (s.setReg k v).pwr = s.pwr := by unfold State.setReg; split <;> rfl
@[simp] theorem State.setReg_drven {k : Nat} {v : Word} : (s.setReg k v).drven = s.drven := by unfold State.setReg; split <;> rfl
@[simp] theorem State.setReg_drvenLowAt {k : Nat} {v : Word} : (s.setReg k v).drvenLowAt = s.drvenLowAt := by unfold State.setReg; split <;> rfl
@[simp] theorem State.setReg_trips {k : Nat} {v : Word} : (s.setReg k v).trips = s.trips := by unfold State.setReg; split <;> rfl
@[simp] theorem State.setReg_extest {k : Nat} {v : Word} : (s.setReg k v).extest = s.extest := by unfold State.setReg; split <;> rfl
@[simp] theorem State.setReg_tapIr {k : Nat} {v : Word} : (s.setReg k v).tapIr = s.tapIr := by unfold State.setReg; split <;> rfl
@[simp] theorem State.setReg_tapCells {k : Nat} {v : Word} : (s.setReg k v).tapCells = s.tapCells := by unfold State.setReg; split <;> rfl
@[simp] theorem State.setReg_tapOut {k : Nat} {v : Word} : (s.setReg k v).tapOut = s.tapOut := by unfold State.setReg; split <;> rfl
@[simp] theorem State.setReg_ingress {k : Nat} {v : Word} : (s.setReg k v).ingress = s.ingress := by unfold State.setReg; split <;> rfl
@[simp] theorem State.setReg_hostDummy {k : Nat} {v : Word} : (s.setReg k v).hostDummy = s.hostDummy := by unfold State.setReg; split <;> rfl
@[simp] theorem State.setReg_window {k : Nat} {v : Word} : (s.setReg k v).window = s.window := by unfold State.setReg; split <;> rfl
@[simp] theorem State.setReg_flueSince {k : Nat} {v : Word} : (s.setReg k v).flueSince = s.flueSince := by unfold State.setReg; split <;> rfl
@[simp] theorem State.setReg_draws {k : Nat} {v : Word} : (s.setReg k v).draws = s.draws := by unfold State.setReg; split <;> rfl
@[simp] theorem State.setReg_pending {k : Nat} {v : Word} : (s.setReg k v).pending = s.pending := by unfold State.setReg; split <;> rfl

/-! A mark of the arbitration window. -/
@[simp] theorem State.mark_regs {k lo w : Nat} {x : WinKind} : (s.mark k lo w x).regs = s.regs := rfl
@[simp] theorem State.mark_tmrB {k lo w : Nat} {x : WinKind} : (s.mark k lo w x).tmrB = s.tmrB := rfl
@[simp] theorem State.mark_tmrC {k lo w : Nat} {x : WinKind} : (s.mark k lo w x).tmrC = s.tmrC := rfl
@[simp] theorem State.mark_tmrAt {k lo w : Nat} {x : WinKind} : (s.mark k lo w x).tmrAt = s.tmrAt := rfl
@[simp] theorem State.mark_held {k lo w : Nat} {x : WinKind} : (s.mark k lo w x).held = s.held := rfl
@[simp] theorem State.mark_net {k lo w : Nat} {x : WinKind} : (s.mark k lo w x).net = s.net := rfl
@[simp] theorem State.mark_netFrac {k lo w : Nat} {x : WinKind} : (s.mark k lo w x).netFrac = s.netFrac := rfl
@[simp] theorem State.mark_tb {k lo w : Nat} {x : WinKind} : (s.mark k lo w x).tb = s.tb := rfl
@[simp] theorem State.mark_tbFrac {k lo w : Nat} {x : WinKind} : (s.mark k lo w x).tbFrac = s.tbFrac := rfl
@[simp] theorem State.mark_axes {k lo w : Nat} {x : WinKind} : (s.mark k lo w x).axes = s.axes := rfl
@[simp] theorem State.mark_banks {k lo w : Nat} {x : WinKind} : (s.mark k lo w x).banks = s.banks := rfl
@[simp] theorem State.mark_nextId {k lo w : Nat} {x : WinKind} : (s.mark k lo w x).nextId = s.nextId := rfl
@[simp] theorem State.mark_bursts {k lo w : Nat} {x : WinKind} : (s.mark k lo w x).bursts = s.bursts := rfl
@[simp] theorem State.mark_replies {k lo w : Nat} {x : WinKind} : (s.mark k lo w x).replies = s.replies := rfl
@[simp] theorem State.mark_hostOut {k lo w : Nat} {x : WinKind} : (s.mark k lo w x).hostOut = s.hostOut := rfl
@[simp] theorem State.mark_hostStatus {k lo w : Nat} {x : WinKind} : (s.mark k lo w x).hostStatus = s.hostStatus := rfl
@[simp] theorem State.mark_creditBonus {k lo w : Nat} {x : WinKind} : (s.mark k lo w x).creditBonus = s.creditBonus := rfl
@[simp] theorem State.mark_creditHold {k lo w : Nat} {x : WinKind} : (s.mark k lo w x).creditHold = s.creditHold := rfl
@[simp] theorem State.mark_keyed {k lo w : Nat} {x : WinKind} : (s.mark k lo w x).keyed = s.keyed := rfl
@[simp] theorem State.mark_desc {k lo w : Nat} {x : WinKind} : (s.mark k lo w x).desc = s.desc := rfl
@[simp] theorem State.mark_mem {k lo w : Nat} {x : WinKind} : (s.mark k lo w x).mem = s.mem := rfl
@[simp] theorem State.mark_ecc {k lo w : Nat} {x : WinKind} : (s.mark k lo w x).ecc = s.ecc := rfl
@[simp] theorem State.mark_ceNoted {k lo w : Nat} {x : WinKind} : (s.mark k lo w x).ceNoted = s.ceNoted := rfl
@[simp] theorem State.mark_zeroing {k lo w : Nat} {x : WinKind} : (s.mark k lo w x).zeroing = s.zeroing := rfl
@[simp] theorem State.mark_quar {k lo w : Nat} {x : WinKind} : (s.mark k lo w x).quar = s.quar := rfl
@[simp] theorem State.mark_rings {k lo w : Nat} {x : WinKind} : (s.mark k lo w x).rings = s.rings := rfl
@[simp] theorem State.mark_flue {k lo w : Nat} {x : WinKind} : (s.mark k lo w x).flue = s.flue := rfl
@[simp] theorem State.mark_broken {k lo w : Nat} {x : WinKind} : (s.mark k lo w x).broken = s.broken := rfl
@[simp] theorem State.mark_modRecs {k lo w : Nat} {x : WinKind} : (s.mark k lo w x).modRecs = s.modRecs := rfl
@[simp] theorem State.mark_modSeq {k lo w : Nat} {x : WinKind} : (s.mark k lo w x).modSeq = s.modSeq := rfl
@[simp] theorem State.mark_locked {k lo w : Nat} {x : WinKind} : (s.mark k lo w x).locked = s.locked := rfl
@[simp] theorem State.mark_errPulse {k lo w : Nat} {x : WinKind} : (s.mark k lo w x).errPulse = s.errPulse := rfl
@[simp] theorem State.mark_hearth {k lo w : Nat} {x : WinKind} : (s.mark k lo w x).hearth = s.hearth := rfl
@[simp] theorem State.mark_chans {k lo w : Nat} {x : WinKind} : (s.mark k lo w x).chans = s.chans := rfl
@[simp] theorem State.mark_hostWait {k lo w : Nat} {x : WinKind} : (s.mark k lo w x).hostWait = s.hostWait := rfl
@[simp] theorem State.mark_deferred {k lo w : Nat} {x : WinKind} : (s.mark k lo w x).deferred = s.deferred := rfl
@[simp] theorem State.mark_echoes {k lo w : Nat} {x : WinKind} : (s.mark k lo w x).echoes = s.echoes := rfl
@[simp] theorem State.mark_netw {k lo w : Nat} {x : WinKind} : (s.mark k lo w x).netw = s.netw := rfl
@[simp] theorem State.mark_clk {k lo w : Nat} {x : WinKind} : (s.mark k lo w x).clk = s.clk := rfl
@[simp] theorem State.mark_pwr {k lo w : Nat} {x : WinKind} : (s.mark k lo w x).pwr = s.pwr := rfl
@[simp] theorem State.mark_drven {k lo w : Nat} {x : WinKind} : (s.mark k lo w x).drven = s.drven := rfl
@[simp] theorem State.mark_drvenLowAt {k lo w : Nat} {x : WinKind} : (s.mark k lo w x).drvenLowAt = s.drvenLowAt := rfl
@[simp] theorem State.mark_trips {k lo w : Nat} {x : WinKind} : (s.mark k lo w x).trips = s.trips := rfl
@[simp] theorem State.mark_extest {k lo w : Nat} {x : WinKind} : (s.mark k lo w x).extest = s.extest := rfl
@[simp] theorem State.mark_tapIr {k lo w : Nat} {x : WinKind} : (s.mark k lo w x).tapIr = s.tapIr := rfl
@[simp] theorem State.mark_tapCells {k lo w : Nat} {x : WinKind} : (s.mark k lo w x).tapCells = s.tapCells := rfl
@[simp] theorem State.mark_tapOut {k lo w : Nat} {x : WinKind} : (s.mark k lo w x).tapOut = s.tapOut := rfl
@[simp] theorem State.mark_ingress {k lo w : Nat} {x : WinKind} : (s.mark k lo w x).ingress = s.ingress := rfl
@[simp] theorem State.mark_hostDummy {k lo w : Nat} {x : WinKind} : (s.mark k lo w x).hostDummy = s.hostDummy := rfl
@[simp] theorem State.mark_flueSince {k lo w : Nat} {x : WinKind} : (s.mark k lo w x).flueSince = s.flueSince := rfl
@[simp] theorem State.mark_draws {k lo w : Nat} {x : WinKind} : (s.mark k lo w x).draws = s.draws := rfl
@[simp] theorem State.mark_pending {k lo w : Nat} {x : WinKind} : (s.mark k lo w x).pending = s.pending := rfl
@[simp] theorem State.mark_tags {k lo w : Nat} {x : WinKind} : (s.mark k lo w x).tags = s.tags := rfl

/-! An item is copied to the trace rings. -/
@[simp] theorem State.trace_tmrAt {it : TraceItem} : (s.trace it).tmrAt = s.tmrAt := foldl_field State.tmrAt (fun _ _ => by dsimp only; split <;> [(split <;> [rfl; simp [State.bump, State.setFld, State.mark]]); rfl]) _ s
@[simp] theorem State.trace_held {it : TraceItem} : (s.trace it).held = s.held := foldl_field State.held (fun _ _ => by dsimp only; split <;> [(split <;> [rfl; simp [State.bump, State.setFld, State.mark]]); rfl]) _ s
@[simp] theorem State.trace_net {it : TraceItem} : (s.trace it).net = s.net := foldl_field State.net (fun _ _ => by dsimp only; split <;> [(split <;> [rfl; simp [State.bump, State.setFld, State.mark]]); rfl]) _ s
@[simp] theorem State.trace_netFrac {it : TraceItem} : (s.trace it).netFrac = s.netFrac := foldl_field State.netFrac (fun _ _ => by dsimp only; split <;> [(split <;> [rfl; simp [State.bump, State.setFld, State.mark]]); rfl]) _ s
@[simp] theorem State.trace_tb {it : TraceItem} : (s.trace it).tb = s.tb := foldl_field State.tb (fun _ _ => by dsimp only; split <;> [(split <;> [rfl; simp [State.bump, State.setFld, State.mark]]); rfl]) _ s
@[simp] theorem State.trace_tbFrac {it : TraceItem} : (s.trace it).tbFrac = s.tbFrac := foldl_field State.tbFrac (fun _ _ => by dsimp only; split <;> [(split <;> [rfl; simp [State.bump, State.setFld, State.mark]]); rfl]) _ s
@[simp] theorem State.trace_axes {it : TraceItem} : (s.trace it).axes = s.axes := foldl_field State.axes (fun _ _ => by dsimp only; split <;> [(split <;> [rfl; simp [State.bump, State.setFld, State.mark]]); rfl]) _ s
@[simp] theorem State.trace_banks {it : TraceItem} : (s.trace it).banks = s.banks := foldl_field State.banks (fun _ _ => by dsimp only; split <;> [(split <;> [rfl; simp [State.bump, State.setFld, State.mark]]); rfl]) _ s
@[simp] theorem State.trace_tags {it : TraceItem} : (s.trace it).tags = s.tags := foldl_field State.tags (fun _ _ => by dsimp only; split <;> [(split <;> [rfl; simp [State.bump, State.setFld, State.mark]]); rfl]) _ s
@[simp] theorem State.trace_nextId {it : TraceItem} : (s.trace it).nextId = s.nextId := foldl_field State.nextId (fun _ _ => by dsimp only; split <;> [(split <;> [rfl; simp [State.bump, State.setFld, State.mark]]); rfl]) _ s
@[simp] theorem State.trace_bursts {it : TraceItem} : (s.trace it).bursts = s.bursts := foldl_field State.bursts (fun _ _ => by dsimp only; split <;> [(split <;> [rfl; simp [State.bump, State.setFld, State.mark]]); rfl]) _ s
@[simp] theorem State.trace_replies {it : TraceItem} : (s.trace it).replies = s.replies := foldl_field State.replies (fun _ _ => by dsimp only; split <;> [(split <;> [rfl; simp [State.bump, State.setFld, State.mark]]); rfl]) _ s
@[simp] theorem State.trace_hostOut {it : TraceItem} : (s.trace it).hostOut = s.hostOut := foldl_field State.hostOut (fun _ _ => by dsimp only; split <;> [(split <;> [rfl; simp [State.bump, State.setFld, State.mark]]); rfl]) _ s
@[simp] theorem State.trace_hostStatus {it : TraceItem} : (s.trace it).hostStatus = s.hostStatus := foldl_field State.hostStatus (fun _ _ => by dsimp only; split <;> [(split <;> [rfl; simp [State.bump, State.setFld, State.mark]]); rfl]) _ s
@[simp] theorem State.trace_creditBonus {it : TraceItem} : (s.trace it).creditBonus = s.creditBonus := foldl_field State.creditBonus (fun _ _ => by dsimp only; split <;> [(split <;> [rfl; simp [State.bump, State.setFld, State.mark]]); rfl]) _ s
@[simp] theorem State.trace_creditHold {it : TraceItem} : (s.trace it).creditHold = s.creditHold := foldl_field State.creditHold (fun _ _ => by dsimp only; split <;> [(split <;> [rfl; simp [State.bump, State.setFld, State.mark]]); rfl]) _ s
@[simp] theorem State.trace_keyed {it : TraceItem} : (s.trace it).keyed = s.keyed := foldl_field State.keyed (fun _ _ => by dsimp only; split <;> [(split <;> [rfl; simp [State.bump, State.setFld, State.mark]]); rfl]) _ s
@[simp] theorem State.trace_desc {it : TraceItem} : (s.trace it).desc = s.desc := foldl_field State.desc (fun _ _ => by dsimp only; split <;> [(split <;> [rfl; simp [State.bump, State.setFld, State.mark]]); rfl]) _ s
@[simp] theorem State.trace_mem {it : TraceItem} : (s.trace it).mem = s.mem := foldl_field State.mem (fun _ _ => by dsimp only; split <;> [(split <;> [rfl; simp [State.bump, State.setFld, State.mark]]); rfl]) _ s
@[simp] theorem State.trace_ecc {it : TraceItem} : (s.trace it).ecc = s.ecc := foldl_field State.ecc (fun _ _ => by dsimp only; split <;> [(split <;> [rfl; simp [State.bump, State.setFld, State.mark]]); rfl]) _ s
@[simp] theorem State.trace_ceNoted {it : TraceItem} : (s.trace it).ceNoted = s.ceNoted := foldl_field State.ceNoted (fun _ _ => by dsimp only; split <;> [(split <;> [rfl; simp [State.bump, State.setFld, State.mark]]); rfl]) _ s
@[simp] theorem State.trace_zeroing {it : TraceItem} : (s.trace it).zeroing = s.zeroing := foldl_field State.zeroing (fun _ _ => by dsimp only; split <;> [(split <;> [rfl; simp [State.bump, State.setFld, State.mark]]); rfl]) _ s
@[simp] theorem State.trace_quar {it : TraceItem} : (s.trace it).quar = s.quar := foldl_field State.quar (fun _ _ => by dsimp only; split <;> [(split <;> [rfl; simp [State.bump, State.setFld, State.mark]]); rfl]) _ s
@[simp] theorem State.trace_flue {it : TraceItem} : (s.trace it).flue = s.flue := foldl_field State.flue (fun _ _ => by dsimp only; split <;> [(split <;> [rfl; simp [State.bump, State.setFld, State.mark]]); rfl]) _ s
@[simp] theorem State.trace_broken {it : TraceItem} : (s.trace it).broken = s.broken := foldl_field State.broken (fun _ _ => by dsimp only; split <;> [(split <;> [rfl; simp [State.bump, State.setFld, State.mark]]); rfl]) _ s
@[simp] theorem State.trace_modRecs {it : TraceItem} : (s.trace it).modRecs = s.modRecs := foldl_field State.modRecs (fun _ _ => by dsimp only; split <;> [(split <;> [rfl; simp [State.bump, State.setFld, State.mark]]); rfl]) _ s
@[simp] theorem State.trace_modSeq {it : TraceItem} : (s.trace it).modSeq = s.modSeq := foldl_field State.modSeq (fun _ _ => by dsimp only; split <;> [(split <;> [rfl; simp [State.bump, State.setFld, State.mark]]); rfl]) _ s
@[simp] theorem State.trace_locked {it : TraceItem} : (s.trace it).locked = s.locked := foldl_field State.locked (fun _ _ => by dsimp only; split <;> [(split <;> [rfl; simp [State.bump, State.setFld, State.mark]]); rfl]) _ s
@[simp] theorem State.trace_errPulse {it : TraceItem} : (s.trace it).errPulse = s.errPulse := foldl_field State.errPulse (fun _ _ => by dsimp only; split <;> [(split <;> [rfl; simp [State.bump, State.setFld, State.mark]]); rfl]) _ s
@[simp] theorem State.trace_hearth {it : TraceItem} : (s.trace it).hearth = s.hearth := foldl_field State.hearth (fun _ _ => by dsimp only; split <;> [(split <;> [rfl; simp [State.bump, State.setFld, State.mark]]); rfl]) _ s
@[simp] theorem State.trace_chans {it : TraceItem} : (s.trace it).chans = s.chans := foldl_field State.chans (fun _ _ => by dsimp only; split <;> [(split <;> [rfl; simp [State.bump, State.setFld, State.mark]]); rfl]) _ s
@[simp] theorem State.trace_hostWait {it : TraceItem} : (s.trace it).hostWait = s.hostWait := foldl_field State.hostWait (fun _ _ => by dsimp only; split <;> [(split <;> [rfl; simp [State.bump, State.setFld, State.mark]]); rfl]) _ s
@[simp] theorem State.trace_deferred {it : TraceItem} : (s.trace it).deferred = s.deferred := foldl_field State.deferred (fun _ _ => by dsimp only; split <;> [(split <;> [rfl; simp [State.bump, State.setFld, State.mark]]); rfl]) _ s
@[simp] theorem State.trace_echoes {it : TraceItem} : (s.trace it).echoes = s.echoes := foldl_field State.echoes (fun _ _ => by dsimp only; split <;> [(split <;> [rfl; simp [State.bump, State.setFld, State.mark]]); rfl]) _ s
@[simp] theorem State.trace_netw {it : TraceItem} : (s.trace it).netw = s.netw := foldl_field State.netw (fun _ _ => by dsimp only; split <;> [(split <;> [rfl; simp [State.bump, State.setFld, State.mark]]); rfl]) _ s
@[simp] theorem State.trace_clk {it : TraceItem} : (s.trace it).clk = s.clk := foldl_field State.clk (fun _ _ => by dsimp only; split <;> [(split <;> [rfl; simp [State.bump, State.setFld, State.mark]]); rfl]) _ s
@[simp] theorem State.trace_pwr {it : TraceItem} : (s.trace it).pwr = s.pwr := foldl_field State.pwr (fun _ _ => by dsimp only; split <;> [(split <;> [rfl; simp [State.bump, State.setFld, State.mark]]); rfl]) _ s
@[simp] theorem State.trace_drven {it : TraceItem} : (s.trace it).drven = s.drven := foldl_field State.drven (fun _ _ => by dsimp only; split <;> [(split <;> [rfl; simp [State.bump, State.setFld, State.mark]]); rfl]) _ s
@[simp] theorem State.trace_drvenLowAt {it : TraceItem} : (s.trace it).drvenLowAt = s.drvenLowAt := foldl_field State.drvenLowAt (fun _ _ => by dsimp only; split <;> [(split <;> [rfl; simp [State.bump, State.setFld, State.mark]]); rfl]) _ s
@[simp] theorem State.trace_trips {it : TraceItem} : (s.trace it).trips = s.trips := foldl_field State.trips (fun _ _ => by dsimp only; split <;> [(split <;> [rfl; simp [State.bump, State.setFld, State.mark]]); rfl]) _ s
@[simp] theorem State.trace_extest {it : TraceItem} : (s.trace it).extest = s.extest := foldl_field State.extest (fun _ _ => by dsimp only; split <;> [(split <;> [rfl; simp [State.bump, State.setFld, State.mark]]); rfl]) _ s
@[simp] theorem State.trace_tapIr {it : TraceItem} : (s.trace it).tapIr = s.tapIr := foldl_field State.tapIr (fun _ _ => by dsimp only; split <;> [(split <;> [rfl; simp [State.bump, State.setFld, State.mark]]); rfl]) _ s
@[simp] theorem State.trace_tapCells {it : TraceItem} : (s.trace it).tapCells = s.tapCells := foldl_field State.tapCells (fun _ _ => by dsimp only; split <;> [(split <;> [rfl; simp [State.bump, State.setFld, State.mark]]); rfl]) _ s
@[simp] theorem State.trace_tapOut {it : TraceItem} : (s.trace it).tapOut = s.tapOut := foldl_field State.tapOut (fun _ _ => by dsimp only; split <;> [(split <;> [rfl; simp [State.bump, State.setFld, State.mark]]); rfl]) _ s
@[simp] theorem State.trace_ingress {it : TraceItem} : (s.trace it).ingress = s.ingress := foldl_field State.ingress (fun _ _ => by dsimp only; split <;> [(split <;> [rfl; simp [State.bump, State.setFld, State.mark]]); rfl]) _ s
@[simp] theorem State.trace_hostDummy {it : TraceItem} : (s.trace it).hostDummy = s.hostDummy := foldl_field State.hostDummy (fun _ _ => by dsimp only; split <;> [(split <;> [rfl; simp [State.bump, State.setFld, State.mark]]); rfl]) _ s
@[simp] theorem State.trace_flueSince {it : TraceItem} : (s.trace it).flueSince = s.flueSince := foldl_field State.flueSince (fun _ _ => by dsimp only; split <;> [(split <;> [rfl; simp [State.bump, State.setFld, State.mark]]); rfl]) _ s
@[simp] theorem State.trace_draws {it : TraceItem} : (s.trace it).draws = s.draws := foldl_field State.draws (fun _ _ => by dsimp only; split <;> [(split <;> [rfl; simp [State.bump, State.setFld, State.mark]]); rfl]) _ s
@[simp] theorem State.trace_pending {it : TraceItem} : (s.trace it).pending = s.pending := foldl_field State.pending (fun _ _ => by dsimp only; split <;> [(split <;> [rfl; simp [State.bump, State.setFld, State.mark]]); rfl]) _ s

/-! What a reply returns of credits is taken. -/
@[simp] theorem State.credit2_regs {p : Port} {f e : Bool} : ((s.credit p f e).2).regs = s.regs := by unfold State.credit; dsimp only; repeat (split <;> try rfl)
@[simp] theorem State.credit2_tmrB {p : Port} {f e : Bool} : ((s.credit p f e).2).tmrB = s.tmrB := by unfold State.credit; dsimp only; repeat (split <;> try rfl)
@[simp] theorem State.credit2_tmrC {p : Port} {f e : Bool} : ((s.credit p f e).2).tmrC = s.tmrC := by unfold State.credit; dsimp only; repeat (split <;> try rfl)
@[simp] theorem State.credit2_tmrAt {p : Port} {f e : Bool} : ((s.credit p f e).2).tmrAt = s.tmrAt := by unfold State.credit; dsimp only; repeat (split <;> try rfl)
@[simp] theorem State.credit2_held {p : Port} {f e : Bool} : ((s.credit p f e).2).held = s.held := by unfold State.credit; dsimp only; repeat (split <;> try rfl)
@[simp] theorem State.credit2_net {p : Port} {f e : Bool} : ((s.credit p f e).2).net = s.net := by unfold State.credit; dsimp only; repeat (split <;> try rfl)
@[simp] theorem State.credit2_netFrac {p : Port} {f e : Bool} : ((s.credit p f e).2).netFrac = s.netFrac := by unfold State.credit; dsimp only; repeat (split <;> try rfl)
@[simp] theorem State.credit2_tb {p : Port} {f e : Bool} : ((s.credit p f e).2).tb = s.tb := by unfold State.credit; dsimp only; repeat (split <;> try rfl)
@[simp] theorem State.credit2_tbFrac {p : Port} {f e : Bool} : ((s.credit p f e).2).tbFrac = s.tbFrac := by unfold State.credit; dsimp only; repeat (split <;> try rfl)
@[simp] theorem State.credit2_axes {p : Port} {f e : Bool} : ((s.credit p f e).2).axes = s.axes := by unfold State.credit; dsimp only; repeat (split <;> try rfl)
@[simp] theorem State.credit2_banks {p : Port} {f e : Bool} : ((s.credit p f e).2).banks = s.banks := by unfold State.credit; dsimp only; repeat (split <;> try rfl)
@[simp] theorem State.credit2_tags {p : Port} {f e : Bool} : ((s.credit p f e).2).tags = s.tags := by unfold State.credit; dsimp only; repeat (split <;> try rfl)
@[simp] theorem State.credit2_nextId {p : Port} {f e : Bool} : ((s.credit p f e).2).nextId = s.nextId := by unfold State.credit; dsimp only; repeat (split <;> try rfl)
@[simp] theorem State.credit2_bursts {p : Port} {f e : Bool} : ((s.credit p f e).2).bursts = s.bursts := by unfold State.credit; dsimp only; repeat (split <;> try rfl)
@[simp] theorem State.credit2_replies {p : Port} {f e : Bool} : ((s.credit p f e).2).replies = s.replies := by unfold State.credit; dsimp only; repeat (split <;> try rfl)
@[simp] theorem State.credit2_hostOut {p : Port} {f e : Bool} : ((s.credit p f e).2).hostOut = s.hostOut := by unfold State.credit; dsimp only; repeat (split <;> try rfl)
@[simp] theorem State.credit2_hostStatus {p : Port} {f e : Bool} : ((s.credit p f e).2).hostStatus = s.hostStatus := by unfold State.credit; dsimp only; repeat (split <;> try rfl)
@[simp] theorem State.credit2_keyed {p : Port} {f e : Bool} : ((s.credit p f e).2).keyed = s.keyed := by unfold State.credit; dsimp only; repeat (split <;> try rfl)
@[simp] theorem State.credit2_desc {p : Port} {f e : Bool} : ((s.credit p f e).2).desc = s.desc := by unfold State.credit; dsimp only; repeat (split <;> try rfl)
@[simp] theorem State.credit2_mem {p : Port} {f e : Bool} : ((s.credit p f e).2).mem = s.mem := by unfold State.credit; dsimp only; repeat (split <;> try rfl)
@[simp] theorem State.credit2_ecc {p : Port} {f e : Bool} : ((s.credit p f e).2).ecc = s.ecc := by unfold State.credit; dsimp only; repeat (split <;> try rfl)
@[simp] theorem State.credit2_ceNoted {p : Port} {f e : Bool} : ((s.credit p f e).2).ceNoted = s.ceNoted := by unfold State.credit; dsimp only; repeat (split <;> try rfl)
@[simp] theorem State.credit2_zeroing {p : Port} {f e : Bool} : ((s.credit p f e).2).zeroing = s.zeroing := by unfold State.credit; dsimp only; repeat (split <;> try rfl)
@[simp] theorem State.credit2_quar {p : Port} {f e : Bool} : ((s.credit p f e).2).quar = s.quar := by unfold State.credit; dsimp only; repeat (split <;> try rfl)
@[simp] theorem State.credit2_rings {p : Port} {f e : Bool} : ((s.credit p f e).2).rings = s.rings := by unfold State.credit; dsimp only; repeat (split <;> try rfl)
@[simp] theorem State.credit2_flue {p : Port} {f e : Bool} : ((s.credit p f e).2).flue = s.flue := by unfold State.credit; dsimp only; repeat (split <;> try rfl)
@[simp] theorem State.credit2_broken {p : Port} {f e : Bool} : ((s.credit p f e).2).broken = s.broken := by unfold State.credit; dsimp only; repeat (split <;> try rfl)
@[simp] theorem State.credit2_modRecs {p : Port} {f e : Bool} : ((s.credit p f e).2).modRecs = s.modRecs := by unfold State.credit; dsimp only; repeat (split <;> try rfl)
@[simp] theorem State.credit2_modSeq {p : Port} {f e : Bool} : ((s.credit p f e).2).modSeq = s.modSeq := by unfold State.credit; dsimp only; repeat (split <;> try rfl)
@[simp] theorem State.credit2_locked {p : Port} {f e : Bool} : ((s.credit p f e).2).locked = s.locked := by unfold State.credit; dsimp only; repeat (split <;> try rfl)
@[simp] theorem State.credit2_errPulse {p : Port} {f e : Bool} : ((s.credit p f e).2).errPulse = s.errPulse := by unfold State.credit; dsimp only; repeat (split <;> try rfl)
@[simp] theorem State.credit2_hearth {p : Port} {f e : Bool} : ((s.credit p f e).2).hearth = s.hearth := by unfold State.credit; dsimp only; repeat (split <;> try rfl)
@[simp] theorem State.credit2_chans {p : Port} {f e : Bool} : ((s.credit p f e).2).chans = s.chans := by unfold State.credit; dsimp only; repeat (split <;> try rfl)
@[simp] theorem State.credit2_hostWait {p : Port} {f e : Bool} : ((s.credit p f e).2).hostWait = s.hostWait := by unfold State.credit; dsimp only; repeat (split <;> try rfl)
@[simp] theorem State.credit2_deferred {p : Port} {f e : Bool} : ((s.credit p f e).2).deferred = s.deferred := by unfold State.credit; dsimp only; repeat (split <;> try rfl)
@[simp] theorem State.credit2_echoes {p : Port} {f e : Bool} : ((s.credit p f e).2).echoes = s.echoes := by unfold State.credit; dsimp only; repeat (split <;> try rfl)
@[simp] theorem State.credit2_netw {p : Port} {f e : Bool} : ((s.credit p f e).2).netw = s.netw := by unfold State.credit; dsimp only; repeat (split <;> try rfl)
@[simp] theorem State.credit2_clk {p : Port} {f e : Bool} : ((s.credit p f e).2).clk = s.clk := by unfold State.credit; dsimp only; repeat (split <;> try rfl)
@[simp] theorem State.credit2_pwr {p : Port} {f e : Bool} : ((s.credit p f e).2).pwr = s.pwr := by unfold State.credit; dsimp only; repeat (split <;> try rfl)
@[simp] theorem State.credit2_drven {p : Port} {f e : Bool} : ((s.credit p f e).2).drven = s.drven := by unfold State.credit; dsimp only; repeat (split <;> try rfl)
@[simp] theorem State.credit2_drvenLowAt {p : Port} {f e : Bool} : ((s.credit p f e).2).drvenLowAt = s.drvenLowAt := by unfold State.credit; dsimp only; repeat (split <;> try rfl)
@[simp] theorem State.credit2_trips {p : Port} {f e : Bool} : ((s.credit p f e).2).trips = s.trips := by unfold State.credit; dsimp only; repeat (split <;> try rfl)
@[simp] theorem State.credit2_extest {p : Port} {f e : Bool} : ((s.credit p f e).2).extest = s.extest := by unfold State.credit; dsimp only; repeat (split <;> try rfl)
@[simp] theorem State.credit2_tapIr {p : Port} {f e : Bool} : ((s.credit p f e).2).tapIr = s.tapIr := by unfold State.credit; dsimp only; repeat (split <;> try rfl)
@[simp] theorem State.credit2_tapCells {p : Port} {f e : Bool} : ((s.credit p f e).2).tapCells = s.tapCells := by unfold State.credit; dsimp only; repeat (split <;> try rfl)
@[simp] theorem State.credit2_tapOut {p : Port} {f e : Bool} : ((s.credit p f e).2).tapOut = s.tapOut := by unfold State.credit; dsimp only; repeat (split <;> try rfl)
@[simp] theorem State.credit2_ingress {p : Port} {f e : Bool} : ((s.credit p f e).2).ingress = s.ingress := by unfold State.credit; dsimp only; repeat (split <;> try rfl)
@[simp] theorem State.credit2_hostDummy {p : Port} {f e : Bool} : ((s.credit p f e).2).hostDummy = s.hostDummy := by unfold State.credit; dsimp only; repeat (split <;> try rfl)
@[simp] theorem State.credit2_window {p : Port} {f e : Bool} : ((s.credit p f e).2).window = s.window := by unfold State.credit; dsimp only; repeat (split <;> try rfl)
@[simp] theorem State.credit2_flueSince {p : Port} {f e : Bool} : ((s.credit p f e).2).flueSince = s.flueSince := by unfold State.credit; dsimp only; repeat (split <;> try rfl)
@[simp] theorem State.credit2_draws {p : Port} {f e : Bool} : ((s.credit p f e).2).draws = s.draws := by unfold State.credit; dsimp only; repeat (split <;> try rfl)
@[simp] theorem State.credit2_pending {p : Port} {f e : Bool} : ((s.credit p f e).2).pending = s.pending := by unfold State.credit; dsimp only; repeat (split <;> try rfl)

/-! A reply is queued. -/
@[simp] theorem State.reply_tmrAt {p : Port} {src op tag target : Nat} {sd : Bool} {st : Status} {ws : List Word} {n : Nat} {f e : Bool} : (s.reply p src op tag target sd st ws n f e).tmrAt = s.tmrAt := by simp [State.reply]
@[simp] theorem State.reply_held {p : Port} {src op tag target : Nat} {sd : Bool} {st : Status} {ws : List Word} {n : Nat} {f e : Bool} : (s.reply p src op tag target sd st ws n f e).held = s.held := by simp [State.reply]
@[simp] theorem State.reply_net {p : Port} {src op tag target : Nat} {sd : Bool} {st : Status} {ws : List Word} {n : Nat} {f e : Bool} : (s.reply p src op tag target sd st ws n f e).net = s.net := by simp [State.reply]
@[simp] theorem State.reply_netFrac {p : Port} {src op tag target : Nat} {sd : Bool} {st : Status} {ws : List Word} {n : Nat} {f e : Bool} : (s.reply p src op tag target sd st ws n f e).netFrac = s.netFrac := by simp [State.reply]
@[simp] theorem State.reply_tb {p : Port} {src op tag target : Nat} {sd : Bool} {st : Status} {ws : List Word} {n : Nat} {f e : Bool} : (s.reply p src op tag target sd st ws n f e).tb = s.tb := by simp [State.reply]
@[simp] theorem State.reply_tbFrac {p : Port} {src op tag target : Nat} {sd : Bool} {st : Status} {ws : List Word} {n : Nat} {f e : Bool} : (s.reply p src op tag target sd st ws n f e).tbFrac = s.tbFrac := by simp [State.reply]
@[simp] theorem State.reply_axes {p : Port} {src op tag target : Nat} {sd : Bool} {st : Status} {ws : List Word} {n : Nat} {f e : Bool} : (s.reply p src op tag target sd st ws n f e).axes = s.axes := by simp [State.reply]
@[simp] theorem State.reply_banks {p : Port} {src op tag target : Nat} {sd : Bool} {st : Status} {ws : List Word} {n : Nat} {f e : Bool} : (s.reply p src op tag target sd st ws n f e).banks = s.banks := by simp [State.reply]
@[simp] theorem State.reply_tags {p : Port} {src op tag target : Nat} {sd : Bool} {st : Status} {ws : List Word} {n : Nat} {f e : Bool} : (s.reply p src op tag target sd st ws n f e).tags = s.tags := by simp [State.reply]
@[simp] theorem State.reply_nextId {p : Port} {src op tag target : Nat} {sd : Bool} {st : Status} {ws : List Word} {n : Nat} {f e : Bool} : (s.reply p src op tag target sd st ws n f e).nextId = s.nextId := by simp [State.reply]
@[simp] theorem State.reply_bursts {p : Port} {src op tag target : Nat} {sd : Bool} {st : Status} {ws : List Word} {n : Nat} {f e : Bool} : (s.reply p src op tag target sd st ws n f e).bursts = s.bursts := by simp [State.reply]
@[simp] theorem State.reply_hostOut {p : Port} {src op tag target : Nat} {sd : Bool} {st : Status} {ws : List Word} {n : Nat} {f e : Bool} : (s.reply p src op tag target sd st ws n f e).hostOut = s.hostOut := by simp [State.reply]
@[simp] theorem State.reply_hostStatus {p : Port} {src op tag target : Nat} {sd : Bool} {st : Status} {ws : List Word} {n : Nat} {f e : Bool} : (s.reply p src op tag target sd st ws n f e).hostStatus = s.hostStatus := by simp [State.reply]
@[simp] theorem State.reply_keyed {p : Port} {src op tag target : Nat} {sd : Bool} {st : Status} {ws : List Word} {n : Nat} {f e : Bool} : (s.reply p src op tag target sd st ws n f e).keyed = s.keyed := by simp [State.reply]
@[simp] theorem State.reply_desc {p : Port} {src op tag target : Nat} {sd : Bool} {st : Status} {ws : List Word} {n : Nat} {f e : Bool} : (s.reply p src op tag target sd st ws n f e).desc = s.desc := by simp [State.reply]
@[simp] theorem State.reply_mem {p : Port} {src op tag target : Nat} {sd : Bool} {st : Status} {ws : List Word} {n : Nat} {f e : Bool} : (s.reply p src op tag target sd st ws n f e).mem = s.mem := by simp [State.reply]
@[simp] theorem State.reply_ecc {p : Port} {src op tag target : Nat} {sd : Bool} {st : Status} {ws : List Word} {n : Nat} {f e : Bool} : (s.reply p src op tag target sd st ws n f e).ecc = s.ecc := by simp [State.reply]
@[simp] theorem State.reply_ceNoted {p : Port} {src op tag target : Nat} {sd : Bool} {st : Status} {ws : List Word} {n : Nat} {f e : Bool} : (s.reply p src op tag target sd st ws n f e).ceNoted = s.ceNoted := by simp [State.reply]
@[simp] theorem State.reply_zeroing {p : Port} {src op tag target : Nat} {sd : Bool} {st : Status} {ws : List Word} {n : Nat} {f e : Bool} : (s.reply p src op tag target sd st ws n f e).zeroing = s.zeroing := by simp [State.reply]
@[simp] theorem State.reply_quar {p : Port} {src op tag target : Nat} {sd : Bool} {st : Status} {ws : List Word} {n : Nat} {f e : Bool} : (s.reply p src op tag target sd st ws n f e).quar = s.quar := by simp [State.reply]
@[simp] theorem State.reply_flue {p : Port} {src op tag target : Nat} {sd : Bool} {st : Status} {ws : List Word} {n : Nat} {f e : Bool} : (s.reply p src op tag target sd st ws n f e).flue = s.flue := by simp [State.reply]
@[simp] theorem State.reply_broken {p : Port} {src op tag target : Nat} {sd : Bool} {st : Status} {ws : List Word} {n : Nat} {f e : Bool} : (s.reply p src op tag target sd st ws n f e).broken = s.broken := by simp [State.reply]
@[simp] theorem State.reply_modRecs {p : Port} {src op tag target : Nat} {sd : Bool} {st : Status} {ws : List Word} {n : Nat} {f e : Bool} : (s.reply p src op tag target sd st ws n f e).modRecs = s.modRecs := by simp [State.reply]
@[simp] theorem State.reply_modSeq {p : Port} {src op tag target : Nat} {sd : Bool} {st : Status} {ws : List Word} {n : Nat} {f e : Bool} : (s.reply p src op tag target sd st ws n f e).modSeq = s.modSeq := by simp [State.reply]
@[simp] theorem State.reply_locked {p : Port} {src op tag target : Nat} {sd : Bool} {st : Status} {ws : List Word} {n : Nat} {f e : Bool} : (s.reply p src op tag target sd st ws n f e).locked = s.locked := by simp [State.reply]
@[simp] theorem State.reply_errPulse {p : Port} {src op tag target : Nat} {sd : Bool} {st : Status} {ws : List Word} {n : Nat} {f e : Bool} : (s.reply p src op tag target sd st ws n f e).errPulse = s.errPulse := by simp [State.reply]
@[simp] theorem State.reply_hearth {p : Port} {src op tag target : Nat} {sd : Bool} {st : Status} {ws : List Word} {n : Nat} {f e : Bool} : (s.reply p src op tag target sd st ws n f e).hearth = s.hearth := by simp [State.reply]
@[simp] theorem State.reply_chans {p : Port} {src op tag target : Nat} {sd : Bool} {st : Status} {ws : List Word} {n : Nat} {f e : Bool} : (s.reply p src op tag target sd st ws n f e).chans = s.chans := by simp [State.reply]
@[simp] theorem State.reply_hostWait {p : Port} {src op tag target : Nat} {sd : Bool} {st : Status} {ws : List Word} {n : Nat} {f e : Bool} : (s.reply p src op tag target sd st ws n f e).hostWait = s.hostWait := by simp [State.reply]
@[simp] theorem State.reply_deferred {p : Port} {src op tag target : Nat} {sd : Bool} {st : Status} {ws : List Word} {n : Nat} {f e : Bool} : (s.reply p src op tag target sd st ws n f e).deferred = s.deferred := by simp [State.reply]
@[simp] theorem State.reply_echoes {p : Port} {src op tag target : Nat} {sd : Bool} {st : Status} {ws : List Word} {n : Nat} {f e : Bool} : (s.reply p src op tag target sd st ws n f e).echoes = s.echoes := by simp [State.reply]
@[simp] theorem State.reply_netw {p : Port} {src op tag target : Nat} {sd : Bool} {st : Status} {ws : List Word} {n : Nat} {f e : Bool} : (s.reply p src op tag target sd st ws n f e).netw = s.netw := by simp [State.reply]
@[simp] theorem State.reply_clk {p : Port} {src op tag target : Nat} {sd : Bool} {st : Status} {ws : List Word} {n : Nat} {f e : Bool} : (s.reply p src op tag target sd st ws n f e).clk = s.clk := by simp [State.reply]
@[simp] theorem State.reply_pwr {p : Port} {src op tag target : Nat} {sd : Bool} {st : Status} {ws : List Word} {n : Nat} {f e : Bool} : (s.reply p src op tag target sd st ws n f e).pwr = s.pwr := by simp [State.reply]
@[simp] theorem State.reply_drven {p : Port} {src op tag target : Nat} {sd : Bool} {st : Status} {ws : List Word} {n : Nat} {f e : Bool} : (s.reply p src op tag target sd st ws n f e).drven = s.drven := by simp [State.reply]
@[simp] theorem State.reply_drvenLowAt {p : Port} {src op tag target : Nat} {sd : Bool} {st : Status} {ws : List Word} {n : Nat} {f e : Bool} : (s.reply p src op tag target sd st ws n f e).drvenLowAt = s.drvenLowAt := by simp [State.reply]
@[simp] theorem State.reply_trips {p : Port} {src op tag target : Nat} {sd : Bool} {st : Status} {ws : List Word} {n : Nat} {f e : Bool} : (s.reply p src op tag target sd st ws n f e).trips = s.trips := by simp [State.reply]
@[simp] theorem State.reply_extest {p : Port} {src op tag target : Nat} {sd : Bool} {st : Status} {ws : List Word} {n : Nat} {f e : Bool} : (s.reply p src op tag target sd st ws n f e).extest = s.extest := by simp [State.reply]
@[simp] theorem State.reply_tapIr {p : Port} {src op tag target : Nat} {sd : Bool} {st : Status} {ws : List Word} {n : Nat} {f e : Bool} : (s.reply p src op tag target sd st ws n f e).tapIr = s.tapIr := by simp [State.reply]
@[simp] theorem State.reply_tapCells {p : Port} {src op tag target : Nat} {sd : Bool} {st : Status} {ws : List Word} {n : Nat} {f e : Bool} : (s.reply p src op tag target sd st ws n f e).tapCells = s.tapCells := by simp [State.reply]
@[simp] theorem State.reply_tapOut {p : Port} {src op tag target : Nat} {sd : Bool} {st : Status} {ws : List Word} {n : Nat} {f e : Bool} : (s.reply p src op tag target sd st ws n f e).tapOut = s.tapOut := by simp [State.reply]
@[simp] theorem State.reply_ingress {p : Port} {src op tag target : Nat} {sd : Bool} {st : Status} {ws : List Word} {n : Nat} {f e : Bool} : (s.reply p src op tag target sd st ws n f e).ingress = s.ingress := by simp [State.reply]
@[simp] theorem State.reply_hostDummy {p : Port} {src op tag target : Nat} {sd : Bool} {st : Status} {ws : List Word} {n : Nat} {f e : Bool} : (s.reply p src op tag target sd st ws n f e).hostDummy = s.hostDummy := by simp [State.reply]
@[simp] theorem State.reply_flueSince {p : Port} {src op tag target : Nat} {sd : Bool} {st : Status} {ws : List Word} {n : Nat} {f e : Bool} : (s.reply p src op tag target sd st ws n f e).flueSince = s.flueSince := by simp [State.reply]
@[simp] theorem State.reply_draws {p : Port} {src op tag target : Nat} {sd : Bool} {st : Status} {ws : List Word} {n : Nat} {f e : Bool} : (s.reply p src op tag target sd st ws n f e).draws = s.draws := by simp [State.reply]
@[simp] theorem State.reply_pending {p : Port} {src op tag target : Nat} {sd : Bool} {st : Status} {ws : List Word} {n : Nat} {f e : Bool} : (s.reply p src op tag target sd st ws n f e).pending = s.pending := by simp [State.reply]

/-! A command that waits in the tag table enters its queue. -/
@[simp] theorem State.promote_regs {n : Nat} : (s.promote n).regs = s.regs := by unfold State.promote; split <;> [(split <;> rfl); rfl]
@[simp] theorem State.promote_tmrB {n : Nat} : (s.promote n).tmrB = s.tmrB := by unfold State.promote; split <;> [(split <;> rfl); rfl]
@[simp] theorem State.promote_tmrC {n : Nat} : (s.promote n).tmrC = s.tmrC := by unfold State.promote; split <;> [(split <;> rfl); rfl]
@[simp] theorem State.promote_tmrAt {n : Nat} : (s.promote n).tmrAt = s.tmrAt := by unfold State.promote; split <;> [(split <;> rfl); rfl]
@[simp] theorem State.promote_held {n : Nat} : (s.promote n).held = s.held := by unfold State.promote; split <;> [(split <;> rfl); rfl]
@[simp] theorem State.promote_net {n : Nat} : (s.promote n).net = s.net := by unfold State.promote; split <;> [(split <;> rfl); rfl]
@[simp] theorem State.promote_netFrac {n : Nat} : (s.promote n).netFrac = s.netFrac := by unfold State.promote; split <;> [(split <;> rfl); rfl]
@[simp] theorem State.promote_tb {n : Nat} : (s.promote n).tb = s.tb := by unfold State.promote; split <;> [(split <;> rfl); rfl]
@[simp] theorem State.promote_tbFrac {n : Nat} : (s.promote n).tbFrac = s.tbFrac := by unfold State.promote; split <;> [(split <;> rfl); rfl]
@[simp] theorem State.promote_axes {n : Nat} : (s.promote n).axes = s.axes := by unfold State.promote; split <;> [(split <;> rfl); rfl]
@[simp] theorem State.promote_banks {n : Nat} : (s.promote n).banks = s.banks := by unfold State.promote; split <;> [(split <;> rfl); rfl]
@[simp] theorem State.promote_nextId {n : Nat} : (s.promote n).nextId = s.nextId := by unfold State.promote; split <;> [(split <;> rfl); rfl]
@[simp] theorem State.promote_bursts {n : Nat} : (s.promote n).bursts = s.bursts := by unfold State.promote; split <;> [(split <;> rfl); rfl]
@[simp] theorem State.promote_replies {n : Nat} : (s.promote n).replies = s.replies := by unfold State.promote; split <;> [(split <;> rfl); rfl]
@[simp] theorem State.promote_hostOut {n : Nat} : (s.promote n).hostOut = s.hostOut := by unfold State.promote; split <;> [(split <;> rfl); rfl]
@[simp] theorem State.promote_hostStatus {n : Nat} : (s.promote n).hostStatus = s.hostStatus := by unfold State.promote; split <;> [(split <;> rfl); rfl]
@[simp] theorem State.promote_creditBonus {n : Nat} : (s.promote n).creditBonus = s.creditBonus := by unfold State.promote; split <;> [(split <;> rfl); rfl]
@[simp] theorem State.promote_creditHold {n : Nat} : (s.promote n).creditHold = s.creditHold := by unfold State.promote; split <;> [(split <;> rfl); rfl]
@[simp] theorem State.promote_keyed {n : Nat} : (s.promote n).keyed = s.keyed := by unfold State.promote; split <;> [(split <;> rfl); rfl]
@[simp] theorem State.promote_desc {n : Nat} : (s.promote n).desc = s.desc := by unfold State.promote; split <;> [(split <;> rfl); rfl]
@[simp] theorem State.promote_mem {n : Nat} : (s.promote n).mem = s.mem := by unfold State.promote; split <;> [(split <;> rfl); rfl]
@[simp] theorem State.promote_ecc {n : Nat} : (s.promote n).ecc = s.ecc := by unfold State.promote; split <;> [(split <;> rfl); rfl]
@[simp] theorem State.promote_ceNoted {n : Nat} : (s.promote n).ceNoted = s.ceNoted := by unfold State.promote; split <;> [(split <;> rfl); rfl]
@[simp] theorem State.promote_zeroing {n : Nat} : (s.promote n).zeroing = s.zeroing := by unfold State.promote; split <;> [(split <;> rfl); rfl]
@[simp] theorem State.promote_quar {n : Nat} : (s.promote n).quar = s.quar := by unfold State.promote; split <;> [(split <;> rfl); rfl]
@[simp] theorem State.promote_rings {n : Nat} : (s.promote n).rings = s.rings := by unfold State.promote; split <;> [(split <;> rfl); rfl]
@[simp] theorem State.promote_flue {n : Nat} : (s.promote n).flue = s.flue := by unfold State.promote; split <;> [(split <;> rfl); rfl]
@[simp] theorem State.promote_broken {n : Nat} : (s.promote n).broken = s.broken := by unfold State.promote; split <;> [(split <;> rfl); rfl]
@[simp] theorem State.promote_modRecs {n : Nat} : (s.promote n).modRecs = s.modRecs := by unfold State.promote; split <;> [(split <;> rfl); rfl]
@[simp] theorem State.promote_modSeq {n : Nat} : (s.promote n).modSeq = s.modSeq := by unfold State.promote; split <;> [(split <;> rfl); rfl]
@[simp] theorem State.promote_locked {n : Nat} : (s.promote n).locked = s.locked := by unfold State.promote; split <;> [(split <;> rfl); rfl]
@[simp] theorem State.promote_errPulse {n : Nat} : (s.promote n).errPulse = s.errPulse := by unfold State.promote; split <;> [(split <;> rfl); rfl]
@[simp] theorem State.promote_hearth {n : Nat} : (s.promote n).hearth = s.hearth := by unfold State.promote; split <;> [(split <;> rfl); rfl]
@[simp] theorem State.promote_chans {n : Nat} : (s.promote n).chans = s.chans := by unfold State.promote; split <;> [(split <;> rfl); rfl]
@[simp] theorem State.promote_hostWait {n : Nat} : (s.promote n).hostWait = s.hostWait := by unfold State.promote; split <;> [(split <;> rfl); rfl]
@[simp] theorem State.promote_deferred {n : Nat} : (s.promote n).deferred = s.deferred := by unfold State.promote; split <;> [(split <;> rfl); rfl]
@[simp] theorem State.promote_echoes {n : Nat} : (s.promote n).echoes = s.echoes := by unfold State.promote; split <;> [(split <;> rfl); rfl]
@[simp] theorem State.promote_netw {n : Nat} : (s.promote n).netw = s.netw := by unfold State.promote; split <;> [(split <;> rfl); rfl]
@[simp] theorem State.promote_clk {n : Nat} : (s.promote n).clk = s.clk := by unfold State.promote; split <;> [(split <;> rfl); rfl]
@[simp] theorem State.promote_pwr {n : Nat} : (s.promote n).pwr = s.pwr := by unfold State.promote; split <;> [(split <;> rfl); rfl]
@[simp] theorem State.promote_drven {n : Nat} : (s.promote n).drven = s.drven := by unfold State.promote; split <;> [(split <;> rfl); rfl]
@[simp] theorem State.promote_drvenLowAt {n : Nat} : (s.promote n).drvenLowAt = s.drvenLowAt := by unfold State.promote; split <;> [(split <;> rfl); rfl]
@[simp] theorem State.promote_trips {n : Nat} : (s.promote n).trips = s.trips := by unfold State.promote; split <;> [(split <;> rfl); rfl]
@[simp] theorem State.promote_extest {n : Nat} : (s.promote n).extest = s.extest := by unfold State.promote; split <;> [(split <;> rfl); rfl]
@[simp] theorem State.promote_tapIr {n : Nat} : (s.promote n).tapIr = s.tapIr := by unfold State.promote; split <;> [(split <;> rfl); rfl]
@[simp] theorem State.promote_tapCells {n : Nat} : (s.promote n).tapCells = s.tapCells := by unfold State.promote; split <;> [(split <;> rfl); rfl]
@[simp] theorem State.promote_tapOut {n : Nat} : (s.promote n).tapOut = s.tapOut := by unfold State.promote; split <;> [(split <;> rfl); rfl]
@[simp] theorem State.promote_ingress {n : Nat} : (s.promote n).ingress = s.ingress := by unfold State.promote; split <;> [(split <;> rfl); rfl]
@[simp] theorem State.promote_hostDummy {n : Nat} : (s.promote n).hostDummy = s.hostDummy := by unfold State.promote; split <;> [(split <;> rfl); rfl]
@[simp] theorem State.promote_window {n : Nat} : (s.promote n).window = s.window := by unfold State.promote; split <;> [(split <;> rfl); rfl]
@[simp] theorem State.promote_flueSince {n : Nat} : (s.promote n).flueSince = s.flueSince := by unfold State.promote; split <;> [(split <;> rfl); rfl]
@[simp] theorem State.promote_draws {n : Nat} : (s.promote n).draws = s.draws := by unfold State.promote; split <;> [(split <;> rfl); rfl]
@[simp] theorem State.promote_pending {n : Nat} : (s.promote n).pending = s.pending := by unfold State.promote; split <;> [(split <;> rfl); rfl]

/-! A command ends. -/
@[simp] theorem State.finish_tmrAt {id : Nat} {st : Status} {ws : List Word} {n : Nat} : (s.finish id st ws n).tmrAt = s.tmrAt := by unfold State.finish; split <;> simp
@[simp] theorem State.finish_held {id : Nat} {st : Status} {ws : List Word} {n : Nat} : (s.finish id st ws n).held = s.held := by unfold State.finish; split <;> simp
@[simp] theorem State.finish_net {id : Nat} {st : Status} {ws : List Word} {n : Nat} : (s.finish id st ws n).net = s.net := by unfold State.finish; split <;> simp
@[simp] theorem State.finish_netFrac {id : Nat} {st : Status} {ws : List Word} {n : Nat} : (s.finish id st ws n).netFrac = s.netFrac := by unfold State.finish; split <;> simp
@[simp] theorem State.finish_tb {id : Nat} {st : Status} {ws : List Word} {n : Nat} : (s.finish id st ws n).tb = s.tb := by unfold State.finish; split <;> simp
@[simp] theorem State.finish_tbFrac {id : Nat} {st : Status} {ws : List Word} {n : Nat} : (s.finish id st ws n).tbFrac = s.tbFrac := by unfold State.finish; split <;> simp
@[simp] theorem State.finish_axes {id : Nat} {st : Status} {ws : List Word} {n : Nat} : (s.finish id st ws n).axes = s.axes := by unfold State.finish; split <;> simp
@[simp] theorem State.finish_banks {id : Nat} {st : Status} {ws : List Word} {n : Nat} : (s.finish id st ws n).banks = s.banks := by unfold State.finish; split <;> simp
@[simp] theorem State.finish_nextId {id : Nat} {st : Status} {ws : List Word} {n : Nat} : (s.finish id st ws n).nextId = s.nextId := by unfold State.finish; split <;> simp
@[simp] theorem State.finish_bursts {id : Nat} {st : Status} {ws : List Word} {n : Nat} : (s.finish id st ws n).bursts = s.bursts := by unfold State.finish; split <;> simp
@[simp] theorem State.finish_hostOut {id : Nat} {st : Status} {ws : List Word} {n : Nat} : (s.finish id st ws n).hostOut = s.hostOut := by unfold State.finish; split <;> simp
@[simp] theorem State.finish_hostStatus {id : Nat} {st : Status} {ws : List Word} {n : Nat} : (s.finish id st ws n).hostStatus = s.hostStatus := by unfold State.finish; split <;> simp
@[simp] theorem State.finish_keyed {id : Nat} {st : Status} {ws : List Word} {n : Nat} : (s.finish id st ws n).keyed = s.keyed := by unfold State.finish; split <;> simp
@[simp] theorem State.finish_desc {id : Nat} {st : Status} {ws : List Word} {n : Nat} : (s.finish id st ws n).desc = s.desc := by unfold State.finish; split <;> simp
@[simp] theorem State.finish_mem {id : Nat} {st : Status} {ws : List Word} {n : Nat} : (s.finish id st ws n).mem = s.mem := by unfold State.finish; split <;> simp
@[simp] theorem State.finish_ecc {id : Nat} {st : Status} {ws : List Word} {n : Nat} : (s.finish id st ws n).ecc = s.ecc := by unfold State.finish; split <;> simp
@[simp] theorem State.finish_ceNoted {id : Nat} {st : Status} {ws : List Word} {n : Nat} : (s.finish id st ws n).ceNoted = s.ceNoted := by unfold State.finish; split <;> simp
@[simp] theorem State.finish_zeroing {id : Nat} {st : Status} {ws : List Word} {n : Nat} : (s.finish id st ws n).zeroing = s.zeroing := by unfold State.finish; split <;> simp
@[simp] theorem State.finish_quar {id : Nat} {st : Status} {ws : List Word} {n : Nat} : (s.finish id st ws n).quar = s.quar := by unfold State.finish; split <;> simp
@[simp] theorem State.finish_flue {id : Nat} {st : Status} {ws : List Word} {n : Nat} : (s.finish id st ws n).flue = s.flue := by unfold State.finish; split <;> simp
@[simp] theorem State.finish_broken {id : Nat} {st : Status} {ws : List Word} {n : Nat} : (s.finish id st ws n).broken = s.broken := by unfold State.finish; split <;> simp
@[simp] theorem State.finish_modRecs {id : Nat} {st : Status} {ws : List Word} {n : Nat} : (s.finish id st ws n).modRecs = s.modRecs := by unfold State.finish; split <;> simp
@[simp] theorem State.finish_modSeq {id : Nat} {st : Status} {ws : List Word} {n : Nat} : (s.finish id st ws n).modSeq = s.modSeq := by unfold State.finish; split <;> simp
@[simp] theorem State.finish_locked {id : Nat} {st : Status} {ws : List Word} {n : Nat} : (s.finish id st ws n).locked = s.locked := by unfold State.finish; split <;> simp
@[simp] theorem State.finish_errPulse {id : Nat} {st : Status} {ws : List Word} {n : Nat} : (s.finish id st ws n).errPulse = s.errPulse := by unfold State.finish; split <;> simp
@[simp] theorem State.finish_hearth {id : Nat} {st : Status} {ws : List Word} {n : Nat} : (s.finish id st ws n).hearth = s.hearth := by unfold State.finish; split <;> simp
@[simp] theorem State.finish_chans {id : Nat} {st : Status} {ws : List Word} {n : Nat} : (s.finish id st ws n).chans = s.chans := by unfold State.finish; split <;> simp
@[simp] theorem State.finish_hostWait {id : Nat} {st : Status} {ws : List Word} {n : Nat} : (s.finish id st ws n).hostWait = s.hostWait := by unfold State.finish; split <;> simp
@[simp] theorem State.finish_deferred {id : Nat} {st : Status} {ws : List Word} {n : Nat} : (s.finish id st ws n).deferred = s.deferred := by unfold State.finish; split <;> simp
@[simp] theorem State.finish_echoes {id : Nat} {st : Status} {ws : List Word} {n : Nat} : (s.finish id st ws n).echoes = s.echoes := by unfold State.finish; split <;> simp
@[simp] theorem State.finish_netw {id : Nat} {st : Status} {ws : List Word} {n : Nat} : (s.finish id st ws n).netw = s.netw := by unfold State.finish; split <;> simp
@[simp] theorem State.finish_clk {id : Nat} {st : Status} {ws : List Word} {n : Nat} : (s.finish id st ws n).clk = s.clk := by unfold State.finish; split <;> simp
@[simp] theorem State.finish_pwr {id : Nat} {st : Status} {ws : List Word} {n : Nat} : (s.finish id st ws n).pwr = s.pwr := by unfold State.finish; split <;> simp
@[simp] theorem State.finish_drven {id : Nat} {st : Status} {ws : List Word} {n : Nat} : (s.finish id st ws n).drven = s.drven := by unfold State.finish; split <;> simp
@[simp] theorem State.finish_drvenLowAt {id : Nat} {st : Status} {ws : List Word} {n : Nat} : (s.finish id st ws n).drvenLowAt = s.drvenLowAt := by unfold State.finish; split <;> simp
@[simp] theorem State.finish_trips {id : Nat} {st : Status} {ws : List Word} {n : Nat} : (s.finish id st ws n).trips = s.trips := by unfold State.finish; split <;> simp
@[simp] theorem State.finish_extest {id : Nat} {st : Status} {ws : List Word} {n : Nat} : (s.finish id st ws n).extest = s.extest := by unfold State.finish; split <;> simp
@[simp] theorem State.finish_tapIr {id : Nat} {st : Status} {ws : List Word} {n : Nat} : (s.finish id st ws n).tapIr = s.tapIr := by unfold State.finish; split <;> simp
@[simp] theorem State.finish_tapCells {id : Nat} {st : Status} {ws : List Word} {n : Nat} : (s.finish id st ws n).tapCells = s.tapCells := by unfold State.finish; split <;> simp
@[simp] theorem State.finish_tapOut {id : Nat} {st : Status} {ws : List Word} {n : Nat} : (s.finish id st ws n).tapOut = s.tapOut := by unfold State.finish; split <;> simp
@[simp] theorem State.finish_ingress {id : Nat} {st : Status} {ws : List Word} {n : Nat} : (s.finish id st ws n).ingress = s.ingress := by unfold State.finish; split <;> simp
@[simp] theorem State.finish_hostDummy {id : Nat} {st : Status} {ws : List Word} {n : Nat} : (s.finish id st ws n).hostDummy = s.hostDummy := by unfold State.finish; split <;> simp
@[simp] theorem State.finish_flueSince {id : Nat} {st : Status} {ws : List Word} {n : Nat} : (s.finish id st ws n).flueSince = s.flueSince := by unfold State.finish; split <;> simp
@[simp] theorem State.finish_draws {id : Nat} {st : Status} {ws : List Word} {n : Nat} : (s.finish id st ws n).draws = s.draws := by unfold State.finish; split <;> simp
@[simp] theorem State.finish_pending {id : Nat} {st : Status} {ws : List Word} {n : Nat} : (s.finish id st ws n).pending = s.pending := by unfold State.finish; split <;> simp

/-! A command ends in a refusal. -/
@[simp] theorem State.fail_tmrAt {id : Nat} {st : Status} {i r n : Nat} : (s.fail id st i r n).tmrAt = s.tmrAt := by unfold State.fail; split <;> simp
@[simp] theorem State.fail_held {id : Nat} {st : Status} {i r n : Nat} : (s.fail id st i r n).held = s.held := by unfold State.fail; split <;> simp
@[simp] theorem State.fail_net {id : Nat} {st : Status} {i r n : Nat} : (s.fail id st i r n).net = s.net := by unfold State.fail; split <;> simp
@[simp] theorem State.fail_netFrac {id : Nat} {st : Status} {i r n : Nat} : (s.fail id st i r n).netFrac = s.netFrac := by unfold State.fail; split <;> simp
@[simp] theorem State.fail_tb {id : Nat} {st : Status} {i r n : Nat} : (s.fail id st i r n).tb = s.tb := by unfold State.fail; split <;> simp
@[simp] theorem State.fail_tbFrac {id : Nat} {st : Status} {i r n : Nat} : (s.fail id st i r n).tbFrac = s.tbFrac := by unfold State.fail; split <;> simp
@[simp] theorem State.fail_axes {id : Nat} {st : Status} {i r n : Nat} : (s.fail id st i r n).axes = s.axes := by unfold State.fail; split <;> simp
@[simp] theorem State.fail_banks {id : Nat} {st : Status} {i r n : Nat} : (s.fail id st i r n).banks = s.banks := by unfold State.fail; split <;> simp
@[simp] theorem State.fail_nextId {id : Nat} {st : Status} {i r n : Nat} : (s.fail id st i r n).nextId = s.nextId := by unfold State.fail; split <;> simp
@[simp] theorem State.fail_bursts {id : Nat} {st : Status} {i r n : Nat} : (s.fail id st i r n).bursts = s.bursts := by unfold State.fail; split <;> simp
@[simp] theorem State.fail_hostOut {id : Nat} {st : Status} {i r n : Nat} : (s.fail id st i r n).hostOut = s.hostOut := by unfold State.fail; split <;> simp
@[simp] theorem State.fail_hostStatus {id : Nat} {st : Status} {i r n : Nat} : (s.fail id st i r n).hostStatus = s.hostStatus := by unfold State.fail; split <;> simp
@[simp] theorem State.fail_keyed {id : Nat} {st : Status} {i r n : Nat} : (s.fail id st i r n).keyed = s.keyed := by unfold State.fail; split <;> simp
@[simp] theorem State.fail_desc {id : Nat} {st : Status} {i r n : Nat} : (s.fail id st i r n).desc = s.desc := by unfold State.fail; split <;> simp
@[simp] theorem State.fail_mem {id : Nat} {st : Status} {i r n : Nat} : (s.fail id st i r n).mem = s.mem := by unfold State.fail; split <;> simp
@[simp] theorem State.fail_ecc {id : Nat} {st : Status} {i r n : Nat} : (s.fail id st i r n).ecc = s.ecc := by unfold State.fail; split <;> simp
@[simp] theorem State.fail_ceNoted {id : Nat} {st : Status} {i r n : Nat} : (s.fail id st i r n).ceNoted = s.ceNoted := by unfold State.fail; split <;> simp
@[simp] theorem State.fail_zeroing {id : Nat} {st : Status} {i r n : Nat} : (s.fail id st i r n).zeroing = s.zeroing := by unfold State.fail; split <;> simp
@[simp] theorem State.fail_quar {id : Nat} {st : Status} {i r n : Nat} : (s.fail id st i r n).quar = s.quar := by unfold State.fail; split <;> simp
@[simp] theorem State.fail_flue {id : Nat} {st : Status} {i r n : Nat} : (s.fail id st i r n).flue = s.flue := by unfold State.fail; split <;> simp
@[simp] theorem State.fail_broken {id : Nat} {st : Status} {i r n : Nat} : (s.fail id st i r n).broken = s.broken := by unfold State.fail; split <;> simp
@[simp] theorem State.fail_modRecs {id : Nat} {st : Status} {i r n : Nat} : (s.fail id st i r n).modRecs = s.modRecs := by unfold State.fail; split <;> simp
@[simp] theorem State.fail_modSeq {id : Nat} {st : Status} {i r n : Nat} : (s.fail id st i r n).modSeq = s.modSeq := by unfold State.fail; split <;> simp
@[simp] theorem State.fail_locked {id : Nat} {st : Status} {i r n : Nat} : (s.fail id st i r n).locked = s.locked := by unfold State.fail; split <;> simp
@[simp] theorem State.fail_errPulse {id : Nat} {st : Status} {i r n : Nat} : (s.fail id st i r n).errPulse = s.errPulse := by unfold State.fail; split <;> simp
@[simp] theorem State.fail_hearth {id : Nat} {st : Status} {i r n : Nat} : (s.fail id st i r n).hearth = s.hearth := by unfold State.fail; split <;> simp
@[simp] theorem State.fail_chans {id : Nat} {st : Status} {i r n : Nat} : (s.fail id st i r n).chans = s.chans := by unfold State.fail; split <;> simp
@[simp] theorem State.fail_hostWait {id : Nat} {st : Status} {i r n : Nat} : (s.fail id st i r n).hostWait = s.hostWait := by unfold State.fail; split <;> simp
@[simp] theorem State.fail_deferred {id : Nat} {st : Status} {i r n : Nat} : (s.fail id st i r n).deferred = s.deferred := by unfold State.fail; split <;> simp
@[simp] theorem State.fail_echoes {id : Nat} {st : Status} {i r n : Nat} : (s.fail id st i r n).echoes = s.echoes := by unfold State.fail; split <;> simp
@[simp] theorem State.fail_netw {id : Nat} {st : Status} {i r n : Nat} : (s.fail id st i r n).netw = s.netw := by unfold State.fail; split <;> simp
@[simp] theorem State.fail_clk {id : Nat} {st : Status} {i r n : Nat} : (s.fail id st i r n).clk = s.clk := by unfold State.fail; split <;> simp
@[simp] theorem State.fail_pwr {id : Nat} {st : Status} {i r n : Nat} : (s.fail id st i r n).pwr = s.pwr := by unfold State.fail; split <;> simp
@[simp] theorem State.fail_drven {id : Nat} {st : Status} {i r n : Nat} : (s.fail id st i r n).drven = s.drven := by unfold State.fail; split <;> simp
@[simp] theorem State.fail_drvenLowAt {id : Nat} {st : Status} {i r n : Nat} : (s.fail id st i r n).drvenLowAt = s.drvenLowAt := by unfold State.fail; split <;> simp
@[simp] theorem State.fail_trips {id : Nat} {st : Status} {i r n : Nat} : (s.fail id st i r n).trips = s.trips := by unfold State.fail; split <;> simp
@[simp] theorem State.fail_extest {id : Nat} {st : Status} {i r n : Nat} : (s.fail id st i r n).extest = s.extest := by unfold State.fail; split <;> simp
@[simp] theorem State.fail_tapIr {id : Nat} {st : Status} {i r n : Nat} : (s.fail id st i r n).tapIr = s.tapIr := by unfold State.fail; split <;> simp
@[simp] theorem State.fail_tapCells {id : Nat} {st : Status} {i r n : Nat} : (s.fail id st i r n).tapCells = s.tapCells := by unfold State.fail; split <;> simp
@[simp] theorem State.fail_tapOut {id : Nat} {st : Status} {i r n : Nat} : (s.fail id st i r n).tapOut = s.tapOut := by unfold State.fail; split <;> simp
@[simp] theorem State.fail_ingress {id : Nat} {st : Status} {i r n : Nat} : (s.fail id st i r n).ingress = s.ingress := by unfold State.fail; split <;> simp
@[simp] theorem State.fail_hostDummy {id : Nat} {st : Status} {i r n : Nat} : (s.fail id st i r n).hostDummy = s.hostDummy := by unfold State.fail; split <;> simp
@[simp] theorem State.fail_flueSince {id : Nat} {st : Status} {i r n : Nat} : (s.fail id st i r n).flueSince = s.flueSince := by unfold State.fail; split <;> simp
@[simp] theorem State.fail_draws {id : Nat} {st : Status} {i r n : Nat} : (s.fail id st i r n).draws = s.draws := by unfold State.fail; split <;> simp
@[simp] theorem State.fail_pending {id : Nat} {st : Status} {i r n : Nat} : (s.fail id st i r n).pending = s.pending := by unfold State.fail; split <;> simp

/-! STARTED is sent. -/
@[simp] theorem State.sendStarted_tmrAt {id : Nat} : (s.sendStarted id).tmrAt = s.tmrAt := by unfold State.sendStarted; split <;> [rfl; (split <;> simp)]
@[simp] theorem State.sendStarted_held {id : Nat} : (s.sendStarted id).held = s.held := by unfold State.sendStarted; split <;> [rfl; (split <;> simp)]
@[simp] theorem State.sendStarted_net {id : Nat} : (s.sendStarted id).net = s.net := by unfold State.sendStarted; split <;> [rfl; (split <;> simp)]
@[simp] theorem State.sendStarted_netFrac {id : Nat} : (s.sendStarted id).netFrac = s.netFrac := by unfold State.sendStarted; split <;> [rfl; (split <;> simp)]
@[simp] theorem State.sendStarted_tb {id : Nat} : (s.sendStarted id).tb = s.tb := by unfold State.sendStarted; split <;> [rfl; (split <;> simp)]
@[simp] theorem State.sendStarted_tbFrac {id : Nat} : (s.sendStarted id).tbFrac = s.tbFrac := by unfold State.sendStarted; split <;> [rfl; (split <;> simp)]
@[simp] theorem State.sendStarted_axes {id : Nat} : (s.sendStarted id).axes = s.axes := by unfold State.sendStarted; split <;> [rfl; (split <;> simp)]
@[simp] theorem State.sendStarted_banks {id : Nat} : (s.sendStarted id).banks = s.banks := by unfold State.sendStarted; split <;> [rfl; (split <;> simp)]
@[simp] theorem State.sendStarted_tags {id : Nat} : (s.sendStarted id).tags = s.tags := by unfold State.sendStarted; split <;> [rfl; (split <;> simp)]
@[simp] theorem State.sendStarted_nextId {id : Nat} : (s.sendStarted id).nextId = s.nextId := by unfold State.sendStarted; split <;> [rfl; (split <;> simp)]
@[simp] theorem State.sendStarted_bursts {id : Nat} : (s.sendStarted id).bursts = s.bursts := by unfold State.sendStarted; split <;> [rfl; (split <;> simp)]
@[simp] theorem State.sendStarted_hostOut {id : Nat} : (s.sendStarted id).hostOut = s.hostOut := by unfold State.sendStarted; split <;> [rfl; (split <;> simp)]
@[simp] theorem State.sendStarted_hostStatus {id : Nat} : (s.sendStarted id).hostStatus = s.hostStatus := by unfold State.sendStarted; split <;> [rfl; (split <;> simp)]
@[simp] theorem State.sendStarted_keyed {id : Nat} : (s.sendStarted id).keyed = s.keyed := by unfold State.sendStarted; split <;> [rfl; (split <;> simp)]
@[simp] theorem State.sendStarted_desc {id : Nat} : (s.sendStarted id).desc = s.desc := by unfold State.sendStarted; split <;> [rfl; (split <;> simp)]
@[simp] theorem State.sendStarted_mem {id : Nat} : (s.sendStarted id).mem = s.mem := by unfold State.sendStarted; split <;> [rfl; (split <;> simp)]
@[simp] theorem State.sendStarted_ecc {id : Nat} : (s.sendStarted id).ecc = s.ecc := by unfold State.sendStarted; split <;> [rfl; (split <;> simp)]
@[simp] theorem State.sendStarted_ceNoted {id : Nat} : (s.sendStarted id).ceNoted = s.ceNoted := by unfold State.sendStarted; split <;> [rfl; (split <;> simp)]
@[simp] theorem State.sendStarted_zeroing {id : Nat} : (s.sendStarted id).zeroing = s.zeroing := by unfold State.sendStarted; split <;> [rfl; (split <;> simp)]
@[simp] theorem State.sendStarted_quar {id : Nat} : (s.sendStarted id).quar = s.quar := by unfold State.sendStarted; split <;> [rfl; (split <;> simp)]
@[simp] theorem State.sendStarted_flue {id : Nat} : (s.sendStarted id).flue = s.flue := by unfold State.sendStarted; split <;> [rfl; (split <;> simp)]
@[simp] theorem State.sendStarted_broken {id : Nat} : (s.sendStarted id).broken = s.broken := by unfold State.sendStarted; split <;> [rfl; (split <;> simp)]
@[simp] theorem State.sendStarted_modRecs {id : Nat} : (s.sendStarted id).modRecs = s.modRecs := by unfold State.sendStarted; split <;> [rfl; (split <;> simp)]
@[simp] theorem State.sendStarted_modSeq {id : Nat} : (s.sendStarted id).modSeq = s.modSeq := by unfold State.sendStarted; split <;> [rfl; (split <;> simp)]
@[simp] theorem State.sendStarted_locked {id : Nat} : (s.sendStarted id).locked = s.locked := by unfold State.sendStarted; split <;> [rfl; (split <;> simp)]
@[simp] theorem State.sendStarted_errPulse {id : Nat} : (s.sendStarted id).errPulse = s.errPulse := by unfold State.sendStarted; split <;> [rfl; (split <;> simp)]
@[simp] theorem State.sendStarted_hearth {id : Nat} : (s.sendStarted id).hearth = s.hearth := by unfold State.sendStarted; split <;> [rfl; (split <;> simp)]
@[simp] theorem State.sendStarted_chans {id : Nat} : (s.sendStarted id).chans = s.chans := by unfold State.sendStarted; split <;> [rfl; (split <;> simp)]
@[simp] theorem State.sendStarted_hostWait {id : Nat} : (s.sendStarted id).hostWait = s.hostWait := by unfold State.sendStarted; split <;> [rfl; (split <;> simp)]
@[simp] theorem State.sendStarted_deferred {id : Nat} : (s.sendStarted id).deferred = s.deferred := by unfold State.sendStarted; split <;> [rfl; (split <;> simp)]
@[simp] theorem State.sendStarted_echoes {id : Nat} : (s.sendStarted id).echoes = s.echoes := by unfold State.sendStarted; split <;> [rfl; (split <;> simp)]
@[simp] theorem State.sendStarted_netw {id : Nat} : (s.sendStarted id).netw = s.netw := by unfold State.sendStarted; split <;> [rfl; (split <;> simp)]
@[simp] theorem State.sendStarted_clk {id : Nat} : (s.sendStarted id).clk = s.clk := by unfold State.sendStarted; split <;> [rfl; (split <;> simp)]
@[simp] theorem State.sendStarted_pwr {id : Nat} : (s.sendStarted id).pwr = s.pwr := by unfold State.sendStarted; split <;> [rfl; (split <;> simp)]
@[simp] theorem State.sendStarted_drven {id : Nat} : (s.sendStarted id).drven = s.drven := by unfold State.sendStarted; split <;> [rfl; (split <;> simp)]
@[simp] theorem State.sendStarted_drvenLowAt {id : Nat} : (s.sendStarted id).drvenLowAt = s.drvenLowAt := by unfold State.sendStarted; split <;> [rfl; (split <;> simp)]
@[simp] theorem State.sendStarted_trips {id : Nat} : (s.sendStarted id).trips = s.trips := by unfold State.sendStarted; split <;> [rfl; (split <;> simp)]
@[simp] theorem State.sendStarted_extest {id : Nat} : (s.sendStarted id).extest = s.extest := by unfold State.sendStarted; split <;> [rfl; (split <;> simp)]
@[simp] theorem State.sendStarted_tapIr {id : Nat} : (s.sendStarted id).tapIr = s.tapIr := by unfold State.sendStarted; split <;> [rfl; (split <;> simp)]
@[simp] theorem State.sendStarted_tapCells {id : Nat} : (s.sendStarted id).tapCells = s.tapCells := by unfold State.sendStarted; split <;> [rfl; (split <;> simp)]
@[simp] theorem State.sendStarted_tapOut {id : Nat} : (s.sendStarted id).tapOut = s.tapOut := by unfold State.sendStarted; split <;> [rfl; (split <;> simp)]
@[simp] theorem State.sendStarted_ingress {id : Nat} : (s.sendStarted id).ingress = s.ingress := by unfold State.sendStarted; split <;> [rfl; (split <;> simp)]
@[simp] theorem State.sendStarted_hostDummy {id : Nat} : (s.sendStarted id).hostDummy = s.hostDummy := by unfold State.sendStarted; split <;> [rfl; (split <;> simp)]
@[simp] theorem State.sendStarted_flueSince {id : Nat} : (s.sendStarted id).flueSince = s.flueSince := by unfold State.sendStarted; split <;> [rfl; (split <;> simp)]
@[simp] theorem State.sendStarted_draws {id : Nat} : (s.sendStarted id).draws = s.draws := by unfold State.sendStarted; split <;> [rfl; (split <;> simp)]
@[simp] theorem State.sendStarted_pending {id : Nat} : (s.sendStarted id).pending = s.pending := by unfold State.sendStarted; split <;> [rfl; (split <;> simp)]

/-! A cause is put on the Flue. -/
@[simp] theorem State.raiseItem_tmrAt {it : FaultItem} : (s.raiseItem it).tmrAt = s.tmrAt := by simp [State.raiseItem]
@[simp] theorem State.raiseItem_held {it : FaultItem} : (s.raiseItem it).held = s.held := by simp [State.raiseItem]
@[simp] theorem State.raiseItem_net {it : FaultItem} : (s.raiseItem it).net = s.net := by simp [State.raiseItem]
@[simp] theorem State.raiseItem_netFrac {it : FaultItem} : (s.raiseItem it).netFrac = s.netFrac := by simp [State.raiseItem]
@[simp] theorem State.raiseItem_tb {it : FaultItem} : (s.raiseItem it).tb = s.tb := by simp [State.raiseItem]
@[simp] theorem State.raiseItem_tbFrac {it : FaultItem} : (s.raiseItem it).tbFrac = s.tbFrac := by simp [State.raiseItem]
@[simp] theorem State.raiseItem_axes {it : FaultItem} : (s.raiseItem it).axes = s.axes := by simp [State.raiseItem]
@[simp] theorem State.raiseItem_banks {it : FaultItem} : (s.raiseItem it).banks = s.banks := by simp [State.raiseItem]
@[simp] theorem State.raiseItem_tags {it : FaultItem} : (s.raiseItem it).tags = s.tags := by simp [State.raiseItem]
@[simp] theorem State.raiseItem_nextId {it : FaultItem} : (s.raiseItem it).nextId = s.nextId := by simp [State.raiseItem]
@[simp] theorem State.raiseItem_bursts {it : FaultItem} : (s.raiseItem it).bursts = s.bursts := by simp [State.raiseItem]
@[simp] theorem State.raiseItem_replies {it : FaultItem} : (s.raiseItem it).replies = s.replies := by simp [State.raiseItem]
@[simp] theorem State.raiseItem_hostOut {it : FaultItem} : (s.raiseItem it).hostOut = s.hostOut := by simp [State.raiseItem]
@[simp] theorem State.raiseItem_hostStatus {it : FaultItem} : (s.raiseItem it).hostStatus = s.hostStatus := by simp [State.raiseItem]
@[simp] theorem State.raiseItem_creditBonus {it : FaultItem} : (s.raiseItem it).creditBonus = s.creditBonus := by simp [State.raiseItem]
@[simp] theorem State.raiseItem_creditHold {it : FaultItem} : (s.raiseItem it).creditHold = s.creditHold := by simp [State.raiseItem]
@[simp] theorem State.raiseItem_keyed {it : FaultItem} : (s.raiseItem it).keyed = s.keyed := by simp [State.raiseItem]
@[simp] theorem State.raiseItem_desc {it : FaultItem} : (s.raiseItem it).desc = s.desc := by simp [State.raiseItem]
@[simp] theorem State.raiseItem_mem {it : FaultItem} : (s.raiseItem it).mem = s.mem := by simp [State.raiseItem]
@[simp] theorem State.raiseItem_ecc {it : FaultItem} : (s.raiseItem it).ecc = s.ecc := by simp [State.raiseItem]
@[simp] theorem State.raiseItem_ceNoted {it : FaultItem} : (s.raiseItem it).ceNoted = s.ceNoted := by simp [State.raiseItem]
@[simp] theorem State.raiseItem_zeroing {it : FaultItem} : (s.raiseItem it).zeroing = s.zeroing := by simp [State.raiseItem]
@[simp] theorem State.raiseItem_quar {it : FaultItem} : (s.raiseItem it).quar = s.quar := by simp [State.raiseItem]
@[simp] theorem State.raiseItem_broken {it : FaultItem} : (s.raiseItem it).broken = s.broken := by simp [State.raiseItem]
@[simp] theorem State.raiseItem_modRecs {it : FaultItem} : (s.raiseItem it).modRecs = s.modRecs := by simp [State.raiseItem]
@[simp] theorem State.raiseItem_modSeq {it : FaultItem} : (s.raiseItem it).modSeq = s.modSeq := by simp [State.raiseItem]
@[simp] theorem State.raiseItem_locked {it : FaultItem} : (s.raiseItem it).locked = s.locked := by simp [State.raiseItem]
@[simp] theorem State.raiseItem_errPulse {it : FaultItem} : (s.raiseItem it).errPulse = s.errPulse := by simp [State.raiseItem]
@[simp] theorem State.raiseItem_hearth {it : FaultItem} : (s.raiseItem it).hearth = s.hearth := by simp [State.raiseItem]
@[simp] theorem State.raiseItem_chans {it : FaultItem} : (s.raiseItem it).chans = s.chans := by simp [State.raiseItem]
@[simp] theorem State.raiseItem_hostWait {it : FaultItem} : (s.raiseItem it).hostWait = s.hostWait := by simp [State.raiseItem]
@[simp] theorem State.raiseItem_deferred {it : FaultItem} : (s.raiseItem it).deferred = s.deferred := by simp [State.raiseItem]
@[simp] theorem State.raiseItem_echoes {it : FaultItem} : (s.raiseItem it).echoes = s.echoes := by simp [State.raiseItem]
@[simp] theorem State.raiseItem_netw {it : FaultItem} : (s.raiseItem it).netw = s.netw := by simp [State.raiseItem]
@[simp] theorem State.raiseItem_clk {it : FaultItem} : (s.raiseItem it).clk = s.clk := by simp [State.raiseItem]
@[simp] theorem State.raiseItem_pwr {it : FaultItem} : (s.raiseItem it).pwr = s.pwr := by simp [State.raiseItem]
@[simp] theorem State.raiseItem_drven {it : FaultItem} : (s.raiseItem it).drven = s.drven := by simp [State.raiseItem]
@[simp] theorem State.raiseItem_drvenLowAt {it : FaultItem} : (s.raiseItem it).drvenLowAt = s.drvenLowAt := by simp [State.raiseItem]
@[simp] theorem State.raiseItem_trips {it : FaultItem} : (s.raiseItem it).trips = s.trips := by simp [State.raiseItem]
@[simp] theorem State.raiseItem_extest {it : FaultItem} : (s.raiseItem it).extest = s.extest := by simp [State.raiseItem]
@[simp] theorem State.raiseItem_tapIr {it : FaultItem} : (s.raiseItem it).tapIr = s.tapIr := by simp [State.raiseItem]
@[simp] theorem State.raiseItem_tapCells {it : FaultItem} : (s.raiseItem it).tapCells = s.tapCells := by simp [State.raiseItem]
@[simp] theorem State.raiseItem_tapOut {it : FaultItem} : (s.raiseItem it).tapOut = s.tapOut := by simp [State.raiseItem]
@[simp] theorem State.raiseItem_ingress {it : FaultItem} : (s.raiseItem it).ingress = s.ingress := by simp [State.raiseItem]
@[simp] theorem State.raiseItem_hostDummy {it : FaultItem} : (s.raiseItem it).hostDummy = s.hostDummy := by simp [State.raiseItem]
@[simp] theorem State.raiseItem_draws {it : FaultItem} : (s.raiseItem it).draws = s.draws := by simp [State.raiseItem]
@[simp] theorem State.raiseItem_pending {it : FaultItem} : (s.raiseItem it).pending = s.pending := by simp [State.raiseItem]

/-! Time passes. -/
@[simp] theorem State.pass_regs {n : Nat} : (s.pass n).regs = s.regs := by unfold State.pass; split <;> [rfl; (split <;> rfl)]
@[simp] theorem State.pass_tmrB {n : Nat} : (s.pass n).tmrB = s.tmrB := by unfold State.pass; split <;> [rfl; (split <;> rfl)]
@[simp] theorem State.pass_tmrC {n : Nat} : (s.pass n).tmrC = s.tmrC := by unfold State.pass; split <;> [rfl; (split <;> rfl)]
@[simp] theorem State.pass_tmrAt {n : Nat} : (s.pass n).tmrAt = s.tmrAt := by unfold State.pass; split <;> [rfl; (split <;> rfl)]
@[simp] theorem State.pass_held {n : Nat} : (s.pass n).held = s.held := by unfold State.pass; split <;> [rfl; (split <;> rfl)]
@[simp] theorem State.pass_axes {n : Nat} : (s.pass n).axes = s.axes := by unfold State.pass; split <;> [rfl; (split <;> rfl)]
@[simp] theorem State.pass_banks {n : Nat} : (s.pass n).banks = s.banks := by unfold State.pass; split <;> [rfl; (split <;> rfl)]
@[simp] theorem State.pass_tags {n : Nat} : (s.pass n).tags = s.tags := by unfold State.pass; split <;> [rfl; (split <;> rfl)]
@[simp] theorem State.pass_nextId {n : Nat} : (s.pass n).nextId = s.nextId := by unfold State.pass; split <;> [rfl; (split <;> rfl)]
@[simp] theorem State.pass_bursts {n : Nat} : (s.pass n).bursts = s.bursts := by unfold State.pass; split <;> [rfl; (split <;> rfl)]
@[simp] theorem State.pass_replies {n : Nat} : (s.pass n).replies = s.replies := by unfold State.pass; split <;> [rfl; (split <;> rfl)]
@[simp] theorem State.pass_hostOut {n : Nat} : (s.pass n).hostOut = s.hostOut := by unfold State.pass; split <;> [rfl; (split <;> rfl)]
@[simp] theorem State.pass_hostStatus {n : Nat} : (s.pass n).hostStatus = s.hostStatus := by unfold State.pass; split <;> [rfl; (split <;> rfl)]
@[simp] theorem State.pass_creditBonus {n : Nat} : (s.pass n).creditBonus = s.creditBonus := by unfold State.pass; split <;> [rfl; (split <;> rfl)]
@[simp] theorem State.pass_creditHold {n : Nat} : (s.pass n).creditHold = s.creditHold := by unfold State.pass; split <;> [rfl; (split <;> rfl)]
@[simp] theorem State.pass_keyed {n : Nat} : (s.pass n).keyed = s.keyed := by unfold State.pass; split <;> [rfl; (split <;> rfl)]
@[simp] theorem State.pass_desc {n : Nat} : (s.pass n).desc = s.desc := by unfold State.pass; split <;> [rfl; (split <;> rfl)]
@[simp] theorem State.pass_mem {n : Nat} : (s.pass n).mem = s.mem := by unfold State.pass; split <;> [rfl; (split <;> rfl)]
@[simp] theorem State.pass_ecc {n : Nat} : (s.pass n).ecc = s.ecc := by unfold State.pass; split <;> [rfl; (split <;> rfl)]
@[simp] theorem State.pass_ceNoted {n : Nat} : (s.pass n).ceNoted = s.ceNoted := by unfold State.pass; split <;> [rfl; (split <;> rfl)]
@[simp] theorem State.pass_zeroing {n : Nat} : (s.pass n).zeroing = s.zeroing := by unfold State.pass; split <;> [rfl; (split <;> rfl)]
@[simp] theorem State.pass_quar {n : Nat} : (s.pass n).quar = s.quar := by unfold State.pass; split <;> [rfl; (split <;> rfl)]
@[simp] theorem State.pass_rings {n : Nat} : (s.pass n).rings = s.rings := by unfold State.pass; split <;> [rfl; (split <;> rfl)]
@[simp] theorem State.pass_flue {n : Nat} : (s.pass n).flue = s.flue := by unfold State.pass; split <;> [rfl; (split <;> rfl)]
@[simp] theorem State.pass_broken {n : Nat} : (s.pass n).broken = s.broken := by unfold State.pass; split <;> [rfl; (split <;> rfl)]
@[simp] theorem State.pass_modRecs {n : Nat} : (s.pass n).modRecs = s.modRecs := by unfold State.pass; split <;> [rfl; (split <;> rfl)]
@[simp] theorem State.pass_modSeq {n : Nat} : (s.pass n).modSeq = s.modSeq := by unfold State.pass; split <;> [rfl; (split <;> rfl)]
@[simp] theorem State.pass_locked {n : Nat} : (s.pass n).locked = s.locked := by unfold State.pass; split <;> [rfl; (split <;> rfl)]
@[simp] theorem State.pass_errPulse {n : Nat} : (s.pass n).errPulse = s.errPulse := by unfold State.pass; split <;> [rfl; (split <;> rfl)]
@[simp] theorem State.pass_hearth {n : Nat} : (s.pass n).hearth = s.hearth := by unfold State.pass; split <;> [rfl; (split <;> rfl)]
@[simp] theorem State.pass_chans {n : Nat} : (s.pass n).chans = s.chans := by unfold State.pass; split <;> [rfl; (split <;> rfl)]
@[simp] theorem State.pass_hostWait {n : Nat} : (s.pass n).hostWait = s.hostWait := by unfold State.pass; split <;> [rfl; (split <;> rfl)]
@[simp] theorem State.pass_deferred {n : Nat} : (s.pass n).deferred = s.deferred := by unfold State.pass; split <;> [rfl; (split <;> rfl)]
@[simp] theorem State.pass_echoes {n : Nat} : (s.pass n).echoes = s.echoes := by unfold State.pass; split <;> [rfl; (split <;> rfl)]
@[simp] theorem State.pass_clk {n : Nat} : (s.pass n).clk = s.clk := by unfold State.pass; split <;> [rfl; (split <;> rfl)]
@[simp] theorem State.pass_pwr {n : Nat} : (s.pass n).pwr = s.pwr := by unfold State.pass; split <;> [rfl; (split <;> rfl)]
@[simp] theorem State.pass_drven {n : Nat} : (s.pass n).drven = s.drven := by unfold State.pass; split <;> [rfl; (split <;> rfl)]
@[simp] theorem State.pass_drvenLowAt {n : Nat} : (s.pass n).drvenLowAt = s.drvenLowAt := by unfold State.pass; split <;> [rfl; (split <;> rfl)]
@[simp] theorem State.pass_trips {n : Nat} : (s.pass n).trips = s.trips := by unfold State.pass; split <;> [rfl; (split <;> rfl)]
@[simp] theorem State.pass_extest {n : Nat} : (s.pass n).extest = s.extest := by unfold State.pass; split <;> [rfl; (split <;> rfl)]
@[simp] theorem State.pass_tapIr {n : Nat} : (s.pass n).tapIr = s.tapIr := by unfold State.pass; split <;> [rfl; (split <;> rfl)]
@[simp] theorem State.pass_tapCells {n : Nat} : (s.pass n).tapCells = s.tapCells := by unfold State.pass; split <;> [rfl; (split <;> rfl)]
@[simp] theorem State.pass_tapOut {n : Nat} : (s.pass n).tapOut = s.tapOut := by unfold State.pass; split <;> [rfl; (split <;> rfl)]
@[simp] theorem State.pass_ingress {n : Nat} : (s.pass n).ingress = s.ingress := by unfold State.pass; split <;> [rfl; (split <;> rfl)]
@[simp] theorem State.pass_hostDummy {n : Nat} : (s.pass n).hostDummy = s.hostDummy := by unfold State.pass; split <;> [rfl; (split <;> rfl)]
@[simp] theorem State.pass_window {n : Nat} : (s.pass n).window = s.window := by unfold State.pass; split <;> [rfl; (split <;> rfl)]
@[simp] theorem State.pass_flueSince {n : Nat} : (s.pass n).flueSince = s.flueSince := by unfold State.pass; split <;> [rfl; (split <;> rfl)]
@[simp] theorem State.pass_draws {n : Nat} : (s.pass n).draws = s.draws := by unfold State.pass; split <;> [rfl; (split <;> rfl)]
@[simp] theorem State.pass_pending {n : Nat} : (s.pass n).pending = s.pending := by unfold State.pass; split <;> [rfl; (split <;> rfl)]

/-! Time passes before a command. -/
@[simp] theorem State.advance_regs {n : Nat} : (s.advance n).regs = s.regs := by simp [State.advance]
@[simp] theorem State.advance_tmrB {n : Nat} : (s.advance n).tmrB = s.tmrB := by simp [State.advance]
@[simp] theorem State.advance_tmrC {n : Nat} : (s.advance n).tmrC = s.tmrC := by simp [State.advance]
@[simp] theorem State.advance_tmrAt {n : Nat} : (s.advance n).tmrAt = s.tmrAt := by simp [State.advance]
@[simp] theorem State.advance_held {n : Nat} : (s.advance n).held = s.held := by simp [State.advance]
@[simp] theorem State.advance_axes {n : Nat} : (s.advance n).axes = s.axes := by simp [State.advance]
@[simp] theorem State.advance_banks {n : Nat} : (s.advance n).banks = s.banks := by simp [State.advance]
@[simp] theorem State.advance_tags {n : Nat} : (s.advance n).tags = s.tags := by simp [State.advance]
@[simp] theorem State.advance_nextId {n : Nat} : (s.advance n).nextId = s.nextId := by simp [State.advance]
@[simp] theorem State.advance_bursts {n : Nat} : (s.advance n).bursts = s.bursts := by simp [State.advance]
@[simp] theorem State.advance_replies {n : Nat} : (s.advance n).replies = s.replies := by simp [State.advance]
@[simp] theorem State.advance_creditBonus {n : Nat} : (s.advance n).creditBonus = s.creditBonus := by simp [State.advance]
@[simp] theorem State.advance_creditHold {n : Nat} : (s.advance n).creditHold = s.creditHold := by simp [State.advance]
@[simp] theorem State.advance_keyed {n : Nat} : (s.advance n).keyed = s.keyed := by simp [State.advance]
@[simp] theorem State.advance_desc {n : Nat} : (s.advance n).desc = s.desc := by simp [State.advance]
@[simp] theorem State.advance_mem {n : Nat} : (s.advance n).mem = s.mem := by simp [State.advance]
@[simp] theorem State.advance_ecc {n : Nat} : (s.advance n).ecc = s.ecc := by simp [State.advance]
@[simp] theorem State.advance_ceNoted {n : Nat} : (s.advance n).ceNoted = s.ceNoted := by simp [State.advance]
@[simp] theorem State.advance_zeroing {n : Nat} : (s.advance n).zeroing = s.zeroing := by simp [State.advance]
@[simp] theorem State.advance_quar {n : Nat} : (s.advance n).quar = s.quar := by simp [State.advance]
@[simp] theorem State.advance_rings {n : Nat} : (s.advance n).rings = s.rings := by simp [State.advance]
@[simp] theorem State.advance_flue {n : Nat} : (s.advance n).flue = s.flue := by simp [State.advance]
@[simp] theorem State.advance_broken {n : Nat} : (s.advance n).broken = s.broken := by simp [State.advance]
@[simp] theorem State.advance_modRecs {n : Nat} : (s.advance n).modRecs = s.modRecs := by simp [State.advance]
@[simp] theorem State.advance_modSeq {n : Nat} : (s.advance n).modSeq = s.modSeq := by simp [State.advance]
@[simp] theorem State.advance_locked {n : Nat} : (s.advance n).locked = s.locked := by simp [State.advance]
@[simp] theorem State.advance_errPulse {n : Nat} : (s.advance n).errPulse = s.errPulse := by simp [State.advance]
@[simp] theorem State.advance_hearth {n : Nat} : (s.advance n).hearth = s.hearth := by simp [State.advance]
@[simp] theorem State.advance_chans {n : Nat} : (s.advance n).chans = s.chans := by simp [State.advance]
@[simp] theorem State.advance_hostWait {n : Nat} : (s.advance n).hostWait = s.hostWait := by simp [State.advance]
@[simp] theorem State.advance_deferred {n : Nat} : (s.advance n).deferred = s.deferred := by simp [State.advance]
@[simp] theorem State.advance_echoes {n : Nat} : (s.advance n).echoes = s.echoes := by simp [State.advance]
@[simp] theorem State.advance_clk {n : Nat} : (s.advance n).clk = s.clk := by simp [State.advance]
@[simp] theorem State.advance_pwr {n : Nat} : (s.advance n).pwr = s.pwr := by simp [State.advance]
@[simp] theorem State.advance_drven {n : Nat} : (s.advance n).drven = s.drven := by simp [State.advance]
@[simp] theorem State.advance_drvenLowAt {n : Nat} : (s.advance n).drvenLowAt = s.drvenLowAt := by simp [State.advance]
@[simp] theorem State.advance_trips {n : Nat} : (s.advance n).trips = s.trips := by simp [State.advance]
@[simp] theorem State.advance_extest {n : Nat} : (s.advance n).extest = s.extest := by simp [State.advance]
@[simp] theorem State.advance_tapIr {n : Nat} : (s.advance n).tapIr = s.tapIr := by simp [State.advance]
@[simp] theorem State.advance_tapCells {n : Nat} : (s.advance n).tapCells = s.tapCells := by simp [State.advance]
@[simp] theorem State.advance_tapOut {n : Nat} : (s.advance n).tapOut = s.tapOut := by simp [State.advance]
@[simp] theorem State.advance_ingress {n : Nat} : (s.advance n).ingress = s.ingress := by simp [State.advance]
@[simp] theorem State.advance_window {n : Nat} : (s.advance n).window = s.window := by simp [State.advance]
@[simp] theorem State.advance_flueSince {n : Nat} : (s.advance n).flueSince = s.flueSince := by simp [State.advance]
@[simp] theorem State.advance_draws {n : Nat} : (s.advance n).draws = s.draws := by simp [State.advance]
@[simp] theorem State.advance_pending {n : Nat} : (s.advance n).pending = s.pending := by simp [State.advance]

end Sys2Proof.Machine
end

