-- ==== Sys2Proof/Laws/Store.lean ====
section
/-! SUPPORT. The laws of sparse contents: a read after a write, and that every operation keeps the canonical form. -/

namespace Sys2Proof.Machine

variable {β : Type} {d : Nat → β}

theorem storeGet_put (m : Store β) (k : Nat) (v : β) (j : Nat) :
    storeGet d (storePut m k v) j = if j = k then v else storeGet d m j := by
  induction m with
  | nil => simp [storePut, storeGet]
  | cons c m ih =>
    obtain ⟨k', v'⟩ := c
    simp only [storePut]
    split
    · simp only [storeGet]
    · split
      · subst_vars; simp only [storeGet]; split <;> rfl
      · simp only [storeGet, ih]; split <;> split <;> simp_all

theorem storeGet_del_ne (m : Store β) (k j : Nat) (h : j ≠ k) : storeGet d (storeDel m k) j = storeGet d m j := by
  induction m with
  | nil => rfl
  | cons c m ih =>
    obtain ⟨k', v'⟩ := c
    simp only [storeDel]
    split
    · subst_vars; simp [storeGet, h]
    · simp only [storeGet, ih]

variable [DecidableEq β]

theorem storeWfFrom_mono {lo lo' : Nat} {m : Store β} (h : storeWfFrom d lo m = true) (hl : lo' ≤ lo) :
    storeWfFrom d lo' m = true := by
  cases m with
  | nil => rfl
  | cons c m =>
    simp only [storeWfFrom, Bool.and_eq_true, decide_eq_true_eq] at *
    exact ⟨⟨by omega, h.1.2⟩, h.2⟩

theorem storeGet_lt {lo : Nat} {m : Store β} (h : storeWfFrom d lo m = true) {k : Nat} (hk : k < lo) :
    storeGet d m k = d k := by
  induction m generalizing lo with
  | nil => rfl
  | cons c m ih =>
    simp only [storeWfFrom, Bool.and_eq_true, decide_eq_true_eq] at h
    simp only [storeGet]
    rw [if_neg (by omega)]
    exact ih h.2 (by omega)

theorem storeGet_del {lo : Nat} {m : Store β} (h : storeWfFrom d lo m = true) (k j : Nat) :
    storeGet d (storeDel m k) j = if j = k then d k else storeGet d m j := by
  induction m generalizing lo with
  | nil => simp only [storeDel, storeGet]; split <;> simp_all
  | cons c m ih =>
    obtain ⟨k', v'⟩ := c
    simp only [storeWfFrom, Bool.and_eq_true, decide_eq_true_eq] at h
    simp only [storeDel]
    split
    · subst_vars
      simp only [storeGet]
      split
      · subst_vars; exact storeGet_lt h.2 (by omega)
      · rfl
    · simp only [storeGet, ih h.2]
      split <;> split <;> simp_all

/-- Every other key reads as before a write, whatever the form. -/
theorem storeGet_set_ne (m : Store β) (k : Nat) (v : β) (j : Nat) (h : j ≠ k) :
    storeGet d (storeSet d m k v) j = storeGet d m j := by
  simp only [storeSet]
  split
  · exact storeGet_del_ne m k j h
  · simp [storeGet_put, h]

/-- A read after a write: the written key reads as written, every other key as before. -/
theorem storeGet_set {m : Store β} (h : storeWf d m = true) (k : Nat) (v : β) (j : Nat) :
    storeGet d (storeSet d m k v) j = if j = k then v else storeGet d m j := by
  simp only [storeSet]
  split
  · subst_vars; exact storeGet_del h k j
  · exact storeGet_put m k v j

theorem storeDel_wf {lo : Nat} {m : Store β} (h : storeWfFrom d lo m = true) (k : Nat) :
    storeWfFrom d lo (storeDel m k) = true := by
  induction m generalizing lo with
  | nil => rfl
  | cons c m ih =>
    obtain ⟨k', v'⟩ := c
    simp only [storeWfFrom, Bool.and_eq_true, decide_eq_true_eq] at h
    simp only [storeDel]
    split
    · exact storeWfFrom_mono h.2 (by omega)
    · simp only [storeWfFrom, Bool.and_eq_true, decide_eq_true_eq]; exact ⟨h.1, ih h.2⟩

theorem storePut_wf {lo : Nat} {m : Store β} (h : storeWfFrom d lo m = true) {k : Nat} {v : β} (hk : lo ≤ k)
    (hv : v ≠ d k) : storeWfFrom d lo (storePut m k v) = true := by
  induction m generalizing lo with
  | nil => simp [storePut, storeWfFrom, hk, hv]
  | cons c m ih =>
    obtain ⟨k', v'⟩ := c
    simp only [storeWfFrom, Bool.and_eq_true, decide_eq_true_eq] at h
    simp only [storePut]
    split
    · simp only [storeWfFrom, Bool.and_eq_true, decide_eq_true_eq]
      exact ⟨⟨hk, hv⟩, ⟨by omega, h.1.2⟩, h.2⟩
    · split
      · subst_vars
        simp only [storeWfFrom, Bool.and_eq_true, decide_eq_true_eq]; exact ⟨⟨h.1.1, hv⟩, h.2⟩
      · simp only [storeWfFrom, Bool.and_eq_true, decide_eq_true_eq]
        exact ⟨h.1, ih h.2 (by omega)⟩

/-- A write keeps the canonical form. -/
theorem storeSet_wf {m : Store β} (h : storeWf d m = true) (k : Nat) (v : β) : storeWf d (storeSet d m k v) = true := by
  simp only [storeSet]
  split
  · exact storeDel_wf h k
  · exact storePut_wf h (Nat.zero_le _) ‹_›

/-- Dropping entries keeps the canonical form. -/
theorem storeFilter_wf {lo : Nat} {m : Store β} (h : storeWfFrom d lo m = true) (p : Nat × β → Bool) :
    storeWfFrom d lo (m.filter p) = true := by
  induction m generalizing lo with
  | nil => rfl
  | cons c m ih =>
    simp only [storeWfFrom, Bool.and_eq_true, decide_eq_true_eq] at h
    simp only [List.filter_cons]
    split
    · simp only [storeWfFrom, Bool.and_eq_true, decide_eq_true_eq]; exact ⟨h.1, ih h.2⟩
    · exact ih (storeWfFrom_mono h.2 (by omega))

/-- Changing each value keeps the canonical form, if none becomes what an unlisted key reads as. -/
theorem storeMap_wf {f : β → β} (hf : ∀ k v, v ≠ d k → f v ≠ d k) {lo : Nat} {m : Store β}
    (h : storeWfFrom d lo m = true) : storeWfFrom d lo (m.map fun c => (c.1, f c.2)) = true := by
  induction m generalizing lo with
  | nil => rfl
  | cons c m ih =>
    simp only [storeWfFrom, Bool.and_eq_true, decide_eq_true_eq] at h
    simp only [List.map_cons, storeWfFrom, Bool.and_eq_true, decide_eq_true_eq]
    exact ⟨⟨h.1.1, hf _ _ h.1.2⟩, ih h.2⟩

end Sys2Proof.Machine
end

