-- ==== Sys2Proof/Laws/Reads.lean ====
section
/-! SUPPORT. What reads give after writes: registers and their fields, axes, banks, descriptors and bytes. -/

namespace Sys2Proof

theorem Word.getLsbD_put (x : Word) (lo w v i : Nat) (h : i < 32) :
    (x.put lo w v).getLsbD i = if lo ≤ i ∧ i < lo + w then v.testBit (i - lo) else x.getLsbD i := by
  simp only [Word.put, BitVec.getLsbD_or, BitVec.getLsbD_and, BitVec.getLsbD_not, BitVec.getLsbD_ofNat,
    Nat.testBit_mul_two_pow, Nat.testBit_mod_two_pow, Nat.testBit_two_pow_sub_one, h, decide_true, Bool.true_and]
  by_cases h1 : lo ≤ i
  · by_cases h2 : i < lo + w
    · simp [h1, h2, (by omega : i - lo < w)]
    · have h3 : decide (i - lo < w) = false := decide_eq_false (by omega)
      simp [h1, h2, h3]
  · simp [h1]

theorem Word.testBit_fld (x : Word) (lo w i : Nat) : (x.fld lo w).testBit i = (decide (i < w) && x.getLsbD (lo + i)) := by
  simp [Word.fld, Nat.testBit_mod_two_pow, Nat.testBit_div_two_pow, BitVec.getLsbD, Nat.add_comm]

/-- A field that has been put reads as the number put, modulo its width. -/
theorem Word.fld_put (x : Word) (lo w v : Nat) (h : lo + w ≤ 32) : (x.put lo w v).fld lo w = v % 2 ^ w := by
  apply Nat.eq_of_testBit_eq
  intro i
  rw [Word.testBit_fld, Nat.testBit_mod_two_pow]
  by_cases hi : i < w
  · rw [Word.getLsbD_put _ _ _ _ _ (by omega), if_pos (by omega), Nat.add_sub_cancel_left]
  · simp [hi]

/-- A field apart from the one put reads as before. -/
theorem Word.fld_put_ne (x : Word) (lo w v lo' w' : Nat) (h : lo' + w' ≤ lo ∨ lo + w ≤ lo') (h' : lo' + w' ≤ 32) :
    (x.put lo w v).fld lo' w' = x.fld lo' w' := by
  apply Nat.eq_of_testBit_eq
  intro i
  rw [Word.testBit_fld, Word.testBit_fld]
  by_cases hi : i < w'
  · rw [Word.getLsbD_put _ _ _ _ _ (by omega), if_neg (by omega)]
  · simp [hi]

theorem Word.bit_eq_fld (x : Word) (i : Nat) : x.bit i = decide (x.fld i 1 = 1) := by
  simp only [Word.bit, Word.fld, ← BitVec.testBit_toNat, Nat.testBit_eq_decide_div_mod_eq, Nat.pow_one]

theorem Word.bit_setBit (x : Word) (i : Nat) (b : Bool) (h : i < 32) : (x.setBit i b).bit i = b := by
  rw [Word.bit_eq_fld, Word.setBit, Word.fld_put _ _ _ _ (by omega)]
  cases b <;> rfl

theorem Word.bit_setBit_ne (x : Word) (i j : Nat) (b : Bool) (h : j ≠ i) (hj : j < 32) :
    (x.setBit i b).bit j = x.bit j := by
  rw [Word.bit_eq_fld, Word.setBit, Word.fld_put_ne _ _ _ _ _ _ (by omega) (by omega), ← Word.bit_eq_fld]

end Sys2Proof

namespace Sys2Proof.Machine

variable {s : State}

theorem vote_self (v : Word) : vote v v v = v := by simp [vote]

/-- A register reads as written; every other one as before. -/
theorem State.reg_setReg (h : s.Wf) (k : Nat) (v : Word) (j : Nat) :
    (s.setReg k v).reg j = if j = k then v else s.reg j := by
  unfold State.setReg
  by_cases hk : triplReg k = true
  · simp only [hk, if_true, State.reg, storeGet_set h.regs, storeGet_set h.tmrB, storeGet_set h.tmrC]
    by_cases hj : j = k
    · subst hj; simp [hk, vote_self]
    · simp [hj]
  · simp only [hk, if_false, State.reg, storeGet_set h.regs, Bool.false_eq_true]
    by_cases hj : j = k
    · subst hj; simp [hk]
    · simp [hj]

theorem State.reg_setReg_self (h : s.Wf) (k : Nat) (v : Word) : (s.setReg k v).reg k = v := by simp [s.reg_setReg h]

/-- A register reads as the same register of a state with the same words. -/
theorem State.reg_congr {t : State} (h : t.regs = s.regs) (hb : t.tmrB = s.tmrB) (hc : t.tmrC = s.tmrC) (k : Nat) :
    t.reg k = s.reg k := by simp [State.reg, h, hb, hc]

/-- A mark of the window changes no register. -/
@[simp] theorem State.reg_mark (k lo w : Nat) (x : WinKind) (j : Nat) : (s.mark k lo w x).reg j = s.reg j :=
  State.reg_congr rfl rfl rfl j

@[simp] theorem State.fld_mark (k lo w : Nat) (x : WinKind) (j l n : Nat) : (s.mark k lo w x).fld j l n = s.fld j l n := by
  simp [State.fld]

@[simp] theorem State.bit_mark (k lo w : Nat) (x : WinKind) (j i : Nat) : (s.mark k lo w x).bit j i = s.bit j i := by
  simp [State.bit]

@[simp] theorem State.ax_mark (k lo w : Nat) (x : WinKind) (a : AxisId) : (s.mark k lo w x).ax a = s.ax a := rfl

/-- A mark of the window keeps a sound state sound. -/
theorem State.Wf.mark (h : s.Wf) (k lo w : Nat) (x : WinKind) : (s.mark k lo w x).Wf :=
  ⟨h.mem, h.regs, h.tmrB, h.tmrC, h.desc, h.tags, h.hearth⟩

/-- Another register reads as before, in any state. -/
theorem State.reg_setReg_ne (k : Nat) (v : Word) (j : Nat) (hj : j ≠ k) : (s.setReg k v).reg j = s.reg j := by
  unfold State.setReg
  split <;> simp [State.reg, storeGet_set_ne _ _ _ _ hj]

theorem State.fld_setFld_ne (k lo w v j lo' w' : Nat) (hj : j ≠ k) :
    (s.setFld k lo w v).fld j lo' w' = s.fld j lo' w' := by simp [State.fld, State.setFld, State.reg_setReg_ne _ _ _ hj]

/-- The registers that count items a trace ring had no room for. -/
def lostKeys : List Nat := [Reg.poolTracePtr 0, Reg.poolTracePtr 1, Reg.poolTracePtr 2, Reg.poolTracePtr 3]

/-- An item copied to the trace rings changes no register but those counts. -/
theorem State.reg_trace (it : TraceItem) (k : Nat) (hk : k ∉ lostKeys) : (s.trace it).reg k = s.reg k := by
  refine foldl_field (fun t => t.reg k) (fun t i => ?_) _ s
  dsimp only
  split
  · split
    · exact State.reg_congr rfl rfl rfl k
    · refine State.reg_setReg_ne _ _ _ ?_
      have : k ∉ lostKeys := hk
      fin_cases i <;> simp_all [lostKeys]
  · rfl

theorem State.reg_reply {port : Port} {src op tag target : Nat} {sd : Bool} {st : Status} {ws : List Word} {n : Nat}
    {f e : Bool} (k : Nat) (hk : k ∉ lostKeys) : (s.reply port src op tag target sd st ws n f e).reg k = s.reg k := by
  simp only [State.reply]
  rw [State.reg_trace _ _ hk]
  exact State.reg_congr (by simp) (by simp) (by simp) k

theorem State.ax_setAx (a b : AxisId) (x : Axis) : (s.setAx a x).ax b = if b = a then x else s.ax b := by
  simp only [State.ax, State.setAx, Vector.get_eq_getElem, Vector.getElem_set]
  by_cases h : b = a
  · subst h; simp
  · rw [if_neg fun e => h (Fin.ext e.symm), if_neg h]

@[simp] theorem State.ax_setAx_self (a : AxisId) (x : Axis) : (s.setAx a x).ax a = x := by simp [State.ax_setAx]

theorem State.bank_setBank (a b : BankId) (x : Bank) : (s.setBank a x).bank b = if b = a then x else s.bank b := by
  simp only [State.bank, State.setBank, Vector.get_eq_getElem, Vector.getElem_set]
  by_cases h : b = a
  · subst h; simp
  · rw [if_neg fun e => h (Fin.ext e.symm), if_neg h]

@[simp] theorem State.bank_setBank_self (a : BankId) (x : Bank) : (s.setBank a x).bank a = x := by
  simp [State.bank_setBank]

theorem State.byte_setByte (h : s.Wf) (o : Nat) (v : Byte) (j : Nat) :
    (s.setByte o v).byte j = if j = o then v else s.byte j := storeGet_set h.mem o v j

theorem State.blk_setBlk (h : s.Wf) (k : Nat) (d : Desc) (j : Nat) :
    (s.setBlk k d).blk j = if j = k then d else s.blk j := storeGet_set h.desc k d j

@[simp] theorem State.reg_advance (n k : Nat) : (s.advance n).reg k = s.reg k := State.reg_congr (by simp) (by simp) (by simp) k

@[simp] theorem State.fld_advance (n k lo w : Nat) : (s.advance n).fld k lo w = s.fld k lo w := by simp [State.fld]

@[simp] theorem State.bit_advance (n k i : Nat) : (s.advance n).bit k i = s.bit k i := by simp [State.bit]

@[simp] theorem State.ax_advance (n : Nat) (a : AxisId) : (s.advance n).ax a = s.ax a := by simp [State.ax]

@[simp] theorem State.bank_advance (n : Nat) (b : BankId) : (s.advance n).bank b = s.bank b := by simp [State.bank]

@[simp] theorem State.tile_advance (n : Nat) (a : AxisId) : (s.advance n).tile a = s.tile a := by simp [State.tile]

@[simp] theorem State.up_advance (n : Nat) : (s.advance n).up = s.up := by simp [State.up]

@[simp] theorem State.onPll_advance (n : Nat) : (s.advance n).onPll = s.onPll := by simp [State.onPll]

/-- A register write keeps a sound state sound. -/
theorem State.Wf.setReg (h : s.Wf) (k : Nat) (v : Word) : (s.setReg k v).Wf := by
  unfold State.setReg
  split
  · exact ⟨h.mem, storeSet_wf h.regs k v, storeSet_wf h.tmrB k v, storeSet_wf h.tmrC k v, h.desc, h.tags, h.hearth⟩
  · exact ⟨h.mem, storeSet_wf h.regs k v, h.tmrB, h.tmrC, h.desc, h.tags, h.hearth⟩

/-- A state that agrees with a sound one in what soundness speaks of is sound. -/
theorem State.Wf.same {t : State} (h : s.Wf) (hm : t.mem = s.mem) (hr : t.regs = s.regs) (hb : t.tmrB = s.tmrB)
    (hc : t.tmrC = s.tmrC) (hd : t.desc = s.desc) (ht : t.tags = s.tags) (hn : t.nextId = s.nextId)
    (hh : t.hearth = s.hearth) : t.Wf :=
  ⟨hm ▸ h.mem, hr ▸ h.regs, hb ▸ h.tmrB, hc ▸ h.tmrC, hd ▸ h.desc, by
    have := h.tags
    unfold State.tagsOk at this ⊢
    rw [ht, hn]; exact this, hh ▸ h.hearth⟩

/-- The bit a status flag is set to. -/
theorem State.bit_flag (h : s.Wf) (k i j : Nat) (hj : j < 32) : (s.flag k i).bit k j = (decide (j = i) || s.bit k j) := by
  unfold State.flag State.setBit State.bit
  rw [State.reg_mark, State.reg_setReg_self h]
  by_cases e : j = i
  · subst e; simp [Word.bit_setBit _ _ _ hj]
  · simp [Word.bit_setBit_ne _ _ _ _ e hj, e]

/-- The field put reads as the number put, where it fits. -/
theorem State.fld_setFld (h : s.Wf) (k lo w v : Nat) (hw : lo + w ≤ 32) : (s.setFld k lo w v).fld k lo w = v % 2 ^ w := by
  unfold State.setFld State.fld
  rw [State.reg_setReg_self h, Word.fld_put _ _ _ _ hw]

/-- A field of the same register apart from the one put reads as before. -/
theorem State.fld_setFld_apart (h : s.Wf) (k lo w v lo' w' : Nat) (ha : lo' + w' ≤ lo ∨ lo + w ≤ lo') (hw : lo' + w' ≤ 32) :
    (s.setFld k lo w v).fld k lo' w' = s.fld k lo' w' := by
  unfold State.setFld State.fld
  rw [State.reg_setReg_self h, Word.fld_put_ne _ _ _ _ _ _ ha hw]

end Sys2Proof.Machine
end

