-- ==== Sys2Proof/Laws/Arrive.lean ====
section
/-! SUPPORT. A packet that goes on at once reaches the meaning of its opcode with its command running. -/

namespace Sys2Proof.Machine

variable {u : State} {op : Op} {p : Packet}

theorem setCmd_setCmd {s : State} {c d : Cmd} (h : c.id = d.id) : (s.setCmd c).setCmd d = s.setCmd d := by
  simp only [State.setCmd, List.map_map]
  congr 1
  refine List.map_congr_left fun e _ => ?_
  simp only [Function.comp]
  split <;> simp_all

theorem State.stampedOrder_congr {s t : State} (h : ∀ i, t.reg (Reg.cmdPortcfg i) = s.reg (Reg.cmdPortcfg i)) (q : Port) :
    t.stampedOrder q = s.stampedOrder q := by simp [State.stampedOrder, State.bit, h]

theorem portcfg_kept (i : Nat) (h : i < 4) : Reg.cmdPortcfg i ∉ lostKeys := by
  interval_cases i <;> decide

theorem State.stampedOrder_reply {s : State} {port : Port} {src o tag target : Nat} {sd : Bool} {st : Status}
    {ws : List Word} {n : Nat} {f e : Bool} (q : Port) :
    (s.reply port src o tag target sd st ws n f e).stampedOrder q = s.stampedOrder q := by
  have h : (portAcct q).val < 4 := by omega
  simp [State.stampedOrder, State.bit, State.reg_reply _ (portcfg_kept _ h)]

theorem State.stampedOrder_addCmd {s : State} {c : Cmd} (q : Port) : (s.addCmd c).stampedOrder q = s.stampedOrder q := by
  have h : (portAcct q).val < 4 := by omega
  simp only [State.stampedOrder, State.bit, State.addCmd, State.reg_trace _ _ (portcfg_kept _ h)]
  rfl

theorem State.addCmd_tags {s : State} {c : Cmd} : (s.addCmd c).tags = s.tags ++ [c] := by simp [State.addCmd]

theorem State.sendAccepted_tags {s : State} {c : Cmd} : (s.sendAccepted c).tags = s.tags := by
  unfold State.sendAccepted
  split <;> simp

theorem State.stampedOrder_sendAccepted {s : State} {c : Cmd} (q : Port) :
    (s.sendAccepted c).stampedOrder q = s.stampedOrder q := by
  unfold State.sendAccepted
  split
  · exact State.stampedOrder_reply q
  · rfl

theorem State.Enters.held (h : u.Enters op p) :
    (u.entered op p).held? (u.entryPort p.port) (originOf p (u.entryPort p.port)) =
      [u.newCmd op p (u.entryPort p.port) (originOf p (u.entryPort p.port))] := by
  have ha := h.alone
  simp only [State.held?] at ha ⊢
  have e : (u.entered op p).tags = u.tags ++ [u.newCmd op p (u.entryPort p.port) (originOf p (u.entryPort p.port))] :=
    State.sendAccepted_tags.trans State.addCmd_tags
  rw [e, List.filter_append, ha]
  simp [Cmd.sameOrigin, State.newCmd]

theorem State.entered_net : (u.entered op p).net = u.net := by
  simp only [State.entered, State.endBurst, State.sendAccepted, State.addCmd]
  split <;> simp

theorem State.entered_pwr : (u.entered op p).pwr = u.pwr := by
  simp only [State.entered, State.endBurst, State.sendAccepted, State.addCmd]
  split <;> simp

/-- In CREDIT ordering a command waits for no stamp. -/
theorem State.Enters.stamp (h : u.Enters op p) (hs : op ≠ .groupStartAt) :
    (u.newCmd op p (u.entryPort p.port) (originOf p (u.entryPort p.port))).stamp = u.net ∧
    (u.newCmd op p (u.entryPort p.port) (originOf p (u.entryPort p.port))).due = u.net := by
  have hu : u.usesStamp op (u.entryPort p.port) = false := by simp [State.usesStamp, hs, h.order]
  simp [State.newCmd, hu]

/-- A command alone in its burst arrives as it would without one. -/
theorem State.Enters.dueNow (h : u.Enters op p) {t : State} (ht : t.net = u.net) :
    t.dueNow (u.newCmd op p (u.entryPort p.port) (originOf p (u.entryPort p.port))) =
      u.newCmd op p (u.entryPort p.port) (originOf p (u.entryPort p.port)) := by
  unfold State.dueNow
  split
  · rfl
  · rename_i hu
    have hs : op ≠ .groupStartAt := by
      rintro rfl
      exact hu (by simp [State.usesStamp, State.newCmd])
    rw [ht, ← (h.stamp hs).2]

/-- A module that takes packets takes commands. -/
theorem State.Enters.awake (h : u.Enters op p) : (u.entered op p).resting = false := by
  have hp : (u.entered op p).pwr = u.pwr := State.entered_pwr
  have hu : u.up = true := by
    have h1 := h.isOpen
    have h2 := h.port
    unfold State.portOpen at h1
    split at h1 <;> simp_all
  simp only [State.resting, State.up, hp] at hu ⊢
  simp [hu]

theorem State.entered_tags :
    (u.entered op p).tags = u.tags ++ [u.newCmd op p (u.entryPort p.port) (originOf p (u.entryPort p.port))] :=
  State.sendAccepted_tags.trans State.addCmd_tags

/-- The command entered last arrives last. -/
theorem State.Enters.arriveNow (h : u.Enters op p) :
    (u.entered op p).arriveNow [u.newCmd op p (u.entryPort p.port) (originOf p (u.entryPort p.port))] = u.entered op p := by
  have e : ((u.entered op p).arriveNow [u.newCmd op p (u.entryPort p.port) (originOf p (u.entryPort p.port))]).tags =
      (u.entered op p).tags := by
    simp only [State.arriveNow, State.entered_tags, List.filter_append, List.any_cons, List.any_nil, Bool.or_false]
    rw [List.filter_eq_self.mpr]
    · simp
    · intro d hd
      have := h.fresh d hd
      simpa [State.newCmd] using fun x => this x.symm
  rw [show (u.entered op p).arriveNow [u.newCmd op p (u.entryPort p.port) (originOf p (u.entryPort p.port))] =
    { u.entered op p with tags := ((u.entered op p).arriveNow
      [u.newCmd op p (u.entryPort p.port) (originOf p (u.entryPort p.port))]).tags } from rfl, e]

/-- The command entered last is open. -/
theorem State.placeOpen_entered :
    (u.entered op p).placeOpen (u.newCmd op p (u.entryPort p.port) (originOf p (u.entryPort p.port))) =
      (u.entered op p).place (u.newCmd op p (u.entryPort p.port) (originOf p (u.entryPort p.port))) := by
  unfold State.placeOpen
  rw [if_pos]
  simp [State.cmd, State.entered_tags, List.find?_append]

theorem State.entered_reg (k : Nat) (hk : k ∉ lostKeys) : (u.entered op p).reg k = u.reg k := by
  have h (t : State) (c : Cmd) : (t.sendAccepted c).reg k = t.reg k := by
    unfold State.sendAccepted
    split
    · exact State.reg_reply _ hk
    · rfl
  simp only [State.entered]
  refine (State.reg_congr rfl rfl rfl k).trans ((h _ _).trans ?_)
  simp only [State.addCmd]
  rw [State.reg_trace _ _ hk]
  exact State.reg_congr rfl rfl rfl k

theorem State.entered_gatedOff (o : Op) : (u.entered op p).gatedOff o = u.gatedOff o := by
  simp [State.gatedOff, State.gateOn, State.clockLevel, State.level, State.fld, State.bit, State.entered_pwr,
    State.entered_reg Reg.pwrLevel (by decide), State.entered_reg Reg.clkGateSleep (by decide),
    State.entered_reg Reg.clkGateRun (by decide)]

/-- A packet that goes on at once is placed, and its axis's queue looked at. -/
theorem State.Enters.arrive (h : u.Enters op p) (hg : op ≠ .groupHalt) :
    u.arrive op p = (u.entered op p).launch [u.newCmd op p (u.entryPort p.port) (originOf p (u.entryPort p.port))] := by
  have hh := h.held
  have hc := h.checks
  have ho := h.order
  have h1 : (p.port != Port.boot) = true := by simp [h.port]
  simp only [State.arrive, h1, h.isOpen, Bool.and_self, if_true, State.enterPacket, h.member, Bool.false_eq_true, if_false,
    hc, State.burstStep]
  rw [if_neg (by simpa [State.newCmd] using hg), if_neg, if_pos h.last]
  · have hn : ((u.addCmd (u.newCmd op p (u.entryPort p.port) (originOf p (u.entryPort p.port)))).sendAccepted
        (u.newCmd op p (u.entryPort p.port) (originOf p (u.entryPort p.port)))).net = u.net := State.entered_net
    have e : (((u.addCmd (u.newCmd op p (u.entryPort p.port) (originOf p (u.entryPort p.port)))).sendAccepted
        (u.newCmd op p (u.entryPort p.port) (originOf p (u.entryPort p.port)))).held? (u.entryPort p.port)
          (originOf p (u.entryPort p.port))) = [u.newCmd op p (u.entryPort p.port) (originOf p (u.entryPort p.port))] := hh
    have e2 : (u.newCmd op p (u.entryPort p.port) (originOf p (u.entryPort p.port))).port = u.entryPort p.port := rfl
    have e3 : (u.newCmd op p (u.entryPort p.port) (originOf p (u.entryPort p.port))).src = originOf p (u.entryPort p.port) := rfl
    rw [State.closeBurst, e2, e3, e, List.map_singleton, h.dueNow hn]
    exact congrArg (State.launch · _) h.arriveNow
  · rw [State.stampedOrder_sendAccepted, State.stampedOrder_addCmd]
    exact fun e => Bool.false_ne_true (ho.symm.trans e)

theorem State.entered_axes : (u.entered op p).axes = u.axes := by
  simp only [State.entered, State.endBurst, State.sendAccepted, State.addCmd]
  split <;> simp

theorem State.entered_stateOf (n : Nat) : (u.entered op p).stateOf n = u.stateOf n := by
  simp [State.stateOf, State.ax, State.entered_axes]

theorem retFlag_kept : ∀ a : AxisId, retFlag a.val ∉ lostKeys := by decide

theorem State.entered_verdict (a : AxisId) (o : Op) : (u.entered op p).verdict a o = u.verdict a o := by
  simp [State.verdict, State.retiring, State.retired, State.bit, State.ax, State.entered_axes,
    State.entered_reg _ (retFlag_kept a)]

theorem State.entered_ax (a : AxisId) : (u.entered op p).ax a = u.ax a := by simp [State.ax, State.entered_axes]

theorem State.entered_taken :
    (u.entered op p).taken (u.newCmd op p (u.entryPort p.port) (originOf p (u.entryPort p.port))) = u.cmdOf op p := by
  simp only [State.taken, State.entered_net, State.entered_stateOf]
  rfl

/-- A module command is carried out as it arrives. -/
theorem State.Enters.module (h : u.Enters op p) (hk : opKind op = .x) (hg : op ≠ .groupHalt) :
    u.arrive op p = (u.running op p).moduleOp (u.cmdOf op p) := by
  have hm : opMotion op = false := by cases op <;> first | rfl | exact absurd hk (by decide)
  rw [h.arrive hg]
  have hkk : kindOf op p.words = .x := by simp [kindOf, hm, hk]
  have hk1 : kindOf (u.newCmd op p (u.entryPort p.port) (originOf p (u.entryPort p.port))).op
      (u.newCmd op p (u.entryPort p.port) (originOf p (u.entryPort p.port))).words = .x := hkk
  have hp : (u.entered op p).place (u.newCmd op p (u.entryPort p.port) (originOf p (u.entryPort p.port))) =
      (u.running op p).moduleOp (u.cmdOf op p) := by
    unfold State.place
    rw [hk1]
    dsimp only
    rw [if_pos]
    · unfold State.takeNow
      have : opKind (u.newCmd op p (u.entryPort p.port) (originOf p (u.entryPort p.port))).op = .x := hk
      rw [this]
      dsimp only
      have hgt : (u.entered op p).gatedOff (u.newCmd op p (u.entryPort p.port) (originOf p (u.entryPort p.port))).op = false := by
        have e : (u.newCmd op p (u.entryPort p.port) (originOf p (u.entryPort p.port))).op = op := rfl
        rw [e]
        cases op <;> first | rfl | exact absurd hk (by decide)
      rw [State.runModule, State.entered_taken, h.awake, hgt]
      rfl
    · by_cases hs : op = .groupStartAt
      · simp [State.newCmd, hs]
      · simp [(h.stamp hs).1, State.entered_net]
  simp only [State.launch, List.foldl_cons, List.foldl_nil, State.placeOpen_entered, hp]
  unfold State.lookAt
  rw [hk1]

theorem State.entered_netw : (u.entered op p).netw = u.netw := by
  simp only [State.entered, State.endBurst, State.sendAccepted, State.addCmd]
  split <;> simp

/-- Putting the command just entered changes no other. -/
theorem State.entered_setCmd_tags (h : u.tagsOk) (c : Cmd) (hc : c.id = u.nextId) :
    ((u.entered op p).setCmd c).tags = u.tags ++ [c] := by
  simp only [State.setCmd, State.entered_tags, List.map_append, List.map_cons, List.map_nil]
  have e : (u.newCmd op p (u.entryPort p.port) (originOf p (u.entryPort p.port))).id = c.id := hc.symm
  rw [if_pos e]
  congr 1
  rw [List.map_congr_left (g := id) fun d hd => ?_, List.map_id]
  have := h.2 d hd
  simp [show d.id ≠ c.id by omega]

theorem opKind_of_axis (h : opTarget op = .axis) : opKind op = .w ∨ opKind op = .u ∨ opKind op = .s := by
  cases op <;> first | exact absurd h (by decide) | simp [opKind]

/-- A state with the command entered last put at a place: what `takeAxis` looks at is as before. -/
theorem State.takeAxis_entered {a : AxisId} (h : u.Takes op p a) (hw : u.tagsOk) {c : Cmd} {t : State}
    (hc : c = u.newCmd op p (u.entryPort p.port) (originOf p (u.entryPort p.port)) ∨ c = u.cmdOf op p)
    (ht : t = (u.entered op p).setCmd c) : t.takeAxis a c = (u.running op p).axisOp a (u.cmdOf op p) := by
  have hid : c.id = u.nextId := by rcases hc with rfl | rfl <;> rfl
  have hop : c.op = op := by rcases hc with rfl | rfl <;> rfl
  have hws : c.words = p.words := by rcases hc with rfl | rfl <;> rfl
  have hpl : c.place ≠ .staged := by rcases hc with rfl | rfl <;> exact nofun
  have htk : t.taken c = u.cmdOf op p := by
    have : t.net = u.net := by rw [ht]; exact State.entered_net
    have h2 : t.stateOf p.target.toNat = u.stateOf p.target.toNat := by
      rw [ht]; exact State.entered_stateOf _
    rcases hc with rfl | rfl <;> simp only [State.taken, this, State.cmdOf] <;> simp only [State.newCmd, h2]
  have hax : t.ax a = u.ax a := by rw [ht]; exact State.entered_ax a
  have htags : t.tags = u.tags ++ [c] := by rw [ht]; exact State.entered_setCmd_tags hw c hid
  have hst : t.staged a = u.staged a := by
    have hb : (c.on a && c.place == Place.staged) = false := by simp [hpl]
    simp [State.staged, htags, List.any_append, hpl]
  have hgr : t.groupOf a = u.groupOf a := by
    have : t.netw = u.netw := by rw [ht]; exact State.entered_netw
    simp [State.groupOf, this]
  have h1 := h.legal
  have h2 := h.unstaged
  have h3 := h.stays
  have hv : t.verdict a op = .ok := by
    rw [ht]
    exact (State.entered_verdict a op).trans h1
  unfold State.takeAxis
  rw [hop, hv]
  dsimp only
  have h2' : t.stagedRefuses a op = false := by simpa [State.stagedRefuses, hst] using h2
  have h3' : t.stages a c = false := by
    simp only [State.stages, hgr, hop, hws]
    simpa [State.stages, State.cmdOf, State.newCmd] using h3
  rw [h2', h3', if_neg (by simp), if_neg (by simp)]
  unfold State.runAxis
  rw [htk, ht, setCmd_setCmd (by rw [hid]; rfl)]
  rfl

theorem State.entered_setCmd_self (h : u.tagsOk) :
    (u.entered op p).setCmd (u.newCmd op p (u.entryPort p.port) (originOf p (u.entryPort p.port))) = u.entered op p := by
  have e := (State.entered_setCmd_tags (op := op) (p := p) h
    (u.newCmd op p (u.entryPort p.port) (originOf p (u.entryPort p.port))) rfl).trans State.entered_tags.symm
  simp only [State.setCmd] at e ⊢
  rw [e]

theorem cmdAxis {c : Cmd} {a : AxisId} (h : c.target = a.val) : c.axis? = some a := by
  simp [Cmd.axis?, h]

/-- The sequencer looks at an axis command as it arrives: Table 2-9 decides on one of kind U there and then; another is in
the queue, alone, and stays there where the table makes it wait. -/
theorem State.Reaches.arrive {a : AxisId} (h : u.Reaches op p a) (hw : u.tagsOk) (ho : opTarget op = .axis) :
    (opKind op = .u ∧ u.arrive op p = (u.entered op p).takeAxis a
      (u.newCmd op p (u.entryPort p.port) (originOf p (u.entryPort p.port)))) ∨
    (opKind op ≠ .u ∧ u.verdict a op ≠ .waits ∧ u.arrive op p = (u.running op p).takeAxis a (u.cmdOf op p)) ∨
    (opKind op ≠ .u ∧ u.verdict a op = .waits ∧ u.arrive op p = (u.entered op p).setCmd
      { u.newCmd op p (u.entryPort p.port) (originOf p (u.entryPort p.port)) with place := .queued }) := by
  have hg : op ≠ .groupHalt := by rintro rfl; exact absurd ho (by decide)
  have hs : op ≠ .groupStartAt := by rintro rfl; exact absurd ho (by decide)
  rw [h.enters.arrive hg]
  generalize hc : u.newCmd op p (u.entryPort p.port) (originOf p (u.entryPort p.port)) = c
  have hop : c.op = op := by rw [← hc]; rfl
  have hws : c.words = p.words := by rw [← hc]; rfl
  have htg : c.target = a.val := by rw [← hc]; exact h.target
  have hid : c.id = u.nextId := by rw [← hc]; rfl
  have hst : c.stamp = u.net ∧ c.due = u.net := by rw [← hc]; exact h.enters.stamp hs
  have hon : c.on a = true := by simp [Cmd.on, htg]
  have hpo : (u.entered op p).placeOpen c = (u.entered op p).place c := by rw [← hc]; exact State.placeOpen_entered
  by_cases hu : opKind op = .u
  · -- taken without a queue
    refine .inl ⟨hu, ?_⟩
    have hm : opMotion op = false := by cases op <;> first | rfl | exact absurd hu (by decide)
    have hk : kindOf c.op c.words = .u := by simp [kindOf, hop, hm, hu]
    have hp : (u.entered op p).place c = (u.entered op p).takeAxis a c := by
      unfold State.place
      rw [hk]
      dsimp only
      rw [if_pos (by simp [hst.1, State.entered_net])]
      unfold State.takeNow
      rw [hop, hu, cmdAxis htg, h.enters.awake, State.entered_gatedOff, h.ungated]
      rfl
    simp only [State.launch, List.foldl_cons, List.foldl_nil, hpo, hp]
    unfold State.lookAt
    rw [hk]
  · -- through the axis queue, in which it is the only one
    refine .inr ?_
    have hne := h.first hu
    have hkk : kindOf op p.words = .s ∨ kindOf op p.words = .w := by
      rcases opKind_of_axis ho with e | e | e
      · right; simp only [kindOf, e, ite_self]
      · exact absurd e hu
      · simp only [kindOf, e]; split <;> simp
    generalize hd : ({ c with place := .queued } : Cmd) = d
    have hdid : d.id = u.nextId := by rw [← hd]; exact hid
    have hp : (u.entered op p).place c = (u.entered op p).setCmd d := by
      have h0 : ((u.entered op p).tags.filter fun e => e.target == c.target && e.place == Place.queued) = [] := by
        rw [State.entered_tags, hc, List.filter_append, List.filter_eq_nil_iff.mpr, List.nil_append,
          List.filter_eq_nil_iff]
        · intro e he
          simp only [List.mem_singleton] at he
          subst he
          have : e.place = .burst := by rw [← hc]; rfl
          simp [this]
        · intro e he
          have := hne e he
          simp only [Cmd.on, beq_iff_eq] at this
          simp only [Bool.and_eq_true, beq_iff_eq, not_and, htg]
          exact fun x => (this x).1
      have hx : ((u.entered op p).tags.all fun e => !(e.target == c.target && e.place == Place.excess)) = true := by
        rw [State.entered_tags, hc, List.all_append, Bool.and_eq_true]
        refine ⟨List.all_eq_true.mpr fun e he => ?_, ?_⟩
        · have := hne e he
          simp only [Cmd.on, beq_iff_eq] at this
          simp only [htg, Bool.not_eq_true', Bool.and_eq_false_imp, beq_iff_eq, beq_eq_false_iff_ne]
          exact fun x => (this x).2
        · have : c.place = .burst := by rw [← hc]; rfl
          simp [this]
      have hr : (u.entered op p).queueRoom c.target = true := by
        unfold State.queueRoom
        rw [h0, hx]
        rfl
      unfold State.place
      rw [hop, hws]
      rcases hkk with e | e <;> rw [e] <;> simp only [hr, if_true, ← hd, hop, hws]
    have htags : ((u.entered op p).setCmd d).tags = u.tags ++ [d] := State.entered_setCmd_tags hw d hdid
    have hnet : ((u.entered op p).setCmd d).net = u.net := State.entered_net
    have hq : ((u.entered op p).setCmd d).queueHead a = some d := by
      have hdq : (d.on a && d.place == Place.queued) = true := by
        rw [← hd, Bool.and_eq_true]
        exact ⟨hon, rfl⟩
      have : (((u.entered op p).setCmd d).tags.filter fun e => e.on a && e.place == Place.queued) = [d] := by
        rw [htags, List.filter_append, List.filter_eq_nil_iff.mpr, List.nil_append]
        · simp only [List.filter_cons, hdq, if_true, List.filter_nil]
        · intro e he
          simp only [Bool.and_eq_true, beq_iff_eq, not_and]
          exact fun x => (hne e he x).1
      rw [State.queueHead, this]
      rfl
    have hdpl : d.place = .queued := by rw [← hd]
    have hmay : ((u.entered op p).setCmd d).mayTake a d = true := by
      have h1 : d.takeAt = u.net := by
        rw [← hd]
        simp only [Cmd.takeAt, hst]
        split <;> rfl
      have h2 : kindOf d.op d.words = kindOf op p.words := by rw [← hd]; simp only [hop, hws]
      have hb : ((u.entered op p).setCmd d).busyAx a = u.busyAx a := by
        simp [State.busyAx, htags, List.any_append, hdpl]
      have hr : ((u.entered op p).setCmd d).releasing a = u.releasing a := by
        simp [State.releasing, htags, List.any_append, hdpl]
      have hgt : ((u.entered op p).setCmd d).gatedOff d.op = false := by
        have : d.op = op := by rw [← hd]; exact hop
        rw [this]
        exact (State.entered_gatedOff op).trans h.ungated
      unfold State.mayTake
      rw [h1, h2, hnet, hb, hr, hgt]
      rcases hkk with e | e
      · simp [e, h.held e]
      · simp [e, h.free e]
    have hl : ((u.entered op p).setCmd d).lookAt c = ((u.entered op p).setCmd d).takeHead a := by
      unfold State.lookAt
      rw [hop, hws, cmdAxis htg]
      rcases hkk with e | e <;> rw [e]
    simp only [State.launch, List.foldl_cons, List.foldl_nil, hpo, hp, hl]
    have htk : ((u.entered op p).setCmd d).taken d = u.cmdOf op p := by
      have : ((u.entered op p).setCmd d).taken d = (u.entered op p).taken c := by
        rw [← hd]
        rfl
      rw [this, ← hc]
      exact State.entered_taken
    have hlg : ((u.entered op p).setCmd d).verdict a d.op = u.verdict a op := by
      have h1 : d.op = op := by rw [← hd]; exact hop
      rw [h1]
      exact State.entered_verdict a op
    have haw : ((u.entered op p).setCmd d).resting = false := h.enters.awake
    have hpr : ((u.entered op p).setCmd (u.cmdOf op p)).promote a.val = (u.entered op p).setCmd (u.cmdOf op p) := by
      unfold State.promote
      split
      · rw [List.find?_eq_none.mpr]
        intro e he
        rw [State.entered_setCmd_tags hw _ rfl, List.mem_append] at he
        rcases he with he | he
        · have := (hne e he)
          simp only [Cmd.on, beq_iff_eq] at this
          simp only [Bool.and_eq_true, beq_iff_eq, not_and]
          exact fun x => (this x).2
        · rw [List.mem_singleton.mp he]
          simp [State.cmdOf]
      · rfl
    unfold State.takeHead
    rw [hq]
    dsimp only
    rw [hmay, haw, hlg, htk, setCmd_setCmd (hdid.trans rfl), hpr]
    by_cases hv : u.verdict a op = .waits
    · exact .inr ⟨hu, hv, by rw [hv]; rfl⟩
    · refine .inl ⟨hu, hv, ?_⟩
      rw [if_pos (by simp [hv])]
      rfl

/-- The sequencer takes an axis command as it arrives. -/
theorem State.Takes.arrive {a : AxisId} (h : u.Takes op p a) (hw : u.tagsOk) (ho : opTarget op = .axis) :
    u.arrive op p = (u.running op p).axisOp a (u.cmdOf op p) := by
  rcases h.toReaches.arrive hw ho with ⟨_, e⟩ | ⟨_, _, e⟩ | ⟨_, hv, _⟩
  · exact e.trans (State.takeAxis_entered h hw (.inl rfl) (State.entered_setCmd_self hw).symm)
  · exact e.trans (State.takeAxis_entered h hw (.inr rfl) rfl)
  · exact absurd (hv.symm.trans h.legal) (by decide)

/-- A module command's packet comes to what its opcode does to the state with the command running. -/
theorem State.Runs.arrive {s v : State} {dt : Nat} {c : Cmd} (h : s.Runs dt op p c v) (hk : opKind op = .x)
    (hg : op ≠ .groupHalt) : (s.advance dt).arrive op p = v.moduleOp c := by
  rw [h.cmd, h.now]
  exact h.enters.module hk hg

theorem State.Runs.words {s v : State} {dt : Nat} {c : Cmd} (h : s.Runs dt op p c v) : c.words = p.words := by
  rw [h.cmd]; rfl

theorem State.Runs.opEq {s v : State} {dt : Nat} {c : Cmd} (h : s.Runs dt op p c v) : c.op = op := by
  rw [h.cmd]; rfl

theorem State.Runs.group {s v : State} {dt : Nat} {c : Cmd} (h : s.Runs dt op p c v) :
    c.group = p.target.toNat - 0x8000 := by rw [h.cmd]; rfl

/-- The command of a packet is in the table as it is taken. -/
theorem State.Runs.taken {s v : State} {dt : Nat} {c : Cmd} (h : s.Runs dt op p c v) : v.taken c = c ∧ v.setCmd c = v := by
  have e1 : v.net = (s.advance dt).net := by rw [h.now]; exact State.entered_net
  have e2 : v.stateOf p.target.toNat = (s.advance dt).stateOf p.target.toNat := by rw [h.now]; exact State.entered_stateOf _
  constructor
  · rw [h.cmd]
    have e3 : ((s.advance dt).cmdOf op p).target = p.target.toNat := rfl
    simp only [State.taken, e1, e3, e2]
    rfl
  · rw [h.now, h.cmd]
    exact setCmd_setCmd rfl

/-- An axis command's packet comes to what its opcode does to the state with the command running. -/
theorem State.RunsOn.arrive {s v : State} {dt : Nat} {a : AxisId} {c : Cmd} (h : s.RunsOn dt op p a c v)
    (ho : opTarget op = .axis) : (s.advance dt).arrive op p = v.axisOp a c := by
  have ht : (s.advance dt).tagsOk := by have := h.tags; simpa [State.tagsOk] using this
  rw [h.cmd, h.now]
  exact h.takes.arrive ht ho

theorem State.RunsOn.words {s v : State} {dt : Nat} {a : AxisId} {c : Cmd} (h : s.RunsOn dt op p a c v) :
    c.words = p.words := by rw [h.cmd]; rfl

theorem State.RunsOn.opEq {s v : State} {dt : Nat} {a : AxisId} {c : Cmd} (h : s.RunsOn dt op p a c v) : c.op = op := by
  rw [h.cmd]; rfl

theorem State.RunsOn.startAt {s v : State} {dt : Nat} {a : AxisId} {c : Cmd} (h : s.RunsOn dt op p a c v)
    (ho : op ≠ .groupStartAt) {t : State} : t.startAt c = none := by
  have := h.takes.enters.stamp ho
  have h1 : c.stamp = (s.advance dt).net := by rw [h.cmd]; exact this.1
  have h2 : c.due = (s.advance dt).net := by rw [h.cmd]; exact this.2
  simp [State.startAt, h1, h2]

end Sys2Proof.Machine
end

