-- ==== Sys2Proof/Laws/Axes.lean ====
section
/-! SUPPORT. What the operations on one axis leave alone: the other axes and the rest of the machine. -/

namespace Sys2Proof.Machine

variable {s : State} {a b : AxisId}

theorem State.ax_setAx_ne {x : Axis} (h : b ≠ a) : (s.setAx a x).ax b = s.ax b := by rw [State.ax_setAx, if_neg h]

@[simp] theorem State.setAx_setAx {x y : Axis} : (s.setAx a x).setAx a y = s.setAx a y := by
  simp only [State.setAx]
  congr 1
  apply Vector.ext
  intro i hi
  simp only [Vector.getElem_set]
  split <;> simp_all

/-- A port that takes accesses writes: its pending keyed write is cancelled first. -/
theorem State.portWrite_open {q : Port} {f : State → State} (h : s.portOpen q = true) (hl : s.locked = false) :
    s.portWrite q f = f (s.cancel q) := by simp [State.portWrite, h, hl]

@[simp] theorem State.ax_setReg (k : Nat) (v : Word) : (s.setReg k v).ax a = s.ax a := by simp [State.ax]

@[simp] theorem State.ax_sendStarted (id : Nat) : (s.sendStarted id).ax a = s.ax a := by simp [State.ax]

@[simp] theorem State.ax_fail (id i r n : Nat) (st : Status) : (s.fail id st i r n).ax a = s.ax a := by simp [State.ax]

@[simp] theorem State.ax_setCmd (c : Cmd) : (s.setCmd c).ax a = s.ax a := by simp [State.ax]

/-- What an operation on the loops of one axis leaves alone: the rest of the axis but its loop state and the sample in
flight, the other axes, the open commands, the banks and the pool memory. -/
structure LoopOnly (a : AxisId) (s t : State) : Prop where
  own : ∃ l m, t.ax a = { s.ax a with loop := l, sample := m }
  others : ∀ b, b ≠ a → t.ax b = s.ax b
  tags : t.tags = s.tags
  banks : t.banks = s.banks
  mem : t.mem = s.mem

theorem LoopOnly.refl : LoopOnly a s s := ⟨⟨_, _, rfl⟩, fun _ _ => rfl, rfl, rfl, rfl⟩

theorem LoopOnly.trans {t u : State} (h : LoopOnly a s t) (g : LoopOnly a t u) : LoopOnly a s u := by
  obtain ⟨l, m, e⟩ := h.own
  obtain ⟨l', m', e'⟩ := g.own
  exact ⟨⟨l', m', by rw [e', e]⟩, fun b hb => (g.others b hb).trans (h.others b hb), g.tags.trans h.tags,
    g.banks.trans h.banks, g.mem.trans h.mem⟩

theorem LoopOnly.ite {c : Prop} [Decidable c] {t u : State} (h : LoopOnly a s t) (g : LoopOnly a s u) :
    LoopOnly a s (if c then t else u) := by
  split
  · exact h
  · exact g

theorem LoopOnly.setLoop {l : LoopAxis} : LoopOnly a s (s.setLoop a l) :=
  ⟨⟨_, _, State.ax_setAx_self ..⟩, fun _ h => State.ax_setAx_ne h, rfl, rfl, rfl⟩

theorem State.startOuter_only : LoopOnly a s (s.startOuter a) :=
  ⟨⟨_, _, State.ax_setAx_self ..⟩, fun _ h => State.ax_setAx_ne h, rfl, rfl, rfl⟩

theorem State.clearFreeze_only : LoopOnly a s (s.clearFreeze a) := by
  refine LoopOnly.trans ?_ LoopOnly.setLoop
  exact ⟨⟨_, _, by simp [State.setFld]; rfl⟩, fun b _ => by simp [State.setFld], by simp [State.setFld],
    by simp [State.setFld], by simp [State.setFld]⟩

theorem State.stopOuter_only : LoopOnly a s (s.stopOuter a) := State.clearFreeze_only.trans LoopOnly.setLoop

/-- Starting or stopping the outer loops and the supervisor changes the loop state of one axis and its sample in flight. -/
theorem State.syncLoops_only : LoopOnly a s (s.syncLoops a) := by
  unfold State.syncLoops
  have h : LoopOnly a s (if s.closedMode a then (if (s.ax a).loop.running then s else s.startOuter a)
      else if (s.ax a).loop.running then s.stopOuter a else s) :=
    .ite (.ite .refl State.startOuter_only) (.ite State.stopOuter_only .refl)
  exact .ite h (h.trans LoopOnly.setLoop)

end Sys2Proof.Machine
end

