-- ==== Sys2Proof/Laws/Hearth.lean ====
section
/-! SUPPORT. That what changes the retained storage keeps its canonical form. -/

namespace Sys2Proof.Machine

/-- Each of the three parts keeps its form. -/
theorem Hearth.keeps {h k : Hearth} (a : storeWf wordDefault h.sram = true → storeWf wordDefault k.sram = true)
    (b : storeWf wordDefault h.retire = true → storeWf wordDefault k.retire = true)
    (c : storeWf wordDefault h.ember = true → storeWf wordDefault k.ember = true) : h.wf = true → k.wf = true := by
  simp only [Hearth.wf, Bool.and_eq_true]
  exact fun x => ⟨⟨a x.1.1, b x.1.2⟩, c x.2⟩

theorem putWords_wf {m : Store Word} (k : Nat) (ws : List Word) (h : storeWf wordDefault m = true) :
    storeWf wordDefault (putWords m k ws) = true := by
  induction ws generalizing m k with
  | nil => exact h
  | cons w ws ih => exact ih _ (storeSet_wf h k w)

end Sys2Proof.Machine
end

