-- ==== Sys2Proof/Laws/KeptBase.lean ====
section
/-! SUPPORT. What no operation may do to the rest of the machine: `Kept`, with the closure laws by which the lemma of each
operation follows from those of the operations it calls. -/

namespace Sys2Proof.Machine

/-- What an operation that goes from `s` to `t` leaves alone, whatever it does: the queue of waiting commands; the
timebase never runs back; a sound state stays sound; and, where `lk`, a lock of the module stays (R299); where `mq`, the
pool memory is the same. -/
structure Kept (mq lk : Bool) (s t : State) : Prop where
  pending : t.pending = s.pending
  tb : s.tb ≤ t.tb
  wf : s.Wf → t.Wf
  locked : lk = true → s.locked = true → t.locked = true
  mem : mq = true → t.mem = s.mem

variable {mq lk : Bool} {s0 s t : State}

theorem Kept.refl : Kept mq lk s s := ⟨rfl, Nat.le_refl _, id, fun _ => id, fun _ => rfl⟩

theorem Kept.trans (h : Kept mq lk s0 s) (g : Kept mq lk s t) : Kept mq lk s0 t :=
  ⟨g.pending.trans h.pending, Nat.le_trans h.tb g.tb, fun x => g.wf (h.wf x), fun x y => g.locked x (h.locked x y), fun x => (g.mem x).trans (h.mem x)⟩

/-- The stronger form gives the weaker. -/
theorem Kept.weak (h : Kept true true s t) : Kept mq lk s t :=
  ⟨h.pending, h.tb, h.wf, fun _ => h.locked rfl, fun _ => h.mem rfl⟩

/-- A change of fields that `Kept` does not speak of. -/
theorem Kept.same (h : Kept mq lk s0 s) (hp : t.pending = s.pending) (ht : t.tb = s.tb) (hm : t.mem = s.mem)
    (hr : t.regs = s.regs) (hb : t.tmrB = s.tmrB) (hc : t.tmrC = s.tmrC) (hd : t.desc = s.desc) (hg : t.tags = s.tags)
    (hn : t.nextId = s.nextId) (hl : t.locked = s.locked) (hh : s.hearth.wf = true → t.hearth.wf = true) : Kept mq lk s0 t :=
  h.trans ⟨hp, Nat.le_of_eq ht.symm, fun x => ⟨hm ▸ x.mem, hr ▸ x.regs, hb ▸ x.tmrB, hc ▸ x.tmrC, hd ▸ x.desc,
    by have := x.tags; unfold State.tagsOk at *; rwa [hg, hn], hh x.hearth⟩, fun _ x => hl ▸ x, fun _ => hm⟩

/-- The same where every open command goes. -/
theorem Kept.sameNone (h : Kept mq lk s0 s) (hp : t.pending = s.pending) (ht : t.tb = s.tb) (hm : t.mem = s.mem)
    (hr : t.regs = s.regs) (hb : t.tmrB = s.tmrB) (hc : t.tmrC = s.tmrC) (hd : t.desc = s.desc) (hg : t.tags = [])
    (hl : t.locked = s.locked) (hh : s.hearth.wf = true → t.hearth.wf = true) : Kept mq lk s0 t :=
  h.trans ⟨hp, Nat.le_of_eq ht.symm, fun x => ⟨hm ▸ x.mem, hr ▸ x.regs, hb ▸ x.tmrB, hc ▸ x.tmrC, hd ▸ x.desc,
    by simp [State.tagsOk, hg], hh x.hearth⟩, fun _ x => hl ▸ x, fun _ => hm⟩

theorem Kept.ite {c : Prop} [Decidable c] {a b : State} (h : c → Kept mq lk s0 a) (g : ¬c → Kept mq lk s0 b) :
    Kept mq lk s0 (if c then a else b) := by
  split
  · exact h ‹_›
  · exact g ‹_›

theorem Kept.dite {c : Prop} [Decidable c] {a : c → State} {b : ¬c → State} (h : ∀ x, Kept mq lk s0 (a x))
    (g : ∀ x, Kept mq lk s0 (b x)) : Kept mq lk s0 (if x : c then a x else b x) := by
  split
  · exact h _
  · exact g _

theorem Kept.ite2 {α : Type} {c : Prop} [Decidable c] {a b : α × State} (h : c → Kept mq lk s0 a.2)
    (g : ¬c → Kept mq lk s0 b.2) : Kept mq lk s0 (if c then a else b).2 := by
  split
  · exact h ‹_›
  · exact g ‹_›

theorem Kept.ite22 {α β : Type} {c : Prop} [Decidable c] {a b : α × β × State} (h : c → Kept mq lk s0 a.2.2)
    (g : ¬c → Kept mq lk s0 b.2.2) : Kept mq lk s0 (if c then a else b).2.2 := by
  split
  · exact h ‹_›
  · exact g ‹_›

theorem Kept.foldl {α : Type} {f : State → α → State} {xs : List α} (h : Kept mq lk s0 s)
    (hf : ∀ t x, Kept mq lk s0 t → Kept mq lk s0 (f t x)) : Kept mq lk s0 (xs.foldl f s) := by
  induction xs generalizing s with
  | nil => exact h
  | cons x xs ih => exact ih (hf s x h)

theorem Kept.foldr {α : Type} {f : α → State → State} {xs : List α} (h : Kept mq lk s0 s)
    (hf : ∀ t x, Kept mq lk s0 t → Kept mq lk s0 (f x t)) : Kept mq lk s0 (xs.foldr f s) := by
  induction xs with
  | nil => exact h
  | cons x xs ih => exact hf _ x ih

theorem State.eachAx_kept {f : State → AxisId → State} (h : Kept mq lk s0 s)
    (hf : ∀ t x, Kept mq lk s0 t → Kept mq lk s0 (f t x)) : Kept mq lk s0 (s.eachAx f) := Kept.foldl h hf

theorem State.eachOf_kept {b : BankId} {f : State → AxisId → State} (h : Kept mq lk s0 s)
    (hf : ∀ t x, Kept mq lk s0 t → Kept mq lk s0 (f t x)) : Kept mq lk s0 (s.eachOf b f) :=
  Kept.foldl h fun t _ => hf t _

theorem State.setReg_kept {k : Nat} {v : Word} (h : Kept mq lk s0 s) : Kept mq lk s0 (s.setReg k v) := by
  refine h.trans ?_
  unfold State.setReg
  split
  · exact ⟨rfl, Nat.le_refl _, fun x => ⟨x.mem, storeSet_wf x.regs k v, storeSet_wf x.tmrB k v, storeSet_wf x.tmrC k v,
      x.desc, x.tags, x.hearth⟩, fun _ => id, fun _ => rfl⟩
  · exact ⟨rfl, Nat.le_refl _, fun x => ⟨x.mem, storeSet_wf x.regs k v, x.tmrB, x.tmrC, x.desc, x.tags, x.hearth⟩, fun _ => id,
      fun _ => rfl⟩

theorem State.setByte_kept {o : Nat} {v : Byte} (h : Kept false lk s0 s) : Kept false lk s0 (s.setByte o v) :=
  h.trans ⟨rfl, Nat.le_refl _, fun x => ⟨storeSet_wf x.mem o v, x.regs, x.tmrB, x.tmrC, x.desc, x.tags, x.hearth⟩, fun _ => id,
    nofun⟩

theorem State.zeroBlock_kept {k : Nat} (h : Kept false lk s0 s) : Kept false lk s0 (s.zeroBlock k) :=
  h.trans ⟨rfl, Nat.le_refl _, fun x => ⟨storeFilter_wf x.mem _, x.regs, x.tmrB, x.tmrC, x.desc, x.tags, x.hearth⟩, fun _ => id,
    nofun⟩

theorem State.setBlk_kept {k : Nat} {d : Desc} (h : Kept mq lk s0 s) : Kept mq lk s0 (s.setBlk k d) :=
  h.trans ⟨rfl, Nat.le_refl _, fun x => ⟨x.mem, x.regs, x.tmrB, x.tmrC, storeSet_wf x.desc k d, x.tags, x.hearth⟩, fun _ => id,
    fun _ => rfl⟩

/-- The timebase goes on. -/
theorem Kept.clock {n : Nat} (h : Kept mq lk s0 s) (hn : s.tb ≤ n) : Kept mq lk s0 { s with tb := n } :=
  h.trans ⟨rfl, hn, fun x => ⟨x.mem, x.regs, x.tmrB, x.tmrC, x.desc, x.tags, x.hearth⟩, fun _ => id, fun _ => rfl⟩

/-- A state begun anew. -/
theorem Kept.fresh (h : Kept false false s0 s) (hp : t.pending = s.pending) (ht : t.tb = s.tb) (hm : t.mem = [])
    (hr : t.regs = []) (hb : t.tmrB = []) (hc : t.tmrC = []) (hd : t.desc = []) (hg : t.tags = [])
    (hh : s.hearth.wf = true → t.hearth.wf = true) : Kept false false s0 t :=
  h.trans ⟨hp, Nat.le_of_eq ht.symm, fun x => ⟨hm ▸ rfl, hr ▸ rfl, hb ▸ rfl, hc ▸ rfl, hd ▸ rfl,
    by simp [State.tagsOk, hg], hh x.hearth⟩, nofun, nofun⟩

/-- The owners of blocks that are not free change, with fields that `Kept` does not speak of. -/
theorem Kept.descMap {f : Desc → Desc} (hr : t.regs = s.regs) (h : Kept mq lk s0 s)
    (hf : ∀ d, d ≠ Desc.free → f d ≠ Desc.free) (hp : t.pending = s.pending) (ht : t.tb = s.tb) (hm : t.mem = s.mem)
    (hb : t.tmrB = s.tmrB) (hc : t.tmrC = s.tmrC) (hd : t.desc = s.desc.map fun c => (c.1, f c.2))
    (hg : t.tags = s.tags) (hn : t.nextId = s.nextId) (hl : t.locked = s.locked)
    (hh : s.hearth.wf = true → t.hearth.wf = true) : Kept mq lk s0 t :=
  h.trans ⟨hp, Nat.le_of_eq ht.symm, fun x => ⟨hm ▸ x.mem, hr ▸ x.regs, hb ▸ x.tmrB, hc ▸ x.tmrC,
    hd ▸ storeMap_wf (fun _ => hf) x.desc, by have := x.tags; unfold State.tagsOk at *; rwa [hg, hn], hh x.hearth⟩,
    fun _ x => hl ▸ x, fun _ => hm⟩

/-- Open commands change, leave, or stay: no number is new. -/
theorem Kept.tags {l : List Cmd} (h : Kept mq lk s0 s) (hl : (l.map Cmd.id).Sublist (s.tags.map Cmd.id)) :
    Kept mq lk s0 { s with tags := l } :=
  h.trans ⟨rfl, Nat.le_refl _, fun x => ⟨x.mem, x.regs, x.tmrB, x.tmrC, x.desc, ⟨x.tags.1.sublist hl, fun c hc => by
    obtain ⟨d, hd, e⟩ := List.mem_map.mp (hl.subset (List.mem_map_of_mem (f := Cmd.id) hc))
    exact e ▸ x.tags.2 d hd⟩, x.hearth⟩, fun _ => id, fun _ => rfl⟩

theorem Kept.tagsFilter {p : Cmd → Bool} (h : Kept mq lk s0 s) : Kept mq lk s0 { s with tags := s.tags.filter p } :=
  h.tags (List.Sublist.map _ List.filter_sublist)

theorem State.setCmd_kept {c : Cmd} (h : Kept mq lk s0 s) : Kept mq lk s0 (s.setCmd c) := by
  refine h.tags ?_
  rw [List.map_map, List.map_congr_left (g := Cmd.id) fun d _ => ?_]
  simp only [Function.comp]
  split <;> simp_all

/-- A command is entered with the next number. -/
theorem Kept.enter {c : Cmd} (h : Kept mq lk s0 s) (hc : c.id = s.nextId) :
    Kept mq lk s0 { s with tags := s.tags ++ [c], nextId := s.nextId + 1 } :=
  h.trans ⟨rfl, Nat.le_refl _, fun x => ⟨x.mem, x.regs, x.tmrB, x.tmrC, x.desc, by
    have hx := x.tags
    unfold State.tagsOk at *
    refine ⟨?_, fun d hd => ?_⟩
    · rw [List.map_append, List.nodup_append]
      refine ⟨hx.1, List.nodup_singleton _, fun i hi j hj e => ?_⟩
      obtain ⟨d, hd, rfl⟩ := List.mem_map.mp hi
      simp only [List.map_cons, List.map_nil, List.mem_singleton] at hj
      have := hx.2 d hd
      omega
    · rcases List.mem_append.mp hd with hd | hd
      · have := hx.2 d hd
        show d.id < s.nextId + 1
        omega
      · simp only [List.mem_singleton] at hd
        subst hd
        show d.id < s.nextId + 1
        omega, x.hearth⟩, fun _ => id, fun _ => rfl⟩

theorem State.drawNat_kept {p : Nat × State} (e : s.drawNat = p) (h : Kept mq lk s0 s) : Kept mq lk s0 p.2 := by
  subst e; exact h.same rfl rfl rfl rfl rfl rfl rfl rfl rfl rfl id

end Sys2Proof.Machine
end

