-- ==== Sys2Proof/Laws/KeptOps.lean ====
section
/-! SUPPORT. That each operation of Flags.lean, Ops.lean, Time.lean, Traj.lean, Observer.lean, Loop.lean, Tile.lean,
Pool.lean keeps what `Kept` says. -/

namespace Sys2Proof.Machine

variable {mq lk : Bool} {s0 : State}

/-- Fields that `Kept` does not speak of change. -/
theorem Kept.upd {s : State} {f3 : _} {f4 : _} {f5 : _} {f6 : _} {f7 : _} {f9 : _} {f10 : _} {f11 : _} {f14 : _} {f15 : _} {f16 : _} {f17 : _} {f18 : _} {f19 : _} {f20 : _} {f21 : _} {f22 : _} {f23 : _} {f26 : _} {f27 : _} {f28 : _} {f29 : _} {f30 : _} {f31 : _} {f32 : _} {f33 : _} {f34 : _} {f35 : _} {f37 : _} {f39 : _} {f40 : _} {f41 : _} {f42 : _} {f43 : _} {f44 : _} {f45 : _} {f46 : _} {f47 : _} {f48 : _} {f49 : _} {f50 : _} {f51 : _} {f52 : _} (h : Kept mq lk s0 s) :
    Kept mq lk s0 ⟨s.regs, s.tmrB, s.tmrC, f3, f4, f5, f6, f7, s.tb, f9, f10, f11, s.tags, s.nextId, f14, f15, f16, f17, f18, f19, f20, f21, f22, f23, s.desc, s.mem, f26, f27, f28, f29, f30, f31, f32, f33, f34, f35, s.locked, f37, s.hearth, f39, f40, f41, f42, f43, f44, f45, f46, f47, f48, f49, f50, f51, f52, s.pending⟩ := h.same rfl rfl rfl rfl rfl rfl rfl rfl rfl rfl id

/-- The same where the retained storage may change. -/
theorem Kept.updH {s : State} {f3 : _} {f4 : _} {f5 : _} {f6 : _} {f7 : _} {f9 : _} {f10 : _} {f11 : _} {f14 : _} {f15 : _} {f16 : _} {f17 : _} {f18 : _} {f19 : _} {f20 : _} {f21 : _} {f22 : _} {f23 : _} {f26 : _} {f27 : _} {f28 : _} {f29 : _} {f30 : _} {f31 : _} {f32 : _} {f33 : _} {f34 : _} {f35 : _} {f37 : _} {f39 : _} {f40 : _} {f41 : _} {f42 : _} {f43 : _} {f44 : _} {f45 : _} {f46 : _} {f47 : _} {f48 : _} {f49 : _} {f50 : _} {f51 : _} {f52 : _} {h : Hearth} (hk : Kept mq lk s0 s)
    (hh : s.hearth.wf = true → h.wf = true) : Kept mq lk s0 ⟨s.regs, s.tmrB, s.tmrC, f3, f4, f5, f6, f7, s.tb, f9, f10, f11, s.tags, s.nextId, f14, f15, f16, f17, f18, f19, f20, f21, f22, f23, s.desc, s.mem, f26, f27, f28, f29, f30, f31, f32, f33, f34, f35, s.locked, f37, h, f39, f40, f41, f42, f43, f44, f45, f46, f47, f48, f49, f50, f51, f52, s.pending⟩ := hk.same rfl rfl rfl rfl rfl rfl rfl rfl rfl rfl hh

theorem State.setFld_kept {k : Nat} {lo : Nat} {w : Nat} {v : Nat} {s : State} (h : Kept mq lk s0 s) :
    Kept mq lk s0 (State.setFld s k lo w v) := by
  unfold State.setFld
  try dsimp only
  repeat'
    first
      | with_reducible assumption
      | with_reducible refine Kept.ite (fun _ => ?_) (fun _ => ?_)
      | with_reducible refine Kept.ite2 (fun _ => ?_) (fun _ => ?_)
      | with_reducible refine Kept.dite (fun _ => ?_) (fun _ => ?_)
      | with_reducible refine State.setReg_kept ?_

theorem State.setBit_kept {k : Nat} {i : Nat} {b : Bool} {s : State} (h : Kept mq lk s0 s) :
    Kept mq lk s0 (State.setBit s k i b) := by
  unfold State.setBit
  try dsimp only
  repeat'
    first
      | with_reducible assumption
      | with_reducible refine Kept.ite (fun _ => ?_) (fun _ => ?_)
      | with_reducible refine Kept.ite2 (fun _ => ?_) (fun _ => ?_)
      | with_reducible refine Kept.dite (fun _ => ?_) (fun _ => ?_)
      | with_reducible refine State.setReg_kept ?_

theorem State.mark_kept {k : Nat} {lo : Nat} {w : Nat} {kind : WinKind} {s : State} (h : Kept mq lk s0 s) :
    Kept mq lk s0 (State.mark s k lo w kind) := by
  unfold State.mark
  try dsimp only
  repeat'
    first
      | with_reducible assumption
      | with_reducible refine Kept.ite (fun _ => ?_) (fun _ => ?_)
      | with_reducible refine Kept.ite2 (fun _ => ?_) (fun _ => ?_)
      | with_reducible refine Kept.dite (fun _ => ?_) (fun _ => ?_)
      | with_reducible refine Kept.foldl ?_ ?_
      | fail_if_no_progress with_reducible refine Kept.upd ?_

theorem State.flag_kept {k : Nat} {i : Nat} {s : State} (h : Kept mq lk s0 s) :
    Kept mq lk s0 (State.flag s k i) := by
  unfold State.flag
  try dsimp only
  repeat'
    first
      | with_reducible assumption
      | with_reducible refine Kept.ite (fun _ => ?_) (fun _ => ?_)
      | with_reducible refine Kept.ite2 (fun _ => ?_) (fun _ => ?_)
      | with_reducible refine Kept.dite (fun _ => ?_) (fun _ => ?_)
      | with_reducible refine State.mark_kept ?_
      | with_reducible refine State.setBit_kept ?_

theorem State.irq_kept {i : Nat} {s : State} (h : Kept mq lk s0 s) :
    Kept mq lk s0 (State.irq s i) := by
  unfold State.irq
  try dsimp only
  repeat'
    first
      | with_reducible assumption
      | with_reducible refine Kept.ite (fun _ => ?_) (fun _ => ?_)
      | with_reducible refine Kept.ite2 (fun _ => ?_) (fun _ => ?_)
      | with_reducible refine Kept.dite (fun _ => ?_) (fun _ => ?_)
      | with_reducible refine State.flag_kept ?_

theorem State.bump_kept {k : Nat} {lo : Nat} {w : Nat} {s : State} (h : Kept mq lk s0 s) :
    Kept mq lk s0 (State.bump s k lo w) := by
  unfold State.bump
  try dsimp only
  repeat'
    first
      | with_reducible assumption
      | with_reducible refine Kept.ite (fun _ => ?_) (fun _ => ?_)
      | with_reducible refine Kept.ite2 (fun _ => ?_) (fun _ => ?_)
      | with_reducible refine Kept.dite (fun _ => ?_) (fun _ => ?_)
      | with_reducible refine State.mark_kept ?_
      | with_reducible refine State.setFld_kept ?_

theorem State.bumpMod_kept {k : Nat} {lo : Nat} {w : Nat} {s : State} (h : Kept mq lk s0 s) :
    Kept mq lk s0 (State.bumpMod s k lo w) := by
  unfold State.bumpMod
  try dsimp only
  repeat'
    first
      | with_reducible assumption
      | with_reducible refine Kept.ite (fun _ => ?_) (fun _ => ?_)
      | with_reducible refine Kept.ite2 (fun _ => ?_) (fun _ => ?_)
      | with_reducible refine Kept.dite (fun _ => ?_) (fun _ => ?_)
      | with_reducible refine State.mark_kept ?_
      | with_reducible refine State.setFld_kept ?_

theorem State.peak_kept {k : Nat} {lo : Nat} {w : Nat} {v : Nat} {s : State} (h : Kept mq lk s0 s) :
    Kept mq lk s0 (State.peak s k lo w v) := by
  unfold State.peak
  try dsimp only
  repeat'
    first
      | with_reducible assumption
      | with_reducible refine Kept.ite (fun _ => ?_) (fun _ => ?_)
      | with_reducible refine Kept.ite2 (fun _ => ?_) (fun _ => ?_)
      | with_reducible refine Kept.dite (fun _ => ?_) (fun _ => ?_)
      | with_reducible refine State.setFld_kept ?_
      | with_reducible refine State.mark_kept ?_

theorem State.again_kept {m : WinMark} {s : State} (h : Kept mq lk s0 s) :
    Kept mq lk s0 (State.again s m) := by
  unfold State.again
  try dsimp only
  repeat'
    first
      | with_reducible assumption
      | with_reducible refine Kept.ite (fun _ => ?_) (fun _ => ?_)
      | with_reducible refine Kept.ite2 (fun _ => ?_) (fun _ => ?_)
      | with_reducible refine Kept.dite (fun _ => ?_) (fun _ => ?_)
      | with_reducible refine State.mark_kept ?_
      | with_reducible refine State.bumpMod_kept ?_
      | with_reducible refine State.bump_kept ?_
      | with_reducible refine State.peak_kept ?_
      | with_reducible refine State.setFld_kept ?_
      | with_reducible refine Kept.foldl ?_ ?_
      | fail_if_no_progress with_reducible refine Kept.upd ?_
      | refine Kept.tagsFilter ?_
      | dsimp only
      | split

theorem State.landed_kept {k : Nat} {v : Word} {s : State} (h : Kept mq lk s0 s) :
    Kept mq lk s0 (State.landed s k v) := by
  unfold State.landed
  try dsimp only
  repeat'
    first
      | with_reducible assumption
      | with_reducible refine Kept.ite (fun _ => ?_) (fun _ => ?_)
      | with_reducible refine Kept.ite2 (fun _ => ?_) (fun _ => ?_)
      | with_reducible refine Kept.dite (fun _ => ?_) (fun _ => ?_)
      | with_reducible refine State.again_kept ?_
      | with_reducible refine State.mark_kept ?_
      | with_reducible refine Kept.foldl ?_ ?_
      | fail_if_no_progress with_reducible refine Kept.upd ?_
      | refine Kept.tagsFilter ?_
      | dsimp only
      | split
      | (intro _; intros; try dsimp only)

theorem State.unwound_kept {k : Nat} {s : State} (h : Kept mq lk s0 s) :
    Kept mq lk s0 (State.unwound s k) := by
  unfold State.unwound
  refine Kept.foldr h fun t x ht => ?_
  split
  all_goals first | exact State.setFld_kept ht | exact ht

theorem State.plainWrite_kept {k : Nat} {v : Word} {s : State} (h : Kept mq lk s0 s) :
    Kept mq lk s0 (State.plainWrite s k v) := by
  unfold State.plainWrite
  try dsimp only
  repeat'
    first
      | with_reducible assumption
      | with_reducible refine Kept.ite (fun _ => ?_) (fun _ => ?_)
      | with_reducible refine Kept.ite2 (fun _ => ?_) (fun _ => ?_)
      | with_reducible refine Kept.dite (fun _ => ?_) (fun _ => ?_)
      | with_reducible refine State.landed_kept ?_
      | with_reducible refine State.setReg_kept ?_
      | with_reducible refine Kept.foldl ?_ ?_
      | fail_if_no_progress with_reducible refine Kept.upd ?_
      | refine Kept.tagsFilter ?_
      | refine Kept.enter ?_ ?_
      | dsimp only
      | split

theorem State.setAx_kept {a : AxisId} {x : Axis} {s : State} (h : Kept mq lk s0 s) :
    Kept mq lk s0 (State.setAx s a x) := by
  unfold State.setAx
  try dsimp only
  repeat'
    first
      | with_reducible assumption
      | with_reducible refine Kept.ite (fun _ => ?_) (fun _ => ?_)
      | with_reducible refine Kept.ite2 (fun _ => ?_) (fun _ => ?_)
      | with_reducible refine Kept.dite (fun _ => ?_) (fun _ => ?_)
      | with_reducible refine Kept.foldl ?_ ?_
      | fail_if_no_progress with_reducible refine Kept.upd ?_

theorem State.modAx_kept {a : AxisId} {f : Axis → Axis} {s : State} (h : Kept mq lk s0 s) :
    Kept mq lk s0 (State.modAx s a f) := by
  unfold State.modAx
  try dsimp only
  repeat'
    first
      | with_reducible assumption
      | with_reducible refine Kept.ite (fun _ => ?_) (fun _ => ?_)
      | with_reducible refine Kept.ite2 (fun _ => ?_) (fun _ => ?_)
      | with_reducible refine Kept.dite (fun _ => ?_) (fun _ => ?_)
      | with_reducible refine State.setAx_kept ?_

theorem State.setPro_kept {a : AxisId} {p : Pro} {s : State} (h : Kept mq lk s0 s) :
    Kept mq lk s0 (State.setPro s a p) := by
  unfold State.setPro
  try dsimp only
  repeat'
    first
      | with_reducible assumption
      | with_reducible refine Kept.ite (fun _ => ?_) (fun _ => ?_)
      | with_reducible refine Kept.ite2 (fun _ => ?_) (fun _ => ?_)
      | with_reducible refine Kept.dite (fun _ => ?_) (fun _ => ?_)
      | with_reducible refine State.modAx_kept ?_

theorem State.setStp_kept {a : AxisId} {p : Stp} {s : State} (h : Kept mq lk s0 s) :
    Kept mq lk s0 (State.setStp s a p) := by
  unfold State.setStp
  try dsimp only
  repeat'
    first
      | with_reducible assumption
      | with_reducible refine Kept.ite (fun _ => ?_) (fun _ => ?_)
      | with_reducible refine Kept.ite2 (fun _ => ?_) (fun _ => ?_)
      | with_reducible refine Kept.dite (fun _ => ?_) (fun _ => ?_)
      | with_reducible refine State.modAx_kept ?_

theorem State.setChp_kept {a : AxisId} {p : Chp} {s : State} (h : Kept mq lk s0 s) :
    Kept mq lk s0 (State.setChp s a p) := by
  unfold State.setChp
  try dsimp only
  repeat'
    first
      | with_reducible assumption
      | with_reducible refine Kept.ite (fun _ => ?_) (fun _ => ?_)
      | with_reducible refine Kept.ite2 (fun _ => ?_) (fun _ => ?_)
      | with_reducible refine Kept.dite (fun _ => ?_) (fun _ => ?_)
      | with_reducible refine State.modAx_kept ?_

theorem State.setPwm_kept {a : AxisId} {p : Pwm} {s : State} (h : Kept mq lk s0 s) :
    Kept mq lk s0 (State.setPwm s a p) := by
  unfold State.setPwm
  try dsimp only
  repeat'
    first
      | with_reducible assumption
      | with_reducible refine Kept.ite (fun _ => ?_) (fun _ => ?_)
      | with_reducible refine Kept.ite2 (fun _ => ?_) (fun _ => ?_)
      | with_reducible refine Kept.dite (fun _ => ?_) (fun _ => ?_)
      | with_reducible refine State.modAx_kept ?_

theorem State.setLoop_kept {a : AxisId} {p : LoopAxis} {s : State} (h : Kept mq lk s0 s) :
    Kept mq lk s0 (State.setLoop s a p) := by
  unfold State.setLoop
  try dsimp only
  repeat'
    first
      | with_reducible assumption
      | with_reducible refine Kept.ite (fun _ => ?_) (fun _ => ?_)
      | with_reducible refine Kept.ite2 (fun _ => ?_) (fun _ => ?_)
      | with_reducible refine Kept.dite (fun _ => ?_) (fun _ => ?_)
      | with_reducible refine State.modAx_kept ?_

theorem State.setObs_kept {a : AxisId} {p : Obs} {s : State} (h : Kept mq lk s0 s) :
    Kept mq lk s0 (State.setObs s a p) := by
  unfold State.setObs
  try dsimp only
  repeat'
    first
      | with_reducible assumption
      | with_reducible refine Kept.ite (fun _ => ?_) (fun _ => ?_)
      | with_reducible refine Kept.ite2 (fun _ => ?_) (fun _ => ?_)
      | with_reducible refine Kept.dite (fun _ => ?_) (fun _ => ?_)
      | with_reducible refine State.modAx_kept ?_

theorem State.setFault_kept {a : AxisId} {p : AxFault} {s : State} (h : Kept mq lk s0 s) :
    Kept mq lk s0 (State.setFault s a p) := by
  unfold State.setFault
  try dsimp only
  repeat'
    first
      | with_reducible assumption
      | with_reducible refine Kept.ite (fun _ => ?_) (fun _ => ?_)
      | with_reducible refine Kept.ite2 (fun _ => ?_) (fun _ => ?_)
      | with_reducible refine Kept.dite (fun _ => ?_) (fun _ => ?_)
      | with_reducible refine State.modAx_kept ?_

theorem State.setSt_kept {a : AxisId} {p : AxState} {s : State} (h : Kept mq lk s0 s) :
    Kept mq lk s0 (State.setSt s a p) := by
  unfold State.setSt
  try dsimp only
  repeat'
    first
      | with_reducible assumption
      | with_reducible refine Kept.ite (fun _ => ?_) (fun _ => ?_)
      | with_reducible refine Kept.ite2 (fun _ => ?_) (fun _ => ?_)
      | with_reducible refine Kept.dite (fun _ => ?_) (fun _ => ?_)
      | with_reducible refine State.modAx_kept ?_

theorem State.setBank_kept {b : BankId} {x : Bank} {s : State} (h : Kept mq lk s0 s) :
    Kept mq lk s0 (State.setBank s b x) := by
  unfold State.setBank
  try dsimp only
  repeat'
    first
      | with_reducible assumption
      | with_reducible refine Kept.ite (fun _ => ?_) (fun _ => ?_)
      | with_reducible refine Kept.ite2 (fun _ => ?_) (fun _ => ?_)
      | with_reducible refine Kept.dite (fun _ => ?_) (fun _ => ?_)
      | with_reducible refine Kept.foldl ?_ ?_
      | fail_if_no_progress with_reducible refine Kept.upd ?_

theorem State.setTile_kept {a : AxisId} {t : TileAxis} {s : State} (h : Kept mq lk s0 s) :
    Kept mq lk s0 (State.setTile s a t) := by
  unfold State.setTile
  try dsimp only
  repeat'
    first
      | with_reducible assumption
      | with_reducible refine Kept.ite (fun _ => ?_) (fun _ => ?_)
      | with_reducible refine Kept.ite2 (fun _ => ?_) (fun _ => ?_)
      | with_reducible refine Kept.dite (fun _ => ?_) (fun _ => ?_)
      | with_reducible refine State.setBank_kept ?_

theorem State.setWord_kept {o : Nat} {v : Word} {s : State} (h : Kept false lk s0 s) :
    Kept false lk s0 (State.setWord s o v) := by
  unfold State.setWord
  try dsimp only
  repeat'
    first
      | with_reducible assumption
      | with_reducible refine Kept.ite (fun _ => ?_) (fun _ => ?_)
      | with_reducible refine Kept.ite2 (fun _ => ?_) (fun _ => ?_)
      | with_reducible refine Kept.dite (fun _ => ?_) (fun _ => ?_)
      | with_reducible refine State.setByte_kept ?_

theorem State.trace_kept {it : TraceItem} {s : State} (h : Kept mq lk s0 s) :
    Kept mq lk s0 (State.trace s it) := by
  unfold State.trace
  try dsimp only
  repeat'
    first
      | with_reducible assumption
      | with_reducible refine Kept.ite (fun _ => ?_) (fun _ => ?_)
      | with_reducible refine Kept.ite2 (fun _ => ?_) (fun _ => ?_)
      | with_reducible refine Kept.dite (fun _ => ?_) (fun _ => ?_)
      | with_reducible refine State.bump_kept ?_
      | with_reducible refine Kept.foldl ?_ ?_
      | fail_if_no_progress with_reducible refine Kept.upd ?_
      | refine Kept.tagsFilter ?_
      | refine Kept.enter ?_ ?_
      | (intro _; intros; try dsimp only)

theorem State.credit_kept2 {p : Port} {final : Bool} {entered : Bool} {s : State} (h : Kept mq lk s0 s) :
    Kept mq lk s0 (State.credit s p final entered).2 := by
  unfold State.credit
  try dsimp only
  repeat'
    first
      | with_reducible assumption
      | with_reducible refine Kept.ite (fun _ => ?_) (fun _ => ?_)
      | with_reducible refine Kept.ite2 (fun _ => ?_) (fun _ => ?_)
      | with_reducible refine Kept.dite (fun _ => ?_) (fun _ => ?_)
      | with_reducible refine Kept.foldl ?_ ?_
      | fail_if_no_progress with_reducible refine Kept.upd ?_

theorem State.credit_kept {p : Port} {final : Bool} {entered : Bool} {s t : State} {x : Nat} (e : State.credit s p final entered = (x, t)) (h : Kept mq lk s0 s) :
    Kept mq lk s0 t := by
  have := State.credit_kept2 (s := s) (p := p) (final := final) (entered := entered) (h := h)
  rw [e] at this
  exact this

theorem State.reply_kept {p : Port} {src : Nat} {op : Nat} {tag : Nat} {target : Nat} {stamped : Bool} {st : Status} {words : List Word} {stamp : Nat} {final : Bool} {entered : Bool} {s : State} (h : Kept mq lk s0 s) :
    Kept mq lk s0 (State.reply s p src op tag target stamped st words stamp final entered) := by
  unfold State.reply
  try dsimp only
  repeat'
    first
      | with_reducible assumption
      | with_reducible refine Kept.ite (fun _ => ?_) (fun _ => ?_)
      | with_reducible refine Kept.ite2 (fun _ => ?_) (fun _ => ?_)
      | with_reducible refine Kept.dite (fun _ => ?_) (fun _ => ?_)
      | with_reducible refine State.trace_kept ?_
      | with_reducible refine State.credit_kept2 ?_
      | with_reducible refine State.credit_kept (by with_reducible assumption) ?_
      | with_reducible refine Kept.foldl ?_ ?_
      | fail_if_no_progress with_reducible refine Kept.upd ?_

theorem State.poolItem_kept {h : Hdr} {axis : Nat} {s : State} (hk : Kept mq lk s0 s) :
    Kept mq lk s0 (State.poolItem s h axis) := by
  unfold State.poolItem
  try dsimp only
  repeat'
    first
      | with_reducible assumption
      | with_reducible refine Kept.ite (fun _ => ?_) (fun _ => ?_)
      | with_reducible refine Kept.ite2 (fun _ => ?_) (fun _ => ?_)
      | with_reducible refine Kept.dite (fun _ => ?_) (fun _ => ?_)
      | with_reducible refine State.trace_kept ?_
      | with_reducible refine Kept.foldl ?_ ?_
      | fail_if_no_progress with_reducible refine Kept.upd ?_
      | refine Kept.tagsFilter ?_
      | dsimp only
      | split
      | (intro _; intros; try dsimp only)

theorem State.promote_kept {target : Nat} {s : State} (h : Kept mq lk s0 s) :
    Kept mq lk s0 (State.promote s target) := by
  unfold State.promote
  try dsimp only
  repeat'
    first
      | with_reducible assumption
      | with_reducible refine Kept.ite (fun _ => ?_) (fun _ => ?_)
      | with_reducible refine Kept.ite2 (fun _ => ?_) (fun _ => ?_)
      | with_reducible refine Kept.dite (fun _ => ?_) (fun _ => ?_)
      | with_reducible refine State.place_kept ?_
      | with_reducible refine State.setCmd_kept ?_
      | with_reducible refine Kept.foldl ?_ ?_
      | fail_if_no_progress with_reducible refine Kept.upd ?_
      | refine Kept.tagsFilter ?_
      | refine Kept.enter ?_ ?_
      | dsimp only
      | split

theorem State.finish_kept {id : Nat} {st : Status} {words : List Word} {stamp : Nat} {s : State} (h : Kept mq lk s0 s) :
    Kept mq lk s0 (State.finish s id st words stamp) := by
  unfold State.finish
  try dsimp only
  repeat'
    first
      | with_reducible assumption
      | with_reducible refine Kept.ite (fun _ => ?_) (fun _ => ?_)
      | with_reducible refine Kept.ite2 (fun _ => ?_) (fun _ => ?_)
      | with_reducible refine Kept.dite (fun _ => ?_) (fun _ => ?_)
      | with_reducible refine State.reply_kept ?_
      | with_reducible refine State.promote_kept ?_
      | with_reducible refine Kept.foldl ?_ ?_
      | fail_if_no_progress with_reducible refine Kept.upd ?_
      | refine Kept.tagsFilter ?_
      | refine Kept.enter ?_ ?_
      | dsimp only
      | split

theorem State.fail_kept {id : Nat} {st : Status} {index : Nat} {tagref : Nat} {stamp : Nat} {s : State} (h : Kept mq lk s0 s) :
    Kept mq lk s0 (State.fail s id st index tagref stamp) := by
  unfold State.fail
  try dsimp only
  repeat'
    first
      | with_reducible assumption
      | with_reducible refine Kept.ite (fun _ => ?_) (fun _ => ?_)
      | with_reducible refine Kept.ite2 (fun _ => ?_) (fun _ => ?_)
      | with_reducible refine Kept.dite (fun _ => ?_) (fun _ => ?_)
      | with_reducible refine State.finish_kept ?_
      | with_reducible refine Kept.foldl ?_ ?_
      | fail_if_no_progress with_reducible refine Kept.upd ?_
      | refine Kept.tagsFilter ?_
      | refine Kept.enter ?_ ?_
      | dsimp only
      | split

theorem State.done_kept {id : Nat} {s : State} (h : Kept mq lk s0 s) :
    Kept mq lk s0 (State.done s id) := by
  unfold State.done
  try dsimp only
  repeat'
    first
      | with_reducible assumption
      | with_reducible refine Kept.ite (fun _ => ?_) (fun _ => ?_)
      | with_reducible refine Kept.ite2 (fun _ => ?_) (fun _ => ?_)
      | with_reducible refine Kept.dite (fun _ => ?_) (fun _ => ?_)
      | with_reducible refine State.finish_kept ?_

theorem State.sendStarted_kept {id : Nat} {s : State} (h : Kept mq lk s0 s) :
    Kept mq lk s0 (State.sendStarted s id) := by
  unfold State.sendStarted
  try dsimp only
  repeat'
    first
      | with_reducible assumption
      | with_reducible refine Kept.ite (fun _ => ?_) (fun _ => ?_)
      | with_reducible refine Kept.ite2 (fun _ => ?_) (fun _ => ?_)
      | with_reducible refine Kept.dite (fun _ => ?_) (fun _ => ?_)
      | with_reducible refine State.reply_kept ?_
      | with_reducible refine Kept.foldl ?_ ?_
      | fail_if_no_progress with_reducible refine Kept.upd ?_
      | refine Kept.tagsFilter ?_
      | refine Kept.enter ?_ ?_
      | dsimp only
      | split

theorem State.finishAll_kept {ids : List Nat} {st : Status} {s : State} (h : Kept mq lk s0 s) :
    Kept mq lk s0 (State.finishAll s ids st) := by
  unfold State.finishAll
  try dsimp only
  repeat'
    first
      | with_reducible assumption
      | with_reducible refine Kept.ite (fun _ => ?_) (fun _ => ?_)
      | with_reducible refine Kept.ite2 (fun _ => ?_) (fun _ => ?_)
      | with_reducible refine Kept.dite (fun _ => ?_) (fun _ => ?_)
      | with_reducible refine State.fail_kept ?_
      | with_reducible refine Kept.foldl ?_ ?_
      | fail_if_no_progress with_reducible refine Kept.upd ?_
      | refine Kept.tagsFilter ?_
      | refine Kept.enter ?_ ?_
      | (intro _; intros; try dsimp only)

theorem State.raiseItem_kept {it : FaultItem} {s : State} (h : Kept mq lk s0 s) :
    Kept mq lk s0 (State.raiseItem s it) := by
  unfold State.raiseItem
  try dsimp only
  repeat'
    first
      | with_reducible assumption
      | with_reducible refine Kept.ite (fun _ => ?_) (fun _ => ?_)
      | with_reducible refine Kept.ite2 (fun _ => ?_) (fun _ => ?_)
      | with_reducible refine Kept.dite (fun _ => ?_) (fun _ => ?_)
      | with_reducible refine State.trace_kept ?_
      | with_reducible refine Kept.foldl ?_ ?_
      | fail_if_no_progress with_reducible refine Kept.upd ?_

theorem State.raiseAt_kept {source : Nat} {cause : Nat} {sub : Nat} {sc : Scope} {cls : Nat} {s : State} (h : Kept mq lk s0 s) :
    Kept mq lk s0 (State.raiseAt s source cause sub sc cls) := by
  unfold State.raiseAt
  try dsimp only
  repeat'
    first
      | with_reducible assumption
      | with_reducible refine Kept.ite (fun _ => ?_) (fun _ => ?_)
      | with_reducible refine Kept.ite2 (fun _ => ?_) (fun _ => ?_)
      | with_reducible refine Kept.dite (fun _ => ?_) (fun _ => ?_)
      | with_reducible refine State.raiseItem_kept ?_

theorem State.raiseSc_kept {source : Nat} {cause : Nat} {sc : Scope} {s : State} (h : Kept mq lk s0 s) :
    Kept mq lk s0 (State.raiseSc s source cause sc) := by
  unfold State.raiseSc
  try dsimp only
  repeat'
    first
      | with_reducible assumption
      | with_reducible refine Kept.ite (fun _ => ?_) (fun _ => ?_)
      | with_reducible refine Kept.ite2 (fun _ => ?_) (fun _ => ?_)
      | with_reducible refine Kept.dite (fun _ => ?_) (fun _ => ?_)
      | with_reducible refine State.raiseAt_kept ?_

theorem State.raiseAx_kept {source : Nat} {cause : Nat} {sub : Nat} {a : AxisId} {s : State} (h : Kept mq lk s0 s) :
    Kept mq lk s0 (State.raiseAx s source cause sub a) := by
  unfold State.raiseAx
  try dsimp only
  repeat'
    first
      | with_reducible assumption
      | with_reducible refine Kept.ite (fun _ => ?_) (fun _ => ?_)
      | with_reducible refine Kept.ite2 (fun _ => ?_) (fun _ => ?_)
      | with_reducible refine Kept.dite (fun _ => ?_) (fun _ => ?_)
      | with_reducible refine State.raiseAt_kept ?_

theorem State.raiseBank_kept {cause : Nat} {b : BankId} {s : State} (h : Kept mq lk s0 s) :
    Kept mq lk s0 (State.raiseBank s cause b) := by
  unfold State.raiseBank
  try dsimp only
  repeat'
    first
      | with_reducible assumption
      | with_reducible refine Kept.ite (fun _ => ?_) (fun _ => ?_)
      | with_reducible refine Kept.ite2 (fun _ => ?_) (fun _ => ?_)
      | with_reducible refine Kept.dite (fun _ => ?_) (fun _ => ?_)
      | with_reducible refine State.raiseSc_kept ?_

theorem State.raiseMod_kept {source : Nat} {cause : Nat} {s : State} (h : Kept mq lk s0 s) :
    Kept mq lk s0 (State.raiseMod s source cause) := by
  unfold State.raiseMod
  try dsimp only
  repeat'
    first
      | with_reducible assumption
      | with_reducible refine Kept.ite (fun _ => ?_) (fun _ => ?_)
      | with_reducible refine Kept.ite2 (fun _ => ?_) (fun _ => ?_)
      | with_reducible refine Kept.dite (fun _ => ?_) (fun _ => ?_)
      | with_reducible refine State.raiseSc_kept ?_

theorem State.raiseC0_kept {source : Nat} {cause : Nat} {sc : Scope} {s : State} (h : Kept mq lk s0 s) :
    Kept mq lk s0 (State.raiseC0 s source cause sc) := by
  unfold State.raiseC0
  try dsimp only
  repeat'
    first
      | with_reducible assumption
      | with_reducible refine Kept.ite (fun _ => ?_) (fun _ => ?_)
      | with_reducible refine Kept.ite2 (fun _ => ?_) (fun _ => ?_)
      | with_reducible refine Kept.dite (fun _ => ?_) (fun _ => ?_)
      | with_reducible refine State.raiseAt_kept ?_

theorem State.pass_kept {n : Nat} {s : State} (h : Kept mq lk s0 s) : Kept mq lk s0 (s.pass n) := by
  unfold State.pass
  split
  · exact h
  · split
    · exact Kept.upd (h.clock (Nat.le_add_right _ _))
    · exact Kept.upd (h.clock (Nat.le_add_right _ _))

theorem State.advance_kept {dt : Nat} {s : State} (h : Kept mq lk s0 s) :
    Kept mq lk s0 (State.advance s dt) := by
  unfold State.advance
  try dsimp only
  repeat'
    first
      | with_reducible assumption
      | with_reducible refine Kept.ite (fun _ => ?_) (fun _ => ?_)
      | with_reducible refine Kept.ite2 (fun _ => ?_) (fun _ => ?_)
      | with_reducible refine Kept.dite (fun _ => ?_) (fun _ => ?_)
      | with_reducible refine State.pass_kept ?_
      | with_reducible refine Kept.foldl ?_ ?_
      | fail_if_no_progress with_reducible refine Kept.upd ?_

theorem State.whenClocked_kept {g : GateAct} {f : State → State} {s : State} (h : Kept mq lk s0 s)
    (hf : ∀ t, Kept mq lk s0 t → Kept mq lk s0 (f t)) : Kept mq lk s0 (State.whenClocked s g f) := by
  unfold State.whenClocked
  exact Kept.ite (fun _ => hf s h) (fun _ => Kept.upd h)

theorem State.setPend_kept {p : Port} {x : Option KeyedPend} {s : State} (h : Kept mq lk s0 s) :
    Kept mq lk s0 (State.setPend s p x) := by
  unfold State.setPend
  try dsimp only
  repeat'
    first
      | with_reducible assumption
      | with_reducible refine Kept.ite (fun _ => ?_) (fun _ => ?_)
      | with_reducible refine Kept.ite2 (fun _ => ?_) (fun _ => ?_)
      | with_reducible refine Kept.dite (fun _ => ?_) (fun _ => ?_)
      | with_reducible refine Kept.foldl ?_ ?_
      | fail_if_no_progress with_reducible refine Kept.upd ?_

theorem State.keyFail_kept {p : Port} {cause : Nat} {s : State} (h : Kept mq lk s0 s) :
    Kept mq lk s0 (State.keyFail s p cause) := by
  unfold State.keyFail
  try dsimp only
  repeat'
    first
      | with_reducible assumption
      | with_reducible refine Kept.ite (fun _ => ?_) (fun _ => ?_)
      | with_reducible refine Kept.ite2 (fun _ => ?_) (fun _ => ?_)
      | with_reducible refine Kept.dite (fun _ => ?_) (fun _ => ?_)
      | with_reducible refine State.setFld_kept ?_
      | with_reducible refine State.flag_kept ?_
      | with_reducible refine State.bump_kept ?_

theorem State.expire_kept {p : Port} {s : State} (h : Kept mq lk s0 s) :
    Kept mq lk s0 (State.expire s p) := by
  unfold State.expire
  try dsimp only
  repeat'
    first
      | with_reducible assumption
      | with_reducible refine Kept.ite (fun _ => ?_) (fun _ => ?_)
      | with_reducible refine Kept.ite2 (fun _ => ?_) (fun _ => ?_)
      | with_reducible refine Kept.dite (fun _ => ?_) (fun _ => ?_)
      | with_reducible refine State.setPend_kept ?_
      | with_reducible refine State.keyFail_kept ?_
      | with_reducible refine Kept.foldl ?_ ?_
      | fail_if_no_progress with_reducible refine Kept.upd ?_
      | refine Kept.tagsFilter ?_
      | refine Kept.enter ?_ ?_
      | dsimp only
      | split

theorem State.cancel_kept {p : Port} {s : State} (h : Kept mq lk s0 s) :
    Kept mq lk s0 (State.cancel s p) := by
  unfold State.cancel
  try dsimp only
  repeat'
    first
      | with_reducible assumption
      | with_reducible refine Kept.ite (fun _ => ?_) (fun _ => ?_)
      | with_reducible refine Kept.ite2 (fun _ => ?_) (fun _ => ?_)
      | with_reducible refine Kept.dite (fun _ => ?_) (fun _ => ?_)
      | with_reducible refine State.setPend_kept ?_
      | with_reducible refine State.keyFail_kept ?_
      | with_reducible refine State.expire_kept ?_
      | with_reducible refine Kept.foldl ?_ ?_
      | fail_if_no_progress with_reducible refine Kept.upd ?_
      | refine Kept.tagsFilter ?_
      | refine Kept.enter ?_ ?_
      | dsimp only
      | split

theorem State.portWrite_kept {p : Port} {f : State → State} {s : State} (h : Kept mq lk s0 s) (hf : ∀ t, Kept mq lk s0 t → Kept mq lk s0 (f t)) :
    Kept mq lk s0 (State.portWrite s p f) := by
  unfold State.portWrite
  try dsimp only
  repeat'
    first
      | with_reducible assumption
      | with_reducible refine Kept.ite (fun _ => ?_) (fun _ => ?_)
      | with_reducible refine Kept.ite2 (fun _ => ?_) (fun _ => ?_)
      | with_reducible refine Kept.dite (fun _ => ?_) (fun _ => ?_)
      | with_reducible refine State.cancel_kept ?_
      | apply hf

theorem State.observe_kept {a : AxisId} {m : Sample} {s : State} (h : Kept mq lk s0 s) :
    Kept mq lk s0 (State.observe s a m) := by
  unfold State.observe
  try dsimp only
  repeat'
    first
      | with_reducible assumption
      | with_reducible refine Kept.ite (fun _ => ?_) (fun _ => ?_)
      | with_reducible refine Kept.ite2 (fun _ => ?_) (fun _ => ?_)
      | with_reducible refine Kept.dite (fun _ => ?_) (fun _ => ?_)
      | with_reducible refine State.raiseC0_kept ?_
      | with_reducible refine State.setObs_kept ?_
      | with_reducible refine State.flag_kept ?_
      | with_reducible refine State.bump_kept ?_
      | with_reducible refine Kept.foldl ?_ ?_
      | fail_if_no_progress with_reducible refine Kept.upd ?_
      | refine Kept.tagsFilter ?_
      | dsimp only
      | split

theorem State.fzWindow_kept {a : AxisId} {strobe : Nat} {pMeas : Int} {encoder : Bool} {s : State} (h : Kept mq lk s0 s) :
    Kept mq lk s0 (State.fzWindow s a strobe pMeas encoder) := by
  unfold State.fzWindow
  try dsimp only
  repeat'
    first
      | with_reducible assumption
      | with_reducible refine Kept.ite (fun _ => ?_) (fun _ => ?_)
      | with_reducible refine Kept.ite2 (fun _ => ?_) (fun _ => ?_)
      | with_reducible refine Kept.dite (fun _ => ?_) (fun _ => ?_)
      | with_reducible refine State.setObs_kept ?_
      | with_reducible refine Kept.foldl ?_ ?_
      | fail_if_no_progress with_reducible refine Kept.upd ?_
      | refine Kept.tagsFilter ?_
      | dsimp only
      | split

theorem State.rearm_kept {a : AxisId} {s : State} (h : Kept mq lk s0 s) :
    Kept mq lk s0 (State.rearm s a) := by
  unfold State.rearm
  try dsimp only
  repeat'
    first
      | with_reducible assumption
      | with_reducible refine Kept.ite (fun _ => ?_) (fun _ => ?_)
      | with_reducible refine Kept.ite2 (fun _ => ?_) (fun _ => ?_)
      | with_reducible refine Kept.dite (fun _ => ?_) (fun _ => ?_)
      | with_reducible refine State.setObs_kept ?_

theorem State.writeRpu_kept {a : AxisId} {v : Word} {s : State} (h : Kept mq lk s0 s) :
    Kept mq lk s0 (State.writeRpu s a v) := by
  unfold State.writeRpu
  try dsimp only
  repeat'
    first
      | with_reducible assumption
      | with_reducible refine Kept.ite (fun _ => ?_) (fun _ => ?_)
      | with_reducible refine Kept.ite2 (fun _ => ?_) (fun _ => ?_)
      | with_reducible refine Kept.dite (fun _ => ?_) (fun _ => ?_)
      | with_reducible refine State.plainWrite_kept ?_
      | with_reducible refine State.setObs_kept ?_
      | with_reducible refine State.setBit_kept ?_
      | with_reducible refine Kept.foldl ?_ ?_
      | fail_if_no_progress with_reducible refine Kept.upd ?_
      | refine Kept.tagsFilter ?_
      | dsimp only
      | split

theorem State.startOuter_kept {a : AxisId} {s : State} (h : Kept mq lk s0 s) :
    Kept mq lk s0 (State.startOuter s a) := by
  unfold State.startOuter
  try dsimp only
  repeat'
    first
      | with_reducible assumption
      | with_reducible refine Kept.ite (fun _ => ?_) (fun _ => ?_)
      | with_reducible refine Kept.ite2 (fun _ => ?_) (fun _ => ?_)
      | with_reducible refine Kept.dite (fun _ => ?_) (fun _ => ?_)
      | with_reducible refine State.modAx_kept ?_

theorem State.clearFreeze_kept {a : AxisId} {s : State} (h : Kept mq lk s0 s) :
    Kept mq lk s0 (State.clearFreeze s a) := by
  unfold State.clearFreeze
  try dsimp only
  repeat'
    first
      | with_reducible assumption
      | with_reducible refine Kept.ite (fun _ => ?_) (fun _ => ?_)
      | with_reducible refine Kept.ite2 (fun _ => ?_) (fun _ => ?_)
      | with_reducible refine Kept.dite (fun _ => ?_) (fun _ => ?_)
      | with_reducible refine State.setFld_kept ?_
      | with_reducible refine State.mark_kept ?_
      | with_reducible refine State.setLoop_kept ?_

theorem State.stopOuter_kept {a : AxisId} {s : State} (h : Kept mq lk s0 s) :
    Kept mq lk s0 (State.stopOuter s a) := by
  unfold State.stopOuter
  try dsimp only
  repeat'
    first
      | with_reducible assumption
      | with_reducible refine Kept.ite (fun _ => ?_) (fun _ => ?_)
      | with_reducible refine Kept.ite2 (fun _ => ?_) (fun _ => ?_)
      | with_reducible refine Kept.dite (fun _ => ?_) (fun _ => ?_)
      | with_reducible refine State.clearFreeze_kept ?_
      | with_reducible refine State.setFld_kept ?_
      | with_reducible refine State.setLoop_kept ?_

theorem State.stopLoops_kept {a : AxisId} {s : State} (h : Kept mq lk s0 s) :
    Kept mq lk s0 (State.stopLoops s a) := by
  unfold State.stopLoops
  try dsimp only
  repeat'
    first
      | with_reducible assumption
      | with_reducible refine Kept.ite (fun _ => ?_) (fun _ => ?_)
      | with_reducible refine Kept.ite2 (fun _ => ?_) (fun _ => ?_)
      | with_reducible refine Kept.dite (fun _ => ?_) (fun _ => ?_)
      | with_reducible refine State.setFld_kept ?_
      | with_reducible refine State.setLoop_kept ?_
      | with_reducible refine State.stopOuter_kept ?_

theorem State.syncLoops_kept {a : AxisId} {s : State} (h : Kept mq lk s0 s) :
    Kept mq lk s0 (State.syncLoops s a) := by
  unfold State.syncLoops
  try dsimp only
  repeat'
    first
      | with_reducible assumption
      | with_reducible refine Kept.ite (fun _ => ?_) (fun _ => ?_)
      | with_reducible refine Kept.ite2 (fun _ => ?_) (fun _ => ?_)
      | with_reducible refine Kept.dite (fun _ => ?_) (fun _ => ?_)
      | with_reducible refine State.setLoop_kept ?_
      | with_reducible refine State.startOuter_kept ?_
      | with_reducible refine State.stopOuter_kept ?_

theorem State.stillCheck_kept {a : AxisId} {m : Sample} {s : State} (h : Kept mq lk s0 s) :
    Kept mq lk s0 (State.stillCheck s a m) := by
  unfold State.stillCheck
  try dsimp only
  repeat'
    first
      | with_reducible assumption
      | with_reducible refine Kept.ite (fun _ => ?_) (fun _ => ?_)
      | with_reducible refine Kept.ite2 (fun _ => ?_) (fun _ => ?_)
      | with_reducible refine Kept.dite (fun _ => ?_) (fun _ => ?_)
      | with_reducible refine State.setLoop_kept ?_
      | with_reducible refine State.raiseAx_kept ?_

theorem State.outerEval_kept {a : AxisId} {m : Sample} {s : State} (h : Kept mq lk s0 s) :
    Kept mq lk s0 (State.outerEval s a m) := by
  unfold State.outerEval
  try dsimp only
  repeat'
    first
      | with_reducible assumption
      | with_reducible refine Kept.ite (fun _ => ?_) (fun _ => ?_)
      | with_reducible refine Kept.ite2 (fun _ => ?_) (fun _ => ?_)
      | with_reducible refine Kept.dite (fun _ => ?_) (fun _ => ?_)
      | with_reducible refine State.setLoop_kept ?_
      | with_reducible refine State.fzWindow_kept ?_
      | with_reducible refine State.stillCheck_kept ?_

theorem State.unsettled_kept {a : AxisId} {m : Sample} {k : CoilId} {s : State} (h : Kept mq lk s0 s) :
    Kept mq lk s0 (State.unsettled s a m k) := by
  unfold State.unsettled
  try dsimp only
  repeat'
    first
      | with_reducible assumption
      | with_reducible refine Kept.ite (fun _ => ?_) (fun _ => ?_)
      | with_reducible refine Kept.ite2 (fun _ => ?_) (fun _ => ?_)
      | with_reducible refine Kept.dite (fun _ => ?_) (fun _ => ?_)
      | with_reducible refine State.setLoop_kept ?_
      | with_reducible refine State.flag_kept ?_
      | with_reducible refine Kept.foldl ?_ ?_
      | fail_if_no_progress with_reducible refine Kept.upd ?_
      | refine Kept.tagsFilter ?_
      | dsimp only
      | split
      | (intro _; intros; try dsimp only)

theorem State.icoil_kept {a : AxisId} {m : Sample} {k : CoilId} {s : State} (h : Kept mq lk s0 s) :
    Kept mq lk s0 (State.icoil s a m k) := by
  unfold State.icoil
  try dsimp only
  repeat'
    first
      | with_reducible assumption
      | with_reducible refine Kept.ite (fun _ => ?_) (fun _ => ?_)
      | with_reducible refine Kept.ite2 (fun _ => ?_) (fun _ => ?_)
      | with_reducible refine Kept.dite (fun _ => ?_) (fun _ => ?_)
      | with_reducible refine State.unsettled_kept ?_
      | with_reducible refine State.bridge_kept ?_
      | with_reducible refine State.flag_kept ?_
      | with_reducible refine State.setPwm_kept ?_
      | with_reducible refine State.setLoop_kept ?_

theorem State.writeFreeze_kept {a : AxisId} {v : Word} {s : State} (h : Kept mq lk s0 s) :
    Kept mq lk s0 (State.writeFreeze s a v) := by
  unfold State.writeFreeze
  try dsimp only
  repeat'
    first
      | with_reducible assumption
      | with_reducible refine Kept.ite (fun _ => ?_) (fun _ => ?_)
      | with_reducible refine Kept.ite2 (fun _ => ?_) (fun _ => ?_)
      | with_reducible refine Kept.dite (fun _ => ?_) (fun _ => ?_)
      | with_reducible refine State.plainWrite_kept ?_
      | with_reducible refine State.setLoop_kept ?_

theorem State.commandCoil_kept {a : AxisId} {k : CoilId} {pat : BitVec 4} {s : State} (h : Kept mq lk s0 s) :
    Kept mq lk s0 (State.commandCoil s a k pat) := by
  unfold State.commandCoil
  try dsimp only
  repeat'
    first
      | with_reducible assumption
      | with_reducible refine Kept.ite (fun _ => ?_) (fun _ => ?_)
      | with_reducible refine Kept.ite2 (fun _ => ?_) (fun _ => ?_)
      | with_reducible refine Kept.dite (fun _ => ?_) (fun _ => ?_)
      | with_reducible refine State.setTile_kept ?_

theorem State.gatesOff_kept {a : AxisId} {s : State} (h : Kept mq lk s0 s) :
    Kept mq lk s0 (State.gatesOff s a) := by
  unfold State.gatesOff
  try dsimp only
  repeat'
    first
      | with_reducible assumption
      | with_reducible refine Kept.ite (fun _ => ?_) (fun _ => ?_)
      | with_reducible refine Kept.ite2 (fun _ => ?_) (fun _ => ?_)
      | with_reducible refine Kept.dite (fun _ => ?_) (fun _ => ?_)
      | with_reducible refine State.setTile_kept ?_

theorem State.syncReady_kept {a : AxisId} {s : State} (h : Kept mq lk s0 s) :
    Kept mq lk s0 (State.syncReady s a) := by
  unfold State.syncReady
  try dsimp only
  repeat'
    first
      | with_reducible assumption
      | with_reducible refine Kept.ite (fun _ => ?_) (fun _ => ?_)
      | with_reducible refine Kept.ite2 (fun _ => ?_) (fun _ => ?_)
      | with_reducible refine Kept.dite (fun _ => ?_) (fun _ => ?_)
      | with_reducible refine State.setSt_kept ?_

theorem State.killAxis_kept {a : AxisId} {s : State} (h : Kept mq lk s0 s) :
    Kept mq lk s0 (State.killAxis s a) := by
  unfold State.killAxis
  try dsimp only
  repeat'
    first
      | with_reducible assumption
      | with_reducible refine Kept.ite (fun _ => ?_) (fun _ => ?_)
      | with_reducible refine Kept.ite2 (fun _ => ?_) (fun _ => ?_)
      | with_reducible refine Kept.dite (fun _ => ?_) (fun _ => ?_)
      | with_reducible refine State.modAx_kept ?_
      | with_reducible refine State.stopLoops_kept ?_
      | with_reducible refine State.gatesOff_kept ?_

theorem State.violation_kept {caller : Nat} {k : Nat} {s : State} (h : Kept mq lk s0 s) :
    Kept mq lk s0 (State.violation s caller k) := by
  unfold State.violation
  try dsimp only
  repeat'
    first
      | with_reducible assumption
      | with_reducible refine Kept.ite (fun _ => ?_) (fun _ => ?_)
      | with_reducible refine Kept.ite2 (fun _ => ?_) (fun _ => ?_)
      | with_reducible refine Kept.dite (fun _ => ?_) (fun _ => ?_)
      | with_reducible refine State.raiseC0_kept ?_
      | with_reducible refine State.setFld_kept ?_
      | with_reducible refine State.bump_kept ?_

theorem State.pickFree_kept2  {s : State} (h : Kept mq lk s0 s) :
    Kept mq lk s0 (State.pickFree s).2 := by
  unfold State.pickFree
  try dsimp only
  repeat'
    first
      | with_reducible assumption
      | with_reducible refine Kept.ite (fun _ => ?_) (fun _ => ?_)
      | with_reducible refine Kept.ite2 (fun _ => ?_) (fun _ => ?_)
      | with_reducible refine Kept.dite (fun _ => ?_) (fun _ => ?_)
      | with_reducible refine Kept.foldl ?_ ?_
      | fail_if_no_progress with_reducible refine Kept.upd ?_

theorem State.pickFree_kept  {s t : State} {x : Nat} (e : State.pickFree s = (x, t)) (h : Kept mq lk s0 s) :
    Kept mq lk s0 t := by
  have := State.pickFree_kept2 (s := s) (h := h)
  rw [e] at this
  exact this

theorem State.allocBlocks_kept2 {n : Nat} {owner lender : Nat} {s : State} (h : Kept mq lk s0 s) :
    Kept mq lk s0 (State.allocBlocks n owner lender s).2 := by
  induction n generalizing s with
  | zero => exact h
  | succ n ih => exact ih (State.setBlk_kept (State.pickFree_kept2 h))

theorem State.allocBlocks_kept {n owner lender : Nat} {s t : State} {x : List Nat}
    (e : State.allocBlocks n owner lender s = (x, t)) (h : Kept mq lk s0 s) : Kept mq lk s0 t := by
  have := State.allocBlocks_kept2 (n := n) (owner := owner) (lender := lender) h
  rw [e] at this
  exact this

theorem State.leaveRings_kept {k : Nat} {s : State} (h : Kept mq lk s0 s) :
    Kept mq lk s0 (State.leaveRings s k) := by
  unfold State.leaveRings
  try dsimp only
  repeat'
    first
      | with_reducible assumption
      | with_reducible refine Kept.ite (fun _ => ?_) (fun _ => ?_)
      | with_reducible refine Kept.ite2 (fun _ => ?_) (fun _ => ?_)
      | with_reducible refine Kept.dite (fun _ => ?_) (fun _ => ?_)
      | with_reducible refine State.setBit_kept ?_
      | with_reducible refine Kept.foldl ?_ ?_
      | fail_if_no_progress with_reducible refine Kept.upd ?_
      | refine Kept.tagsFilter ?_
      | dsimp only
      | split
      | (intro _; intros; try dsimp only)

theorem State.freeBlock_kept {k : Nat} {s : State} (h : Kept mq lk s0 s) :
    Kept mq lk s0 (State.freeBlock s k) := by
  unfold State.freeBlock
  try dsimp only
  repeat'
    first
      | with_reducible assumption
      | with_reducible refine Kept.ite (fun _ => ?_) (fun _ => ?_)
      | with_reducible refine Kept.ite2 (fun _ => ?_) (fun _ => ?_)
      | with_reducible refine Kept.dite (fun _ => ?_) (fun _ => ?_)
      | with_reducible refine State.bump_kept ?_
      | with_reducible refine State.setBlk_kept ?_
      | with_reducible refine Kept.foldl ?_ ?_
      | fail_if_no_progress with_reducible refine Kept.upd ?_

theorem State.portFree_kept {k : Nat} {s : State} (h : Kept mq lk s0 s) :
    Kept mq lk s0 (State.portFree s k) := by
  unfold State.portFree
  try dsimp only
  repeat'
    first
      | with_reducible assumption
      | with_reducible refine Kept.ite (fun _ => ?_) (fun _ => ?_)
      | with_reducible refine Kept.ite2 (fun _ => ?_) (fun _ => ?_)
      | with_reducible refine Kept.dite (fun _ => ?_) (fun _ => ?_)
      | with_reducible refine State.leaveRings_kept ?_
      | with_reducible refine State.freeBlock_kept ?_

theorem State.setInuse_kept {ks : List Nat} {b : Bool} {s : State} (h : Kept mq lk s0 s) :
    Kept mq lk s0 (State.setInuse s ks b) := by
  unfold State.setInuse
  try dsimp only
  repeat'
    first
      | with_reducible assumption
      | with_reducible refine Kept.ite (fun _ => ?_) (fun _ => ?_)
      | with_reducible refine Kept.ite2 (fun _ => ?_) (fun _ => ?_)
      | with_reducible refine Kept.dite (fun _ => ?_) (fun _ => ?_)
      | with_reducible refine State.setBlk_kept ?_
      | with_reducible refine Kept.foldl ?_ ?_
      | fail_if_no_progress with_reducible refine Kept.upd ?_
      | refine Kept.tagsFilter ?_
      | refine Kept.enter ?_ ?_
      | (intro _; intros; try dsimp only)

theorem State.rechain_kept {a : AxisId} {s : State} (h : Kept mq lk s0 s) :
    Kept mq lk s0 (State.rechain s a) := by
  unfold State.rechain
  try dsimp only
  repeat'
    first
      | with_reducible assumption
      | with_reducible refine Kept.ite (fun _ => ?_) (fun _ => ?_)
      | with_reducible refine Kept.ite2 (fun _ => ?_) (fun _ => ?_)
      | with_reducible refine Kept.dite (fun _ => ?_) (fun _ => ?_)
      | with_reducible refine State.setInuse_kept ?_
      | with_reducible refine State.setPro_kept ?_
      | with_reducible refine Kept.foldl ?_ ?_
      | fail_if_no_progress with_reducible refine Kept.upd ?_
      | refine Kept.tagsFilter ?_
      | dsimp only
      | split

theorem State.giveBlock_kept {caller : Nat} {owner : Nat} {k : Nat} {s : State} (h : Kept mq lk s0 s) :
    Kept mq lk s0 (State.giveBlock s caller owner k) := by
  unfold State.giveBlock
  try dsimp only
  repeat'
    first
      | with_reducible assumption
      | with_reducible refine Kept.ite (fun _ => ?_) (fun _ => ?_)
      | with_reducible refine Kept.ite2 (fun _ => ?_) (fun _ => ?_)
      | with_reducible refine Kept.dite (fun _ => ?_) (fun _ => ?_)
      | with_reducible refine State.rechain_kept ?_
      | with_reducible refine State.leaveRings_kept ?_
      | with_reducible refine State.setBlk_kept ?_

theorem State.quarantine_kept {a : AxisId} {closing : Bool} {s : State} (h : Kept mq lk s0 s) :
    Kept mq lk s0 (State.quarantine s a closing) := by
  unfold State.quarantine
  try dsimp only
  repeat'
    first
      | with_reducible assumption
      | with_reducible refine Kept.ite (fun _ => ?_) (fun _ => ?_)
      | with_reducible refine Kept.ite2 (fun _ => ?_) (fun _ => ?_)
      | with_reducible refine Kept.dite (fun _ => ?_) (fun _ => ?_)
      | with_reducible refine State.setBlk_kept ?_
      | with_reducible refine Kept.foldl ?_ ?_
      | fail_if_no_progress with_reducible refine Kept.upd ?_
      | refine Kept.tagsFilter ?_
      | refine Kept.enter ?_ ?_
      | (intro _; intros; try dsimp only)

theorem State.freeQuar_kept {a : Nat} {closing : Bool} {s : State} (h : Kept mq lk s0 s) :
    Kept mq lk s0 (State.freeQuar s a closing) := by
  unfold State.freeQuar
  try dsimp only
  repeat'
    first
      | with_reducible assumption
      | with_reducible refine Kept.ite (fun _ => ?_) (fun _ => ?_)
      | with_reducible refine Kept.ite2 (fun _ => ?_) (fun _ => ?_)
      | with_reducible refine Kept.dite (fun _ => ?_) (fun _ => ?_)
      | with_reducible refine State.freeBlock_kept ?_
      | with_reducible refine Kept.foldl ?_ ?_
      | fail_if_no_progress with_reducible refine Kept.upd ?_
      | refine Kept.tagsFilter ?_
      | refine Kept.enter ?_ ?_
      | (intro _; intros; try dsimp only)

theorem State.eccRead_kept2 {dw : Nat} {s : State} (h : Kept mq lk s0 s) :
    Kept mq lk s0 (State.eccRead s dw).2 := by
  unfold State.eccRead
  try dsimp only
  repeat'
    first
      | with_reducible assumption
      | with_reducible refine Kept.ite (fun _ => ?_) (fun _ => ?_)
      | with_reducible refine Kept.ite2 (fun _ => ?_) (fun _ => ?_)
      | with_reducible refine Kept.dite (fun _ => ?_) (fun _ => ?_)
      | with_reducible refine State.raiseC0_kept ?_
      | with_reducible refine State.bump_kept ?_
      | with_reducible refine State.setBlk_kept ?_
      | with_reducible refine State.raiseSc_kept ?_
      | with_reducible refine Kept.foldl ?_ ?_
      | fail_if_no_progress with_reducible refine Kept.upd ?_
      | refine Kept.tagsFilter ?_
      | refine Kept.enter ?_ ?_
      | dsimp only
      | split

theorem State.eccRead_kept {dw : Nat} {s t : State} {x : Bool} (e : State.eccRead s dw = (x, t)) (h : Kept mq lk s0 s) :
    Kept mq lk s0 t := by
  have := State.eccRead_kept2 (s := s) (dw := dw) (h := h)
  rw [e] at this
  exact this

theorem State.eccReads_kept2 {n : Nat} {dw : Nat} {s : State} (h : Kept mq lk s0 s) :
    Kept mq lk s0 (State.eccReads n dw s).2 := by
  induction n generalizing s dw with
  | zero => exact h
  | succ n ih => exact ih (State.eccRead_kept2 h)

theorem State.eccReads_kept {n dw : Nat} {s t : State} {x : Bool} (e : State.eccReads n dw s = (x, t))
    (h : Kept mq lk s0 s) : Kept mq lk s0 t := by
  have := State.eccReads_kept2 (n := n) (dw := dw) h
  rw [e] at this
  exact this

theorem State.poolPut_kept2 {o : Nat} {v : Word} {s : State} (h : Kept false lk s0 s) :
    Kept false lk s0 (State.poolPut s o v).2 := by
  unfold State.poolPut
  try dsimp only
  repeat'
    first
      | with_reducible assumption
      | with_reducible refine Kept.ite (fun _ => ?_) (fun _ => ?_)
      | with_reducible refine Kept.ite2 (fun _ => ?_) (fun _ => ?_)
      | with_reducible refine Kept.dite (fun _ => ?_) (fun _ => ?_)
      | with_reducible refine State.eccRead_kept (by with_reducible assumption) ?_
      | with_reducible refine State.setWord_kept ?_
      | with_reducible refine State.eccRead_kept2 ?_

theorem State.poolPut_kept {o : Nat} {v : Word} {s t : State} {x : Bool} (e : State.poolPut s o v = (x, t)) (h : Kept false lk s0 s) :
    Kept false lk s0 t := by
  have := State.poolPut_kept2 (s := s) (o := o) (v := v) (h := h)
  rw [e] at this
  exact this

theorem State.poolPuts_kept2 {ws : List Word} {o : Nat} {s : State} (h : Kept false lk s0 s) :
    Kept false lk s0 (State.poolPuts ws o s).2 := by
  induction ws generalizing s o with
  | nil => exact h
  | cons w ws ih => exact ih (State.poolPut_kept2 h)

theorem State.poolPuts_kept {ws : List Word} {o : Nat} {s t : State} {x : Bool} (e : State.poolPuts ws o s = (x, t))
    (h : Kept false lk s0 s) : Kept false lk s0 t := by
  have := State.poolPuts_kept2 (ws := ws) (o := o) h
  rw [e] at this
  exact this

theorem State.setBytes_kept {o : Nat} {bs : List Byte} {s : State} (h : Kept false lk s0 s) :
    Kept false lk s0 (s.setBytes o bs) := by
  induction bs generalizing s o with
  | nil => exact h
  | cons b bs ih => exact ih (State.setByte_kept h)

theorem State.writeLink_kept {p : Port} {v : Word} {s : State} (h : Kept mq lk s0 s) :
    Kept mq lk s0 (State.writeLink s p v) := by
  unfold State.writeLink
  try dsimp only
  repeat'
    first
      | with_reducible assumption
      | with_reducible refine Kept.ite (fun _ => ?_) (fun _ => ?_)
      | with_reducible refine Kept.ite2 (fun _ => ?_) (fun _ => ?_)
      | with_reducible refine Kept.dite (fun _ => ?_) (fun _ => ?_)
      | with_reducible refine State.flag_kept ?_
      | with_reducible refine State.setBlk_kept ?_
      | with_reducible refine State.violation_kept ?_

theorem State.windowWrite_kept {addr : Word} {v : Word} {s : State} (h : Kept false lk s0 s) :
    Kept false lk s0 (State.windowWrite s addr v) := by
  unfold State.windowWrite
  try dsimp only
  repeat'
    first
      | with_reducible assumption
      | with_reducible refine Kept.ite (fun _ => ?_) (fun _ => ?_)
      | with_reducible refine Kept.ite2 (fun _ => ?_) (fun _ => ?_)
      | with_reducible refine Kept.dite (fun _ => ?_) (fun _ => ?_)
      | with_reducible refine State.poolItem_kept ?_
      | with_reducible refine State.poolPut_kept (by with_reducible assumption) ?_
      | with_reducible refine State.flag_kept ?_
      | with_reducible refine State.violation_kept ?_
      | with_reducible refine State.poolPut_kept2 ?_

theorem State.windowRead_kept2 {addr : Word} {s : State} (h : Kept mq lk s0 s) :
    Kept mq lk s0 (State.windowRead s addr).2 := by
  unfold State.windowRead
  try dsimp only
  repeat'
    first
      | with_reducible assumption
      | with_reducible refine Kept.ite (fun _ => ?_) (fun _ => ?_)
      | with_reducible refine Kept.ite2 (fun _ => ?_) (fun _ => ?_)
      | with_reducible refine Kept.dite (fun _ => ?_) (fun _ => ?_)
      | with_reducible refine State.poolItem_kept ?_
      | with_reducible refine State.eccRead_kept (by with_reducible assumption) ?_
      | with_reducible refine State.flag_kept ?_
      | with_reducible refine State.raiseC0_kept ?_
      | with_reducible refine State.eccRead_kept2 ?_

theorem State.windowRead_kept {addr : Word} {s t : State} {x : Word} (e : State.windowRead s addr = (x, t)) (h : Kept mq lk s0 s) :
    Kept mq lk s0 t := by
  have := State.windowRead_kept2 (s := s) (addr := addr) (h := h)
  rw [e] at this
  exact this

theorem State.dropRing_kept {t : Fin 4} {s : State} (h : Kept mq lk s0 s) :
    Kept mq lk s0 (State.dropRing s t) := by
  unfold State.dropRing
  try dsimp only
  repeat'
    first
      | with_reducible assumption
      | with_reducible refine Kept.ite (fun _ => ?_) (fun _ => ?_)
      | with_reducible refine Kept.ite2 (fun _ => ?_) (fun _ => ?_)
      | with_reducible refine Kept.dite (fun _ => ?_) (fun _ => ?_)
      | with_reducible refine State.setInuse_kept ?_
      | with_reducible refine Kept.foldl ?_ ?_
      | fail_if_no_progress with_reducible refine Kept.upd ?_

theorem State.writeTrace_kept {p : Port} {t : Fin 4} {v : Word} {s : State} (h : Kept mq lk s0 s) :
    Kept mq lk s0 (State.writeTrace s p t v) := by
  unfold State.writeTrace
  try dsimp only
  repeat'
    first
      | with_reducible assumption
      | with_reducible refine Kept.ite (fun _ => ?_) (fun _ => ?_)
      | with_reducible refine Kept.ite2 (fun _ => ?_) (fun _ => ?_)
      | with_reducible refine Kept.dite (fun _ => ?_) (fun _ => ?_)
      | with_reducible refine State.setReg_kept ?_
      | with_reducible refine State.setFld_kept ?_
      | with_reducible refine State.setBit_kept ?_
      | with_reducible refine State.flag_kept ?_
      | with_reducible refine State.setInuse_kept ?_
      | with_reducible refine State.dropRing_kept ?_
      | with_reducible refine Kept.foldl ?_ ?_
      | fail_if_no_progress with_reducible refine Kept.upd ?_
      | refine Kept.tagsFilter ?_
      | refine Kept.enter ?_ ?_
      | dsimp only
      | split

end Sys2Proof.Machine
end

