-- ==== Sys2Proof/Laws/KeptMotion.lean ====
section
/-! SUPPORT. That each operation of Coil.lean, Synth.lean, Plan.lean, Segment.lean, Motion.lean keeps what `Kept` says. -/

namespace Sys2Proof.Machine

variable {mq lk : Bool} {s0 : State}

theorem State.sendSetpoint_kept {a : AxisId} {instant : Nat} {ep : Nat} {amp : Nat} {edge : Bool} {zc : Vector Bool 2} {mode : Vector (Option Bool) 2} {hdr : Hdr} {s : State} (h : Kept mq lk s0 s) :
    Kept mq lk s0 (State.sendSetpoint s a instant ep amp edge zc mode hdr) := by
  unfold State.sendSetpoint
  try dsimp only
  repeat'
    first
      | with_reducible assumption
      | with_reducible refine Kept.ite (fun _ => ?_) (fun _ => ?_)
      | with_reducible refine Kept.ite2 (fun _ => ?_) (fun _ => ?_)
      | with_reducible refine Kept.dite (fun _ => ?_) (fun _ => ?_)
      | with_reducible refine State.setChp_kept ?_
      | with_reducible refine State.trace_kept ?_

theorem State.decideModes_kept2 {a : AxisId} {zc : Vector Bool 2} {ve : Rat} {instant : Nat} {s : State} (h : Kept mq lk s0 s) :
    Kept mq lk s0 (State.decideModes s a zc ve instant).2 := by
  unfold State.decideModes
  try dsimp only
  repeat'
    first
      | with_reducible assumption
      | with_reducible refine Kept.ite (fun _ => ?_) (fun _ => ?_)
      | with_reducible refine Kept.ite2 (fun _ => ?_) (fun _ => ?_)
      | with_reducible refine Kept.dite (fun _ => ?_) (fun _ => ?_)
      | with_reducible refine State.flag_kept ?_

theorem State.decideModes_kept {a : AxisId} {zc : Vector Bool 2} {ve : Rat} {instant : Nat} {s t : State} {v0 : Vector (Option Bool) 2} (e : State.decideModes s a zc ve instant = (v0, t)) (h : Kept mq lk s0 s) :
    Kept mq lk s0 t := by
  have := State.decideModes_kept2 (s := s) (a := a) (zc := zc) (ve := ve) (instant := instant) (h := h)
  rw [e] at this
  exact this

theorem State.energiseDone_kept {a : AxisId} {s : State} (h : Kept mq lk s0 s) :
    Kept mq lk s0 (State.energiseDone s a) := by
  unfold State.energiseDone
  try dsimp only
  repeat'
    first
      | with_reducible assumption
      | with_reducible refine Kept.ite (fun _ => ?_) (fun _ => ?_)
      | with_reducible refine Kept.ite2 (fun _ => ?_) (fun _ => ?_)
      | with_reducible refine Kept.dite (fun _ => ?_) (fun _ => ?_)
      | with_reducible refine State.setChp_kept ?_
      | with_reducible refine State.setSt_kept ?_
      | with_reducible refine State.done_kept ?_
      | with_reducible refine State.syncLoops_kept ?_
      | with_reducible refine Kept.foldl ?_ ?_
      | fail_if_no_progress with_reducible refine Kept.upd ?_
      | refine Kept.tagsFilter ?_
      | refine Kept.enter ?_ ?_
      | dsimp only
      | split

theorem State.gridAmp_kept2 {a : AxisId} {g : Nat} {s : State} (h : Kept mq lk s0 s) :
    Kept mq lk s0 (State.gridAmp s a g).2.2 := by
  unfold State.gridAmp
  try dsimp only
  repeat'
    first
      | with_reducible assumption
      | with_reducible refine Kept.ite (fun _ => ?_) (fun _ => ?_)
      | with_reducible refine Kept.ite22 (fun _ => ?_) (fun _ => ?_)
      | with_reducible refine Kept.ite2 (fun _ => ?_) (fun _ => ?_)
      | with_reducible refine Kept.dite (fun _ => ?_) (fun _ => ?_)
      | with_reducible refine State.setChp_kept ?_
      | with_reducible refine State.decideModes_kept2 ?_
      | with_reducible refine State.decideModes_kept (by with_reducible assumption) ?_
      | with_reducible refine State.hold_kept ?_
      | with_reducible refine Kept.foldl ?_ ?_
      | fail_if_no_progress with_reducible refine Kept.upd ?_
      | refine Kept.tagsFilter ?_
      | dsimp only
      | split

theorem State.gridAmp_kept {a : AxisId} {g : Nat} {s t : State} {v0 : Nat} {v1 : Vector (Option Bool) 2} (e : State.gridAmp s a g = (v0, v1, t)) (h : Kept mq lk s0 s) :
    Kept mq lk s0 t := by
  have := State.gridAmp_kept2 (s := s) (a := a) (g := g) (h := h)
  rw [e] at this
  exact this

theorem State.gridSetpoint_kept {a : AxisId} {g : Nat} {amp : Nat} {mode : Vector (Option Bool) 2} {step : Bool} {due : Option Nat} {s : State} (h : Kept mq lk s0 s) :
    Kept mq lk s0 (State.gridSetpoint s a g amp mode step due) := by
  unfold State.gridSetpoint
  try dsimp only
  repeat'
    first
      | with_reducible assumption
      | with_reducible refine Kept.ite (fun _ => ?_) (fun _ => ?_)
      | with_reducible refine Kept.ite2 (fun _ => ?_) (fun _ => ?_)
      | with_reducible refine Kept.dite (fun _ => ?_) (fun _ => ?_)
      | with_reducible refine State.setChp_kept ?_
      | with_reducible refine State.sendSetpoint_kept ?_
      | with_reducible refine Kept.foldl ?_ ?_
      | fail_if_no_progress with_reducible refine Kept.upd ?_
      | refine Kept.tagsFilter ?_
      | dsimp only
      | split
      | (intro _; intros; try dsimp only)

theorem State.flushGrid_kept {a : AxisId} {s : State} (h : Kept mq lk s0 s) :
    Kept mq lk s0 (State.flushGrid s a) := by
  unfold State.flushGrid
  try dsimp only
  repeat'
    first
      | with_reducible assumption
      | with_reducible refine Kept.ite (fun _ => ?_) (fun _ => ?_)
      | with_reducible refine Kept.ite2 (fun _ => ?_) (fun _ => ?_)
      | with_reducible refine Kept.dite (fun _ => ?_) (fun _ => ?_)
      | with_reducible refine State.setChp_kept ?_
      | with_reducible refine State.sendSetpoint_kept ?_
      | with_reducible refine Kept.foldl ?_ ?_
      | fail_if_no_progress with_reducible refine Kept.upd ?_
      | refine Kept.tagsFilter ?_
      | dsimp only
      | split
      | (intro _; intros; try dsimp only)

theorem State.lagCheck_kept {a : AxisId} {s : State} (h : Kept mq lk s0 s) :
    Kept mq lk s0 (State.lagCheck s a) := by
  unfold State.lagCheck
  try dsimp only
  repeat'
    first
      | with_reducible assumption
      | with_reducible refine Kept.ite (fun _ => ?_) (fun _ => ?_)
      | with_reducible refine Kept.ite2 (fun _ => ?_) (fun _ => ?_)
      | with_reducible refine Kept.dite (fun _ => ?_) (fun _ => ?_)
      | with_reducible refine State.flag_kept ?_
      | with_reducible refine State.setStp_kept ?_
      | with_reducible refine State.raiseAx_kept ?_
      | with_reducible refine Kept.foldl ?_ ?_
      | fail_if_no_progress with_reducible refine Kept.upd ?_
      | refine Kept.tagsFilter ?_
      | refine Kept.enter ?_ ?_
      | dsimp only
      | split

theorem State.droopCheck_kept {a : AxisId} {s : State} (h : Kept mq lk s0 s) :
    Kept mq lk s0 (State.droopCheck s a) := by
  unfold State.droopCheck
  try dsimp only
  repeat'
    first
      | with_reducible assumption
      | with_reducible refine Kept.ite (fun _ => ?_) (fun _ => ?_)
      | with_reducible refine Kept.ite2 (fun _ => ?_) (fun _ => ?_)
      | with_reducible refine Kept.dite (fun _ => ?_) (fun _ => ?_)
      | with_reducible refine State.raiseC0_kept ?_
      | with_reducible refine State.flag_kept ?_
      | with_reducible refine State.bump_kept ?_
      | with_reducible refine State.setChp_kept ?_

theorem State.gridStage_kept {a : AxisId} {s : State} (h : Kept mq lk s0 s) :
    Kept mq lk s0 (State.gridStage s a) := by
  unfold State.gridStage
  try dsimp only
  repeat'
    first
      | with_reducible assumption
      | with_reducible refine Kept.ite (fun _ => ?_) (fun _ => ?_)
      | with_reducible refine Kept.ite2 (fun _ => ?_) (fun _ => ?_)
      | with_reducible refine Kept.dite (fun _ => ?_) (fun _ => ?_)
      | with_reducible refine State.setChp_kept ?_
      | with_reducible refine State.energiseDone_kept ?_
      | with_reducible refine State.hold_kept ?_
      | with_reducible refine Kept.foldl ?_ ?_
      | fail_if_no_progress with_reducible refine Kept.upd ?_
      | refine Kept.tagsFilter ?_
      | dsimp only
      | split

theorem State.gridArrive_kept {a : AxisId} {s : State} (h : Kept mq lk s0 s) :
    Kept mq lk s0 (State.gridArrive s a) := by
  unfold State.gridArrive
  try dsimp only
  repeat'
    first
      | with_reducible assumption
      | with_reducible refine Kept.ite (fun _ => ?_) (fun _ => ?_)
      | with_reducible refine Kept.ite2 (fun _ => ?_) (fun _ => ?_)
      | with_reducible refine Kept.dite (fun _ => ?_) (fun _ => ?_)
      | with_reducible refine State.flushGrid_kept ?_
      | with_reducible refine State.setChp_kept ?_
      | with_reducible refine State.gridStage_kept ?_
      | with_reducible refine State.lagCheck_kept ?_
      | with_reducible refine State.droopCheck_kept ?_

theorem State.releaseGrid_kept {a : AxisId} {g : Nat} {due : Option Nat} {s : State} (h : Kept mq lk s0 s) :
    Kept mq lk s0 (State.releaseGrid s a g due) := by
  unfold State.releaseGrid
  try dsimp only
  repeat'
    first
      | with_reducible assumption
      | with_reducible refine Kept.ite (fun _ => ?_) (fun _ => ?_)
      | with_reducible refine Kept.ite2 (fun _ => ?_) (fun _ => ?_)
      | with_reducible refine Kept.dite (fun _ => ?_) (fun _ => ?_)
      | with_reducible refine State.gridArrive_kept ?_
      | with_reducible refine State.setChp_kept ?_
      | with_reducible refine State.gridAmp_kept2 ?_
      | with_reducible refine State.gridAmp_kept (by with_reducible assumption) ?_
      | with_reducible refine State.gridSetpoint_kept ?_
      | with_reducible refine Kept.foldl ?_ ?_
      | fail_if_no_progress with_reducible refine Kept.upd ?_
      | refine Kept.tagsFilter ?_
      | dsimp only
      | split
      | (intro _; intros; try dsimp only)

theorem State.gridUnwait_kept {a : AxisId} {due : Option Nat} {s : State} (h : Kept mq lk s0 s) :
    Kept mq lk s0 (State.gridUnwait s a due) := by
  unfold State.gridUnwait
  try dsimp only
  repeat'
    first
      | with_reducible assumption
      | with_reducible refine Kept.ite (fun _ => ?_) (fun _ => ?_)
      | with_reducible refine Kept.ite2 (fun _ => ?_) (fun _ => ?_)
      | with_reducible refine Kept.dite (fun _ => ?_) (fun _ => ?_)
      | with_reducible refine State.flushGrid_kept ?_
      | with_reducible refine Kept.foldl ?_ ?_
      | fail_if_no_progress with_reducible refine Kept.upd ?_
      | refine Kept.tagsFilter ?_
      | dsimp only
      | split
      | (intro _; intros; try dsimp only)

theorem State.gridRelease_kept {a : AxisId} {s : State} (h : Kept mq lk s0 s) :
    Kept mq lk s0 (State.gridRelease s a) := by
  unfold State.gridRelease
  try dsimp only
  repeat'
    first
      | with_reducible assumption
      | with_reducible refine Kept.ite (fun _ => ?_) (fun _ => ?_)
      | with_reducible refine Kept.ite2 (fun _ => ?_) (fun _ => ?_)
      | with_reducible refine Kept.dite (fun _ => ?_) (fun _ => ?_)
      | with_reducible refine State.gridUnwait_kept ?_
      | with_reducible refine State.releaseGrid_kept ?_

theorem State.gridFor_kept {a : AxisId} {eff : Nat} {s : State} (h : Kept mq lk s0 s) :
    Kept mq lk s0 (State.gridFor s a eff) := by
  unfold State.gridFor
  try dsimp only
  repeat'
    first
      | with_reducible assumption
      | with_reducible refine Kept.ite (fun _ => ?_) (fun _ => ?_)
      | with_reducible refine Kept.ite2 (fun _ => ?_) (fun _ => ?_)
      | with_reducible refine Kept.dite (fun _ => ?_) (fun _ => ?_)
      | with_reducible refine State.gridUnwait_kept ?_
      | with_reducible refine State.releaseGrid_kept ?_
      | with_reducible refine Kept.foldl ?_ ?_
      | fail_if_no_progress with_reducible refine Kept.upd ?_
      | refine Kept.tagsFilter ?_
      | dsimp only
      | split
      | (intro _; intros; try dsimp only)

theorem State.gridOwed_kept {a : AxisId} {s : State} (h : Kept mq lk s0 s) :
    Kept mq lk s0 (State.gridOwed s a) := by
  unfold State.gridOwed
  try dsimp only
  repeat'
    first
      | with_reducible assumption
      | with_reducible refine Kept.ite (fun _ => ?_) (fun _ => ?_)
      | with_reducible refine Kept.ite2 (fun _ => ?_) (fun _ => ?_)
      | with_reducible refine Kept.dite (fun _ => ?_) (fun _ => ?_)
      | with_reducible refine State.setChp_kept ?_

theorem State.driveEdge_kept {a : AxisId} {e : Edge} {m : Nat} {s : State} (h : Kept mq lk s0 s) :
    Kept mq lk s0 (State.driveEdge s a e m) := by
  unfold State.driveEdge
  try dsimp only
  repeat'
    first
      | with_reducible assumption
      | with_reducible refine Kept.ite (fun _ => ?_) (fun _ => ?_)
      | with_reducible refine Kept.ite2 (fun _ => ?_) (fun _ => ?_)
      | with_reducible refine Kept.dite (fun _ => ?_) (fun _ => ?_)
      | with_reducible refine State.setChp_kept ?_
      | with_reducible refine State.decideModes_kept2 ?_
      | with_reducible refine State.decideModes_kept (by with_reducible assumption) ?_
      | with_reducible refine State.sendSetpoint_kept ?_
      | with_reducible refine Kept.foldl ?_ ?_
      | fail_if_no_progress with_reducible refine Kept.upd ?_
      | refine Kept.tagsFilter ?_
      | dsimp only
      | split

theorem State.endHold_kept {a : AxisId} {s : State} (h : Kept mq lk s0 s) :
    Kept mq lk s0 (State.endHold s a) := by
  unfold State.endHold
  try dsimp only
  repeat'
    first
      | with_reducible assumption
      | with_reducible refine Kept.ite (fun _ => ?_) (fun _ => ?_)
      | with_reducible refine Kept.ite2 (fun _ => ?_) (fun _ => ?_)
      | with_reducible refine Kept.dite (fun _ => ?_) (fun _ => ?_)
      | with_reducible refine State.hold_kept ?_
      | with_reducible refine State.setChp_kept ?_
      | with_reducible refine State.sendSetpoint_kept ?_

theorem State.syncHold_kept {a : AxisId} {s : State} (h : Kept mq lk s0 s) :
    Kept mq lk s0 (State.syncHold s a) := by
  unfold State.syncHold
  try dsimp only
  repeat'
    first
      | with_reducible assumption
      | with_reducible refine Kept.ite (fun _ => ?_) (fun _ => ?_)
      | with_reducible refine Kept.ite2 (fun _ => ?_) (fun _ => ?_)
      | with_reducible refine Kept.dite (fun _ => ?_) (fun _ => ?_)
      | with_reducible refine State.hold_kept ?_
      | with_reducible refine State.setChp_kept ?_
      | with_reducible refine Kept.foldl ?_ ?_
      | fail_if_no_progress with_reducible refine Kept.upd ?_
      | refine Kept.tagsFilter ?_
      | refine Kept.enter ?_ ?_
      | dsimp only
      | split

theorem State.setCoil_kept {a : AxisId} {k : CoilId} {q : Coil} {s : State} (h : Kept mq lk s0 s) :
    Kept mq lk s0 (State.setCoil s a k q) := by
  unfold State.setCoil
  try dsimp only
  repeat'
    first
      | with_reducible assumption
      | with_reducible refine Kept.ite (fun _ => ?_) (fun _ => ?_)
      | with_reducible refine Kept.ite2 (fun _ => ?_) (fun _ => ?_)
      | with_reducible refine Kept.dite (fun _ => ?_) (fun _ => ?_)
      | with_reducible refine State.setChp_kept ?_

theorem State.bridge_kept {a : AxisId} {k : CoilId} {q : Coil} {s : State} (h : Kept mq lk s0 s) :
    Kept mq lk s0 (State.bridge s a k q) := by
  unfold State.bridge
  try dsimp only
  repeat'
    first
      | with_reducible assumption
      | with_reducible refine Kept.ite (fun _ => ?_) (fun _ => ?_)
      | with_reducible refine Kept.ite2 (fun _ => ?_) (fun _ => ?_)
      | with_reducible refine Kept.dite (fun _ => ?_) (fun _ => ?_)
      | with_reducible refine State.commandCoil_kept ?_
      | with_reducible refine State.setCoil_kept ?_

theorem State.startOn_kept {a : AxisId} {k : CoilId} {s : State} (h : Kept mq lk s0 s) :
    Kept mq lk s0 (State.startOn s a k) := by
  unfold State.startOn
  try dsimp only
  repeat'
    first
      | with_reducible assumption
      | with_reducible refine Kept.ite (fun _ => ?_) (fun _ => ?_)
      | with_reducible refine Kept.ite2 (fun _ => ?_) (fun _ => ?_)
      | with_reducible refine Kept.dite (fun _ => ?_) (fun _ => ?_)
      | with_reducible refine State.bridge_kept ?_

theorem State.startOff_kept {a : AxisId} {k : CoilId} {s : State} (h : Kept mq lk s0 s) :
    Kept mq lk s0 (State.startOff s a k) := by
  unfold State.startOff
  try dsimp only
  repeat'
    first
      | with_reducible assumption
      | with_reducible refine Kept.ite (fun _ => ?_) (fun _ => ?_)
      | with_reducible refine Kept.ite2 (fun _ => ?_) (fun _ => ?_)
      | with_reducible refine Kept.dite (fun _ => ?_) (fun _ => ?_)
      | with_reducible refine State.bridge_kept ?_

theorem State.chopSetpoint_kept {a : AxisId} {k : CoilId} {sp : Int} {frac : Nat} {s : State} (h : Kept mq lk s0 s) :
    Kept mq lk s0 (State.chopSetpoint s a k sp frac) := by
  unfold State.chopSetpoint
  try dsimp only
  repeat'
    first
      | with_reducible assumption
      | with_reducible refine Kept.ite (fun _ => ?_) (fun _ => ?_)
      | with_reducible refine Kept.ite2 (fun _ => ?_) (fun _ => ?_)
      | with_reducible refine Kept.dite (fun _ => ?_) (fun _ => ?_)
      | with_reducible refine State.bridge_kept ?_
      | with_reducible refine State.setCoil_kept ?_
      | with_reducible refine State.startOn_kept ?_
      | with_reducible refine State.startOff_kept ?_

theorem State.toVoltage_kept {a : AxisId} {k : CoilId} {sp : Int} {frac : Nat} {s : State} (h : Kept mq lk s0 s) :
    Kept mq lk s0 (State.toVoltage s a k sp frac) := by
  unfold State.toVoltage
  try dsimp only
  repeat'
    first
      | with_reducible assumption
      | with_reducible refine Kept.ite (fun _ => ?_) (fun _ => ?_)
      | with_reducible refine Kept.ite2 (fun _ => ?_) (fun _ => ?_)
      | with_reducible refine Kept.dite (fun _ => ?_) (fun _ => ?_)
      | with_reducible refine State.setPwm_kept ?_
      | with_reducible refine State.setLoop_kept ?_
      | with_reducible refine State.bridge_kept ?_

theorem State.toChopper_kept {a : AxisId} {k : CoilId} {sp : Int} {frac : Nat} {s : State} (h : Kept mq lk s0 s) :
    Kept mq lk s0 (State.toChopper s a k sp frac) := by
  unfold State.toChopper
  try dsimp only
  repeat'
    first
      | with_reducible assumption
      | with_reducible refine Kept.ite (fun _ => ?_) (fun _ => ?_)
      | with_reducible refine Kept.ite2 (fun _ => ?_) (fun _ => ?_)
      | with_reducible refine Kept.dite (fun _ => ?_) (fun _ => ?_)
      | with_reducible refine State.setTile_kept ?_
      | with_reducible refine State.setPwm_kept ?_
      | with_reducible refine State.commandCoil_kept ?_
      | with_reducible refine State.setCoil_kept ?_
      | with_reducible refine State.startOn_kept ?_

theorem State.coilSetpoint_kept {a : AxisId} {k : CoilId} {p : Setpoint} {s : State} (h : Kept mq lk s0 s) :
    Kept mq lk s0 (State.coilSetpoint s a k p) := by
  unfold State.coilSetpoint
  try dsimp only
  repeat'
    first
      | with_reducible assumption
      | with_reducible refine Kept.ite (fun _ => ?_) (fun _ => ?_)
      | with_reducible refine Kept.ite2 (fun _ => ?_) (fun _ => ?_)
      | with_reducible refine Kept.dite (fun _ => ?_) (fun _ => ?_)
      | with_reducible refine State.flag_kept ?_
      | with_reducible refine State.setCoil_kept ?_
      | with_reducible refine State.chopSetpoint_kept ?_
      | with_reducible refine State.toVoltage_kept ?_
      | with_reducible refine State.toChopper_kept ?_
      | with_reducible refine Kept.foldl ?_ ?_
      | fail_if_no_progress with_reducible refine Kept.upd ?_
      | refine Kept.tagsFilter ?_
      | refine Kept.enter ?_ ?_
      | dsimp only
      | split

theorem State.followEnd_kept {a : AxisId} {s : State} (h : Kept mq lk s0 s) :
    Kept mq lk s0 (State.followEnd s a) := by
  unfold State.followEnd
  try dsimp only
  repeat'
    first
      | with_reducible assumption
      | with_reducible refine Kept.ite (fun _ => ?_) (fun _ => ?_)
      | with_reducible refine Kept.ite2 (fun _ => ?_) (fun _ => ?_)
      | with_reducible refine Kept.dite (fun _ => ?_) (fun _ => ?_)
      | with_reducible refine State.modAx_kept ?_
      | with_reducible refine State.fail_kept ?_
      | with_reducible refine State.done_kept ?_
      | with_reducible refine State.syncLoops_kept ?_
      | with_reducible refine Kept.foldl ?_ ?_
      | fail_if_no_progress with_reducible refine Kept.upd ?_
      | refine Kept.tagsFilter ?_
      | refine Kept.enter ?_ ?_
      | (intro _; intros; try dsimp only)
      | dsimp only
      | split

theorem State.edgeDone_kept {a : AxisId} {p : Setpoint} {s : State} (h : Kept mq lk s0 s) :
    Kept mq lk s0 (State.edgeDone s a p) := by
  unfold State.edgeDone
  try dsimp only
  repeat'
    first
      | with_reducible assumption
      | with_reducible refine Kept.ite (fun _ => ?_) (fun _ => ?_)
      | with_reducible refine Kept.ite2 (fun _ => ?_) (fun _ => ?_)
      | with_reducible refine Kept.dite (fun _ => ?_) (fun _ => ?_)
      | with_reducible refine State.setChp_kept ?_
      | with_reducible refine State.setObs_kept ?_
      | with_reducible refine State.followEnd_kept ?_

theorem State.releaseRamp_kept {a : AxisId} {s : State} (h : Kept mq lk s0 s) :
    Kept mq lk s0 (State.releaseRamp s a) := by
  unfold State.releaseRamp
  try dsimp only
  repeat'
    first
      | with_reducible assumption
      | with_reducible refine Kept.ite (fun _ => ?_) (fun _ => ?_)
      | with_reducible refine Kept.ite2 (fun _ => ?_) (fun _ => ?_)
      | with_reducible refine Kept.dite (fun _ => ?_) (fun _ => ?_)
      | with_reducible refine State.gridRelease_kept ?_
      | with_reducible refine State.setChp_kept ?_

theorem State.beginRelease_kept {a : AxisId} {id : Nat} {s : State} (h : Kept mq lk s0 s) :
    Kept mq lk s0 (State.beginRelease s a id) := by
  unfold State.beginRelease
  try dsimp only
  repeat'
    first
      | with_reducible assumption
      | with_reducible refine Kept.ite (fun _ => ?_) (fun _ => ?_)
      | with_reducible refine Kept.ite2 (fun _ => ?_) (fun _ => ?_)
      | with_reducible refine Kept.dite (fun _ => ?_) (fun _ => ?_)
      | with_reducible refine State.gridRelease_kept ?_
      | with_reducible refine State.setChp_kept ?_
      | with_reducible refine State.fail_kept ?_
      | with_reducible refine State.syncLoops_kept ?_
      | with_reducible refine State.releaseRamp_kept ?_
      | with_reducible refine Kept.foldl ?_ ?_
      | fail_if_no_progress with_reducible refine Kept.upd ?_
      | refine Kept.tagsFilter ?_
      | refine Kept.enter ?_ ?_
      | dsimp only
      | split

theorem State.swapTables_kept {a : AxisId} {h : Hdr} {s : State} (hk : Kept mq lk s0 s) :
    Kept mq lk s0 (State.swapTables s a h) := by
  unfold State.swapTables
  try dsimp only
  repeat'
    first
      | with_reducible assumption
      | with_reducible refine Kept.ite (fun _ => ?_) (fun _ => ?_)
      | with_reducible refine Kept.ite2 (fun _ => ?_) (fun _ => ?_)
      | with_reducible refine Kept.dite (fun _ => ?_) (fun _ => ?_)
      | with_reducible refine State.setChp_kept ?_
      | with_reducible refine Kept.foldl ?_ ?_
      | fail_if_no_progress with_reducible refine Kept.upd ?_
      | refine Kept.tagsFilter ?_
      | dsimp only
      | split
      | (intro _; intros; try dsimp only)

theorem State.swapWaiting_kept {a : AxisId} {s : State} (h : Kept mq lk s0 s) :
    Kept mq lk s0 (State.swapWaiting s a) := by
  unfold State.swapWaiting
  try dsimp only
  repeat'
    first
      | with_reducible assumption
      | with_reducible refine Kept.ite (fun _ => ?_) (fun _ => ?_)
      | with_reducible refine Kept.ite2 (fun _ => ?_) (fun _ => ?_)
      | with_reducible refine Kept.dite (fun _ => ?_) (fun _ => ?_)
      | with_reducible refine State.swapTables_kept ?_
      | with_reducible refine Kept.foldl ?_ ?_
      | fail_if_no_progress with_reducible refine Kept.upd ?_
      | refine Kept.tagsFilter ?_
      | dsimp only
      | split
      | (intro _; intros; try dsimp only)

theorem State.tableAct_kept {a : AxisId} {v : Word} {h : Hdr} {s : State} (hk : Kept mq lk s0 s) :
    Kept mq lk s0 (State.tableAct s a v h) := by
  unfold State.tableAct
  try dsimp only
  repeat'
    first
      | with_reducible assumption
      | with_reducible refine Kept.ite (fun _ => ?_) (fun _ => ?_)
      | with_reducible refine Kept.ite2 (fun _ => ?_) (fun _ => ?_)
      | with_reducible refine Kept.dite (fun _ => ?_) (fun _ => ?_)
      | with_reducible refine State.gridRelease_kept ?_
      | with_reducible refine State.setChp_kept ?_
      | with_reducible refine State.flag_kept ?_
      | with_reducible refine State.swapWaiting_kept ?_
      | with_reducible refine State.poolItem_kept ?_
      | with_reducible refine State.swapTables_kept ?_
      | with_reducible refine Kept.foldl ?_ ?_
      | fail_if_no_progress with_reducible refine Kept.upd ?_
      | refine Kept.tagsFilter ?_
      | dsimp only
      | split
      | (intro _; intros; try dsimp only)

theorem State.writeTabctl_kept {a : AxisId} {v : Word} {s : State} (h : Kept mq lk s0 s) :
    Kept mq lk s0 (State.writeTabctl s a v) := by
  unfold State.writeTabctl
  try dsimp only
  repeat'
    first
      | with_reducible assumption
      | with_reducible refine Kept.ite (fun _ => ?_) (fun _ => ?_)
      | with_reducible refine Kept.ite2 (fun _ => ?_) (fun _ => ?_)
      | with_reducible refine Kept.dite (fun _ => ?_) (fun _ => ?_)
      | with_reducible refine State.whenClocked_kept ?_ (fun _ _ => ?_)
      | with_reducible refine State.tableAct_kept ?_
      | with_reducible refine State.gridRelease_kept ?_
      | with_reducible refine State.setFld_kept ?_
      | with_reducible refine State.flag_kept ?_
      | with_reducible refine State.setChp_kept ?_
      | with_reducible refine State.swapTables_kept ?_

theorem State.writeChpCfg_kept {a : AxisId} {v : Word} {s : State} (h : Kept mq lk s0 s) :
    Kept mq lk s0 (State.writeChpCfg s a v) := by
  unfold State.writeChpCfg
  try dsimp only
  repeat'
    first
      | with_reducible assumption
      | with_reducible refine Kept.ite (fun _ => ?_) (fun _ => ?_)
      | with_reducible refine Kept.ite2 (fun _ => ?_) (fun _ => ?_)
      | with_reducible refine Kept.dite (fun _ => ?_) (fun _ => ?_)
      | with_reducible refine State.gridRelease_kept ?_
      | with_reducible refine State.setBit_kept ?_
      | with_reducible refine State.flag_kept ?_
      | with_reducible refine State.plainWrite_kept ?_

theorem State.coilsToChopper_kept {a : AxisId} {s : State} (h : Kept mq lk s0 s) :
    Kept mq lk s0 (State.coilsToChopper s a) := by
  unfold State.coilsToChopper
  try dsimp only
  repeat'
    first
      | with_reducible assumption
      | with_reducible refine Kept.ite (fun _ => ?_) (fun _ => ?_)
      | with_reducible refine Kept.ite2 (fun _ => ?_) (fun _ => ?_)
      | with_reducible refine Kept.dite (fun _ => ?_) (fun _ => ?_)
      | with_reducible refine State.flag_kept ?_
      | with_reducible refine State.toChopper_kept ?_

theorem State.useChannel_kept {a : AxisId} {s : State} (h : Kept mq lk s0 s) :
    Kept mq lk s0 (State.useChannel s a) := by
  unfold State.useChannel
  try dsimp only
  repeat'
    first
      | with_reducible assumption
      | with_reducible refine Kept.ite (fun _ => ?_) (fun _ => ?_)
      | with_reducible refine Kept.ite2 (fun _ => ?_) (fun _ => ?_)
      | with_reducible refine Kept.dite (fun _ => ?_) (fun _ => ?_)
      | with_reducible refine State.modAx_kept ?_

theorem State.writeModeCfg_kept {a : AxisId} {idx : Nat} {v : Word} {s : State} (h : Kept mq lk s0 s) :
    Kept mq lk s0 (State.writeModeCfg s a idx v) := by
  unfold State.writeModeCfg
  try dsimp only
  repeat'
    first
      | with_reducible assumption
      | with_reducible refine Kept.ite (fun _ => ?_) (fun _ => ?_)
      | with_reducible refine Kept.ite2 (fun _ => ?_) (fun _ => ?_)
      | with_reducible refine Kept.dite (fun _ => ?_) (fun _ => ?_)
      | with_reducible refine State.gridOwed_kept ?_
      | with_reducible refine State.gridRelease_kept ?_
      | with_reducible refine State.modAx_kept ?_
      | with_reducible refine State.useChannel_kept ?_
      | with_reducible refine State.setReg_kept ?_
      | with_reducible refine State.setBit_kept ?_
      | with_reducible refine State.flag_kept ?_
      | with_reducible refine State.setLoop_kept ?_
      | with_reducible refine State.stopOuter_kept ?_
      | with_reducible refine State.coilsToChopper_kept ?_

theorem State.putEdge_kept {a : AxisId} {e : Edge} {s : State} (h : Kept mq lk s0 s) :
    Kept mq lk s0 (State.putEdge s a e) := by
  unfold State.putEdge
  try dsimp only
  repeat'
    first
      | with_reducible assumption
      | with_reducible refine Kept.ite (fun _ => ?_) (fun _ => ?_)
      | with_reducible refine Kept.ite2 (fun _ => ?_) (fun _ => ?_)
      | with_reducible refine Kept.dite (fun _ => ?_) (fun _ => ?_)
      | with_reducible refine State.setStp_kept ?_

theorem State.placeDerived_kept {a : AxisId} {n : Nat} {s : State} (h : Kept mq lk s0 s) :
    Kept mq lk s0 (State.placeDerived a n s) := by
  induction n generalizing s with
  | zero => exact h
  | succ n ih =>
    unfold State.placeDerived
    dsimp only
    split
    · exact h
    · split
      · exact h
      · split
        · exact h
        · exact ih (State.putEdge_kept (State.setStp_kept h))

theorem State.takePulse_kept {a : AxisId} {f : Follow} {u : Pulse} {s : State} (h : Kept mq lk s0 s) :
    Kept mq lk s0 (State.takePulse s a f u) := by
  unfold State.takePulse
  try dsimp only
  repeat'
    first
      | with_reducible assumption
      | with_reducible refine Kept.ite (fun _ => ?_) (fun _ => ?_)
      | with_reducible refine Kept.ite2 (fun _ => ?_) (fun _ => ?_)
      | with_reducible refine Kept.dite (fun _ => ?_) (fun _ => ?_)
      | with_reducible refine State.raiseC0_kept ?_
      | with_reducible refine State.setStp_kept ?_

theorem State.writeStpCfg_kept {a : AxisId} {v : Word} {s : State} (h : Kept mq lk s0 s) :
    Kept mq lk s0 (State.writeStpCfg s a v) := by
  unfold State.writeStpCfg
  try dsimp only
  repeat'
    first
      | with_reducible assumption
      | with_reducible refine Kept.ite (fun _ => ?_) (fun _ => ?_)
      | with_reducible refine Kept.ite2 (fun _ => ?_) (fun _ => ?_)
      | with_reducible refine Kept.dite (fun _ => ?_) (fun _ => ?_)
      | with_reducible refine State.lagCheck_kept ?_
      | with_reducible refine State.setFld_kept ?_
      | with_reducible refine State.flag_kept ?_
      | with_reducible refine State.plainWrite_kept ?_

theorem State.readEntry_kept2 {h : Hdr} {a : AxisId} {b : Nat} {i : Nat} {s : State} (hk : Kept mq lk s0 s) :
    Kept mq lk s0 (State.readEntry s h a b i).2 := by
  unfold State.readEntry
  try dsimp only
  repeat'
    first
      | with_reducible assumption
      | with_reducible refine Kept.ite (fun _ => ?_) (fun _ => ?_)
      | with_reducible refine Kept.ite2 (fun _ => ?_) (fun _ => ?_)
      | with_reducible refine Kept.dite (fun _ => ?_) (fun _ => ?_)
      | with_reducible refine State.poolItem_kept ?_
      | with_reducible refine State.eccReads_kept2 ?_
      | with_reducible refine State.eccReads_kept (by with_reducible assumption) ?_
      | with_reducible refine Kept.foldl ?_ ?_
      | fail_if_no_progress with_reducible refine Kept.upd ?_
      | refine Kept.tagsFilter ?_
      | dsimp only
      | split
      | (intro _; intros; try dsimp only)

theorem State.readEntry_kept {h : Hdr} {a : AxisId} {b : Nat} {i : Nat} {s t : State} {v0 : Bool} (e : State.readEntry s h a b i = (v0, t)) (hk : Kept mq lk s0 s) :
    Kept mq lk s0 t := by
  have := State.readEntry_kept2 (s := s) (h := h) (a := a) (b := b) (i := i) (hk := hk)
  rw [e] at this
  exact this

theorem State.findEntry_kept2 {hd : Hdr} {a : AxisId} {test : Entry → Bool} {n : Nat} {pos : Nat × Nat} {s : State} (h : Kept mq lk s0 s) :
    Kept mq lk s0 (State.findEntry hd a test n pos s).2 := by
  induction n generalizing s pos with
  | zero => exact h
  | succ n ih =>
    unfold State.findEntry
    split
    · exact h
    · dsimp only
      refine Kept.ite2 (fun _ => State.readEntry_kept2 h) fun _ => Kept.ite2 (fun _ => State.readEntry_kept2 h) fun _ => ?_
      exact ih (State.readEntry_kept2 h)

theorem State.findEntry_kept {hd : Hdr} {a : AxisId} {test : Entry → Bool} {n : Nat} {pos : Nat × Nat} {s t : State} {x : Found}
    (e : State.findEntry hd a test n pos s = (x, t)) (h : Kept mq lk s0 s) : Kept mq lk s0 t := by
  have := State.findEntry_kept2 (n := n) (hd := hd) (a := a) (test := test) (pos := pos) h
  rw [e] at this
  exact this

theorem State.findSeg_kept2 {h : Hdr} {a : AxisId} {segid : Nat} {pos : Nat × Nat} {s : State} (hk : Kept mq lk s0 s) :
    Kept mq lk s0 (State.findSeg s h a segid pos).2 := by
  unfold State.findSeg
  try dsimp only
  repeat'
    first
      | with_reducible assumption
      | with_reducible refine Kept.ite (fun _ => ?_) (fun _ => ?_)
      | with_reducible refine Kept.ite2 (fun _ => ?_) (fun _ => ?_)
      | with_reducible refine Kept.dite (fun _ => ?_) (fun _ => ?_)
      | with_reducible refine State.findEntry_kept2 ?_
      | with_reducible refine State.findEntry_kept (by with_reducible assumption) ?_
      | with_reducible refine Kept.foldl ?_ ?_
      | fail_if_no_progress with_reducible refine Kept.upd ?_
      | refine Kept.tagsFilter ?_
      | dsimp only
      | split
      | (intro _; intros; try dsimp only)

theorem State.findSeg_kept {h : Hdr} {a : AxisId} {segid : Nat} {pos : Nat × Nat} {s t : State} {v0 : Found} (e : State.findSeg s h a segid pos = (v0, t)) (hk : Kept mq lk s0 s) :
    Kept mq lk s0 t := by
  have := State.findSeg_kept2 (s := s) (h := h) (a := a) (segid := segid) (pos := pos) (hk := hk)
  rw [e] at this
  exact this

theorem State.eventEntry_kept {a : AxisId} {segid : Nat} {block : Nat} {start : Nat} {s : State} (h : Kept mq lk s0 s) :
    Kept mq lk s0 (State.eventEntry s a segid block start) := by
  unfold State.eventEntry
  try dsimp only
  repeat'
    first
      | with_reducible assumption
      | with_reducible refine Kept.ite (fun _ => ?_) (fun _ => ?_)
      | with_reducible refine Kept.ite2 (fun _ => ?_) (fun _ => ?_)
      | with_reducible refine Kept.dite (fun _ => ?_) (fun _ => ?_)
      | with_reducible refine State.setReg_kept ?_
      | with_reducible refine State.flag_kept ?_
      | with_reducible refine State.irq_kept ?_

theorem State.noteAll_kept {a : AxisId} {ns : List Note} {s : State} (h : Kept mq lk s0 s) :
    Kept mq lk s0 (State.noteAll s a ns) := by
  unfold State.noteAll
  try dsimp only
  repeat'
    first
      | with_reducible assumption
      | with_reducible refine Kept.ite (fun _ => ?_) (fun _ => ?_)
      | with_reducible refine Kept.ite2 (fun _ => ?_) (fun _ => ?_)
      | with_reducible refine Kept.dite (fun _ => ?_) (fun _ => ?_)
      | with_reducible refine State.flag_kept ?_
      | with_reducible refine State.eventEntry_kept ?_
      | with_reducible refine Kept.foldl ?_ ?_
      | fail_if_no_progress with_reducible refine Kept.upd ?_
      | refine Kept.tagsFilter ?_
      | dsimp only
      | split
      | (intro _; intros; try dsimp only)

theorem State.contStart_kept2 {a : AxisId} {r : Run} {n : Nat} {pos : Option (Nat × Nat)} {loops : List (Nat × Nat × Nat)}
    {s : State} (h : Kept mq lk s0 s) : Kept mq lk s0 (State.contStart a r n pos loops s).2 := by
  induction n generalizing s pos loops with
  | zero => exact h
  | succ n ih =>
    cases pos with
    | none => exact h
    | some pos =>
      unfold State.contStart
      split
      · exact h
      · dsimp only
        refine Kept.ite2 (fun _ => State.readEntry_kept2 h) fun _ => Kept.ite2 (fun _ => State.readEntry_kept2 h) fun _ =>
          Kept.ite2 (fun _ => ?_) fun _ => State.readEntry_kept2 h
        split
        · exact ih (State.findSeg_kept (by assumption) (State.readEntry_kept2 h))
        · exact State.findSeg_kept (by assumption) (State.readEntry_kept2 h)
        · exact State.findSeg_kept (by assumption) (State.readEntry_kept2 h)

theorem State.contStart_kept {a : AxisId} {r : Run} {n : Nat} {pos : Option (Nat × Nat)} {loops : List (Nat × Nat × Nat)}
    {s t : State} {x : Option Nat} (e : State.contStart a r n pos loops s = (x, t)) (h : Kept mq lk s0 s) :
    Kept mq lk s0 t := by
  have := State.contStart_kept2 (a := a) (r := r) (n := n) (pos := pos) (loops := loops) h
  rw [e] at this
  exact this

theorem State.fetchLoop_kept2 {a : AxisId} {r : Run} {e : Entry} {b : Nat} {i : Nat} {after : Option (Nat × Nat)} {lastAt : Option (Nat × Nat)} {s : State} (h : Kept mq lk s0 s) :
    Kept mq lk s0 (State.fetchLoop s a r e b i after lastAt).2 := by
  unfold State.fetchLoop
  try dsimp only
  repeat'
    first
      | with_reducible assumption
      | with_reducible refine Kept.ite (fun _ => ?_) (fun _ => ?_)
      | with_reducible refine Kept.ite2 (fun _ => ?_) (fun _ => ?_)
      | with_reducible refine Kept.dite (fun _ => ?_) (fun _ => ?_)
      | with_reducible refine State.findSeg_kept2 ?_
      | with_reducible refine State.findSeg_kept (by with_reducible assumption) ?_
      | with_reducible refine State.contStart_kept2 ?_
      | with_reducible refine State.contStart_kept (by with_reducible assumption) ?_
      | with_reducible refine Kept.foldl ?_ ?_
      | fail_if_no_progress with_reducible refine Kept.upd ?_
      | refine Kept.tagsFilter ?_
      | dsimp only
      | split

theorem State.fetchLoop_kept {a : AxisId} {r : Run} {e : Entry} {b : Nat} {i : Nat} {after : Option (Nat × Nat)} {lastAt : Option (Nat × Nat)} {s t : State} {v0 : FetchRes} (eq : State.fetchLoop s a r e b i after lastAt = (v0, t)) (h : Kept mq lk s0 s) :
    Kept mq lk s0 t := by
  have := State.fetchLoop_kept2 (s := s) (a := a) (r := r) (e := e) (b := b) (i := i) (after := after) (lastAt := lastAt) (h := h)
  rw [eq] at this
  exact this

theorem State.fetchOne_kept2 {a : AxisId} {r : Run} {s : State} (h : Kept mq lk s0 s) :
    Kept mq lk s0 (State.fetchOne s a r).2 := by
  unfold State.fetchOne
  try dsimp only
  repeat'
    first
      | with_reducible assumption
      | with_reducible refine Kept.ite (fun _ => ?_) (fun _ => ?_)
      | with_reducible refine Kept.ite2 (fun _ => ?_) (fun _ => ?_)
      | with_reducible refine Kept.dite (fun _ => ?_) (fun _ => ?_)
      | with_reducible refine State.poolItem_kept ?_
      | with_reducible refine State.readEntry_kept2 ?_
      | with_reducible refine State.readEntry_kept (by with_reducible assumption) ?_
      | with_reducible refine State.fetchLoop_kept2 ?_
      | with_reducible refine State.fetchLoop_kept (by with_reducible assumption) ?_
      | with_reducible refine State.flag_kept ?_
      | with_reducible refine State.eccReads_kept2 ?_
      | with_reducible refine State.eccReads_kept (by with_reducible assumption) ?_
      | with_reducible refine State.eventEntry_kept ?_
      | with_reducible refine Kept.foldl ?_ ?_
      | fail_if_no_progress with_reducible refine Kept.upd ?_
      | refine Kept.tagsFilter ?_
      | refine Kept.enter ?_ ?_
      | dsimp only
      | split

theorem State.fetchOne_kept {a : AxisId} {r : Run} {s t : State} {x : FetchRes} (e : State.fetchOne s a r = (x, t)) (h : Kept mq lk s0 s) :
    Kept mq lk s0 t := by
  have := State.fetchOne_kept2 (s := s) (a := a) (r := r) (h := h)
  rw [e] at this
  exact this

theorem State.precheck_kept2 {a : AxisId} {n : Nat} {r : Run} {ns : List Note} {s : State} (h : Kept mq lk s0 s) :
    Kept mq lk s0 (State.precheck a n r ns s).2 := by
  induction n generalizing s r ns with
  | zero => exact h
  | succ n ih =>
    unfold State.precheck
    split
    · exact h
    · split
      · exact ih (State.fetchOne_kept (by assumption) h)
      · exact State.fetchOne_kept (by assumption) h

theorem State.precheck_kept {a : AxisId} {n : Nat} {r : Run} {ns : List Note} {s t : State} {x : FetchRes}
    (e : State.precheck a n r ns s = (x, t)) (h : Kept mq lk s0 s) : Kept mq lk s0 t := by
  have := State.precheck_kept2 (n := n) (a := a) (r := r) (ns := ns) h
  rw [e] at this
  exact this

theorem State.traceSeg_kept {a : AxisId} {g : Seg} {s : State} (h : Kept mq lk s0 s) :
    Kept mq lk s0 (State.traceSeg s a g) := by
  unfold State.traceSeg
  try dsimp only
  repeat'
    first
      | with_reducible assumption
      | with_reducible refine Kept.ite (fun _ => ?_) (fun _ => ?_)
      | with_reducible refine Kept.ite2 (fun _ => ?_) (fun _ => ?_)
      | with_reducible refine Kept.dite (fun _ => ?_) (fun _ => ?_)
      | with_reducible refine State.trace_kept ?_

theorem State.pushSeg_kept {a : AxisId} {g : Seg} {s : State} (h : Kept mq lk s0 s) :
    Kept mq lk s0 (State.pushSeg s a g) := by
  unfold State.pushSeg
  try dsimp only
  repeat'
    first
      | with_reducible assumption
      | with_reducible refine Kept.ite (fun _ => ?_) (fun _ => ?_)
      | with_reducible refine Kept.ite2 (fun _ => ?_) (fun _ => ?_)
      | with_reducible refine Kept.dite (fun _ => ?_) (fun _ => ?_)
      | with_reducible refine State.setPro_kept ?_
      | with_reducible refine State.setStp_kept ?_
      | with_reducible refine State.syncHold_kept ?_
      | with_reducible refine State.traceSeg_kept ?_

theorem State.cutAt_kept {a : AxisId} {ts : Nat} {s : State} (h : Kept mq lk s0 s) :
    Kept mq lk s0 (State.cutAt s a ts) := by
  unfold State.cutAt
  try dsimp only
  repeat'
    first
      | with_reducible assumption
      | with_reducible refine Kept.ite (fun _ => ?_) (fun _ => ?_)
      | with_reducible refine Kept.ite2 (fun _ => ?_) (fun _ => ?_)
      | with_reducible refine Kept.dite (fun _ => ?_) (fun _ => ?_)
      | with_reducible refine State.setPro_kept ?_
      | with_reducible refine State.setStp_kept ?_
      | with_reducible refine State.traceSeg_kept ?_
      | with_reducible refine Kept.foldl ?_ ?_
      | fail_if_no_progress with_reducible refine Kept.upd ?_
      | refine Kept.tagsFilter ?_
      | refine Kept.enter ?_ ?_
      | dsimp only
      | split

theorem State.pushVel_kept {a : AxisId} {d : Rat} {g : Seg} {s : State} (h : Kept mq lk s0 s) :
    Kept mq lk s0 (State.pushVel s a d g) := by
  unfold State.pushVel
  try dsimp only
  repeat'
    first
      | with_reducible assumption
      | with_reducible refine Kept.ite (fun _ => ?_) (fun _ => ?_)
      | with_reducible refine Kept.ite2 (fun _ => ?_) (fun _ => ?_)
      | with_reducible refine Kept.dite (fun _ => ?_) (fun _ => ?_)
      | with_reducible refine State.raiseC0_kept ?_
      | with_reducible refine State.flag_kept ?_
      | with_reducible refine State.setPro_kept ?_
      | with_reducible refine State.raiseSc_kept ?_
      | with_reducible refine State.pushSeg_kept ?_
      | with_reducible refine Kept.foldl ?_ ?_
      | fail_if_no_progress with_reducible refine Kept.upd ?_
      | refine Kept.tagsFilter ?_
      | refine Kept.enter ?_ ?_
      | dsimp only
      | split

theorem State.commitPhase_kept {a : AxisId} {start : Nat} {splice : Bool} {hdr : Hdr} {s : State} (h : Kept mq lk s0 s) :
    Kept mq lk s0 (State.commitPhase s a start splice hdr) := by
  unfold State.commitPhase
  try dsimp only
  repeat'
    first
      | with_reducible assumption
      | with_reducible refine Kept.ite (fun _ => ?_) (fun _ => ?_)
      | with_reducible refine Kept.ite2 (fun _ => ?_) (fun _ => ?_)
      | with_reducible refine Kept.dite (fun _ => ?_) (fun _ => ?_)
      | with_reducible refine State.setPro_kept ?_
      | with_reducible refine State.pushSeg_kept ?_
      | with_reducible refine State.pushVel_kept ?_
      | with_reducible refine Kept.foldl ?_ ?_
      | fail_if_no_progress with_reducible refine Kept.upd ?_
      | refine Kept.tagsFilter ?_
      | refine Kept.enter ?_ ?_
      | dsimp only
      | split

theorem State.commitCruise_kept {a : AxisId} {start : Nat} {splice : Bool} {hdr : Hdr} {vt : Rat} {d : Rat} {s : State} (h : Kept mq lk s0 s) :
    Kept mq lk s0 (State.commitCruise s a start splice hdr vt d) := by
  unfold State.commitCruise
  try dsimp only
  repeat'
    first
      | with_reducible assumption
      | with_reducible refine Kept.ite (fun _ => ?_) (fun _ => ?_)
      | with_reducible refine Kept.ite2 (fun _ => ?_) (fun _ => ?_)
      | with_reducible refine Kept.dite (fun _ => ?_) (fun _ => ?_)
      | with_reducible refine State.setPro_kept ?_
      | with_reducible refine State.pushVel_kept ?_

theorem State.commitEntry_kept {a : AxisId} {r : Run} {f : Fetched} {rest : List Fetched} {base : Option Nat} {s : State} (h : Kept mq lk s0 s) :
    Kept mq lk s0 (State.commitEntry s a r f rest base) := by
  unfold State.commitEntry
  try dsimp only
  repeat'
    first
      | with_reducible assumption
      | with_reducible refine Kept.ite (fun _ => ?_) (fun _ => ?_)
      | with_reducible refine Kept.ite2 (fun _ => ?_) (fun _ => ?_)
      | with_reducible refine Kept.dite (fun _ => ?_) (fun _ => ?_)
      | with_reducible refine State.flag_kept ?_
      | with_reducible refine State.setPro_kept ?_
      | with_reducible refine State.pushSeg_kept ?_

theorem State.closeRun_kept {a : AxisId} {s : State} (h : Kept mq lk s0 s) :
    Kept mq lk s0 (State.closeRun s a) := by
  unfold State.closeRun
  try dsimp only
  repeat'
    first
      | with_reducible assumption
      | with_reducible refine Kept.ite (fun _ => ?_) (fun _ => ?_)
      | with_reducible refine Kept.ite2 (fun _ => ?_) (fun _ => ?_)
      | with_reducible refine Kept.dite (fun _ => ?_) (fun _ => ?_)
      | with_reducible refine State.setPro_kept ?_
      | with_reducible refine State.setInuse_kept ?_
      | with_reducible refine Kept.foldl ?_ ?_
      | fail_if_no_progress with_reducible refine Kept.upd ?_
      | refine Kept.tagsFilter ?_
      | refine Kept.enter ?_ ?_
      | dsimp only
      | split

theorem State.passWait_kept {a : AxisId} {s : State} (h : Kept mq lk s0 s) :
    Kept mq lk s0 (State.passWait s a) := by
  unfold State.passWait
  try dsimp only
  repeat'
    first
      | with_reducible assumption
      | with_reducible refine Kept.ite (fun _ => ?_) (fun _ => ?_)
      | with_reducible refine Kept.ite2 (fun _ => ?_) (fun _ => ?_)
      | with_reducible refine Kept.dite (fun _ => ?_) (fun _ => ?_)
      | with_reducible refine State.fetched_kept ?_
      | with_reducible refine State.setPro_kept ?_
      | with_reducible refine Kept.foldl ?_ ?_
      | fail_if_no_progress with_reducible refine Kept.upd ?_
      | refine Kept.tagsFilter ?_
      | dsimp only
      | split

theorem State.settle_kept {a : AxisId} {s : State} (h : Kept mq lk s0 s) :
    Kept mq lk s0 (State.settle s a) := by
  unfold State.settle
  try dsimp only
  repeat'
    first
      | with_reducible assumption
      | with_reducible refine Kept.ite (fun _ => ?_) (fun _ => ?_)
      | with_reducible refine Kept.ite2 (fun _ => ?_) (fun _ => ?_)
      | with_reducible refine Kept.dite (fun _ => ?_) (fun _ => ?_)
      | with_reducible refine State.modAx_kept ?_
      | with_reducible refine State.fail_kept ?_
      | with_reducible refine State.done_kept ?_
      | with_reducible refine State.syncLoops_kept ?_
      | with_reducible refine State.syncHold_kept ?_
      | with_reducible refine State.closeRun_kept ?_
      | with_reducible refine Kept.foldl ?_ ?_
      | fail_if_no_progress with_reducible refine Kept.upd ?_
      | refine Kept.tagsFilter ?_
      | refine Kept.enter ?_ ?_
      | (intro _; intros; try dsimp only)

theorem State.cutNow_kept {a : AxisId} {s : State} (h : Kept mq lk s0 s) :
    Kept mq lk s0 (State.cutNow s a) := by
  unfold State.cutNow
  try dsimp only
  repeat'
    first
      | with_reducible assumption
      | with_reducible refine Kept.ite (fun _ => ?_) (fun _ => ?_)
      | with_reducible refine Kept.ite2 (fun _ => ?_) (fun _ => ?_)
      | with_reducible refine Kept.dite (fun _ => ?_) (fun _ => ?_)
      | with_reducible refine State.setPro_kept ?_
      | with_reducible refine State.setStp_kept ?_
      | with_reducible refine State.cutAt_kept ?_

theorem State.supersede_kept {a : AxisId} {id : Nat} {s : State} (h : Kept mq lk s0 s) :
    Kept mq lk s0 (State.supersede s a id) := by
  unfold State.supersede
  try dsimp only
  repeat'
    first
      | with_reducible assumption
      | with_reducible refine Kept.ite (fun _ => ?_) (fun _ => ?_)
      | with_reducible refine Kept.ite2 (fun _ => ?_) (fun _ => ?_)
      | with_reducible refine Kept.dite (fun _ => ?_) (fun _ => ?_)
      | with_reducible refine State.fail_kept ?_
      | with_reducible refine State.setPro_kept ?_
      | with_reducible refine State.closeRun_kept ?_
      | with_reducible refine Kept.foldl ?_ ?_
      | fail_if_no_progress with_reducible refine Kept.upd ?_
      | refine Kept.tagsFilter ?_
      | dsimp only
      | split
      | (intro _; intros; try dsimp only)

theorem State.beginMotion_kept {a : AxisId} {id : Nat} {s : State} (h : Kept mq lk s0 s) :
    Kept mq lk s0 (State.beginMotion s a id) := by
  unfold State.beginMotion
  try dsimp only
  repeat'
    first
      | with_reducible assumption
      | with_reducible refine Kept.ite (fun _ => ?_) (fun _ => ?_)
      | with_reducible refine Kept.ite2 (fun _ => ?_) (fun _ => ?_)
      | with_reducible refine Kept.dite (fun _ => ?_) (fun _ => ?_)
      | with_reducible refine State.supersede_kept ?_
      | with_reducible refine State.sendStarted_kept ?_
      | with_reducible refine State.rearm_kept ?_
      | with_reducible refine State.setSt_kept ?_
      | with_reducible refine State.syncLoops_kept ?_

theorem State.appendStop_kept {a : AxisId} {r : Run} {s : State} (h : Kept mq lk s0 s) :
    Kept mq lk s0 (State.appendStop s a r) := by
  unfold State.appendStop
  try dsimp only
  repeat'
    first
      | with_reducible assumption
      | with_reducible refine Kept.ite (fun _ => ?_) (fun _ => ?_)
      | with_reducible refine Kept.ite2 (fun _ => ?_) (fun _ => ?_)
      | with_reducible refine Kept.dite (fun _ => ?_) (fun _ => ?_)
      | with_reducible refine State.setPro_kept ?_
      | with_reducible refine State.commitPhase_kept ?_

theorem State.commitStep_kept {a : AxisId} {s : State} (h : Kept mq lk s0 s) :
    Kept mq lk s0 (State.commitStep s a) := by
  unfold State.commitStep
  try dsimp only
  repeat'
    first
      | with_reducible assumption
      | with_reducible refine Kept.ite (fun _ => ?_) (fun _ => ?_)
      | with_reducible refine Kept.ite2 (fun _ => ?_) (fun _ => ?_)
      | with_reducible refine Kept.dite (fun _ => ?_) (fun _ => ?_)
      | with_reducible refine State.fetched_kept ?_
      | with_reducible refine State.commitPhase_kept ?_
      | with_reducible refine State.commitCruise_kept ?_
      | with_reducible refine State.commitEntry_kept ?_
      | with_reducible refine State.commitPlan_kept ?_
      | with_reducible refine State.appendStop_kept ?_
      | with_reducible refine Kept.foldl ?_ ?_
      | fail_if_no_progress with_reducible refine Kept.upd ?_
      | refine Kept.tagsFilter ?_
      | refine Kept.enter ?_ ?_
      | dsimp only
      | split

theorem State.commitTo_kept {a : AxisId} {ts n : Nat} {s : State} (h : Kept mq lk s0 s) :
    Kept mq lk s0 (State.commitTo a ts n s) := by
  induction n generalizing s with
  | zero => exact h
  | succ n ih => exact Kept.ite (fun _ => ih (State.commitStep_kept h)) fun _ => h

theorem State.reach_kept {a : AxisId} {ts : Nat} {s : State} (h : Kept mq lk s0 s) :
    Kept mq lk s0 (State.reach s a ts) := by
  unfold State.reach
  try dsimp only
  repeat'
    first
      | with_reducible assumption
      | with_reducible refine Kept.ite (fun _ => ?_) (fun _ => ?_)
      | with_reducible refine Kept.ite2 (fun _ => ?_) (fun _ => ?_)
      | with_reducible refine Kept.dite (fun _ => ?_) (fun _ => ?_)
      | with_reducible refine State.commitTo_kept ?_
      | with_reducible refine State.pushSeg_kept ?_
      | with_reducible refine Kept.foldl ?_ ?_
      | fail_if_no_progress with_reducible refine Kept.upd ?_
      | refine Kept.tagsFilter ?_
      | dsimp only
      | split

theorem State.drawn_kept {s : State} (h : Kept mq lk s0 s) :
    Kept mq lk s0 (State.drawn s) := by
  unfold State.drawn
  try dsimp only
  repeat'
    first
      | with_reducible assumption
      | with_reducible refine Kept.ite (fun _ => ?_) (fun _ => ?_)
      | with_reducible refine Kept.ite2 (fun _ => ?_) (fun _ => ?_)
      | with_reducible refine Kept.dite (fun _ => ?_) (fun _ => ?_)
      | with_reducible refine Kept.foldl ?_ ?_
      | fail_if_no_progress with_reducible refine Kept.upd ?_
      | refine Kept.tagsFilter ?_
      | dsimp only
      | split
      | (intro _; intros; try dsimp only)

theorem State.spliceAt_kept2 {a : AxisId} {at_ : Option Nat} {s : State} (h : Kept mq lk s0 s) :
    Kept mq lk s0 (State.spliceAt s a at_).2.2 := by
  unfold State.spliceAt
  try dsimp only
  repeat'
    first
      | with_reducible assumption
      | with_reducible refine Kept.ite (fun _ => ?_) (fun _ => ?_)
      | with_reducible refine Kept.ite22 (fun _ => ?_) (fun _ => ?_)
      | with_reducible refine Kept.ite2 (fun _ => ?_) (fun _ => ?_)
      | with_reducible refine Kept.dite (fun _ => ?_) (fun _ => ?_)
      | with_reducible refine State.drawn_kept ?_
      | with_reducible refine State.reach_kept ?_
      | with_reducible refine Kept.foldl ?_ ?_
      | fail_if_no_progress with_reducible refine Kept.upd ?_

theorem State.spliceAt_kept {a : AxisId} {at_ : Option Nat} {s t : State} {v0 : Nat} {v1 : Nat} (e : State.spliceAt s a at_ = (v0, v1, t)) (h : Kept mq lk s0 s) :
    Kept mq lk s0 t := by
  have := State.spliceAt_kept2 (s := s) (a := a) (at_ := at_) (h := h)
  rw [e] at this
  exact this

theorem State.putPlan_kept {a : AxisId} {ts : Nat} {m : Motion} {hdr : Hdr} {plan : List PlanSeg} {exact : Rat} {s : State} (h : Kept mq lk s0 s) :
    Kept mq lk s0 (State.putPlan s a ts m hdr plan exact) := by
  unfold State.putPlan
  try dsimp only
  repeat'
    first
      | with_reducible assumption
      | with_reducible refine Kept.ite (fun _ => ?_) (fun _ => ?_)
      | with_reducible refine Kept.ite2 (fun _ => ?_) (fun _ => ?_)
      | with_reducible refine Kept.dite (fun _ => ?_) (fun _ => ?_)
      | with_reducible refine State.cutAt_kept ?_
      | with_reducible refine State.setPro_kept ?_
      | with_reducible refine State.commitCruise_kept ?_
      | with_reducible refine State.commitPhase_kept ?_
      | with_reducible refine State.settle_kept ?_
      | with_reducible refine Kept.foldl ?_ ?_
      | fail_if_no_progress with_reducible refine Kept.upd ?_
      | refine Kept.tagsFilter ?_
      | dsimp only
      | split

theorem State.badEntry_kept {a : AxisId} {r : Run} {segid : Nat} {block : Nat} {note : Bool} {awaits : Bool} {s : State} (h : Kept mq lk s0 s) :
    Kept mq lk s0 (State.badEntry s a r segid block note awaits) := by
  unfold State.badEntry
  try dsimp only
  repeat'
    first
      | with_reducible assumption
      | with_reducible refine Kept.ite (fun _ => ?_) (fun _ => ?_)
      | with_reducible refine Kept.ite2 (fun _ => ?_) (fun _ => ?_)
      | with_reducible refine Kept.dite (fun _ => ?_) (fun _ => ?_)
      | with_reducible refine State.raiseC0_kept ?_
      | with_reducible refine State.setPro_kept ?_
      | with_reducible refine State.flag_kept ?_
      | with_reducible refine State.setReg_kept ?_

theorem State.fetched_kept {a : AxisId} {r : Run} {f : FetchRes} {s : State} (h : Kept mq lk s0 s) :
    Kept mq lk s0 (State.fetched s a f r) := by
  unfold State.fetched
  try dsimp only
  repeat'
    first
      | with_reducible assumption
      | with_reducible refine Kept.ite (fun _ => ?_) (fun _ => ?_)
      | with_reducible refine Kept.ite2 (fun _ => ?_) (fun _ => ?_)
      | with_reducible refine Kept.dite (fun _ => ?_) (fun _ => ?_)
      | with_reducible refine State.readEntry_kept2 ?_
      | with_reducible refine State.readEntry_kept (by with_reducible assumption) ?_
      | with_reducible refine State.noteAll_kept ?_
      | with_reducible refine State.setPro_kept ?_
      | with_reducible refine State.raiseAx_kept ?_
      | with_reducible refine State.badEntry_kept ?_
      | with_reducible refine Kept.foldl ?_ ?_
      | fail_if_no_progress with_reducible refine Kept.upd ?_
      | refine Kept.tagsFilter ?_
      | refine Kept.enter ?_ ?_
      | dsimp only
      | split

theorem State.tableUe_kept {a : AxisId} {id : Nat} {s : State} (h : Kept mq lk s0 s) :
    Kept mq lk s0 (State.tableUe s a id) := by
  unfold State.tableUe
  try dsimp only
  repeat'
    first
      | with_reducible assumption
      | with_reducible refine Kept.ite (fun _ => ?_) (fun _ => ?_)
      | with_reducible refine Kept.ite2 (fun _ => ?_) (fun _ => ?_)
      | with_reducible refine Kept.dite (fun _ => ?_) (fun _ => ?_)
      | with_reducible refine State.fail_kept ?_
      | with_reducible refine State.raiseAx_kept ?_

theorem State.beginRun_kept {a : AxisId} {ts : Nat} {id : Nat} {r : Run} {ns : List Note} {s : State} (h : Kept mq lk s0 s) :
    Kept mq lk s0 (State.beginRun s a ts id r ns) := by
  unfold State.beginRun
  try dsimp only
  repeat'
    first
      | with_reducible assumption
      | with_reducible refine Kept.ite (fun _ => ?_) (fun _ => ?_)
      | with_reducible refine Kept.ite2 (fun _ => ?_) (fun _ => ?_)
      | with_reducible refine Kept.dite (fun _ => ?_) (fun _ => ?_)
      | with_reducible refine State.beginMotion_kept ?_
      | with_reducible refine State.setInuse_kept ?_
      | with_reducible refine State.cutAt_kept ?_
      | with_reducible refine State.setPro_kept ?_
      | with_reducible refine State.noteAll_kept ?_
      | with_reducible refine State.fetched_kept ?_
      | with_reducible refine State.commitEntry_kept ?_
      | with_reducible refine State.settle_kept ?_
      | with_reducible refine Kept.foldl ?_ ?_
      | fail_if_no_progress with_reducible refine Kept.upd ?_
      | refine Kept.tagsFilter ?_
      | dsimp only
      | split

theorem State.planTable_kept {a : AxisId} {ts : Nat} {p0 : Rat} {v0 : Rat} {block : Nat} {fromId : Option Nat} {id : Nat} {s : State} (h : Kept mq lk s0 s) :
    Kept mq lk s0 (State.planTable s a ts p0 v0 block fromId id) := by
  have key : ∀ t (x : Found), (match fromId with
      | none => (.at_ (block, 0), s)
      | some q => s.findSeg (s.cmdHdr (some id)) a q (block, 0) : Found × State) = (x, t) → Kept mq lk s0 t := fun t x e => by
    split at e
    · cases e; exact h
    · exact State.findSeg_kept e h
  unfold State.planTable
  split
  · exact State.fail_kept (key _ _ ‹_›)
  · exact State.tableUe_kept (key _ _ ‹_›)
  · have h' := key _ _ ‹_›
    dsimp only
    split
    · exact State.beginRun_kept (State.reach_kept (State.precheck_kept ‹_› h'))
    · exact State.tableUe_kept (State.precheck_kept ‹_› h')
    · exact State.fail_kept (State.precheck_kept ‹_› h')

theorem State.planStopAt_kept {a : AxisId} {ts : Nat} {emergency : Bool} {hdr : Hdr} {s : State} (h : Kept mq lk s0 s) :
    Kept mq lk s0 (State.planStopAt s a ts emergency hdr) := by
  unfold State.planStopAt
  try dsimp only
  repeat'
    first
      | with_reducible assumption
      | with_reducible refine Kept.ite (fun _ => ?_) (fun _ => ?_)
      | with_reducible refine Kept.ite2 (fun _ => ?_) (fun _ => ?_)
      | with_reducible refine Kept.dite (fun _ => ?_) (fun _ => ?_)
      | with_reducible refine State.putPlan_kept ?_

theorem State.enterPlan_kept {a : AxisId} {g : Seg} {s : State} (h : Kept mq lk s0 s) :
    Kept mq lk s0 (State.enterPlan s a g) := by
  unfold State.enterPlan
  try dsimp only
  repeat'
    first
      | with_reducible assumption
      | with_reducible refine Kept.ite (fun _ => ?_) (fun _ => ?_)
      | with_reducible refine Kept.ite2 (fun _ => ?_) (fun _ => ?_)
      | with_reducible refine Kept.dite (fun _ => ?_) (fun _ => ?_)
      | with_reducible refine State.setSt_kept ?_
      | with_reducible refine State.setPro_kept ?_
      | with_reducible refine State.fail_kept ?_
      | with_reducible refine State.done_kept ?_
      | with_reducible refine Kept.foldl ?_ ?_
      | fail_if_no_progress with_reducible refine Kept.upd ?_
      | refine Kept.tagsFilter ?_
      | dsimp only
      | split

theorem State.enter_kept {a : AxisId} {s : State} (h : Kept mq lk s0 s) :
    Kept mq lk s0 (State.enter s a) := by
  unfold State.enter
  try dsimp only
  repeat'
    first
      | with_reducible assumption
      | with_reducible refine Kept.ite (fun _ => ?_) (fun _ => ?_)
      | with_reducible refine Kept.ite2 (fun _ => ?_) (fun _ => ?_)
      | with_reducible refine Kept.dite (fun _ => ?_) (fun _ => ?_)
      | with_reducible refine State.raiseAx_kept ?_
      | with_reducible refine State.raiseC0_kept ?_
      | with_reducible refine State.enterPlan_kept ?_
      | with_reducible refine State.flag_kept ?_
      | with_reducible refine State.setPro_kept ?_
      | with_reducible refine State.fail_kept ?_
      | with_reducible refine State.done_kept ?_
      | with_reducible refine State.raiseSc_kept ?_
      | with_reducible refine State.endHold_kept ?_
      | with_reducible refine State.eventEntry_kept ?_
      | with_reducible refine Kept.foldl ?_ ?_
      | fail_if_no_progress with_reducible refine Kept.upd ?_
      | refine Kept.tagsFilter ?_
      | refine Kept.enter ?_ ?_
      | dsimp only
      | split

theorem State.popSeg_kept {a : AxisId} {g : Seg} {s : State} (h : Kept mq lk s0 s) :
    Kept mq lk s0 (State.popSeg s a g) := by
  unfold State.popSeg
  try dsimp only
  repeat'
    first
      | with_reducible assumption
      | with_reducible refine Kept.ite (fun _ => ?_) (fun _ => ?_)
      | with_reducible refine Kept.ite2 (fun _ => ?_) (fun _ => ?_)
      | with_reducible refine Kept.dite (fun _ => ?_) (fun _ => ?_)
      | with_reducible refine State.raiseC0_kept ?_
      | with_reducible refine State.setPro_kept ?_
      | with_reducible refine State.done_kept ?_
      | with_reducible refine State.raiseSc_kept ?_
      | with_reducible refine Kept.foldl ?_ ?_
      | fail_if_no_progress with_reducible refine Kept.upd ?_
      | refine Kept.tagsFilter ?_
      | refine Kept.enter ?_ ?_
      | dsimp only
      | split

theorem State.starved_kept {a : AxisId} {g : Seg} {s : State} (h : Kept mq lk s0 s) :
    Kept mq lk s0 (State.starved s a g) := by
  unfold State.starved
  try dsimp only
  repeat'
    first
      | with_reducible assumption
      | with_reducible refine Kept.ite (fun _ => ?_) (fun _ => ?_)
      | with_reducible refine Kept.ite2 (fun _ => ?_) (fun _ => ?_)
      | with_reducible refine Kept.dite (fun _ => ?_) (fun _ => ?_)
      | with_reducible refine State.setSt_kept ?_
      | with_reducible refine State.flag_kept ?_
      | with_reducible refine State.setPro_kept ?_
      | with_reducible refine State.raiseAx_kept ?_
      | with_reducible refine State.pushSeg_kept ?_
      | with_reducible refine Kept.foldl ?_ ?_
      | fail_if_no_progress with_reducible refine Kept.upd ?_
      | refine Kept.tagsFilter ?_
      | refine Kept.enter ?_ ?_
      | dsimp only
      | split

theorem State.askMotion_kept {a : AxisId} {q : PlanReq} {id : Nat} {at_ : Option Nat} {s : State} (h : Kept mq lk s0 s) :
    Kept mq lk s0 (State.askMotion s a q id at_) := by
  unfold State.askMotion
  try dsimp only
  repeat'
    first
      | with_reducible assumption
      | with_reducible refine Kept.ite (fun _ => ?_) (fun _ => ?_)
      | with_reducible refine Kept.ite2 (fun _ => ?_) (fun _ => ?_)
      | with_reducible refine Kept.dite (fun _ => ?_) (fun _ => ?_)
      | with_reducible refine State.drawn_kept ?_
      | with_reducible refine State.spliceAt_kept2 ?_
      | with_reducible refine State.spliceAt_kept (by with_reducible assumption) ?_
      | with_reducible refine State.fail_kept ?_
      | with_reducible refine State.beginMotion_kept ?_
      | with_reducible refine State.setPro_kept ?_
      | with_reducible refine State.putPlan_kept ?_
      | with_reducible refine State.planTable_kept ?_
      | with_reducible refine Kept.foldl ?_ ?_
      | fail_if_no_progress with_reducible refine Kept.upd ?_
      | refine Kept.tagsFilter ?_
      | dsimp only
      | split

theorem State.moveNowhere_kept {a : AxisId} {id : Nat} {x : Int} {s : State} (h : Kept mq lk s0 s) :
    Kept mq lk s0 (State.moveNowhere s a id x) := by
  unfold State.moveNowhere
  try dsimp only
  repeat'
    first
      | with_reducible assumption
      | with_reducible refine Kept.ite (fun _ => ?_) (fun _ => ?_)
      | with_reducible refine Kept.ite2 (fun _ => ?_) (fun _ => ?_)
      | with_reducible refine Kept.dite (fun _ => ?_) (fun _ => ?_)
      | with_reducible refine State.supersede_kept ?_
      | with_reducible refine State.sendStarted_kept ?_
      | with_reducible refine State.rearm_kept ?_
      | with_reducible refine State.cutNow_kept ?_
      | with_reducible refine State.setPro_kept ?_
      | with_reducible refine State.finish_kept ?_
      | with_reducible refine State.done_kept ?_
      | with_reducible refine State.settle_kept ?_

theorem State.takeMove_kept {a : AxisId} {id : Nat} {rel : Bool} {ws : List Word} {at_ : Option Nat} {s : State} (h : Kept mq lk s0 s) :
    Kept mq lk s0 (State.takeMove s a id rel ws at_) := by
  unfold State.takeMove
  try dsimp only
  repeat'
    first
      | with_reducible assumption
      | with_reducible refine Kept.ite (fun _ => ?_) (fun _ => ?_)
      | with_reducible refine Kept.ite2 (fun _ => ?_) (fun _ => ?_)
      | with_reducible refine Kept.dite (fun _ => ?_) (fun _ => ?_)
      | with_reducible refine State.spliceAt_kept2 ?_
      | with_reducible refine State.spliceAt_kept (by with_reducible assumption) ?_
      | with_reducible refine State.moveNowhere_kept ?_
      | with_reducible refine State.setPro_kept ?_
      | with_reducible refine State.fail_kept ?_
      | with_reducible refine State.done_kept ?_
      | with_reducible refine State.sendStarted_kept ?_
      | with_reducible refine State.settle_kept ?_
      | with_reducible refine State.cutNow_kept ?_
      | with_reducible refine State.supersede_kept ?_
      | with_reducible refine State.askMotion_kept ?_
      | with_reducible refine Kept.foldl ?_ ?_
      | fail_if_no_progress with_reducible refine Kept.upd ?_
      | refine Kept.tagsFilter ?_
      | refine Kept.enter ?_ ?_
      | dsimp only
      | split

theorem State.takeVel_kept {a : AxisId} {id : Nat} {ws : List Word} {at_ : Option Nat} {s : State} (h : Kept mq lk s0 s) :
    Kept mq lk s0 (State.takeVel s a id ws at_) := by
  unfold State.takeVel
  try dsimp only
  repeat'
    first
      | with_reducible assumption
      | with_reducible refine Kept.ite (fun _ => ?_) (fun _ => ?_)
      | with_reducible refine Kept.ite2 (fun _ => ?_) (fun _ => ?_)
      | with_reducible refine Kept.dite (fun _ => ?_) (fun _ => ?_)
      | with_reducible refine State.fail_kept ?_
      | with_reducible refine State.askMotion_kept ?_
      | with_reducible refine Kept.foldl ?_ ?_
      | fail_if_no_progress with_reducible refine Kept.upd ?_
      | refine Kept.tagsFilter ?_
      | refine Kept.enter ?_ ?_
      | dsimp only
      | split

theorem State.takeRun_kept {a : AxisId} {id : Nat} {ws : List Word} {at_ : Option Nat} {s : State} (h : Kept mq lk s0 s) :
    Kept mq lk s0 (State.takeRun s a id ws at_) := by
  unfold State.takeRun
  try dsimp only
  repeat'
    first
      | with_reducible assumption
      | with_reducible refine Kept.ite (fun _ => ?_) (fun _ => ?_)
      | with_reducible refine Kept.ite2 (fun _ => ?_) (fun _ => ?_)
      | with_reducible refine Kept.dite (fun _ => ?_) (fun _ => ?_)
      | with_reducible refine State.fail_kept ?_
      | with_reducible refine State.askMotion_kept ?_

theorem State.takeSetPosition_kept {a : AxisId} {id : Nat} {ws : List Word} {s : State} (h : Kept mq lk s0 s) :
    Kept mq lk s0 (State.takeSetPosition s a id ws) := by
  unfold State.takeSetPosition
  try dsimp only
  repeat'
    first
      | with_reducible assumption
      | with_reducible refine Kept.ite (fun _ => ?_) (fun _ => ?_)
      | with_reducible refine Kept.ite2 (fun _ => ?_) (fun _ => ?_)
      | with_reducible refine Kept.dite (fun _ => ?_) (fun _ => ?_)
      | with_reducible refine State.setAx_kept ?_
      | with_reducible refine State.fail_kept ?_
      | with_reducible refine State.done_kept ?_

theorem State.stopHere_kept {a : AxisId} {s : State} (h : Kept mq lk s0 s) :
    Kept mq lk s0 (State.stopHere s a) := by
  unfold State.stopHere
  try dsimp only
  repeat'
    first
      | with_reducible assumption
      | with_reducible refine Kept.ite (fun _ => ?_) (fun _ => ?_)
      | with_reducible refine Kept.ite2 (fun _ => ?_) (fun _ => ?_)
      | with_reducible refine Kept.dite (fun _ => ?_) (fun _ => ?_)
      | with_reducible refine State.setSt_kept ?_
      | with_reducible refine State.cutNow_kept ?_
      | with_reducible refine State.setPro_kept ?_
      | with_reducible refine State.settle_kept ?_

theorem State.stopAt_kept {a : AxisId} {ts : Nat} {emergency : Bool} {id : Option Nat} {s : State} (h : Kept mq lk s0 s) :
    Kept mq lk s0 (State.stopAt s a ts emergency id) := by
  unfold State.stopAt
  try dsimp only
  repeat'
    first
      | with_reducible assumption
      | with_reducible refine Kept.ite (fun _ => ?_) (fun _ => ?_)
      | with_reducible refine Kept.ite2 (fun _ => ?_) (fun _ => ?_)
      | with_reducible refine Kept.dite (fun _ => ?_) (fun _ => ?_)
      | with_reducible refine State.stopHere_kept ?_
      | with_reducible refine State.setSt_kept ?_
      | with_reducible refine State.planStopAt_kept ?_

theorem State.askStop_kept {a : AxisId} {emergency : Bool} {id : Option Nat} {at_ : Option Nat} {s : State} (h : Kept mq lk s0 s) :
    Kept mq lk s0 (State.askStop s a emergency id at_) := by
  unfold State.askStop
  try dsimp only
  repeat'
    first
      | with_reducible assumption
      | with_reducible refine Kept.ite (fun _ => ?_) (fun _ => ?_)
      | with_reducible refine Kept.ite2 (fun _ => ?_) (fun _ => ?_)
      | with_reducible refine Kept.dite (fun _ => ?_) (fun _ => ?_)
      | with_reducible refine State.spliceAt_kept2 ?_
      | with_reducible refine State.spliceAt_kept (by with_reducible assumption) ?_
      | with_reducible refine State.stopAt_kept ?_

theorem State.purgeFollow_kept {a : AxisId} {s : State} (h : Kept mq lk s0 s) :
    Kept mq lk s0 (State.purgeFollow s a) := by
  unfold State.purgeFollow
  try dsimp only
  repeat'
    first
      | with_reducible assumption
      | with_reducible refine Kept.ite (fun _ => ?_) (fun _ => ?_)
      | with_reducible refine Kept.ite2 (fun _ => ?_) (fun _ => ?_)
      | with_reducible refine Kept.dite (fun _ => ?_) (fun _ => ?_)
      | with_reducible refine State.setStp_kept ?_
      | with_reducible refine Kept.foldl ?_ ?_
      | fail_if_no_progress with_reducible refine Kept.upd ?_
      | refine Kept.tagsFilter ?_
      | refine Kept.enter ?_ ?_
      | dsimp only
      | split

theorem State.stopCounting_kept {a : AxisId} {s : State} (h : Kept mq lk s0 s) :
    Kept mq lk s0 (State.stopCounting s a) := by
  unfold State.stopCounting
  try dsimp only
  repeat'
    first
      | with_reducible assumption
      | with_reducible refine Kept.ite (fun _ => ?_) (fun _ => ?_)
      | with_reducible refine Kept.ite2 (fun _ => ?_) (fun _ => ?_)
      | with_reducible refine Kept.dite (fun _ => ?_) (fun _ => ?_)
      | with_reducible refine State.setStp_kept ?_
      | with_reducible refine Kept.foldl ?_ ?_
      | fail_if_no_progress with_reducible refine Kept.upd ?_
      | refine Kept.tagsFilter ?_
      | refine Kept.enter ?_ ?_
      | dsimp only
      | split

theorem State.addEnder_kept {a : AxisId} {id : Nat} {s : State} (h : Kept mq lk s0 s) :
    Kept mq lk s0 (State.addEnder s a id) := by
  unfold State.addEnder
  try dsimp only
  repeat'
    first
      | with_reducible assumption
      | with_reducible refine Kept.ite (fun _ => ?_) (fun _ => ?_)
      | with_reducible refine Kept.ite2 (fun _ => ?_) (fun _ => ?_)
      | with_reducible refine Kept.dite (fun _ => ?_) (fun _ => ?_)
      | with_reducible refine State.setStp_kept ?_
      | with_reducible refine State.done_kept ?_
      | with_reducible refine Kept.foldl ?_ ?_
      | fail_if_no_progress with_reducible refine Kept.upd ?_
      | refine Kept.tagsFilter ?_
      | refine Kept.enter ?_ ?_
      | dsimp only
      | split

theorem State.addAtRest_kept {a : AxisId} {l : List (Nat × Status)} {s : State} (h : Kept mq lk s0 s) :
    Kept mq lk s0 (State.addAtRest s a l) := by
  unfold State.addAtRest
  try dsimp only
  repeat'
    first
      | with_reducible assumption
      | with_reducible refine Kept.ite (fun _ => ?_) (fun _ => ?_)
      | with_reducible refine Kept.ite2 (fun _ => ?_) (fun _ => ?_)
      | with_reducible refine Kept.dite (fun _ => ?_) (fun _ => ?_)
      | with_reducible refine State.setPro_kept ?_

theorem State.takeStop_kept {a : AxisId} {id : Nat} {emergency : Bool} {at_ : Option Nat} {s : State} (h : Kept mq lk s0 s) :
    Kept mq lk s0 (State.takeStop s a id emergency at_) := by
  unfold State.takeStop
  try dsimp only
  repeat'
    first
      | with_reducible assumption
      | with_reducible refine Kept.ite (fun _ => ?_) (fun _ => ?_)
      | with_reducible refine Kept.ite2 (fun _ => ?_) (fun _ => ?_)
      | with_reducible refine Kept.dite (fun _ => ?_) (fun _ => ?_)
      | with_reducible refine State.purgeFollow_kept ?_
      | with_reducible refine State.stopCounting_kept ?_
      | with_reducible refine State.addEnder_kept ?_
      | with_reducible refine State.setSt_kept ?_
      | with_reducible refine State.followEnd_kept ?_
      | with_reducible refine State.addAtRest_kept ?_
      | with_reducible refine State.done_kept ?_
      | with_reducible refine State.askStop_kept ?_
      | with_reducible refine State.supersede_kept ?_

theorem State.takeHold_kept {a : AxisId} {id : Nat} {at_ : Option Nat} {s : State} (h : Kept mq lk s0 s) :
    Kept mq lk s0 (State.takeHold s a id at_) := by
  unfold State.takeHold
  try dsimp only
  repeat'
    first
      | with_reducible assumption
      | with_reducible refine Kept.ite (fun _ => ?_) (fun _ => ?_)
      | with_reducible refine Kept.ite2 (fun _ => ?_) (fun _ => ?_)
      | with_reducible refine Kept.dite (fun _ => ?_) (fun _ => ?_)
      | with_reducible refine State.spliceAt_kept2 ?_
      | with_reducible refine State.spliceAt_kept (by with_reducible assumption) ?_
      | with_reducible refine State.setCmd_kept ?_
      | with_reducible refine State.setPro_kept ?_
      | with_reducible refine State.addAtRest_kept ?_
      | with_reducible refine State.done_kept ?_
      | with_reducible refine State.stopHere_kept ?_
      | with_reducible refine State.stopAt_kept ?_
      | with_reducible refine Kept.foldl ?_ ?_
      | fail_if_no_progress with_reducible refine Kept.upd ?_
      | refine Kept.tagsFilter ?_
      | dsimp only
      | split

theorem State.rejoinFrom_kept2 {hd : Hdr} {a : AxisId} {first n : Nat} {at_ : Nat × Nat} {vel pos : Int}
    {loops : List (Nat × Nat × Nat)} {s : State} (h : Kept mq lk s0 s) :
    Kept mq lk s0 (State.rejoinFrom hd a first n at_ vel pos loops s).2 := by
  induction n generalizing s at_ vel pos loops with
  | zero => exact h
  | succ n ih =>
    unfold State.rejoinFrom
    split
    · exact h
    · dsimp only
      refine Kept.ite2 (fun _ => h) fun _ => Kept.ite2 (fun _ => State.readEntry_kept2 h) fun _ => Kept.ite2 (fun _ => ?_)
        fun _ => Kept.ite2 (fun _ => State.readEntry_kept2 h) fun _ => ih (State.readEntry_kept2 h)
      split
      · exact ih (State.findSeg_kept (by assumption) (State.readEntry_kept2 h))
      · exact Kept.ite2 (fun _ => State.findSeg_kept (by assumption) (State.readEntry_kept2 h)) fun _ =>
          ih (State.findSeg_kept (by assumption) (State.readEntry_kept2 h))
      · exact State.findSeg_kept (by assumption) (State.readEntry_kept2 h)
      · exact State.findSeg_kept (by assumption) (State.readEntry_kept2 h)

theorem State.rejoinFrom_kept {hd : Hdr} {a : AxisId} {first n : Nat} {at_ : Nat × Nat} {vel pos : Int}
    {loops : List (Nat × Nat × Nat)} {s t : State} {x : Rejoin}
    (e : State.rejoinFrom hd a first n at_ vel pos loops s = (x, t)) (h : Kept mq lk s0 s) : Kept mq lk s0 t := by
  have := State.rejoinFrom_kept2 (hd := hd) (a := a) (first := first) (n := n) (at_ := at_) (vel := vel) (pos := pos) (loops := loops) h
  rw [e] at this
  exact this

theorem State.rejoinPoint_kept2 {a : AxisId} {r : Run} {s : State} (h : Kept mq lk s0 s) :
    Kept mq lk s0 (State.rejoinPoint s a r).2 := by
  unfold State.rejoinPoint
  try dsimp only
  repeat'
    first
      | with_reducible assumption
      | with_reducible refine Kept.ite (fun _ => ?_) (fun _ => ?_)
      | with_reducible refine Kept.ite2 (fun _ => ?_) (fun _ => ?_)
      | with_reducible refine Kept.dite (fun _ => ?_) (fun _ => ?_)
      | with_reducible refine State.readEntry_kept2 ?_
      | with_reducible refine State.readEntry_kept (by with_reducible assumption) ?_
      | with_reducible refine State.rejoinFrom_kept2 ?_
      | with_reducible refine State.rejoinFrom_kept (by with_reducible assumption) ?_
      | with_reducible refine Kept.foldl ?_ ?_
      | fail_if_no_progress with_reducible refine Kept.upd ?_
      | refine Kept.tagsFilter ?_
      | dsimp only
      | split

theorem State.rejoinPoint_kept {a : AxisId} {r : Run} {s t : State} {v0 : Rejoin} (e : State.rejoinPoint s a r = (v0, t)) (h : Kept mq lk s0 s) :
    Kept mq lk s0 t := by
  have := State.rejoinPoint_kept2 (s := s) (a := a) (r := r) (h := h)
  rw [e] at this
  exact this

theorem State.resumeWith_kept {a : AxisId} {id : Nat} {c : Nat} {commit : Nat} {s : State} (h : Kept mq lk s0 s) :
    Kept mq lk s0 (State.resumeWith s a id c commit) := by
  unfold State.resumeWith
  try dsimp only
  repeat'
    first
      | with_reducible assumption
      | with_reducible refine Kept.ite (fun _ => ?_) (fun _ => ?_)
      | with_reducible refine Kept.ite2 (fun _ => ?_) (fun _ => ?_)
      | with_reducible refine Kept.dite (fun _ => ?_) (fun _ => ?_)
      | with_reducible refine State.setCmd_kept ?_
      | with_reducible refine State.setPro_kept ?_
      | with_reducible refine State.setSt_kept ?_
      | with_reducible refine State.syncLoops_kept ?_
      | with_reducible refine State.finish_kept ?_
      | with_reducible refine State.done_kept ?_
      | with_reducible refine Kept.foldl ?_ ?_
      | fail_if_no_progress with_reducible refine Kept.upd ?_
      | refine Kept.tagsFilter ?_
      | dsimp only
      | split

theorem State.resumeRun_kept {a : AxisId} {id : Nat} {c : Nat} {r : Run} {next : Option (Nat × Nat)} {pos : Int} {loops : List (Nat × Nat × Nat)} {at_ : Option Nat} {s : State} (h : Kept mq lk s0 s) :
    Kept mq lk s0 (State.resumeRun s a id c r next pos loops at_) := by
  unfold State.resumeRun
  try dsimp only
  repeat'
    first
      | with_reducible assumption
      | with_reducible refine Kept.ite (fun _ => ?_) (fun _ => ?_)
      | with_reducible refine Kept.ite2 (fun _ => ?_) (fun _ => ?_)
      | with_reducible refine Kept.dite (fun _ => ?_) (fun _ => ?_)
      | with_reducible refine State.spliceAt_kept2 ?_
      | with_reducible refine State.spliceAt_kept (by with_reducible assumption) ?_
      | with_reducible refine State.resumeWith_kept ?_
      | with_reducible refine State.setPro_kept ?_
      | with_reducible refine State.putPlan_kept ?_

theorem State.takeResume_kept {a : AxisId} {id : Nat} {at_ : Option Nat} {s : State} (h : Kept mq lk s0 s) :
    Kept mq lk s0 (State.takeResume s a id at_) := by
  unfold State.takeResume
  try dsimp only
  repeat'
    first
      | with_reducible assumption
      | with_reducible refine Kept.ite (fun _ => ?_) (fun _ => ?_)
      | with_reducible refine Kept.ite2 (fun _ => ?_) (fun _ => ?_)
      | with_reducible refine Kept.dite (fun _ => ?_) (fun _ => ?_)
      | with_reducible refine State.fail_kept ?_
      | with_reducible refine State.spliceAt_kept2 ?_
      | with_reducible refine State.spliceAt_kept (by with_reducible assumption) ?_
      | with_reducible refine State.resumeWith_kept ?_
      | with_reducible refine State.putPlan_kept ?_
      | with_reducible refine State.rejoinPoint_kept2 ?_
      | with_reducible refine State.rejoinPoint_kept (by with_reducible assumption) ?_
      | with_reducible refine State.tableUe_kept ?_
      | with_reducible refine State.resumeRun_kept ?_
      | with_reducible refine Kept.foldl ?_ ?_
      | fail_if_no_progress with_reducible refine Kept.upd ?_
      | refine Kept.tagsFilter ?_
      | dsimp only
      | split

theorem State.abortMotion_kept {a : AxisId} {mv : Nat} {ab : Nat} {at_ : Option Nat} {s : State} (h : Kept mq lk s0 s) :
    Kept mq lk s0 (State.abortMotion s a mv ab at_) := by
  unfold State.abortMotion
  try dsimp only
  repeat'
    first
      | with_reducible assumption
      | with_reducible refine Kept.ite (fun _ => ?_) (fun _ => ?_)
      | with_reducible refine Kept.ite2 (fun _ => ?_) (fun _ => ?_)
      | with_reducible refine Kept.dite (fun _ => ?_) (fun _ => ?_)
      | with_reducible refine State.place_kept ?_
      | with_reducible refine State.setPro_kept ?_
      | with_reducible refine State.closeRun_kept ?_
      | with_reducible refine State.fail_kept ?_
      | with_reducible refine State.done_kept ?_
      | with_reducible refine State.askStop_kept ?_

theorem State.stopFault_kept {a : AxisId} {s : State} (h : Kept mq lk s0 s) :
    Kept mq lk s0 (State.stopFault s a) := by
  unfold State.stopFault
  try dsimp only
  repeat'
    first
      | with_reducible assumption
      | with_reducible refine Kept.ite (fun _ => ?_) (fun _ => ?_)
      | with_reducible refine Kept.ite2 (fun _ => ?_) (fun _ => ?_)
      | with_reducible refine Kept.dite (fun _ => ?_) (fun _ => ?_)
      | with_reducible refine State.modAx_kept ?_
      | with_reducible refine State.setSt_kept ?_
      | with_reducible refine State.followEnd_kept ?_
      | with_reducible refine State.closeRun_kept ?_
      | with_reducible refine State.askStop_kept ?_
      | with_reducible refine State.purgeFollow_kept ?_

theorem State.takeFollow_kept {a : AxisId} {id : Nat} {ws : List Word} {s : State} (h : Kept mq lk s0 s) :
    Kept mq lk s0 (State.takeFollow s a id ws) := by
  unfold State.takeFollow
  try dsimp only
  repeat'
    first
      | with_reducible assumption
      | with_reducible refine Kept.ite (fun _ => ?_) (fun _ => ?_)
      | with_reducible refine Kept.ite2 (fun _ => ?_) (fun _ => ?_)
      | with_reducible refine Kept.dite (fun _ => ?_) (fun _ => ?_)
      | with_reducible refine State.setStp_kept ?_
      | with_reducible refine State.setSt_kept ?_
      | with_reducible refine State.fail_kept ?_
      | with_reducible refine State.done_kept ?_
      | with_reducible refine State.syncLoops_kept ?_

theorem State.takeFollowEnd_kept {a : AxisId} {id : Nat} {s : State} (h : Kept mq lk s0 s) :
    Kept mq lk s0 (State.takeFollowEnd s a id) := by
  unfold State.takeFollowEnd
  try dsimp only
  repeat'
    first
      | with_reducible assumption
      | with_reducible refine Kept.ite (fun _ => ?_) (fun _ => ?_)
      | with_reducible refine Kept.ite2 (fun _ => ?_) (fun _ => ?_)
      | with_reducible refine Kept.dite (fun _ => ?_) (fun _ => ?_)
      | with_reducible refine State.followEnd_kept ?_
      | with_reducible refine State.stopCounting_kept ?_
      | with_reducible refine State.addEnder_kept ?_

theorem State.findLast_kept2 {h : Hdr} {a : AxisId} {first : Nat} {s : State} (hk : Kept mq lk s0 s) :
    Kept mq lk s0 (State.findLast s h a first).2 := by
  unfold State.findLast
  try dsimp only
  repeat'
    first
      | with_reducible assumption
      | with_reducible refine Kept.ite (fun _ => ?_) (fun _ => ?_)
      | with_reducible refine Kept.ite2 (fun _ => ?_) (fun _ => ?_)
      | with_reducible refine Kept.dite (fun _ => ?_) (fun _ => ?_)
      | with_reducible refine State.findEntry_kept2 ?_
      | with_reducible refine State.findEntry_kept (by with_reducible assumption) ?_
      | with_reducible refine Kept.foldl ?_ ?_
      | fail_if_no_progress with_reducible refine Kept.upd ?_
      | refine Kept.tagsFilter ?_
      | dsimp only
      | split
      | (intro _; intros; try dsimp only)

theorem State.findLast_kept {h : Hdr} {a : AxisId} {first : Nat} {s t : State} {v0 : Found} (e : State.findLast s h a first = (v0, t)) (hk : Kept mq lk s0 s) :
    Kept mq lk s0 t := by
  have := State.findLast_kept2 (s := s) (h := h) (a := a) (first := first) (hk := hk)
  rw [e] at this
  exact this

theorem State.putEntry_kept {h : Hdr} {a : AxisId} {b : Nat} {i : Nat} {ws : List Word} {s : State} (hk : Kept false lk s0 s) :
    Kept false lk s0 (State.putEntry s h a b i ws) := by
  unfold State.putEntry
  try dsimp only
  repeat'
    first
      | with_reducible assumption
      | with_reducible refine Kept.ite (fun _ => ?_) (fun _ => ?_)
      | with_reducible refine Kept.ite2 (fun _ => ?_) (fun _ => ?_)
      | with_reducible refine Kept.dite (fun _ => ?_) (fun _ => ?_)
      | with_reducible refine State.poolItem_kept ?_
      | with_reducible refine State.poolPuts_kept2 ?_
      | with_reducible refine State.poolPuts_kept (by with_reducible assumption) ?_
      | with_reducible refine Kept.foldl ?_ ?_
      | fail_if_no_progress with_reducible refine Kept.upd ?_
      | refine Kept.tagsFilter ?_
      | dsimp only
      | split
      | (intro _; intros; try dsimp only)

theorem State.appendFrom_kept2 {hd : Hdr} {a : AxisId} {lender : Nat} {es : List (List Word)} {b i : Nat} {s : State}
    (h : Kept false lk s0 s) : Kept false lk s0 (State.appendFrom hd a lender es b i s).2 := by
  induction es generalizing s b i with
  | nil => exact h
  | cons e es ih =>
    unfold State.appendFrom
    dsimp only
    split
    · exact ih (State.putEntry_kept h)
    · split
      · split
        · exact ih (State.putEntry_kept h)
        · exact h
      · split
        · exact h
        · exact ih (State.putEntry_kept (State.setBlk_kept (State.setBlk_kept (State.pickFree_kept2 h))))

theorem State.appendFrom_kept {hd : Hdr} {a : AxisId} {lender : Nat} {es : List (List Word)} {b i : Nat} {s t : State}
    {x : AppendRes} (e : State.appendFrom hd a lender es b i s = (x, t)) (h : Kept false lk s0 s) : Kept false lk s0 t := by
  have := State.appendFrom_kept2 (es := es) (hd := hd) (a := a) (lender := lender) (b := b) (i := i) h
  rw [e] at this
  exact this

theorem State.runOn_kept {a : AxisId} {last : Nat × Nat} {s : State} (h : Kept mq lk s0 s) :
    Kept mq lk s0 (State.runOn s a last) := by
  unfold State.runOn
  try dsimp only
  repeat'
    first
      | with_reducible assumption
      | with_reducible refine Kept.ite (fun _ => ?_) (fun _ => ?_)
      | with_reducible refine Kept.ite2 (fun _ => ?_) (fun _ => ?_)
      | with_reducible refine Kept.dite (fun _ => ?_) (fun _ => ?_)
      | with_reducible refine State.setPro_kept ?_
      | with_reducible refine Kept.foldl ?_ ?_
      | fail_if_no_progress with_reducible refine Kept.upd ?_
      | refine Kept.tagsFilter ?_
      | dsimp only
      | split
      | (intro _; intros; try dsimp only)

theorem State.takeAppend_kept {a : AxisId} {id : Nat} {ws : List Word} {s : State} (h : Kept false lk s0 s) :
    Kept false lk s0 (State.takeAppend s a id ws) := by
  unfold State.takeAppend
  try dsimp only
  repeat'
    first
      | with_reducible assumption
      | with_reducible refine Kept.ite (fun _ => ?_) (fun _ => ?_)
      | with_reducible refine Kept.ite2 (fun _ => ?_) (fun _ => ?_)
      | with_reducible refine Kept.dite (fun _ => ?_) (fun _ => ?_)
      | with_reducible refine State.rechain_kept ?_
      | with_reducible refine State.runOn_kept ?_
      | with_reducible refine State.fail_kept ?_
      | with_reducible refine State.findLast_kept2 ?_
      | with_reducible refine State.findLast_kept (by with_reducible assumption) ?_
      | with_reducible refine State.tableUe_kept ?_
      | with_reducible refine State.appendFrom_kept2 ?_
      | with_reducible refine State.appendFrom_kept (by with_reducible assumption) ?_
      | with_reducible refine State.setWord_kept ?_
      | with_reducible refine State.setBit_kept ?_
      | with_reducible refine State.setPro_kept ?_
      | with_reducible refine State.done_kept ?_
      | with_reducible refine Kept.foldl ?_ ?_
      | fail_if_no_progress with_reducible refine Kept.upd ?_
      | refine Kept.tagsFilter ?_
      | dsimp only
      | split

theorem State.hold_kept {k : Nat} {v : Word} {s : State} (h : Kept mq lk s0 s) :
    Kept mq lk s0 (State.hold s k v) := by
  unfold State.hold
  try dsimp only
  repeat'
    first
      | with_reducible assumption
      | with_reducible refine Kept.ite (fun _ => ?_) (fun _ => ?_)
      | with_reducible refine Kept.ite2 (fun _ => ?_) (fun _ => ?_)
      | with_reducible refine Kept.dite (fun _ => ?_) (fun _ => ?_)
      | with_reducible refine Kept.foldl ?_ ?_
      | fail_if_no_progress with_reducible refine Kept.upd ?_

theorem State.slAct_kept {a : AxisId} {s : State} (h : Kept mq lk s0 s) :
    Kept mq lk s0 (State.slAct s a) := by
  unfold State.slAct
  try dsimp only
  repeat'
    first
      | with_reducible assumption
      | with_reducible refine Kept.ite (fun _ => ?_) (fun _ => ?_)
      | with_reducible refine Kept.ite2 (fun _ => ?_) (fun _ => ?_)
      | with_reducible refine Kept.dite (fun _ => ?_) (fun _ => ?_)
      | with_reducible refine State.setPro_kept ?_
      | with_reducible refine State.raiseC0_kept ?_
      | with_reducible refine State.purgeFollow_kept ?_
      | with_reducible refine State.followEnd_kept ?_
      | with_reducible refine State.place_kept ?_
      | with_reducible refine State.addAtRest_kept ?_
      | with_reducible refine State.askStop_kept ?_
      | with_reducible refine Kept.foldl ?_ ?_
      | fail_if_no_progress with_reducible refine Kept.upd ?_
      | refine Kept.tagsFilter ?_
      | dsimp only
      | split
      | (intro _; intros; try dsimp only)

theorem State.slCheck_kept {a : AxisId} {s : State} (h : Kept mq lk s0 s) :
    Kept mq lk s0 (State.slCheck s a) := by
  unfold State.slCheck
  try dsimp only
  repeat'
    first
      | with_reducible assumption
      | with_reducible refine Kept.ite (fun _ => ?_) (fun _ => ?_)
      | with_reducible refine Kept.ite2 (fun _ => ?_) (fun _ => ?_)
      | with_reducible refine Kept.dite (fun _ => ?_) (fun _ => ?_)
      | with_reducible refine State.whenClocked_kept ?_ (fun _ _ => ?_)
      | with_reducible refine State.slAct_kept ?_
      | with_reducible refine State.raiseC0_kept ?_
      | with_reducible refine State.place_kept ?_
      | with_reducible refine State.setPro_kept ?_
      | with_reducible refine State.raiseSc_kept ?_
      | with_reducible refine State.followEnd_kept ?_
      | with_reducible refine State.askStop_kept ?_
      | with_reducible refine State.purgeFollow_kept ?_
      | with_reducible refine State.addAtRest_kept ?_

theorem State.writePro_kept {a : AxisId} {idx : Nat} {v : Word} {s : State} (h : Kept mq lk s0 s) :
    Kept mq lk s0 (State.writePro s a idx v) := by
  unfold State.writePro
  try dsimp only
  repeat'
    first
      | with_reducible assumption
      | with_reducible refine Kept.ite (fun _ => ?_) (fun _ => ?_)
      | with_reducible refine Kept.ite2 (fun _ => ?_) (fun _ => ?_)
      | with_reducible refine Kept.dite (fun _ => ?_) (fun _ => ?_)
      | with_reducible refine State.setReg_kept ?_
      | with_reducible refine State.flag_kept ?_
      | with_reducible refine State.plainWrite_kept ?_
      | with_reducible refine State.hold_kept ?_
      | with_reducible refine State.slCheck_kept ?_

end Sys2Proof.Machine
end

