-- ==== Sys2Proof/Laws/KeptFault.lean ====
section
/-! SUPPORT. That each operation of Feedback.lean, Pwm.lean, Fault.lean, Bank.lean keeps what `Kept` says. -/

namespace Sys2Proof.Machine

variable {mq lk : Bool} {s0 : State}

theorem State.setChan_kept {c : ChanId} {x : Chan} {s : State} (h : Kept mq lk s0 s) :
    Kept mq lk s0 (State.setChan s c x) := by
  unfold State.setChan
  try dsimp only
  repeat'
    first
      | with_reducible assumption
      | with_reducible refine Kept.ite (fun _ => ?_) (fun _ => ?_)
      | with_reducible refine Kept.ite2 (fun _ => ?_) (fun _ => ?_)
      | with_reducible refine Kept.dite (fun _ => ?_) (fun _ => ?_)
      | with_reducible refine Kept.foldl ?_ ?_
      | fail_if_no_progress with_reducible refine Kept.upd ?_

theorem State.echoEvent_kept {i : Fin 16} {up : Bool} {stamp : Nat} {s : State} (h : Kept mq lk s0 s) :
    Kept mq lk s0 (State.echoEvent s i up stamp) := by
  unfold State.echoEvent
  try dsimp only
  repeat'
    first
      | with_reducible assumption
      | with_reducible refine Kept.ite (fun _ => ?_) (fun _ => ?_)
      | with_reducible refine Kept.ite2 (fun _ => ?_) (fun _ => ?_)
      | with_reducible refine Kept.dite (fun _ => ?_) (fun _ => ?_)
      | with_reducible refine State.raiseC0_kept ?_
      | with_reducible refine State.flag_kept ?_
      | with_reducible refine State.raiseSc_kept ?_
      | with_reducible refine Kept.foldl ?_ ?_
      | fail_if_no_progress with_reducible refine Kept.upd ?_

theorem State.echoAll_kept {c : ChanId} {up : Bool} {stamp n : Nat} {s : State} (h : Kept mq lk s0 s) :
    Kept mq lk s0 (s.echoAll c up stamp n) := by
  induction n generalizing s with
  | zero => exact h
  | succ n ih =>
    refine ih (Kept.foldl h fun t i g => ?_)
    dsimp only
    split
    · exact State.echoEvent_kept g
    · exact g

theorem State.recapture_kept {c : ChanId} {stamp : Nat} {s : State} (h : Kept mq lk s0 s) :
    Kept mq lk s0 (State.recapture s c stamp) := by
  unfold State.recapture
  try dsimp only
  repeat'
    first
      | with_reducible assumption
      | with_reducible refine Kept.ite (fun _ => ?_) (fun _ => ?_)
      | with_reducible refine Kept.ite2 (fun _ => ?_) (fun _ => ?_)
      | with_reducible refine Kept.dite (fun _ => ?_) (fun _ => ?_)
      | with_reducible refine State.setChan_kept ?_

theorem State.countEvent_kept {c : ChanId} {d0 : Int} {stamp : Nat} {s : State} (h : Kept mq lk s0 s) :
    Kept mq lk s0 (State.countEvent s c d0 stamp) := by
  unfold State.countEvent
  try dsimp only
  repeat'
    first
      | with_reducible assumption
      | with_reducible refine Kept.ite (fun _ => ?_) (fun _ => ?_)
      | with_reducible refine Kept.ite2 (fun _ => ?_) (fun _ => ?_)
      | with_reducible refine Kept.dite (fun _ => ?_) (fun _ => ?_)
      | with_reducible refine State.eachAx_kept ?_ (fun _ _ _ => ?_)
      | with_reducible refine State.recapture_kept ?_
      | with_reducible refine State.flag_kept ?_
      | with_reducible refine State.setStp_kept ?_
      | with_reducible refine State.eachAx_kept ?_ ?_
      | with_reducible refine State.setChan_kept ?_
      | with_reducible refine State.echoAll_kept ?_
      | with_reducible refine Kept.foldl ?_ ?_
      | fail_if_no_progress with_reducible refine Kept.upd ?_
      | refine Kept.tagsFilter ?_
      | refine Kept.enter ?_ ?_
      | dsimp only
      | split

theorem State.trigger_kept {c : ChanId} {stamp : Nat} {software : Bool} {s : State} (h : Kept mq lk s0 s) :
    Kept mq lk s0 (State.trigger s c stamp software) := by
  unfold State.trigger
  try dsimp only
  repeat'
    first
      | with_reducible assumption
      | with_reducible refine Kept.ite (fun _ => ?_) (fun _ => ?_)
      | with_reducible refine Kept.ite2 (fun _ => ?_) (fun _ => ?_)
      | with_reducible refine Kept.dite (fun _ => ?_) (fun _ => ?_)
      | with_reducible refine State.setBit_kept ?_
      | with_reducible refine State.setChan_kept ?_

theorem State.pinTriggers_kept {c : ChanId} {rising : Bool} {stamp : Nat} {s : State} (h : Kept mq lk s0 s) :
    Kept mq lk s0 (State.pinTriggers s c rising stamp) := by
  unfold State.pinTriggers
  try dsimp only
  repeat'
    first
      | with_reducible assumption
      | with_reducible refine Kept.ite (fun _ => ?_) (fun _ => ?_)
      | with_reducible refine Kept.ite2 (fun _ => ?_) (fun _ => ?_)
      | with_reducible refine Kept.dite (fun _ => ?_) (fun _ => ?_)
      | with_reducible refine State.trigger_kept ?_
      | with_reducible refine Kept.foldl ?_ ?_
      | fail_if_no_progress with_reducible refine Kept.upd ?_
      | refine Kept.tagsFilter ?_
      | refine Kept.enter ?_ ?_
      | (intro _; intros; try dsimp only)

theorem State.indexEvent_kept {c : ChanId} {stamp : Nat} {s : State} (h : Kept mq lk s0 s) :
    Kept mq lk s0 (State.indexEvent s c stamp) := by
  unfold State.indexEvent
  try dsimp only
  repeat'
    first
      | with_reducible assumption
      | with_reducible refine Kept.ite (fun _ => ?_) (fun _ => ?_)
      | with_reducible refine Kept.ite2 (fun _ => ?_) (fun _ => ?_)
      | with_reducible refine Kept.dite (fun _ => ?_) (fun _ => ?_)
      | with_reducible refine State.recapture_kept ?_
      | with_reducible refine State.setReg_kept ?_
      | with_reducible refine State.flag_kept ?_
      | with_reducible refine State.bumpMod_kept ?_
      | with_reducible refine State.setChan_kept ?_
      | with_reducible refine State.trigger_kept ?_

theorem State.skip_kept {c : ChanId} {bit : Nat} {s : State} (h : Kept mq lk s0 s) :
    Kept mq lk s0 (State.skip s c bit) := by
  unfold State.skip
  try dsimp only
  repeat'
    first
      | with_reducible assumption
      | with_reducible refine Kept.ite (fun _ => ?_) (fun _ => ?_)
      | with_reducible refine Kept.ite2 (fun _ => ?_) (fun _ => ?_)
      | with_reducible refine Kept.dite (fun _ => ?_) (fun _ => ?_)
      | with_reducible refine State.flag_kept ?_
      | with_reducible refine State.bump_kept ?_

theorem State.hallInvalid_kept {c : ChanId} {s : State} (h : Kept mq lk s0 s) :
    Kept mq lk s0 (State.hallInvalid s c) := by
  unfold State.hallInvalid
  try dsimp only
  repeat'
    first
      | with_reducible assumption
      | with_reducible refine Kept.ite (fun _ => ?_) (fun _ => ?_)
      | with_reducible refine Kept.ite2 (fun _ => ?_) (fun _ => ?_)
      | with_reducible refine Kept.dite (fun _ => ?_) (fun _ => ?_)
      | with_reducible refine State.bump_kept ?_
      | with_reducible refine State.raiseAx_kept ?_
      | with_reducible refine State.raiseC0_kept ?_
      | with_reducible refine State.setChan_kept ?_
      | with_reducible refine Kept.foldl ?_ ?_
      | fail_if_no_progress with_reducible refine Kept.upd ?_
      | refine Kept.tagsFilter ?_
      | refine Kept.enter ?_ ?_
      | (intro _; intros; try dsimp only)
      | dsimp only
      | split

theorem State.hallStep_kept {c : ChanId} {new : BitVec 3} {stamp : Nat} {s : State} (h : Kept mq lk s0 s) :
    Kept mq lk s0 (State.hallStep s c new stamp) := by
  unfold State.hallStep
  try dsimp only
  repeat'
    first
      | with_reducible assumption
      | with_reducible refine Kept.ite (fun _ => ?_) (fun _ => ?_)
      | with_reducible refine Kept.ite2 (fun _ => ?_) (fun _ => ?_)
      | with_reducible refine Kept.dite (fun _ => ?_) (fun _ => ?_)
      | with_reducible refine State.setChan_kept ?_
      | with_reducible refine State.countEvent_kept ?_
      | with_reducible refine State.skip_kept ?_
      | with_reducible refine State.hallInvalid_kept ?_
      | with_reducible refine Kept.foldl ?_ ?_
      | fail_if_no_progress with_reducible refine Kept.upd ?_
      | refine Kept.tagsFilter ?_
      | refine Kept.enter ?_ ?_
      | dsimp only
      | split

theorem State.decodeEdge_kept {c : ChanId} {old : BitVec 3} {new : BitVec 3} {stamp : Nat} {s : State} (h : Kept mq lk s0 s) :
    Kept mq lk s0 (State.decodeEdge s c old new stamp) := by
  unfold State.decodeEdge
  try dsimp only
  repeat'
    first
      | with_reducible assumption
      | with_reducible refine Kept.ite (fun _ => ?_) (fun _ => ?_)
      | with_reducible refine Kept.ite2 (fun _ => ?_) (fun _ => ?_)
      | with_reducible refine Kept.dite (fun _ => ?_) (fun _ => ?_)
      | with_reducible refine State.countEvent_kept ?_
      | with_reducible refine State.indexEvent_kept ?_
      | with_reducible refine State.skip_kept ?_
      | with_reducible refine State.hallStep_kept ?_
      | with_reducible refine Kept.foldl ?_ ?_
      | fail_if_no_progress with_reducible refine Kept.upd ?_
      | refine Kept.tagsFilter ?_
      | refine Kept.enter ?_ ?_
      | dsimp only
      | split

theorem State.writeLattrig_kept {c : ChanId} {v : Word} {s : State} (h : Kept mq lk s0 s) :
    Kept mq lk s0 (State.writeLattrig s c v) := by
  unfold State.writeLattrig
  try dsimp only
  repeat'
    first
      | with_reducible assumption
      | with_reducible refine Kept.ite (fun _ => ?_) (fun _ => ?_)
      | with_reducible refine Kept.ite2 (fun _ => ?_) (fun _ => ?_)
      | with_reducible refine Kept.dite (fun _ => ?_) (fun _ => ?_)
      | with_reducible refine State.whenClocked_kept ?_ (fun _ _ => ?_)
      | with_reducible refine State.trigger_kept ?_

theorem State.settleCount_kept {c : ChanId} {s : State} (h : Kept mq lk s0 s) :
    Kept mq lk s0 (State.settleCount s c) := by
  unfold State.settleCount
  try dsimp only
  repeat'
    first
      | with_reducible assumption
      | with_reducible refine Kept.ite (fun _ => ?_) (fun _ => ?_)
      | with_reducible refine Kept.ite2 (fun _ => ?_) (fun _ => ?_)
      | with_reducible refine Kept.dite (fun _ => ?_) (fun _ => ?_)
      | with_reducible refine State.eachAx_kept ?_ (fun _ _ _ => ?_)
      | with_reducible refine State.eachAx_kept ?_
      | with_reducible refine State.modAx_kept ?_

theorem State.resetChan_kept {c : ChanId} {s : State} (h : Kept mq lk s0 s) :
    Kept mq lk s0 (State.resetChan s c) := by
  unfold State.resetChan
  try dsimp only
  repeat'
    first
      | with_reducible assumption
      | with_reducible refine Kept.ite (fun _ => ?_) (fun _ => ?_)
      | with_reducible refine Kept.ite2 (fun _ => ?_) (fun _ => ?_)
      | with_reducible refine Kept.dite (fun _ => ?_) (fun _ => ?_)
      | with_reducible refine State.setReg_kept ?_
      | with_reducible refine State.modAx_kept ?_
      | with_reducible refine State.eachAx_kept ?_ ?_
      | with_reducible refine State.setChan_kept ?_
      | with_reducible refine State.clearSlot_kept ?_

theorem State.dropFollowers_kept {c : ChanId} {s : State} (h : Kept mq lk s0 s) :
    Kept mq lk s0 (State.dropFollowers s c) := by
  unfold State.dropFollowers
  try dsimp only
  repeat'
    first
      | with_reducible assumption
      | with_reducible refine Kept.ite (fun _ => ?_) (fun _ => ?_)
      | with_reducible refine Kept.ite2 (fun _ => ?_) (fun _ => ?_)
      | with_reducible refine Kept.dite (fun _ => ?_) (fun _ => ?_)
      | with_reducible refine State.eachAx_kept ?_ (fun _ _ _ => ?_)
      | with_reducible refine State.raiseC0_kept ?_
      | with_reducible refine State.eachAx_kept ?_ ?_
      | with_reducible refine State.raiseAx_kept ?_
      | with_reducible refine State.followEnd_kept ?_
      | with_reducible refine State.stopCounting_kept ?_
      | with_reducible refine Kept.foldl ?_ ?_
      | fail_if_no_progress with_reducible refine Kept.upd ?_
      | refine Kept.tagsFilter ?_
      | refine Kept.enter ?_ ?_
      | dsimp only
      | split

theorem State.chanTo_kept {c : ChanId} {idx : Nat} {new : Word} {s : State} (h : Kept mq lk s0 s) :
    Kept mq lk s0 (State.chanTo s c idx new) := by
  unfold State.chanTo
  try dsimp only
  repeat'
    first
      | with_reducible assumption
      | with_reducible refine Kept.ite (fun _ => ?_) (fun _ => ?_)
      | with_reducible refine Kept.ite2 (fun _ => ?_) (fun _ => ?_)
      | with_reducible refine Kept.dite (fun _ => ?_) (fun _ => ?_)
      | with_reducible refine State.settleCount_kept ?_
      | with_reducible refine State.setReg_kept ?_
      | with_reducible refine State.resetChan_kept ?_
      | with_reducible refine State.setChan_kept ?_
      | with_reducible refine State.dropFollowers_kept ?_
      | with_reducible refine State.hallStep_kept ?_
      | with_reducible refine Kept.foldl ?_ ?_
      | fail_if_no_progress with_reducible refine Kept.upd ?_
      | refine Kept.tagsFilter ?_
      | dsimp only
      | split
      | (intro _; intros; try dsimp only)

theorem State.chanAct_kept {c : ChanId} {idx : Nat} {old : Word} {s : State} (h : Kept mq lk s0 s) :
    Kept mq lk s0 (State.chanAct s c idx old) := by
  unfold State.chanAct
  try dsimp only
  repeat'
    first
      | with_reducible assumption
      | with_reducible refine Kept.ite (fun _ => ?_) (fun _ => ?_)
      | with_reducible refine Kept.ite2 (fun _ => ?_) (fun _ => ?_)
      | with_reducible refine Kept.dite (fun _ => ?_) (fun _ => ?_)
      | with_reducible refine State.setReg_kept ?_
      | with_reducible refine State.chanTo_kept ?_
      | with_reducible refine Kept.foldl ?_ ?_
      | fail_if_no_progress with_reducible refine Kept.upd ?_
      | refine Kept.tagsFilter ?_
      | dsimp only
      | split
      | (intro _; intros; try dsimp only)

theorem State.writeFbkCfg_kept {c : ChanId} {idx : Nat} {v : Word} {s : State} (h : Kept mq lk s0 s) :
    Kept mq lk s0 (State.writeFbkCfg s c idx v) :=
  Kept.ite (fun _ => State.chanTo_kept h) fun _ => Kept.upd (State.setReg_kept h)

theorem State.slotAct_kept {old : Word} {w : Word} {s : State} (h : Kept mq lk s0 s) :
    Kept mq lk s0 (State.slotAct s old w) := by
  unfold State.slotAct
  try dsimp only
  repeat'
    first
      | with_reducible assumption
      | with_reducible refine Kept.ite (fun _ => ?_) (fun _ => ?_)
      | with_reducible refine Kept.ite2 (fun _ => ?_) (fun _ => ?_)
      | with_reducible refine Kept.dite (fun _ => ?_) (fun _ => ?_)
      | with_reducible refine State.setChan_kept ?_
      | with_reducible refine Kept.foldl ?_ ?_
      | fail_if_no_progress with_reducible refine Kept.upd ?_
      | refine Kept.tagsFilter ?_
      | dsimp only
      | split
      | (intro _; intros; try dsimp only)

theorem State.writeSlot_kept {k : Fin 8} {v : Word} {s : State} (h : Kept mq lk s0 s) :
    Kept mq lk s0 (State.writeSlot s k v) := by
  unfold State.writeSlot
  try dsimp only
  repeat'
    first
      | with_reducible assumption
      | with_reducible refine Kept.ite (fun _ => ?_) (fun _ => ?_)
      | with_reducible refine Kept.ite2 (fun _ => ?_) (fun _ => ?_)
      | with_reducible refine Kept.dite (fun _ => ?_) (fun _ => ?_)
      | with_reducible refine State.whenClocked_kept ?_ (fun _ _ => ?_)
      | with_reducible refine State.slotAct_kept ?_
      | with_reducible refine State.setBit_kept ?_
      | with_reducible refine State.setReg_kept ?_
      | with_reducible refine State.flag_kept ?_
      | with_reducible refine State.setChan_kept ?_
      | with_reducible refine Kept.foldl ?_ ?_
      | fail_if_no_progress with_reducible refine Kept.upd ?_

theorem State.echoAct_kept {e : Fin 16} {s : State} (h : Kept mq lk s0 s) :
    Kept mq lk s0 (State.echoAct s e) := by
  unfold State.echoAct
  try dsimp only
  repeat'
    first
      | with_reducible assumption
      | with_reducible refine Kept.ite (fun _ => ?_) (fun _ => ?_)
      | with_reducible refine Kept.ite2 (fun _ => ?_) (fun _ => ?_)
      | with_reducible refine Kept.dite (fun _ => ?_) (fun _ => ?_)
      | with_reducible refine Kept.foldl ?_ ?_
      | fail_if_no_progress with_reducible refine Kept.upd ?_
      | refine Kept.tagsFilter ?_
      | dsimp only
      | split
      | (intro _; intros; try dsimp only)

theorem State.writeEcho_kept {e : Fin 16} {ratio : Bool} {v : Word} {s : State} (h : Kept mq lk s0 s) :
    Kept mq lk s0 (State.writeEcho s e ratio v) := by
  unfold State.writeEcho
  try dsimp only
  repeat'
    first
      | with_reducible assumption
      | with_reducible refine Kept.ite (fun _ => ?_) (fun _ => ?_)
      | with_reducible refine Kept.ite2 (fun _ => ?_) (fun _ => ?_)
      | with_reducible refine Kept.dite (fun _ => ?_) (fun _ => ?_)
      | with_reducible refine State.whenClocked_kept ?_ (fun _ _ => ?_)
      | with_reducible refine State.echoAct_kept ?_
      | with_reducible refine State.setReg_kept ?_
      | with_reducible refine State.flag_kept ?_
      | with_reducible refine Kept.foldl ?_ ?_
      | fail_if_no_progress with_reducible refine Kept.upd ?_

theorem State.guySync_kept  {s : State} (h : Kept mq lk s0 s) :
    Kept mq lk s0 (State.guySync s) := by
  unfold State.guySync
  try dsimp only
  repeat'
    first
      | with_reducible assumption
      | with_reducible refine Kept.ite (fun _ => ?_) (fun _ => ?_)
      | with_reducible refine Kept.ite2 (fun _ => ?_) (fun _ => ?_)
      | with_reducible refine Kept.dite (fun _ => ?_) (fun _ => ?_)
      | with_reducible refine State.setBit_kept ?_
      | with_reducible refine Kept.foldl ?_ ?_
      | fail_if_no_progress with_reducible refine Kept.upd ?_
      | refine Kept.tagsFilter ?_
      | refine Kept.enter ?_ ?_
      | dsimp only
      | split

theorem State.startPwm_kept {a : AxisId} {s : State} (h : Kept mq lk s0 s) :
    Kept mq lk s0 (State.startPwm s a) := by
  unfold State.startPwm
  try dsimp only
  repeat'
    first
      | with_reducible assumption
      | with_reducible refine Kept.ite (fun _ => ?_) (fun _ => ?_)
      | with_reducible refine Kept.ite2 (fun _ => ?_) (fun _ => ?_)
      | with_reducible refine Kept.dite (fun _ => ?_) (fun _ => ?_)
      | with_reducible refine State.guySync_kept ?_
      | with_reducible refine State.setPwm_kept ?_

theorem State.planCoil_kept {a : AxisId} {k : CoilId} {s : State} (h : Kept mq lk s0 s) :
    Kept mq lk s0 (State.planCoil s a k) := by
  unfold State.planCoil
  try dsimp only
  repeat'
    first
      | with_reducible assumption
      | with_reducible refine Kept.ite (fun _ => ?_) (fun _ => ?_)
      | with_reducible refine Kept.ite2 (fun _ => ?_) (fun _ => ?_)
      | with_reducible refine Kept.dite (fun _ => ?_) (fun _ => ?_)
      | with_reducible refine State.bridge_kept ?_
      | with_reducible refine State.setPwm_kept ?_
      | with_reducible refine State.setCoil_kept ?_

theorem State.replanCoil_kept {a : AxisId} {k : CoilId} {s : State} (h : Kept mq lk s0 s) :
    Kept mq lk s0 (State.replanCoil s a k) := by
  unfold State.replanCoil
  try dsimp only
  repeat'
    first
      | with_reducible assumption
      | with_reducible refine Kept.ite (fun _ => ?_) (fun _ => ?_)
      | with_reducible refine Kept.ite2 (fun _ => ?_) (fun _ => ?_)
      | with_reducible refine Kept.dite (fun _ => ?_) (fun _ => ?_)
      | with_reducible refine State.bridge_kept ?_
      | with_reducible refine State.flag_kept ?_
      | with_reducible refine State.setPwm_kept ?_

theorem State.startLegs_kept {a : AxisId} {k : CoilId} {s : State} (h : Kept mq lk s0 s) :
    Kept mq lk s0 (State.startLegs s a k) := by
  unfold State.startLegs
  try dsimp only
  repeat'
    first
      | with_reducible assumption
      | with_reducible refine Kept.ite (fun _ => ?_) (fun _ => ?_)
      | with_reducible refine Kept.ite2 (fun _ => ?_) (fun _ => ?_)
      | with_reducible refine Kept.dite (fun _ => ?_) (fun _ => ?_)
      | with_reducible refine State.bridge_kept ?_
      | with_reducible refine State.setCoil_kept ?_
      | with_reducible refine State.setPwm_kept ?_

theorem State.writePwmCfg_kept {a : AxisId} {v : Word} {s : State} (h : Kept mq lk s0 s) :
    Kept mq lk s0 (State.writePwmCfg s a v) := by
  unfold State.writePwmCfg
  try dsimp only
  repeat'
    first
      | with_reducible assumption
      | with_reducible refine Kept.ite (fun _ => ?_) (fun _ => ?_)
      | with_reducible refine Kept.ite2 (fun _ => ?_) (fun _ => ?_)
      | with_reducible refine Kept.dite (fun _ => ?_) (fun _ => ?_)
      | with_reducible refine State.flag_kept ?_
      | with_reducible refine State.plainWrite_kept ?_
      | with_reducible refine State.setPwm_kept ?_
      | with_reducible refine State.replanCoil_kept ?_

theorem State.extTrip_kept {a : AxisId} {s : State} (h : Kept mq lk s0 s) :
    Kept mq lk s0 (State.extTrip s a) := by
  unfold State.extTrip
  try dsimp only
  repeat'
    first
      | with_reducible assumption
      | with_reducible refine Kept.ite (fun _ => ?_) (fun _ => ?_)
      | with_reducible refine Kept.ite2 (fun _ => ?_) (fun _ => ?_)
      | with_reducible refine Kept.dite (fun _ => ?_) (fun _ => ?_)
      | with_reducible refine State.raiseC0_kept ?_
      | with_reducible refine State.raiseItem_kept ?_
      | with_reducible refine State.raiseAx_kept ?_

theorem State.latchTrip_kept {k : Fin 16} {s : State} (h : Kept mq lk s0 s) :
    Kept mq lk s0 (State.latchTrip s k) := by
  unfold State.latchTrip
  try dsimp only
  repeat'
    first
      | with_reducible assumption
      | with_reducible refine Kept.ite (fun _ => ?_) (fun _ => ?_)
      | with_reducible refine Kept.ite2 (fun _ => ?_) (fun _ => ?_)
      | with_reducible refine Kept.dite (fun _ => ?_) (fun _ => ?_)
      | with_reducible refine State.raiseC0_kept ?_
      | with_reducible refine State.flag_kept ?_
      | with_reducible refine State.irq_kept ?_
      | with_reducible refine State.bump_kept ?_
      | with_reducible refine State.extTrip_kept ?_
      | with_reducible refine Kept.foldl ?_ ?_
      | fail_if_no_progress with_reducible refine Kept.upd ?_
      | refine Kept.tagsFilter ?_
      | dsimp only
      | split
      | (intro _; intros; try dsimp only)

theorem State.latchTrips_kept {s : State} (h : Kept mq lk s0 s) :
    Kept mq lk s0 (State.latchTrips s) := by
  unfold State.latchTrips
  try dsimp only
  repeat'
    first
      | with_reducible assumption
      | with_reducible refine Kept.ite (fun _ => ?_) (fun _ => ?_)
      | with_reducible refine Kept.ite2 (fun _ => ?_) (fun _ => ?_)
      | with_reducible refine Kept.dite (fun _ => ?_) (fun _ => ?_)
      | with_reducible refine State.latchTrip_kept ?_
      | with_reducible refine Kept.foldl ?_ ?_
      | fail_if_no_progress with_reducible refine Kept.upd ?_
      | refine Kept.tagsFilter ?_
      | dsimp only
      | split
      | (intro _; intros; try dsimp only)

theorem State.clearTrips_kept2 {v : Word} {s : State} (h : Kept mq lk s0 s) :
    Kept mq lk s0 (State.clearTrips s v).2 := by
  unfold State.clearTrips
  try dsimp only
  repeat'
    first
      | with_reducible assumption
      | with_reducible refine Kept.ite (fun _ => ?_) (fun _ => ?_)
      | with_reducible refine Kept.ite2 (fun _ => ?_) (fun _ => ?_)
      | with_reducible refine Kept.dite (fun _ => ?_) (fun _ => ?_)
      | with_reducible refine State.flag_kept ?_
      | with_reducible refine State.landed_kept ?_
      | with_reducible refine State.setReg_kept ?_
      | with_reducible refine Kept.foldl ?_ ?_
      | dsimp only
      | split
      | (intro _; intros)

theorem State.clearTrips_kept {v : Word} {s t : State} {x : Bool} (e : State.clearTrips s v = (x, t)) (h : Kept mq lk s0 s) :
    Kept mq lk s0 t := by
  have := State.clearTrips_kept2 (s := s) (v := v) (h := h)
  rw [e] at this
  exact this

theorem State.writeTripmap_kept {a : AxisId} {v : Word} {s : State} (h : Kept mq lk s0 s) :
    Kept mq lk s0 (State.writeTripmap s a v) := by
  unfold State.writeTripmap
  try dsimp only
  repeat'
    first
      | with_reducible assumption
      | with_reducible refine Kept.ite (fun _ => ?_) (fun _ => ?_)
      | with_reducible refine Kept.ite2 (fun _ => ?_) (fun _ => ?_)
      | with_reducible refine Kept.dite (fun _ => ?_) (fun _ => ?_)
      | with_reducible refine State.setReg_kept ?_
      | with_reducible refine State.extTrip_kept ?_

theorem State.writeGuycfg_kept {v : Word} {s : State} (h : Kept mq lk s0 s) :
    Kept mq lk s0 (State.writeGuycfg s v) := by
  unfold State.writeGuycfg
  try dsimp only
  repeat'
    first
      | with_reducible assumption
      | with_reducible refine Kept.ite (fun _ => ?_) (fun _ => ?_)
      | with_reducible refine Kept.ite2 (fun _ => ?_) (fun _ => ?_)
      | with_reducible refine Kept.dite (fun _ => ?_) (fun _ => ?_)
      | with_reducible refine State.plainWrite_kept ?_
      | with_reducible refine State.guySync_kept ?_
      | with_reducible refine Kept.foldl ?_ ?_
      | fail_if_no_progress with_reducible refine Kept.upd ?_

theorem Kept.storage {s : State} {k : Hearth} (h : Kept mq lk s0 s) (hh : s.hearth.wf = true → k.wf = true) :
    Kept mq lk s0 { s with hearth := k } := h.same rfl rfl rfl rfl rfl rfl rfl rfl rfl rfl hh

theorem State.emberBegin_kept {s : State} (h : Kept mq lk s0 s) : Kept mq lk s0 (State.emberBegin s) := by
  unfold State.emberBegin
  split
  · exact h
  · exact Kept.ite (fun _ => h) fun _ => h.storage (Hearth.keeps id id fun x => storeSet_wf x (8 * s.hearth.next) 0)

theorem State.queueEmber_kept {q : EmberReq} {s : State} (h : Kept mq lk s0 s) :
    Kept mq lk s0 (State.queueEmber s q) := by
  unfold State.queueEmber
  try dsimp only
  repeat'
    first
      | with_reducible assumption
      | with_reducible refine Kept.ite (fun _ => ?_) (fun _ => ?_)
      | with_reducible refine Kept.ite2 (fun _ => ?_) (fun _ => ?_)
      | with_reducible refine Kept.dite (fun _ => ?_) (fun _ => ?_)
      | with_reducible refine State.emberBegin_kept ?_
      | with_reducible refine Kept.foldl ?_ ?_
      | fail_if_no_progress with_reducible refine Kept.upd ?_
      | fail_if_no_progress with_reducible refine Kept.updH ?_ ?_
      | exact Hearth.keeps id id id

theorem State.notSupp_kept  {s : State} (h : Kept mq lk s0 s) :
    Kept mq lk s0 (State.notSupp s) := by
  unfold State.notSupp
  try dsimp only
  repeat'
    first
      | with_reducible assumption
      | with_reducible refine Kept.ite (fun _ => ?_) (fun _ => ?_)
      | with_reducible refine Kept.ite2 (fun _ => ?_) (fun _ => ?_)
      | with_reducible refine Kept.dite (fun _ => ?_) (fun _ => ?_)
      | with_reducible refine State.bump_kept ?_

theorem State.notice_kept {it : FaultItem} {axis : Nat} {s : State} (h : Kept mq lk s0 s) :
    Kept mq lk s0 (State.notice s it axis) := by
  unfold State.notice
  try dsimp only
  repeat'
    first
      | with_reducible assumption
      | with_reducible refine Kept.ite (fun _ => ?_) (fun _ => ?_)
      | with_reducible refine Kept.ite2 (fun _ => ?_) (fun _ => ?_)
      | with_reducible refine Kept.dite (fun _ => ?_) (fun _ => ?_)
      | with_reducible refine State.irq_kept ?_
      | with_reducible refine State.queueEmber_kept ?_
      | with_reducible refine State.notSupp_kept ?_
      | with_reducible refine Kept.foldl ?_ ?_
      | fail_if_no_progress with_reducible refine Kept.upd ?_
      | fail_if_no_progress with_reducible refine Kept.updH ?_ ?_
      | exact Hearth.keeps id id id

theorem State.endTags_kept {a : AxisId} {all : Bool} {st : Status} {s : State} (h : Kept mq lk s0 s) :
    Kept mq lk s0 (State.endTags s a all st) := by
  unfold State.endTags
  try dsimp only
  repeat'
    first
      | with_reducible assumption
      | with_reducible refine Kept.ite (fun _ => ?_) (fun _ => ?_)
      | with_reducible refine Kept.ite2 (fun _ => ?_) (fun _ => ?_)
      | with_reducible refine Kept.dite (fun _ => ?_) (fun _ => ?_)
      | with_reducible refine State.place_kept ?_
      | with_reducible refine State.fail_kept ?_
      | with_reducible refine Kept.foldl ?_ ?_
      | fail_if_no_progress with_reducible refine Kept.upd ?_
      | refine Kept.tagsFilter ?_
      | refine Kept.enter ?_ ?_
      | (intro _; intros; try dsimp only)

theorem State.actC1_kept {a : AxisId} {st : Status} {s : State} (h : Kept mq lk s0 s) :
    Kept mq lk s0 (State.actC1 s a st) := by
  unfold State.actC1
  try dsimp only
  repeat'
    first
      | with_reducible assumption
      | with_reducible refine Kept.ite (fun _ => ?_) (fun _ => ?_)
      | with_reducible refine Kept.ite2 (fun _ => ?_) (fun _ => ?_)
      | with_reducible refine Kept.dite (fun _ => ?_) (fun _ => ?_)
      | with_reducible refine State.modAx_kept ?_
      | with_reducible refine State.syncLoops_kept ?_
      | with_reducible refine State.closeRun_kept ?_
      | with_reducible refine State.cutNow_kept ?_
      | with_reducible refine State.stopFault_kept ?_
      | with_reducible refine State.endTags_kept ?_
      | with_reducible refine Kept.foldl ?_ ?_
      | fail_if_no_progress with_reducible refine Kept.upd ?_
      | refine Kept.tagsFilter ?_
      | refine Kept.enter ?_ ?_
      | dsimp only
      | split

theorem State.actC2_kept {a : AxisId} {st : Status} {s : State} (h : Kept mq lk s0 s) :
    Kept mq lk s0 (State.actC2 s a st) := by
  unfold State.actC2
  try dsimp only
  repeat'
    first
      | with_reducible assumption
      | with_reducible refine Kept.ite (fun _ => ?_) (fun _ => ?_)
      | with_reducible refine Kept.ite2 (fun _ => ?_) (fun _ => ?_)
      | with_reducible refine Kept.dite (fun _ => ?_) (fun _ => ?_)
      | with_reducible refine State.modAx_kept ?_
      | with_reducible refine State.killAxis_kept ?_
      | with_reducible refine State.quarantine_kept ?_
      | with_reducible refine State.endTags_kept ?_

theorem State.actStop_kept2 {a : AxisId} {src : Nat} {opentb : Nat} {st : Status} {s : State} (h : Kept mq lk s0 s) :
    Kept mq lk s0 (State.actStop s a src opentb st).2 := by
  unfold State.actStop
  try dsimp only
  repeat'
    first
      | with_reducible assumption
      | with_reducible refine Kept.ite (fun _ => ?_) (fun _ => ?_)
      | with_reducible refine Kept.ite2 (fun _ => ?_) (fun _ => ?_)
      | with_reducible refine Kept.dite (fun _ => ?_) (fun _ => ?_)
      | with_reducible refine State.modAx_kept ?_
      | with_reducible refine State.actC1_kept ?_
      | with_reducible refine State.actC2_kept ?_

theorem State.actStop_kept {a : AxisId} {src : Nat} {opentb : Nat} {st : Status} {s t : State} {x : Bool} (e : State.actStop s a src opentb st = (x, t)) (h : Kept mq lk s0 s) :
    Kept mq lk s0 t := by
  have := State.actStop_kept2 (s := s) (a := a) (src := src) (opentb := opentb) (st := st) (h := h)
  rw [e] at this
  exact this

theorem State.act_kept {a : AxisId} {cls : Nat} {src : Nat} {opentb : Nat} {s : State} (h : Kept mq lk s0 s) :
    Kept mq lk s0 (State.act s a cls src opentb) := by
  unfold State.act
  try dsimp only
  repeat'
    first
      | with_reducible assumption
      | with_reducible refine Kept.ite (fun _ => ?_) (fun _ => ?_)
      | with_reducible refine Kept.ite2 (fun _ => ?_) (fun _ => ?_)
      | with_reducible refine Kept.dite (fun _ => ?_) (fun _ => ?_)
      | with_reducible refine State.actStop_kept (by with_reducible assumption) ?_
      | with_reducible refine State.actC1_kept ?_
      | with_reducible refine State.actC2_kept ?_
      | with_reducible refine State.actStop_kept2 ?_

theorem State.modRec_kept {a : AxisId} {f : Rec → Rec} {s : State} (h : Kept mq lk s0 s) :
    Kept mq lk s0 (State.modRec s a f) := by
  unfold State.modRec
  try dsimp only
  repeat'
    first
      | with_reducible assumption
      | with_reducible refine Kept.ite (fun _ => ?_) (fun _ => ?_)
      | with_reducible refine Kept.ite2 (fun _ => ?_) (fun _ => ?_)
      | with_reducible refine Kept.dite (fun _ => ?_) (fun _ => ?_)
      | with_reducible refine State.modAx_kept ?_

theorem State.retireSteps_kept {a : AxisId} {s : State} (h : Kept mq lk s0 s) :
    Kept mq lk s0 (State.retireSteps s a) := by
  unfold State.retireSteps
  try dsimp only
  repeat'
    first
      | with_reducible assumption
      | with_reducible refine Kept.ite (fun _ => ?_) (fun _ => ?_)
      | with_reducible refine Kept.ite2 (fun _ => ?_) (fun _ => ?_)
      | with_reducible refine Kept.dite (fun _ => ?_) (fun _ => ?_)
      | with_reducible refine State.setBit_kept ?_
      | with_reducible refine State.modAx_kept ?_
      | with_reducible refine State.setTile_kept ?_
      | with_reducible refine State.quarantine_kept ?_
      | with_reducible refine State.endTags_kept ?_
      | with_reducible refine State.modRec_kept ?_

theorem State.retire_kept {a : AxisId} {taken : Bool} {src : Nat} {opentb : Nat} {s : State} (h : Kept mq lk s0 s) :
    Kept mq lk s0 (State.retire s a taken src opentb) := by
  unfold State.retire
  try dsimp only
  repeat'
    first
      | with_reducible assumption
      | with_reducible refine Kept.ite (fun _ => ?_) (fun _ => ?_)
      | with_reducible refine Kept.ite2 (fun _ => ?_) (fun _ => ?_)
      | with_reducible refine Kept.dite (fun _ => ?_) (fun _ => ?_)
      | with_reducible refine State.modAx_kept ?_
      | with_reducible refine State.actStop_kept2 ?_
      | with_reducible refine State.actStop_kept (by with_reducible assumption) ?_
      | with_reducible refine State.retireSteps_kept ?_

theorem State.recordAx_kept {a : AxisId} {it : FaultItem} {cls : Nat} {shared : Bool} {s : State} (h : Kept mq lk s0 s) :
    Kept mq lk s0 (State.recordAx s a it cls shared) := by
  unfold State.recordAx
  try dsimp only
  repeat'
    first
      | with_reducible assumption
      | with_reducible refine Kept.ite (fun _ => ?_) (fun _ => ?_)
      | with_reducible refine Kept.ite2 (fun _ => ?_) (fun _ => ?_)
      | with_reducible refine Kept.dite (fun _ => ?_) (fun _ => ?_)
      | with_reducible refine State.irq_kept ?_
      | with_reducible refine State.setFault_kept ?_
      | with_reducible refine State.queueEmber_kept ?_
      | with_reducible refine State.actC2_kept ?_
      | with_reducible refine State.act_kept ?_
      | with_reducible refine State.modRec_kept ?_
      | with_reducible refine State.retireSteps_kept ?_
      | with_reducible refine State.retire_kept ?_
      | with_reducible refine Kept.foldl ?_ ?_
      | fail_if_no_progress with_reducible refine Kept.upd ?_
      | refine Kept.tagsFilter ?_
      | refine Kept.enter ?_ ?_
      | dsimp only
      | split

theorem State.causeAx_kept {a : AxisId} {it : FaultItem} {cls : Nat} {shared : Bool} {s : State} (h : Kept mq lk s0 s) :
    Kept mq lk s0 (State.causeAx s a it cls shared) := by
  unfold State.causeAx
  try dsimp only
  repeat'
    first
      | with_reducible assumption
      | with_reducible refine Kept.ite (fun _ => ?_) (fun _ => ?_)
      | with_reducible refine Kept.ite2 (fun _ => ?_) (fun _ => ?_)
      | with_reducible refine Kept.dite (fun _ => ?_) (fun _ => ?_)
      | with_reducible refine State.notice_kept ?_
      | with_reducible refine State.recordAx_kept ?_

theorem State.recordMod_kept {it : FaultItem} {cls : Nat} {banks : BitVec 8} {pairs : List (Nat × Nat)} {s : State} (h : Kept mq lk s0 s) :
    Kept mq lk s0 (State.recordMod s it cls banks pairs) := by
  unfold State.recordMod
  try dsimp only
  repeat'
    first
      | with_reducible assumption
      | with_reducible refine Kept.ite (fun _ => ?_) (fun _ => ?_)
      | with_reducible refine Kept.ite2 (fun _ => ?_) (fun _ => ?_)
      | with_reducible refine Kept.dite (fun _ => ?_) (fun _ => ?_)
      | with_reducible refine State.irq_kept ?_
      | with_reducible refine State.queueEmber_kept ?_
      | with_reducible refine State.notSupp_kept ?_
      | with_reducible refine Kept.foldl ?_ ?_
      | fail_if_no_progress with_reducible refine Kept.upd ?_
      | refine Kept.tagsFilter ?_
      | refine Kept.enter ?_ ?_
      | dsimp only
      | split

theorem State.qualify_kept {cls : Nat} {s : State} (h : Kept mq lk s0 s) :
    Kept mq lk s0 (State.qualify s cls) := by
  unfold State.qualify
  try dsimp only
  repeat'
    first
      | with_reducible assumption
      | with_reducible refine Kept.ite (fun _ => ?_) (fun _ => ?_)
      | with_reducible refine Kept.ite2 (fun _ => ?_) (fun _ => ?_)
      | with_reducible refine Kept.dite (fun _ => ?_) (fun _ => ?_)
      | with_reducible refine State.setFld_kept ?_
      | with_reducible refine State.bump_kept ?_
      | with_reducible refine Kept.foldl ?_ ?_
      | fail_if_no_progress with_reducible refine Kept.upd ?_

theorem State.shareAx_kept {a : AxisId} {s : State} (h : Kept mq lk s0 s) :
    Kept mq lk s0 (State.shareAx s a) := by
  unfold State.shareAx
  try dsimp only
  repeat'
    first
      | with_reducible assumption
      | with_reducible refine Kept.ite (fun _ => ?_) (fun _ => ?_)
      | with_reducible refine Kept.ite2 (fun _ => ?_) (fun _ => ?_)
      | with_reducible refine Kept.dite (fun _ => ?_) (fun _ => ?_)
      | with_reducible refine State.syncReady_kept ?_
      | with_reducible refine State.recordAx_kept ?_
      | with_reducible refine Kept.foldl ?_ ?_
      | fail_if_no_progress with_reducible refine Kept.upd ?_
      | refine Kept.tagsFilter ?_
      | refine Kept.enter ?_ ?_
      | dsimp only
      | split

theorem State.spreadShares_kept  {s : State} (h : Kept mq lk s0 s) :
    Kept mq lk s0 (State.spreadShares s) := by
  unfold State.spreadShares
  try dsimp only
  repeat'
    first
      | with_reducible assumption
      | with_reducible refine Kept.ite (fun _ => ?_) (fun _ => ?_)
      | with_reducible refine Kept.ite2 (fun _ => ?_) (fun _ => ?_)
      | with_reducible refine Kept.dite (fun _ => ?_) (fun _ => ?_)
      | with_reducible refine State.eachAx_kept ?_ (fun _ _ _ => ?_)
      | with_reducible refine State.eachAx_kept ?_ ?_
      | with_reducible refine State.shareAx_kept ?_

theorem State.lock_kept {s : State} (h : Kept mq lk s0 s) : Kept mq lk s0 (State.lock s) := by
  have g : Kept mq lk s0 { s with locked := true } := h.trans
    ⟨rfl, Nat.le_refl _, fun x => ⟨x.mem, x.regs, x.tmrB, x.tmrC, x.desc, x.tags, x.hearth⟩, fun _ _ => rfl, fun _ => rfl⟩
  exact Kept.ite (fun _ => g) fun _ => State.setFld_kept g

theorem State.lockIf_kept {cls : Nat} {s : State} (h : Kept mq lk s0 s) :
    Kept mq lk s0 (State.lockIf s cls) := by
  unfold State.lockIf
  try dsimp only
  repeat'
    first
      | with_reducible assumption
      | with_reducible refine Kept.ite (fun _ => ?_) (fun _ => ?_)
      | with_reducible refine Kept.ite2 (fun _ => ?_) (fun _ => ?_)
      | with_reducible refine Kept.dite (fun _ => ?_) (fun _ => ?_)
      | with_reducible refine State.lock_kept ?_

theorem State.causeEach_kept {as : List AxisId} {it : FaultItem} {cls : Nat} {s : State} (h : Kept mq lk s0 s) :
    Kept mq lk s0 (State.causeEach s as it cls) := by
  unfold State.causeEach
  try dsimp only
  repeat'
    first
      | with_reducible assumption
      | with_reducible refine Kept.ite (fun _ => ?_) (fun _ => ?_)
      | with_reducible refine Kept.ite2 (fun _ => ?_) (fun _ => ?_)
      | with_reducible refine Kept.dite (fun _ => ?_) (fun _ => ?_)
      | with_reducible refine State.causeAx_kept ?_
      | with_reducible refine Kept.foldl ?_ ?_
      | fail_if_no_progress with_reducible refine Kept.upd ?_
      | refine Kept.tagsFilter ?_
      | dsimp only
      | split
      | (intro _; intros; try dsimp only)

theorem State.takeItem_kept {it : FaultItem} {s : State} (h : Kept mq lk s0 s) :
    Kept mq lk s0 (State.takeItem s it) := by
  unfold State.takeItem
  try dsimp only
  repeat'
    first
      | with_reducible assumption
      | with_reducible refine Kept.ite (fun _ => ?_) (fun _ => ?_)
      | with_reducible refine Kept.ite2 (fun _ => ?_) (fun _ => ?_)
      | with_reducible refine Kept.dite (fun _ => ?_) (fun _ => ?_)
      | with_reducible refine State.causeEach_kept ?_
      | with_reducible refine State.eachAx_kept ?_ ?_
      | with_reducible refine State.notice_kept ?_
      | with_reducible refine State.causeAx_kept ?_
      | with_reducible refine State.recordMod_kept ?_
      | with_reducible refine State.qualify_kept ?_
      | with_reducible refine State.spreadShares_kept ?_
      | with_reducible refine State.lockIf_kept ?_
      | with_reducible refine Kept.foldl ?_ ?_
      | fail_if_no_progress with_reducible refine Kept.upd ?_
      | refine Kept.tagsFilter ?_
      | refine Kept.enter ?_ ?_
      | dsimp only
      | split

theorem State.fltSelf_kept {s : State} (h : Kept mq lk s0 s) : Kept mq lk s0 (State.fltSelf s) :=
  State.takeItem_kept h

theorem State.breakPair_kept {src : Fin 22} {s : State} (h : Kept mq lk s0 s) :
    Kept mq lk s0 (State.breakPair s src) := by
  unfold State.breakPair
  try dsimp only
  repeat'
    first
      | with_reducible assumption
      | with_reducible refine Kept.ite (fun _ => ?_) (fun _ => ?_)
      | with_reducible refine Kept.ite2 (fun _ => ?_) (fun _ => ?_)
      | with_reducible refine Kept.dite (fun _ => ?_) (fun _ => ?_)
      | with_reducible refine State.qualify_kept ?_
      | with_reducible refine State.causeEach_kept ?_
      | with_reducible refine State.lockIf_kept ?_
      | with_reducible refine State.spreadShares_kept ?_
      | with_reducible refine State.eachOf_kept ?_ ?_
      | with_reducible refine State.takeItem_kept ?_
      | with_reducible refine Kept.foldl ?_ ?_
      | fail_if_no_progress with_reducible refine Kept.upd ?_

theorem State.closedEntry_kept {axis : Nat} {retiring : Bool} {idx : Option Nat} {s : State} (h : Kept mq lk s0 s) :
    Kept mq lk s0 (State.closedEntry s axis retiring idx) := by
  unfold State.closedEntry
  refine Kept.dite (fun hx => ?_) (fun _ => h)
  refine Kept.ite (fun _ => ?_) fun _ => State.freeQuar_kept h
  have h2 := State.modAx_kept (a := ⟨axis, hx⟩)
    (f := fun x => { x with fault := { x.fault with retPhase := .none } }) (State.freeQuar_kept (a := axis) (closing := true) h)
  cases idx with
  | none => exact h2
  | some i => exact h2.storage (Hearth.keeps id (putWords_wf _ _) id)

theorem State.closeRec_kept {a : AxisId} {retiring : Bool} {s : State} (h : Kept mq lk s0 s) :
    Kept mq lk s0 (State.closeRec s a retiring) := by
  unfold State.closeRec
  try dsimp only
  repeat'
    first
      | with_reducible assumption
      | with_reducible refine Kept.ite (fun _ => ?_) (fun _ => ?_)
      | with_reducible refine Kept.ite2 (fun _ => ?_) (fun _ => ?_)
      | with_reducible refine Kept.dite (fun _ => ?_) (fun _ => ?_)
      | with_reducible refine State.modAx_kept ?_
      | with_reducible refine State.setSt_kept ?_
      | with_reducible refine State.syncLoops_kept ?_
      | with_reducible refine State.syncReady_kept ?_
      | with_reducible refine State.syncHold_kept ?_
      | with_reducible refine State.queueEmber_kept ?_
      | with_reducible refine State.modRec_kept ?_
      | with_reducible refine State.closedEntry_kept ?_
      | with_reducible refine Kept.foldl ?_ ?_
      | fail_if_no_progress with_reducible refine Kept.upd ?_
      | refine Kept.tagsFilter ?_
      | refine Kept.enter ?_ ?_
      | dsimp only
      | split

theorem State.closeMod_kept  {s : State} (h : Kept mq lk s0 s) :
    Kept mq lk s0 (State.closeMod s) := by
  unfold State.closeMod
  try dsimp only
  repeat'
    first
      | with_reducible assumption
      | with_reducible refine Kept.ite (fun _ => ?_) (fun _ => ?_)
      | with_reducible refine Kept.ite2 (fun _ => ?_) (fun _ => ?_)
      | with_reducible refine Kept.dite (fun _ => ?_) (fun _ => ?_)
      | with_reducible refine State.eachAx_kept ?_ (fun _ _ _ => ?_)
      | with_reducible refine State.eachAx_kept ?_ ?_
      | with_reducible refine State.syncReady_kept ?_
      | with_reducible refine State.queueEmber_kept ?_
      | with_reducible refine Kept.foldl ?_ ?_
      | fail_if_no_progress with_reducible refine Kept.upd ?_
      | refine Kept.tagsFilter ?_
      | refine Kept.enter ?_ ?_
      | dsimp only
      | split

theorem State.swRetire_kept {a : AxisId} {cmd : Option Nat} {ctl : Bool} {s : State} (h : Kept mq lk s0 s) :
    Kept mq lk s0 (State.swRetire s a cmd ctl) := by
  unfold State.swRetire
  extract_lets t it u x
  have hu : Kept mq lk s0 u := State.trace_kept (State.qualify_kept (State.modAx_kept h))
  clear_value u x it
  split
  · exact State.retire_kept (State.queueEmber_kept (State.irq_kept (State.setFault_kept hu)))
  · rename_i r _
    have hv : ∀ f, Kept mq lk s0 (if r.cls < 2 then (u.modRec a f).irq 2 else u.modRec a f) := fun f =>
      Kept.ite (fun _ => State.irq_kept (State.modRec_kept hu)) fun _ => State.modRec_kept hu
    exact Kept.ite (fun _ => Kept.ite (fun _ => State.modAx_kept (hv _)) fun _ => State.retireSteps_kept (State.actC2_kept (hv _)))
      fun _ => State.retire_kept (hv _)

theorem State.axctlResult_kept {n : Nat} {s : State} (h : Kept mq lk s0 s) :
    Kept mq lk s0 (State.axctlResult s n) := by
  unfold State.axctlResult
  try dsimp only
  repeat'
    first
      | with_reducible assumption
      | with_reducible refine Kept.ite (fun _ => ?_) (fun _ => ?_)
      | with_reducible refine Kept.ite2 (fun _ => ?_) (fun _ => ?_)
      | with_reducible refine Kept.dite (fun _ => ?_) (fun _ => ?_)
      | with_reducible refine State.setFld_kept ?_

theorem State.reinstate_kept {a : AxisId} {cmd : Option Nat} {ctl : Bool} {s : State} (h : Kept mq lk s0 s) :
    Kept mq lk s0 (State.reinstate s a cmd ctl) := by
  unfold State.reinstate
  try dsimp only
  repeat'
    first
      | with_reducible assumption
      | with_reducible refine Kept.ite (fun _ => ?_) (fun _ => ?_)
      | with_reducible refine Kept.ite2 (fun _ => ?_) (fun _ => ?_)
      | with_reducible refine Kept.dite (fun _ => ?_) (fun _ => ?_)
      | with_reducible refine State.modAx_kept ?_

theorem State.writeAxctl_kept {v : Word} {s : State} (h : Kept mq lk s0 s) :
    Kept mq lk s0 (State.writeAxctl s v) := by
  unfold State.writeAxctl
  try dsimp only
  repeat'
    first
      | with_reducible assumption
      | with_reducible refine Kept.ite (fun _ => ?_) (fun _ => ?_)
      | with_reducible refine Kept.ite2 (fun _ => ?_) (fun _ => ?_)
      | with_reducible refine Kept.dite (fun _ => ?_) (fun _ => ?_)
      | with_reducible refine State.eachOf_kept ?_ (fun _ _ _ => ?_)
      | with_reducible refine State.setFld_kept ?_
      | with_reducible refine State.eachOf_kept ?_ ?_
      | with_reducible refine State.syncReady_kept ?_
      | with_reducible refine State.shareAx_kept ?_
      | with_reducible refine State.spreadShares_kept ?_
      | with_reducible refine State.closeRec_kept ?_
      | with_reducible refine State.closeMod_kept ?_
      | with_reducible refine State.swRetire_kept ?_
      | with_reducible refine State.axctlResult_kept ?_
      | with_reducible refine State.reinstate_kept ?_
      | with_reducible refine Kept.foldl ?_ ?_
      | fail_if_no_progress with_reducible refine Kept.upd ?_
      | refine Kept.tagsFilter ?_
      | refine Kept.enter ?_ ?_
      | dsimp only
      | split

theorem State.writeClass_kept {k : Nat} {v : Word} {s : State} (h : Kept mq lk s0 s) :
    Kept mq lk s0 (State.writeClass s k v) := by
  unfold State.writeClass
  try dsimp only
  repeat'
    first
      | with_reducible assumption
      | with_reducible refine Kept.ite (fun _ => ?_) (fun _ => ?_)
      | with_reducible refine Kept.ite2 (fun _ => ?_) (fun _ => ?_)
      | with_reducible refine Kept.dite (fun _ => ?_) (fun _ => ?_)
      | with_reducible refine State.setReg_kept ?_

theorem State.errLevel_kept {b : Bool} {s : State} (h : Kept mq lk s0 s) :
    Kept mq lk s0 (State.errLevel s b) := by
  unfold State.errLevel
  try dsimp only
  repeat'
    first
      | with_reducible assumption
      | with_reducible refine Kept.ite (fun _ => ?_) (fun _ => ?_)
      | with_reducible refine Kept.ite2 (fun _ => ?_) (fun _ => ?_)
      | with_reducible refine Kept.dite (fun _ => ?_) (fun _ => ?_)
      | with_reducible refine State.setBit_kept ?_
      | with_reducible refine Kept.foldl ?_ ?_
      | fail_if_no_progress with_reducible refine Kept.upd ?_

theorem State.writeErrpin_kept {v : Word} {s : State} (h : Kept mq lk s0 s) :
    Kept mq lk s0 (State.writeErrpin s v) := by
  unfold State.writeErrpin
  try dsimp only
  repeat'
    first
      | with_reducible assumption
      | with_reducible refine Kept.ite (fun _ => ?_) (fun _ => ?_)
      | with_reducible refine Kept.ite2 (fun _ => ?_) (fun _ => ?_)
      | with_reducible refine Kept.dite (fun _ => ?_) (fun _ => ?_)
      | with_reducible refine State.landed_kept ?_
      | with_reducible refine State.setFld_kept ?_
      | with_reducible refine State.errLevel_kept ?_

theorem State.openedEntry_kept {axis : Nat} {seq : Nat} {idx : Option Nat} {s : State} (h : Kept mq lk s0 s) :
    Kept mq lk s0 (State.openedEntry s axis seq idx) := by
  unfold State.openedEntry
  try dsimp only
  repeat'
    first
      | with_reducible assumption
      | with_reducible refine Kept.ite (fun _ => ?_) (fun _ => ?_)
      | with_reducible refine Kept.ite2 (fun _ => ?_) (fun _ => ?_)
      | with_reducible refine Kept.dite (fun _ => ?_) (fun _ => ?_)
      | with_reducible refine State.modAx_kept ?_
      | with_reducible refine State.freeQuar_kept ?_
      | with_reducible refine Kept.foldl ?_ ?_
      | fail_if_no_progress with_reducible refine Kept.upd ?_
      | refine Kept.tagsFilter ?_
      | dsimp only
      | split
      | (intro _; intros; try dsimp only)

theorem State.tryLogRead_kept {c : Cmd} {s : State} (h : Kept mq lk s0 s) :
    Kept mq lk s0 (State.tryLogRead s c) := by
  unfold State.tryLogRead
  try dsimp only
  repeat'
    first
      | with_reducible assumption
      | with_reducible refine Kept.ite (fun _ => ?_) (fun _ => ?_)
      | with_reducible refine Kept.ite2 (fun _ => ?_) (fun _ => ?_)
      | with_reducible refine Kept.dite (fun _ => ?_) (fun _ => ?_)
      | with_reducible refine State.done_kept ?_
      | with_reducible refine State.finish_kept ?_

theorem State.subCause_kept {a : AxisId} {cause : Nat} {sub : Nat} {s : State} (h : Kept mq lk s0 s) :
    Kept mq lk s0 (State.subCause s a cause sub) := by
  unfold State.subCause
  try dsimp only
  repeat'
    first
      | with_reducible assumption
      | with_reducible refine Kept.ite (fun _ => ?_) (fun _ => ?_)
      | with_reducible refine Kept.ite2 (fun _ => ?_) (fun _ => ?_)
      | with_reducible refine Kept.dite (fun _ => ?_) (fun _ => ?_)
      | with_reducible refine State.modRec_kept ?_
      | with_reducible refine State.queueEmber_kept ?_
      | with_reducible refine Kept.foldl ?_ ?_
      | fail_if_no_progress with_reducible refine Kept.upd ?_
      | refine Kept.tagsFilter ?_
      | dsimp only
      | split

theorem State.modTile_kept {a : AxisId} {f : TileAxis → TileAxis} {s : State} (h : Kept mq lk s0 s) :
    Kept mq lk s0 (State.modTile s a f) := by
  unfold State.modTile
  try dsimp only
  repeat'
    first
      | with_reducible assumption
      | with_reducible refine Kept.ite (fun _ => ?_) (fun _ => ?_)
      | with_reducible refine Kept.ite2 (fun _ => ?_) (fun _ => ?_)
      | with_reducible refine Kept.dite (fun _ => ?_) (fun _ => ?_)
      | with_reducible refine State.setTile_kept ?_

theorem State.modBank_kept {b : BankId} {f : Bank → Bank} {s : State} (h : Kept mq lk s0 s) :
    Kept mq lk s0 (State.modBank s b f) := by
  unfold State.modBank
  try dsimp only
  repeat'
    first
      | with_reducible assumption
      | with_reducible refine Kept.ite (fun _ => ?_) (fun _ => ?_)
      | with_reducible refine Kept.ite2 (fun _ => ?_) (fun _ => ?_)
      | with_reducible refine Kept.dite (fun _ => ?_) (fun _ => ?_)
      | with_reducible refine State.setBank_kept ?_

theorem State.syncBank_kept {b : BankId} {s : State} (h : Kept mq lk s0 s) :
    Kept mq lk s0 (State.syncBank s b) := by
  unfold State.syncBank
  try dsimp only
  repeat'
    first
      | with_reducible assumption
      | with_reducible refine Kept.ite (fun _ => ?_) (fun _ => ?_)
      | with_reducible refine Kept.ite2 (fun _ => ?_) (fun _ => ?_)
      | with_reducible refine Kept.dite (fun _ => ?_) (fun _ => ?_)
      | with_reducible refine State.eachOf_kept ?_ (fun _ _ _ => ?_)
      | with_reducible refine State.eachOf_kept ?_ ?_
      | with_reducible refine State.syncReady_kept ?_

theorem State.evt_kept {b : BankId} {i : Nat} {s : State} (h : Kept mq lk s0 s) :
    Kept mq lk s0 (State.evt s b i) := by
  unfold State.evt
  try dsimp only
  repeat'
    first
      | with_reducible assumption
      | with_reducible refine Kept.ite (fun _ => ?_) (fun _ => ?_)
      | with_reducible refine Kept.ite2 (fun _ => ?_) (fun _ => ?_)
      | with_reducible refine Kept.dite (fun _ => ?_) (fun _ => ?_)
      | with_reducible refine State.bump_kept ?_

theorem State.abortPulse_kept {a : AxisId} {k : CoilId} {s : State} (h : Kept mq lk s0 s) :
    Kept mq lk s0 (State.abortPulse s a k) := by
  unfold State.abortPulse
  try dsimp only
  repeat'
    first
      | with_reducible assumption
      | with_reducible refine Kept.ite (fun _ => ?_) (fun _ => ?_)
      | with_reducible refine Kept.ite2 (fun _ => ?_) (fun _ => ?_)
      | with_reducible refine Kept.dite (fun _ => ?_) (fun _ => ?_)
      | with_reducible refine State.gatesOff_kept ?_
      | with_reducible refine State.modAx_kept ?_
      | with_reducible refine Kept.foldl ?_ ?_
      | fail_if_no_progress with_reducible refine Kept.upd ?_
      | refine Kept.tagsFilter ?_
      | dsimp only
      | split
      | (intro _; intros; try dsimp only)

theorem State.freeBank_kept {b : BankId} {s : State} (h : Kept mq lk s0 s) :
    Kept mq lk s0 (State.freeBank s b) := by
  unfold State.freeBank
  try dsimp only
  repeat'
    first
      | with_reducible assumption
      | with_reducible refine Kept.ite (fun _ => ?_) (fun _ => ?_)
      | with_reducible refine Kept.ite2 (fun _ => ?_) (fun _ => ?_)
      | with_reducible refine Kept.dite (fun _ => ?_) (fun _ => ?_)
      | with_reducible refine State.modBank_kept ?_

theorem State.bootHold_kept {a : AxisId} {l : LegId} {s : State} (h : Kept mq lk s0 s) :
    Kept mq lk s0 (State.bootHold s a l) := by
  unfold State.bootHold
  try dsimp only
  repeat'
    first
      | with_reducible assumption
      | with_reducible refine Kept.ite (fun _ => ?_) (fun _ => ?_)
      | with_reducible refine Kept.ite2 (fun _ => ?_) (fun _ => ?_)
      | with_reducible refine Kept.dite (fun _ => ?_) (fun _ => ?_)
      | with_reducible refine State.raiseAx_kept ?_
      | with_reducible refine State.modTile_kept ?_
      | with_reducible refine State.evt_kept ?_

theorem State.measureBoot_kept {a : AxisId} {l : LegId} {volts : Int} {s : State} (h : Kept mq lk s0 s) :
    Kept mq lk s0 (State.measureBoot s a l volts) := by
  unfold State.measureBoot
  try dsimp only
  repeat'
    first
      | with_reducible assumption
      | with_reducible refine Kept.ite (fun _ => ?_) (fun _ => ?_)
      | with_reducible refine Kept.ite2 (fun _ => ?_) (fun _ => ?_)
      | with_reducible refine Kept.dite (fun _ => ?_) (fun _ => ?_)
      | with_reducible refine State.setTile_kept ?_

theorem State.startEnergise_kept {a : AxisId} {id : Nat} {s : State} (h : Kept mq lk s0 s) :
    Kept mq lk s0 (State.startEnergise s a id) := by
  unfold State.startEnergise
  try dsimp only
  repeat'
    first
      | with_reducible assumption
      | with_reducible refine Kept.ite (fun _ => ?_) (fun _ => ?_)
      | with_reducible refine Kept.ite2 (fun _ => ?_) (fun _ => ?_)
      | with_reducible refine Kept.dite (fun _ => ?_) (fun _ => ?_)
      | with_reducible refine State.modAx_kept ?_
      | with_reducible refine State.bridge_kept ?_
      | with_reducible refine State.startPwm_kept ?_
      | with_reducible refine State.modTile_kept ?_

theorem State.takeOffset_kept {a : AxisId} {k : CoilId} {code : BitVec 12} {s : State} (h : Kept mq lk s0 s) :
    Kept mq lk s0 (State.takeOffset s a k code) := by
  unfold State.takeOffset
  try dsimp only
  repeat'
    first
      | with_reducible assumption
      | with_reducible refine Kept.ite (fun _ => ?_) (fun _ => ?_)
      | with_reducible refine Kept.ite2 (fun _ => ?_) (fun _ => ?_)
      | with_reducible refine Kept.dite (fun _ => ?_) (fun _ => ?_)
      | with_reducible refine State.setBit_kept ?_
      | with_reducible refine State.modTile_kept ?_

theorem State.busCode_kept {b : BankId} {code : Nat} {s : State} (h : Kept mq lk s0 s) :
    Kept mq lk s0 (State.busCode s b code) := by
  unfold State.busCode
  try dsimp only
  repeat'
    first
      | with_reducible assumption
      | with_reducible refine Kept.ite (fun _ => ?_) (fun _ => ?_)
      | with_reducible refine Kept.ite2 (fun _ => ?_) (fun _ => ?_)
      | with_reducible refine Kept.dite (fun _ => ?_) (fun _ => ?_)
      | with_reducible refine State.peak_kept ?_
      | with_reducible refine State.setFld_kept ?_

theorem State.killHold_kept {b : BankId} {bad : Bool} {s : State} (h : Kept mq lk s0 s) :
    Kept mq lk s0 (State.killHold s b bad) := by
  unfold State.killHold
  try dsimp only
  repeat'
    first
      | with_reducible assumption
      | with_reducible refine Kept.ite (fun _ => ?_) (fun _ => ?_)
      | with_reducible refine Kept.ite2 (fun _ => ?_) (fun _ => ?_)
      | with_reducible refine Kept.dite (fun _ => ?_) (fun _ => ?_)
      | with_reducible refine State.modBank_kept ?_
      | with_reducible refine State.freeBank_kept ?_

theorem State.startDiag_kept {a : AxisId} {id : Nat} {selftest : Bool} {s : State} (h : Kept mq lk s0 s) :
    Kept mq lk s0 (State.startDiag s a id selftest) := by
  unfold State.startDiag
  try dsimp only
  repeat'
    first
      | with_reducible assumption
      | with_reducible refine Kept.ite (fun _ => ?_) (fun _ => ?_)
      | with_reducible refine Kept.ite2 (fun _ => ?_) (fun _ => ?_)
      | with_reducible refine Kept.dite (fun _ => ?_) (fun _ => ?_)
      | with_reducible refine State.modAx_kept ?_

theorem State.endDiag_kept {a : AxisId} {words : List Word} {s : State} (h : Kept mq lk s0 s) :
    Kept mq lk s0 (State.endDiag s a words) := by
  unfold State.endDiag
  try dsimp only
  repeat'
    first
      | with_reducible assumption
      | with_reducible refine Kept.ite (fun _ => ?_) (fun _ => ?_)
      | with_reducible refine Kept.ite2 (fun _ => ?_) (fun _ => ?_)
      | with_reducible refine Kept.dite (fun _ => ?_) (fun _ => ?_)
      | with_reducible refine State.gatesOff_kept ?_
      | with_reducible refine State.done_kept ?_
      | with_reducible refine State.setReg_kept ?_
      | with_reducible refine State.setFld_kept ?_
      | with_reducible refine State.bumpMod_kept ?_
      | with_reducible refine State.modAx_kept ?_
      | with_reducible refine State.finish_kept ?_
      | with_reducible refine State.syncReady_kept ?_
      | with_reducible refine Kept.foldl ?_ ?_
      | fail_if_no_progress with_reducible refine Kept.upd ?_
      | refine Kept.tagsFilter ?_
      | refine Kept.enter ?_ ?_
      | dsimp only
      | split

theorem State.writeEnable_kept {b : BankId} {v : Word} {s : State} (h : Kept mq lk s0 s) :
    Kept mq lk s0 (State.writeEnable s b v) := by
  unfold State.writeEnable
  try dsimp only
  repeat'
    first
      | with_reducible assumption
      | with_reducible refine Kept.ite (fun _ => ?_) (fun _ => ?_)
      | with_reducible refine Kept.ite2 (fun _ => ?_) (fun _ => ?_)
      | with_reducible refine Kept.dite (fun _ => ?_) (fun _ => ?_)
      | with_reducible refine State.setReg_kept ?_
      | with_reducible refine State.flag_kept ?_
      | with_reducible refine State.syncBank_kept ?_

end Sys2Proof.Machine
end

