-- ==== Sys2Proof/Laws/KeptHost.lean ====
section
/-! SUPPORT. That each operation of Hearth.lean, Group.lean, Net.lean, Clock.lean, Power.lean, RegRead.lean, Regs.lean
keeps what `Kept` says. -/

namespace Sys2Proof.Machine

variable {mq lk : Bool} {s0 : State}

theorem State.resetHrtRegs_kept  {s : State} (h : Kept mq lk s0 s) :
    Kept mq lk s0 (State.resetHrtRegs s) := by
  unfold State.resetHrtRegs
  try dsimp only
  repeat'
    first
      | with_reducible assumption
      | with_reducible refine Kept.ite (fun _ => ?_) (fun _ => ?_)
      | with_reducible refine Kept.ite2 (fun _ => ?_) (fun _ => ?_)
      | with_reducible refine Kept.dite (fun _ => ?_) (fun _ => ?_)
      | with_reducible refine State.setReg_kept ?_
      | with_reducible refine Kept.foldl ?_ ?_
      | fail_if_no_progress with_reducible refine Kept.upd ?_
      | refine Kept.tagsFilter ?_
      | refine Kept.enter ?_ ?_
      | (intro _; intros; try dsimp only)

theorem State.writeCalctl_kept {v : Word} {s : State} (h : Kept mq lk s0 s) :
    Kept mq lk s0 (State.writeCalctl s v) := by
  unfold State.writeCalctl
  try dsimp only
  repeat'
    first
      | with_reducible assumption
      | with_reducible refine Kept.ite (fun _ => ?_) (fun _ => ?_)
      | with_reducible refine Kept.ite2 (fun _ => ?_) (fun _ => ?_)
      | with_reducible refine Kept.dite (fun _ => ?_) (fun _ => ?_)
      | with_reducible refine State.setReg_kept ?_
      | with_reducible refine State.queueEmber_kept ?_
      | with_reducible refine Kept.foldl ?_ ?_
      | fail_if_no_progress with_reducible refine Kept.upd ?_
      | fail_if_no_progress with_reducible refine Kept.updH ?_ ?_
      | exact Hearth.keeps id id id

theorem State.writeRam_kept {v : Word} {s : State} (h : Kept mq lk s0 s) :
    Kept mq lk s0 (State.writeRam s v) := by
  unfold State.writeRam
  try dsimp only
  repeat'
    first
      | with_reducible assumption
      | with_reducible refine Kept.ite (fun _ => ?_) (fun _ => ?_)
      | with_reducible refine Kept.ite2 (fun _ => ?_) (fun _ => ?_)
      | with_reducible refine Kept.dite (fun _ => ?_) (fun _ => ?_)
      | with_reducible refine Kept.foldl ?_ ?_
      | fail_if_no_progress with_reducible refine Kept.upd ?_
      | fail_if_no_progress with_reducible refine Kept.updH ?_ ?_
      | (refine Hearth.keeps ?_ ?_ ?_ <;> first | with_reducible exact id | with_reducible exact putWords_wf _ _ | with_reducible exact (fun x => storeSet_wf x _ _))

theorem State.setMembers_kept {l : List Member} {s : State} (h : Kept mq lk s0 s) :
    Kept mq lk s0 (State.setMembers s l) := by
  unfold State.setMembers
  try dsimp only
  repeat'
    first
      | with_reducible assumption
      | with_reducible refine Kept.ite (fun _ => ?_) (fun _ => ?_)
      | with_reducible refine Kept.ite2 (fun _ => ?_) (fun _ => ?_)
      | with_reducible refine Kept.dite (fun _ => ?_) (fun _ => ?_)
      | with_reducible refine Kept.foldl ?_ ?_
      | fail_if_no_progress with_reducible refine Kept.upd ?_

theorem State.modMember_kept {g : Nat} {f : Member → Member} {s : State} (h : Kept mq lk s0 s) :
    Kept mq lk s0 (State.modMember s g f) := by
  unfold State.modMember
  try dsimp only
  repeat'
    first
      | with_reducible assumption
      | with_reducible refine Kept.ite (fun _ => ?_) (fun _ => ?_)
      | with_reducible refine Kept.ite2 (fun _ => ?_) (fun _ => ?_)
      | with_reducible refine Kept.dite (fun _ => ?_) (fun _ => ?_)
      | with_reducible refine State.setMembers_kept ?_

theorem State.checkTimes_kept {s : State} (h : Kept mq lk s0 s) :
    Kept mq lk s0 (State.checkTimes s) := by
  unfold State.checkTimes
  try dsimp only
  repeat'
    first
      | with_reducible assumption
      | with_reducible refine Kept.ite (fun _ => ?_) (fun _ => ?_)
      | with_reducible refine Kept.ite2 (fun _ => ?_) (fun _ => ?_)
      | with_reducible refine Kept.dite (fun _ => ?_) (fun _ => ?_)
      | with_reducible refine State.setMembers_kept ?_

theorem State.grpEvent_kept {i : Nat} {s : State} (h : Kept mq lk s0 s) :
    Kept mq lk s0 (State.grpEvent s i) := by
  unfold State.grpEvent
  try dsimp only
  repeat'
    first
      | with_reducible assumption
      | with_reducible refine Kept.ite (fun _ => ?_) (fun _ => ?_)
      | with_reducible refine Kept.ite2 (fun _ => ?_) (fun _ => ?_)
      | with_reducible refine Kept.dite (fun _ => ?_) (fun _ => ?_)
      | with_reducible refine State.flag_kept ?_

theorem State.endStart_kept {m : Member} {st : Status} {s : State} (h : Kept mq lk s0 s) :
    Kept mq lk s0 (State.endStart s m st) := by
  unfold State.endStart
  try dsimp only
  repeat'
    first
      | with_reducible assumption
      | with_reducible refine Kept.ite (fun _ => ?_) (fun _ => ?_)
      | with_reducible refine Kept.ite2 (fun _ => ?_) (fun _ => ?_)
      | with_reducible refine Kept.dite (fun _ => ?_) (fun _ => ?_)
      | with_reducible refine State.fail_kept ?_
      | with_reducible refine Kept.foldl ?_ ?_
      | fail_if_no_progress with_reducible refine Kept.upd ?_
      | refine Kept.tagsFilter ?_
      | refine Kept.enter ?_ ?_
      | dsimp only
      | split

theorem State.disarm_kept {m : Member} {s : State} (h : Kept mq lk s0 s) :
    Kept mq lk s0 (State.disarm s m) := by
  unfold State.disarm
  try dsimp only
  repeat'
    first
      | with_reducible assumption
      | with_reducible refine Kept.ite (fun _ => ?_) (fun _ => ?_)
      | with_reducible refine Kept.ite2 (fun _ => ?_) (fun _ => ?_)
      | with_reducible refine Kept.dite (fun _ => ?_) (fun _ => ?_)
      | with_reducible refine State.fail_kept ?_
      | with_reducible refine State.modMember_kept ?_
      | with_reducible refine State.grpEvent_kept ?_
      | with_reducible refine State.endStart_kept ?_
      | with_reducible refine Kept.foldl ?_ ?_
      | fail_if_no_progress with_reducible refine Kept.upd ?_
      | refine Kept.tagsFilter ?_
      | refine Kept.enter ?_ ?_
      | (intro _; intros; try dsimp only)
      | dsimp only
      | split

theorem State.disarmAll_kept  {s : State} (h : Kept mq lk s0 s) :
    Kept mq lk s0 (State.disarmAll s) := by
  unfold State.disarmAll
  try dsimp only
  repeat'
    first
      | with_reducible assumption
      | with_reducible refine Kept.ite (fun _ => ?_) (fun _ => ?_)
      | with_reducible refine Kept.ite2 (fun _ => ?_) (fun _ => ?_)
      | with_reducible refine Kept.dite (fun _ => ?_) (fun _ => ?_)
      | with_reducible refine State.disarm_kept ?_
      | with_reducible refine Kept.foldl ?_ ?_
      | fail_if_no_progress with_reducible refine Kept.upd ?_
      | refine Kept.tagsFilter ?_
      | refine Kept.enter ?_ ?_
      | (intro _; intros; try dsimp only)

theorem State.dropGroups_kept  {s : State} (h : Kept mq lk s0 s) :
    Kept mq lk s0 (State.dropGroups s) := by
  unfold State.dropGroups
  try dsimp only
  repeat'
    first
      | with_reducible assumption
      | with_reducible refine Kept.ite (fun _ => ?_) (fun _ => ?_)
      | with_reducible refine Kept.ite2 (fun _ => ?_) (fun _ => ?_)
      | with_reducible refine Kept.dite (fun _ => ?_) (fun _ => ?_)
      | with_reducible refine State.setMembers_kept ?_
      | with_reducible refine State.grpEvent_kept ?_
      | with_reducible refine State.endStart_kept ?_
      | with_reducible refine Kept.foldl ?_ ?_
      | fail_if_no_progress with_reducible refine Kept.upd ?_
      | refine Kept.tagsFilter ?_
      | refine Kept.enter ?_ ?_
      | (intro _; intros; try dsimp only)

theorem State.withdraw_kept {m : Member} {st : Status} {s : State} (h : Kept mq lk s0 s) :
    Kept mq lk s0 (State.withdraw s m st) := by
  unfold State.withdraw
  try dsimp only
  repeat'
    first
      | with_reducible assumption
      | with_reducible refine Kept.ite (fun _ => ?_) (fun _ => ?_)
      | with_reducible refine Kept.ite2 (fun _ => ?_) (fun _ => ?_)
      | with_reducible refine Kept.dite (fun _ => ?_) (fun _ => ?_)
      | with_reducible refine State.modMember_kept ?_
      | with_reducible refine State.grpEvent_kept ?_
      | with_reducible refine State.endStart_kept ?_

theorem State.takeJoin_kept {c : Cmd} {s : State} (h : Kept mq lk s0 s) :
    Kept mq lk s0 (State.takeJoin s c) := by
  unfold State.takeJoin
  try dsimp only
  repeat'
    first
      | with_reducible assumption
      | with_reducible refine Kept.ite (fun _ => ?_) (fun _ => ?_)
      | with_reducible refine Kept.ite2 (fun _ => ?_) (fun _ => ?_)
      | with_reducible refine Kept.dite (fun _ => ?_) (fun _ => ?_)
      | with_reducible refine State.fail_kept ?_
      | with_reducible refine State.done_kept ?_
      | with_reducible refine State.setMembers_kept ?_
      | with_reducible refine State.modMember_kept ?_
      | with_reducible refine Kept.foldl ?_ ?_
      | fail_if_no_progress with_reducible refine Kept.upd ?_
      | refine Kept.tagsFilter ?_
      | refine Kept.enter ?_ ?_
      | dsimp only
      | split

theorem State.takeLeave_kept {c : Cmd} {s : State} (h : Kept mq lk s0 s) :
    Kept mq lk s0 (State.takeLeave s c) := by
  unfold State.takeLeave
  try dsimp only
  repeat'
    first
      | with_reducible assumption
      | with_reducible refine Kept.ite (fun _ => ?_) (fun _ => ?_)
      | with_reducible refine Kept.ite2 (fun _ => ?_) (fun _ => ?_)
      | with_reducible refine Kept.dite (fun _ => ?_) (fun _ => ?_)
      | with_reducible refine State.fail_kept ?_
      | with_reducible refine State.done_kept ?_
      | with_reducible refine State.setMembers_kept ?_
      | with_reducible refine State.modMember_kept ?_
      | with_reducible refine State.disarm_kept ?_
      | with_reducible refine Kept.foldl ?_ ?_
      | fail_if_no_progress with_reducible refine Kept.upd ?_
      | refine Kept.tagsFilter ?_
      | refine Kept.enter ?_ ?_
      | dsimp only
      | split

theorem State.takeArm_kept {c : Cmd} {s : State} (h : Kept mq lk s0 s) :
    Kept mq lk s0 (State.takeArm s c) := by
  unfold State.takeArm
  try dsimp only
  repeat'
    first
      | with_reducible assumption
      | with_reducible refine Kept.ite (fun _ => ?_) (fun _ => ?_)
      | with_reducible refine Kept.ite2 (fun _ => ?_) (fun _ => ?_)
      | with_reducible refine Kept.dite (fun _ => ?_) (fun _ => ?_)
      | with_reducible refine State.fail_kept ?_
      | with_reducible refine State.done_kept ?_
      | with_reducible refine State.modMember_kept ?_
      | with_reducible refine State.grpEvent_kept ?_
      | with_reducible refine Kept.foldl ?_ ?_
      | fail_if_no_progress with_reducible refine Kept.upd ?_
      | refine Kept.tagsFilter ?_
      | refine Kept.enter ?_ ?_
      | dsimp only
      | split

theorem State.failState_kept {id : Nat} {code : Nat} {s : State} (h : Kept mq lk s0 s) :
    Kept mq lk s0 (State.failState s id code) := by
  unfold State.failState
  try dsimp only
  repeat'
    first
      | with_reducible assumption
      | with_reducible refine Kept.ite (fun _ => ?_) (fun _ => ?_)
      | with_reducible refine Kept.ite2 (fun _ => ?_) (fun _ => ?_)
      | with_reducible refine Kept.dite (fun _ => ?_) (fun _ => ?_)
      | with_reducible refine State.finish_kept ?_

theorem State.takeStartAt_kept {c : Cmd} {s : State} (h : Kept mq lk s0 s) :
    Kept mq lk s0 (State.takeStartAt s c) := by
  unfold State.takeStartAt
  try dsimp only
  repeat'
    first
      | with_reducible assumption
      | with_reducible refine Kept.ite (fun _ => ?_) (fun _ => ?_)
      | with_reducible refine Kept.ite2 (fun _ => ?_) (fun _ => ?_)
      | with_reducible refine Kept.dite (fun _ => ?_) (fun _ => ?_)
      | with_reducible refine State.reply_kept ?_
      | with_reducible refine State.setCmd_kept ?_
      | with_reducible refine State.fail_kept ?_
      | with_reducible refine State.sendStarted_kept ?_
      | with_reducible refine State.modMember_kept ?_
      | with_reducible refine State.grpEvent_kept ?_
      | with_reducible refine State.failState_kept ?_
      | with_reducible refine Kept.foldl ?_ ?_
      | fail_if_no_progress with_reducible refine Kept.upd ?_
      | refine Kept.tagsFilter ?_
      | refine Kept.enter ?_ ?_
      | dsimp only
      | split

theorem State.haltAx_kept {a : AxisId} {s : State} (h : Kept mq lk s0 s) :
    Kept mq lk s0 (State.haltAx s a) := by
  unfold State.haltAx
  try dsimp only
  repeat'
    first
      | with_reducible assumption
      | with_reducible refine Kept.ite (fun _ => ?_) (fun _ => ?_)
      | with_reducible refine Kept.ite2 (fun _ => ?_) (fun _ => ?_)
      | with_reducible refine Kept.dite (fun _ => ?_) (fun _ => ?_)
      | with_reducible refine State.raiseAx_kept ?_

theorem State.takeHalt_kept {c : Cmd} {s : State} (h : Kept mq lk s0 s) :
    Kept mq lk s0 (State.takeHalt s c) := by
  unfold State.takeHalt
  try dsimp only
  repeat'
    first
      | with_reducible assumption
      | with_reducible refine Kept.ite (fun _ => ?_) (fun _ => ?_)
      | with_reducible refine Kept.ite2 (fun _ => ?_) (fun _ => ?_)
      | with_reducible refine Kept.dite (fun _ => ?_) (fun _ => ?_)
      | with_reducible refine State.bump_kept ?_
      | with_reducible refine State.done_kept ?_
      | with_reducible refine State.modMember_kept ?_
      | with_reducible refine State.grpEvent_kept ?_
      | with_reducible refine State.endStart_kept ?_
      | with_reducible refine State.disarm_kept ?_
      | with_reducible refine State.haltAx_kept ?_
      | with_reducible refine Kept.foldl ?_ ?_
      | fail_if_no_progress with_reducible refine Kept.upd ?_
      | refine Kept.tagsFilter ?_
      | refine Kept.enter ?_ ?_
      | (intro _; intros; try dsimp only)
      | dsimp only
      | split

theorem State.startStaged_kept {a : AxisId} {c : Cmd} {t : Nat} {s : State} (h : Kept mq lk s0 s) :
    Kept mq lk s0 (State.startStaged s a c t) := by
  unfold State.startStaged
  try dsimp only
  repeat'
    first
      | with_reducible assumption
      | with_reducible refine Kept.ite (fun _ => ?_) (fun _ => ?_)
      | with_reducible refine Kept.ite2 (fun _ => ?_) (fun _ => ?_)
      | with_reducible refine Kept.dite (fun _ => ?_) (fun _ => ?_)
      | with_reducible refine State.setPro_kept ?_
      | with_reducible refine State.setCmd_kept ?_
      | with_reducible refine State.commitStep_kept ?_
      | with_reducible refine State.takeMove_kept ?_
      | with_reducible refine State.takeVel_kept ?_
      | with_reducible refine State.takeRun_kept ?_
      | with_reducible refine Kept.foldl ?_ ?_
      | fail_if_no_progress with_reducible refine Kept.upd ?_
      | refine Kept.tagsFilter ?_
      | refine Kept.enter ?_ ?_
      | dsimp only
      | split

theorem State.modNet_kept {f : Net → Net} {s : State} (h : Kept mq lk s0 s) :
    Kept mq lk s0 (State.modNet s f) := by
  unfold State.modNet
  try dsimp only
  repeat'
    first
      | with_reducible assumption
      | with_reducible refine Kept.ite (fun _ => ?_) (fun _ => ?_)
      | with_reducible refine Kept.ite2 (fun _ => ?_) (fun _ => ?_)
      | with_reducible refine Kept.dite (fun _ => ?_) (fun _ => ?_)
      | with_reducible refine Kept.foldl ?_ ?_
      | fail_if_no_progress with_reducible refine Kept.upd ?_

theorem State.modServo_kept {f : Servo → Servo} {s : State} (h : Kept mq lk s0 s) :
    Kept mq lk s0 (State.modServo s f) := by
  unfold State.modServo
  try dsimp only
  repeat'
    first
      | with_reducible assumption
      | with_reducible refine Kept.ite (fun _ => ?_) (fun _ => ?_)
      | with_reducible refine Kept.ite2 (fun _ => ?_) (fun _ => ?_)
      | with_reducible refine Kept.dite (fun _ => ?_) (fun _ => ?_)
      | with_reducible refine State.modNet_kept ?_

theorem State.modPtp_kept {f : Ptp → Ptp} {s : State} (h : Kept mq lk s0 s) :
    Kept mq lk s0 (State.modPtp s f) := by
  unfold State.modPtp
  try dsimp only
  repeat'
    first
      | with_reducible assumption
      | with_reducible refine Kept.ite (fun _ => ?_) (fun _ => ?_)
      | with_reducible refine Kept.ite2 (fun _ => ?_) (fun _ => ?_)
      | with_reducible refine Kept.dite (fun _ => ?_) (fun _ => ?_)
      | with_reducible refine State.modNet_kept ?_

theorem State.setLink_kept {p : Fin 2} {up : Bool} {s : State} (h : Kept mq lk s0 s) :
    Kept mq lk s0 (State.setLink s p up) := by
  unfold State.setLink
  try dsimp only
  repeat'
    first
      | with_reducible assumption
      | with_reducible refine Kept.ite (fun _ => ?_) (fun _ => ?_)
      | with_reducible refine Kept.ite2 (fun _ => ?_) (fun _ => ?_)
      | with_reducible refine Kept.dite (fun _ => ?_) (fun _ => ?_)
      | with_reducible refine State.setBit_kept ?_
      | with_reducible refine State.bump_kept ?_

theorem State.writePcfg_kept {p : Fin 2} {v : Word} {s : State} (h : Kept mq lk s0 s) :
    Kept mq lk s0 (State.writePcfg s p v) := by
  unfold State.writePcfg
  try dsimp only
  repeat'
    first
      | with_reducible assumption
      | with_reducible refine Kept.ite (fun _ => ?_) (fun _ => ?_)
      | with_reducible refine Kept.ite2 (fun _ => ?_) (fun _ => ?_)
      | with_reducible refine Kept.dite (fun _ => ?_) (fun _ => ?_)
      | with_reducible refine State.plainWrite_kept ?_
      | with_reducible refine State.setLink_kept ?_

theorem State.writeNode_kept {v : Word} {s : State} (h : Kept mq lk s0 s) :
    Kept mq lk s0 (State.writeNode s v) := by
  unfold State.writeNode
  try dsimp only
  repeat'
    first
      | with_reducible assumption
      | with_reducible refine Kept.ite (fun _ => ?_) (fun _ => ?_)
      | with_reducible refine Kept.ite2 (fun _ => ?_) (fun _ => ?_)
      | with_reducible refine Kept.dite (fun _ => ?_) (fun _ => ?_)
      | with_reducible refine State.modNet_kept ?_
      | with_reducible refine State.setFld_kept ?_

theorem State.endSelect_kept {st : Status} {tagref : Nat} {s : State} (h : Kept mq lk s0 s) :
    Kept mq lk s0 (State.endSelect s st tagref) := by
  unfold State.endSelect
  try dsimp only
  repeat'
    first
      | with_reducible assumption
      | with_reducible refine Kept.ite (fun _ => ?_) (fun _ => ?_)
      | with_reducible refine Kept.ite2 (fun _ => ?_) (fun _ => ?_)
      | with_reducible refine Kept.dite (fun _ => ?_) (fun _ => ?_)
      | with_reducible refine State.fail_kept ?_
      | with_reducible refine State.done_kept ?_
      | with_reducible refine State.modServo_kept ?_
      | with_reducible refine Kept.foldl ?_ ?_
      | fail_if_no_progress with_reducible refine Kept.upd ?_
      | refine Kept.tagsFilter ?_
      | refine Kept.enter ?_ ?_
      | dsimp only
      | split

theorem State.timeSource_kept  {s : State} (h : Kept mq lk s0 s) :
    Kept mq lk s0 (State.timeSource s) := by
  unfold State.timeSource
  try dsimp only
  repeat'
    first
      | with_reducible assumption
      | with_reducible refine Kept.ite (fun _ => ?_) (fun _ => ?_)
      | with_reducible refine Kept.ite2 (fun _ => ?_) (fun _ => ?_)
      | with_reducible refine Kept.dite (fun _ => ?_) (fun _ => ?_)
      | with_reducible refine State.done_kept ?_
      | with_reducible refine State.flag_kept ?_
      | with_reducible refine State.modServo_kept ?_
      | with_reducible refine State.endSelect_kept ?_
      | with_reducible refine Kept.foldl ?_ ?_
      | fail_if_no_progress with_reducible refine Kept.upd ?_
      | refine Kept.tagsFilter ?_
      | refine Kept.enter ?_ ?_
      | dsimp only
      | split

theorem State.stepTime_kept {d : Nat} {s : State} (h : Kept mq lk s0 s) :
    Kept mq lk s0 (State.stepTime s d) := by
  unfold State.stepTime
  try dsimp only
  repeat'
    first
      | with_reducible assumption
      | with_reducible refine Kept.ite (fun _ => ?_) (fun _ => ?_)
      | with_reducible refine Kept.ite2 (fun _ => ?_) (fun _ => ?_)
      | with_reducible refine Kept.dite (fun _ => ?_) (fun _ => ?_)
      | with_reducible refine State.guySync_kept ?_
      | with_reducible refine State.modNet_kept ?_
      | with_reducible refine State.flag_kept ?_
      | with_reducible refine State.raiseC0_kept ?_
      | with_reducible refine State.setBit_kept ?_
      | with_reducible refine State.bump_kept ?_
      | with_reducible refine State.raiseSc_kept ?_
      | with_reducible refine State.disarmAll_kept ?_
      | with_reducible refine State.modServo_kept ?_
      | with_reducible refine Kept.foldl ?_ ?_
      | fail_if_no_progress with_reducible refine Kept.upd ?_

theorem State.discipline_kept {ofs : Int} {s : State} (h : Kept mq lk s0 s) :
    Kept mq lk s0 (State.discipline s ofs) := by
  unfold State.discipline
  try dsimp only
  repeat'
    first
      | with_reducible assumption
      | with_reducible refine Kept.ite (fun _ => ?_) (fun _ => ?_)
      | with_reducible refine Kept.ite2 (fun _ => ?_) (fun _ => ?_)
      | with_reducible refine Kept.dite (fun _ => ?_) (fun _ => ?_)
      | with_reducible refine State.modServo_kept ?_
      | with_reducible refine State.stepTime_kept ?_

theorem State.select_kept {code : Nat} {cmd : Option Nat} {s : State} (h : Kept mq lk s0 s) :
    Kept mq lk s0 (State.select s code cmd) := by
  unfold State.select
  try dsimp only
  repeat'
    first
      | with_reducible assumption
      | with_reducible refine Kept.ite (fun _ => ?_) (fun _ => ?_)
      | with_reducible refine Kept.ite2 (fun _ => ?_) (fun _ => ?_)
      | with_reducible refine Kept.dite (fun _ => ?_) (fun _ => ?_)
      | with_reducible refine State.setFld_kept ?_
      | with_reducible refine State.done_kept ?_
      | with_reducible refine State.modServo_kept ?_
      | with_reducible refine State.endSelect_kept ?_
      | with_reducible refine State.timeSource_kept ?_
      | with_reducible refine Kept.foldl ?_ ?_
      | fail_if_no_progress with_reducible refine Kept.upd ?_
      | refine Kept.tagsFilter ?_
      | refine Kept.enter ?_ ?_
      | dsimp only
      | split

theorem State.takeSelect_kept {c : Cmd} {s : State} (h : Kept mq lk s0 s) :
    Kept mq lk s0 (State.takeSelect s c) := by
  unfold State.takeSelect
  try dsimp only
  repeat'
    first
      | with_reducible assumption
      | with_reducible refine Kept.ite (fun _ => ?_) (fun _ => ?_)
      | with_reducible refine Kept.ite2 (fun _ => ?_) (fun _ => ?_)
      | with_reducible refine Kept.dite (fun _ => ?_) (fun _ => ?_)
      | with_reducible refine State.fail_kept ?_
      | with_reducible refine State.sendStarted_kept ?_
      | with_reducible refine State.select_kept ?_

theorem State.writeEpoch_kept {v : Word} {s : State} (h : Kept mq lk s0 s) :
    Kept mq lk s0 (State.writeEpoch s v) := by
  unfold State.writeEpoch
  try dsimp only
  repeat'
    first
      | with_reducible assumption
      | with_reducible refine Kept.ite (fun _ => ?_) (fun _ => ?_)
      | with_reducible refine Kept.ite2 (fun _ => ?_) (fun _ => ?_)
      | with_reducible refine Kept.dite (fun _ => ?_) (fun _ => ?_)
      | with_reducible refine State.setReg_kept ?_
      | with_reducible refine State.flag_kept ?_

theorem State.ptpShow_kept {state : Nat} {port : Nat} {steps : Nat} {gm : BitVec 64} {s : State} (h : Kept mq lk s0 s) :
    Kept mq lk s0 (State.ptpShow s state port steps gm) := by
  unfold State.ptpShow
  try dsimp only
  repeat'
    first
      | with_reducible assumption
      | with_reducible refine Kept.ite (fun _ => ?_) (fun _ => ?_)
      | with_reducible refine Kept.ite2 (fun _ => ?_) (fun _ => ?_)
      | with_reducible refine Kept.dite (fun _ => ?_) (fun _ => ?_)
      | with_reducible refine State.setReg_kept ?_
      | with_reducible refine State.setFld_kept ?_

theorem State.ptpForget_kept  {s : State} (h : Kept mq lk s0 s) :
    Kept mq lk s0 (State.ptpForget s) := by
  unfold State.ptpForget
  try dsimp only
  repeat'
    first
      | with_reducible assumption
      | with_reducible refine Kept.ite (fun _ => ?_) (fun _ => ?_)
      | with_reducible refine Kept.ite2 (fun _ => ?_) (fun _ => ?_)
      | with_reducible refine Kept.dite (fun _ => ?_) (fun _ => ?_)
      | with_reducible refine State.modServo_kept ?_
      | with_reducible refine State.modPtp_kept ?_

theorem State.ptpDecide_kept  {s : State} (h : Kept mq lk s0 s) :
    Kept mq lk s0 (State.ptpDecide s) := by
  unfold State.ptpDecide
  try dsimp only
  repeat'
    first
      | with_reducible assumption
      | with_reducible refine Kept.ite (fun _ => ?_) (fun _ => ?_)
      | with_reducible refine Kept.ite2 (fun _ => ?_) (fun _ => ?_)
      | with_reducible refine Kept.dite (fun _ => ?_) (fun _ => ?_)
      | with_reducible refine State.timeSource_kept ?_
      | with_reducible refine State.ptpShow_kept ?_
      | with_reducible refine State.ptpForget_kept ?_
      | with_reducible refine Kept.foldl ?_ ?_
      | fail_if_no_progress with_reducible refine Kept.upd ?_
      | refine Kept.tagsFilter ?_
      | refine Kept.enter ?_ ?_
      | dsimp only
      | split

theorem State.ptpInit_kept  {s : State} (h : Kept mq lk s0 s) :
    Kept mq lk s0 (State.ptpInit s) := by
  unfold State.ptpInit
  try dsimp only
  repeat'
    first
      | with_reducible assumption
      | with_reducible refine Kept.ite (fun _ => ?_) (fun _ => ?_)
      | with_reducible refine Kept.ite2 (fun _ => ?_) (fun _ => ?_)
      | with_reducible refine Kept.dite (fun _ => ?_) (fun _ => ?_)
      | with_reducible refine State.modPtp_kept ?_
      | with_reducible refine State.ptpShow_kept ?_
      | with_reducible refine State.ptpForget_kept ?_
      | with_reducible refine State.ptpDecide_kept ?_

theorem State.hearAnnounce_kept {p : Fin 2} {m : PtpMsg} {s : State} (h : Kept mq lk s0 s) :
    Kept mq lk s0 (State.hearAnnounce s p m) := by
  unfold State.hearAnnounce
  try dsimp only
  repeat'
    first
      | with_reducible assumption
      | with_reducible refine Kept.ite (fun _ => ?_) (fun _ => ?_)
      | with_reducible refine Kept.ite2 (fun _ => ?_) (fun _ => ?_)
      | with_reducible refine Kept.dite (fun _ => ?_) (fun _ => ?_)
      | with_reducible refine State.modPtp_kept ?_
      | with_reducible refine State.ptpForget_kept ?_
      | with_reducible refine State.ptpDecide_kept ?_

theorem State.pairDone_kept {ofs : Int} {s : State} (h : Kept mq lk s0 s) :
    Kept mq lk s0 (State.pairDone s ofs) := by
  unfold State.pairDone
  try dsimp only
  repeat'
    first
      | with_reducible assumption
      | with_reducible refine Kept.ite (fun _ => ?_) (fun _ => ?_)
      | with_reducible refine Kept.ite2 (fun _ => ?_) (fun _ => ?_)
      | with_reducible refine Kept.dite (fun _ => ?_) (fun _ => ?_)
      | with_reducible refine State.checkTimes_kept ?_
      | with_reducible refine State.setReg_kept ?_
      | with_reducible refine State.setFld_kept ?_
      | with_reducible refine State.modServo_kept ?_
      | with_reducible refine State.modPtp_kept ?_
      | with_reducible refine State.timeSource_kept ?_
      | with_reducible refine State.discipline_kept ?_

theorem State.sendPtp_kept {p : Fin 2} {m : PtpMsg} {s : State} (h : Kept mq lk s0 s) :
    Kept mq lk s0 (State.sendPtp s p m) := by
  unfold State.sendPtp
  try dsimp only
  repeat'
    first
      | with_reducible assumption
      | with_reducible refine Kept.ite (fun _ => ?_) (fun _ => ?_)
      | with_reducible refine Kept.ite2 (fun _ => ?_) (fun _ => ?_)
      | with_reducible refine Kept.dite (fun _ => ?_) (fun _ => ?_)
      | with_reducible refine State.modNet_kept ?_

theorem State.ptpHear_kept {p : Fin 2} {m : PtpMsg} {s : State} (h : Kept mq lk s0 s) :
    Kept mq lk s0 (State.ptpHear s p m) := by
  unfold State.ptpHear
  try dsimp only
  repeat'
    first
      | with_reducible assumption
      | with_reducible refine Kept.ite (fun _ => ?_) (fun _ => ?_)
      | with_reducible refine Kept.ite2 (fun _ => ?_) (fun _ => ?_)
      | with_reducible refine Kept.dite (fun _ => ?_) (fun _ => ?_)
      | with_reducible refine State.timeSource_kept ?_
      | with_reducible refine State.setReg_kept ?_
      | with_reducible refine State.flag_kept ?_
      | with_reducible refine State.modServo_kept ?_
      | with_reducible refine State.modPtp_kept ?_
      | with_reducible refine State.hearAnnounce_kept ?_
      | with_reducible refine State.pairDone_kept ?_
      | with_reducible refine State.sendPtp_kept ?_
      | with_reducible refine Kept.foldl ?_ ?_
      | fail_if_no_progress with_reducible refine Kept.upd ?_
      | refine Kept.tagsFilter ?_
      | refine Kept.enter ?_ ?_
      | dsimp only
      | split

theorem State.dropMasters_kept  {s : State} (h : Kept mq lk s0 s) :
    Kept mq lk s0 (State.dropMasters s) := by
  unfold State.dropMasters
  try dsimp only
  repeat'
    first
      | with_reducible assumption
      | with_reducible refine Kept.ite (fun _ => ?_) (fun _ => ?_)
      | with_reducible refine Kept.ite2 (fun _ => ?_) (fun _ => ?_)
      | with_reducible refine Kept.dite (fun _ => ?_) (fun _ => ?_)
      | with_reducible refine State.modPtp_kept ?_

theorem State.writePtpcfg_kept {v : Word} {s : State} (h : Kept mq lk s0 s) :
    Kept mq lk s0 (State.writePtpcfg s v) := by
  unfold State.writePtpcfg
  try dsimp only
  repeat'
    first
      | with_reducible assumption
      | with_reducible refine Kept.ite (fun _ => ?_) (fun _ => ?_)
      | with_reducible refine Kept.ite2 (fun _ => ?_) (fun _ => ?_)
      | with_reducible refine Kept.dite (fun _ => ?_) (fun _ => ?_)
      | with_reducible refine State.plainWrite_kept ?_
      | with_reducible refine State.ptpInit_kept ?_

theorem State.modClk_kept {f : Clk → Clk} {s : State} (h : Kept mq lk s0 s) :
    Kept mq lk s0 (State.modClk s f) := by
  unfold State.modClk
  try dsimp only
  repeat'
    first
      | with_reducible assumption
      | with_reducible refine Kept.ite (fun _ => ?_) (fun _ => ?_)
      | with_reducible refine Kept.ite2 (fun _ => ?_) (fun _ => ?_)
      | with_reducible refine Kept.dite (fun _ => ?_) (fun _ => ?_)
      | with_reducible refine Kept.foldl ?_ ?_
      | fail_if_no_progress with_reducible refine Kept.upd ?_

theorem State.modPwr_kept {f : Pwr → Pwr} {s : State} (h : Kept mq lk s0 s) :
    Kept mq lk s0 (State.modPwr s f) := by
  unfold State.modPwr
  try dsimp only
  repeat'
    first
      | with_reducible assumption
      | with_reducible refine Kept.ite (fun _ => ?_) (fun _ => ?_)
      | with_reducible refine Kept.ite2 (fun _ => ?_) (fun _ => ?_)
      | with_reducible refine Kept.dite (fun _ => ?_) (fun _ => ?_)
      | with_reducible refine Kept.foldl ?_ ?_
      | fail_if_no_progress with_reducible refine Kept.upd ?_

theorem State.clkFlag_kept {i : Nat} {b : Bool} {s : State} (h : Kept mq lk s0 s) :
    Kept mq lk s0 (State.clkFlag s i b) := by
  unfold State.clkFlag
  try dsimp only
  repeat'
    first
      | with_reducible assumption
      | with_reducible refine Kept.ite (fun _ => ?_) (fun _ => ?_)
      | with_reducible refine Kept.ite2 (fun _ => ?_) (fun _ => ?_)
      | with_reducible refine Kept.dite (fun _ => ?_) (fun _ => ?_)
      | with_reducible refine State.setBit_kept ?_

theorem State.setStep_kept {n : Nat} {s : State} (h : Kept mq lk s0 s) :
    Kept mq lk s0 (State.setStep s n) := by
  unfold State.setStep
  try dsimp only
  repeat'
    first
      | with_reducible assumption
      | with_reducible refine Kept.ite (fun _ => ?_) (fun _ => ?_)
      | with_reducible refine Kept.ite2 (fun _ => ?_) (fun _ => ?_)
      | with_reducible refine Kept.dite (fun _ => ?_) (fun _ => ?_)
      | with_reducible refine State.setFld_kept ?_

theorem State.reqResult_kept {n : Nat} {s : State} (h : Kept mq lk s0 s) :
    Kept mq lk s0 (State.reqResult s n) := by
  unfold State.reqResult
  try dsimp only
  repeat'
    first
      | with_reducible assumption
      | with_reducible refine Kept.ite (fun _ => ?_) (fun _ => ?_)
      | with_reducible refine Kept.ite2 (fun _ => ?_) (fun _ => ?_)
      | with_reducible refine Kept.dite (fun _ => ?_) (fun _ => ?_)
      | with_reducible refine State.setFld_kept ?_

theorem State.setLevel_kept {l : Nat} {s : State} (h : Kept mq lk s0 s) :
    Kept mq lk s0 (State.setLevel s l) := by
  unfold State.setLevel
  try dsimp only
  repeat'
    first
      | with_reducible assumption
      | with_reducible refine Kept.ite (fun _ => ?_) (fun _ => ?_)
      | with_reducible refine Kept.ite2 (fun _ => ?_) (fun _ => ?_)
      | with_reducible refine Kept.dite (fun _ => ?_) (fun _ => ?_)
      | with_reducible refine State.setFld_kept ?_
      | with_reducible refine State.setBit_kept ?_

theorem State.gateAct_kept {g : GateAct} {s : State} (h : Kept mq lk s0 s) :
    Kept mq lk s0 (State.gateAct s g) := by
  unfold State.gateAct
  try dsimp only
  repeat'
    first
      | with_reducible assumption
      | with_reducible refine Kept.ite (fun _ => ?_) (fun _ => ?_)
      | with_reducible refine Kept.ite2 (fun _ => ?_) (fun _ => ?_)
      | with_reducible refine Kept.dite (fun _ => ?_) (fun _ => ?_)
      | with_reducible refine State.slAct_kept ?_
      | with_reducible refine State.tableAct_kept ?_
      | with_reducible refine State.setObs_kept ?_
      | with_reducible refine State.trigger_kept ?_
      | with_reducible refine State.chanAct_kept ?_
      | with_reducible refine State.slotAct_kept ?_
      | with_reducible refine State.echoAct_kept ?_
      | with_reducible refine Kept.foldl ?_ ?_
      | fail_if_no_progress with_reducible refine Kept.upd ?_
      | refine Kept.tagsFilter ?_
      | dsimp only
      | split
      | (intro _; intros; try dsimp only)

theorem State.runDeferred_kept {s : State} (h : Kept mq lk s0 s) :
    Kept mq lk s0 (State.runDeferred s) := by
  unfold State.runDeferred
  try dsimp only
  repeat'
    first
      | with_reducible assumption
      | with_reducible refine Kept.ite (fun _ => ?_) (fun _ => ?_)
      | with_reducible refine Kept.ite2 (fun _ => ?_) (fun _ => ?_)
      | with_reducible refine Kept.dite (fun _ => ?_) (fun _ => ?_)
      | with_reducible refine State.gateAct_kept ?_
      | with_reducible refine Kept.foldl ?_ ?_
      | fail_if_no_progress with_reducible refine Kept.upd ?_
      | refine Kept.tagsFilter ?_
      | dsimp only
      | split
      | (intro _; intros; try dsimp only)

theorem State.applyGates_kept  {s : State} (h : Kept mq lk s0 s) :
    Kept mq lk s0 (State.applyGates s) := by
  unfold State.applyGates
  try dsimp only
  repeat'
    first
      | with_reducible assumption
      | with_reducible refine Kept.ite (fun _ => ?_) (fun _ => ?_)
      | with_reducible refine Kept.ite2 (fun _ => ?_) (fun _ => ?_)
      | with_reducible refine Kept.dite (fun _ => ?_) (fun _ => ?_)
      | with_reducible refine State.runDeferred_kept ?_
      | with_reducible refine State.modBank_kept ?_
      | with_reducible refine State.syncBank_kept ?_
      | with_reducible refine State.setLink_kept ?_
      | with_reducible refine Kept.foldl ?_ ?_
      | fail_if_no_progress with_reducible refine Kept.upd ?_
      | refine Kept.tagsFilter ?_
      | refine Kept.enter ?_ ?_
      | (intro _; intros; try dsimp only)

theorem State.stopChange_kept  {s : State} (h : Kept mq lk s0 s) :
    Kept mq lk s0 (State.stopChange s) := by
  unfold State.stopChange
  try dsimp only
  repeat'
    first
      | with_reducible assumption
      | with_reducible refine Kept.ite (fun _ => ?_) (fun _ => ?_)
      | with_reducible refine Kept.ite2 (fun _ => ?_) (fun _ => ?_)
      | with_reducible refine Kept.dite (fun _ => ?_) (fun _ => ?_)
      | with_reducible refine State.applyGates_kept ?_
      | with_reducible refine State.fail_kept ?_
      | with_reducible refine State.modPwr_kept ?_
      | with_reducible refine State.reqResult_kept ?_
      | with_reducible refine Kept.foldl ?_ ?_
      | fail_if_no_progress with_reducible refine Kept.upd ?_
      | refine Kept.tagsFilter ?_
      | refine Kept.enter ?_ ?_
      | dsimp only
      | split

theorem State.startSwitch_kept {toPll : Bool} {s : State} (h : Kept mq lk s0 s) :
    Kept mq lk s0 (State.startSwitch s toPll) := by
  unfold State.startSwitch
  try dsimp only
  repeat'
    first
      | with_reducible assumption
      | with_reducible refine Kept.ite (fun _ => ?_) (fun _ => ?_)
      | with_reducible refine Kept.ite2 (fun _ => ?_) (fun _ => ?_)
      | with_reducible refine Kept.dite (fun _ => ?_) (fun _ => ?_)
      | with_reducible refine State.modClk_kept ?_
      | with_reducible refine State.clkFlag_kept ?_

theorem State.setSource_kept {pll : Bool} {s : State} (h : Kept mq lk s0 s) :
    Kept mq lk s0 (State.setSource s pll) := by
  unfold State.setSource
  try dsimp only
  repeat'
    first
      | with_reducible assumption
      | with_reducible refine Kept.ite (fun _ => ?_) (fun _ => ?_)
      | with_reducible refine Kept.ite2 (fun _ => ?_) (fun _ => ?_)
      | with_reducible refine Kept.dite (fun _ => ?_) (fun _ => ?_)
      | with_reducible refine State.clkFlag_kept ?_
      | with_reducible refine State.modClk_kept ?_
      | with_reducible refine Kept.foldl ?_ ?_
      | fail_if_no_progress with_reducible refine Kept.upd ?_

theorem State.onPllAgain_kept  {s : State} (h : Kept mq lk s0 s) :
    Kept mq lk s0 (State.onPllAgain s) := by
  unfold State.onPllAgain
  try dsimp only
  repeat'
    first
      | with_reducible assumption
      | with_reducible refine Kept.ite (fun _ => ?_) (fun _ => ?_)
      | with_reducible refine Kept.ite2 (fun _ => ?_) (fun _ => ?_)
      | with_reducible refine Kept.dite (fun _ => ?_) (fun _ => ?_)
      | with_reducible refine State.setLevel_kept ?_
      | with_reducible refine State.setFld_kept ?_
      | with_reducible refine State.modServo_kept ?_
      | with_reducible refine State.timeSource_kept ?_
      | with_reducible refine State.modClk_kept ?_
      | with_reducible refine State.modPwr_kept ?_
      | with_reducible refine State.setStep_kept ?_
      | with_reducible refine State.applyGates_kept ?_
      | with_reducible refine Kept.foldl ?_ ?_
      | fail_if_no_progress with_reducible refine Kept.upd ?_
      | refine Kept.tagsFilter ?_
      | refine Kept.enter ?_ ?_
      | dsimp only
      | split

theorem State.rcWatch_kept {bad : Bool} {s : State} (h : Kept mq lk s0 s) :
    Kept mq lk s0 (State.rcWatch s bad) := by
  unfold State.rcWatch
  try dsimp only
  repeat'
    first
      | with_reducible assumption
      | with_reducible refine Kept.ite (fun _ => ?_) (fun _ => ?_)
      | with_reducible refine Kept.ite2 (fun _ => ?_) (fun _ => ?_)
      | with_reducible refine Kept.dite (fun _ => ?_) (fun _ => ?_)
      | with_reducible refine State.modClk_kept ?_
      | with_reducible refine State.clkFlag_kept ?_
      | with_reducible refine Kept.foldl ?_ ?_
      | fail_if_no_progress with_reducible refine Kept.upd ?_
      | refine Kept.tagsFilter ?_
      | refine Kept.enter ?_ ?_
      | dsimp only
      | split

theorem State.clockLoss_kept {reason : Nat} {gap : Nat} {during : Bool} {s : State} (h : Kept mq lk s0 s) :
    Kept mq lk s0 (State.clockLoss s reason gap during) := by
  unfold State.clockLoss
  try dsimp only
  repeat'
    first
      | with_reducible assumption
      | with_reducible refine Kept.ite (fun _ => ?_) (fun _ => ?_)
      | with_reducible refine Kept.ite2 (fun _ => ?_) (fun _ => ?_)
      | with_reducible refine Kept.dite (fun _ => ?_) (fun _ => ?_)
      | with_reducible refine State.flag_kept ?_
      | with_reducible refine State.setFld_kept ?_
      | with_reducible refine State.setBit_kept ?_
      | with_reducible refine State.bump_kept ?_
      | with_reducible refine State.raiseSc_kept ?_
      | with_reducible refine State.dropGroups_kept ?_
      | with_reducible refine State.modServo_kept ?_
      | with_reducible refine State.modClk_kept ?_
      | with_reducible refine State.clkFlag_kept ?_
      | with_reducible refine State.stopChange_kept ?_

theorem State.forceRc_kept {reason : Nat} {gap : Nat} {during : Bool} {s : State} (h : Kept mq lk s0 s) :
    Kept mq lk s0 (State.forceRc s reason gap during) := by
  unfold State.forceRc
  try dsimp only
  repeat'
    first
      | with_reducible assumption
      | with_reducible refine Kept.ite (fun _ => ?_) (fun _ => ?_)
      | with_reducible refine Kept.ite2 (fun _ => ?_) (fun _ => ?_)
      | with_reducible refine Kept.dite (fun _ => ?_) (fun _ => ?_)
      | with_reducible refine State.modClk_kept ?_
      | with_reducible refine State.clkFlag_kept ?_
      | with_reducible refine State.setSource_kept ?_
      | with_reducible refine State.pass_kept ?_
      | with_reducible refine State.clockLoss_kept ?_

theorem State.pllGone_kept {reason : Nat} {s : State} (h : Kept mq lk s0 s) :
    Kept mq lk s0 (State.pllGone s reason) := by
  unfold State.pllGone
  try dsimp only
  repeat'
    first
      | with_reducible assumption
      | with_reducible refine Kept.ite (fun _ => ?_) (fun _ => ?_)
      | with_reducible refine Kept.ite2 (fun _ => ?_) (fun _ => ?_)
      | with_reducible refine Kept.dite (fun _ => ?_) (fun _ => ?_)
      | with_reducible refine State.modClk_kept ?_
      | with_reducible refine State.clkFlag_kept ?_
      | with_reducible refine Kept.foldl ?_ ?_
      | fail_if_no_progress with_reducible refine Kept.upd ?_
      | refine Kept.tagsFilter ?_
      | dsimp only
      | split
      | (intro _; intros; try dsimp only)

theorem State.writeGate_kept {p : Port} {which : Nat} {v : Word} {s : State} (h : Kept mq lk s0 s) :
    Kept mq lk s0 (State.writeGate s p which v) := by
  unfold State.writeGate
  try dsimp only
  repeat'
    first
      | with_reducible assumption
      | with_reducible refine Kept.ite (fun _ => ?_) (fun _ => ?_)
      | with_reducible refine Kept.ite2 (fun _ => ?_) (fun _ => ?_)
      | with_reducible refine Kept.dite (fun _ => ?_) (fun _ => ?_)
      | with_reducible refine State.setBit_kept ?_
      | with_reducible refine State.setReg_kept ?_
      | with_reducible refine State.flag_kept ?_
      | with_reducible refine State.plainWrite_kept ?_
      | with_reducible refine State.applyGates_kept ?_

theorem State.enterGates_kept {s : State} (h : Kept mq lk s0 s) :
    Kept mq lk s0 (State.enterGates s) := by
  unfold State.enterGates
  try dsimp only
  repeat'
    first
      | with_reducible assumption
      | with_reducible refine Kept.ite (fun _ => ?_) (fun _ => ?_)
      | with_reducible refine Kept.ite2 (fun _ => ?_) (fun _ => ?_)
      | with_reducible refine Kept.dite (fun _ => ?_) (fun _ => ?_)
      | with_reducible refine State.setReg_kept ?_
      | with_reducible refine State.setBit_kept ?_
      | with_reducible refine State.flag_kept ?_
      | with_reducible refine State.applyGates_kept ?_

theorem State.allSafe_kept  {s : State} (h : Kept mq lk s0 s) :
    Kept mq lk s0 (State.allSafe s) := by
  unfold State.allSafe
  try dsimp only
  repeat'
    first
      | with_reducible assumption
      | with_reducible refine Kept.ite (fun _ => ?_) (fun _ => ?_)
      | with_reducible refine Kept.ite2 (fun _ => ?_) (fun _ => ?_)
      | with_reducible refine Kept.dite (fun _ => ?_) (fun _ => ?_)
      | with_reducible refine State.eachAx_kept ?_ (fun _ _ _ => ?_)
      | with_reducible refine State.eachAx_kept ?_ ?_
      | with_reducible refine State.killAxis_kept ?_

theorem State.keepFlags_kept {s t : State} (h : Kept mq lk s0 t) : Kept mq lk s0 (t.keepFlags s) :=
  State.eachAx_kept h fun _ _ => State.setReg_kept

theorem State.kindle_kept {kind : Nat} {straps : Straps} {s : State} (h : Kept false false s0 s) :
    Kept false false s0 (State.kindle s kind straps) := by
  unfold State.kindle
  dsimp only
  have hf : ∀ (l : List Nat) {u : State}, Kept false false s0 u →
      Kept false false s0 (l.foldl (fun t k => t.setReg k (s.reg k)) u) :=
    fun l _ g => Kept.foldl g fun _ _ => State.setReg_kept
  repeat'
    first
      | with_reducible assumption
      | with_reducible refine State.keepFlags_kept ?_
      | with_reducible refine Kept.ite (fun _ => ?_) (fun _ => ?_)
      | with_reducible refine State.setReg_kept ?_
      | with_reducible refine State.setFld_kept ?_
      | with_reducible refine State.setBit_kept ?_
      | with_reducible refine State.modServo_kept ?_
      | with_reducible refine hf _ ?_
      | refine Kept.foldl ?_ (fun _ _ g => Kept.ite (fun _ => State.setReg_kept g) fun _ => g)
      | exact h.fresh rfl rfl rfl rfl rfl rfl rfl rfl id

theorem State.hearthFound_kept  {s : State} (h : Kept mq lk s0 s) :
    Kept mq lk s0 (State.hearthFound s) := by
  unfold State.hearthFound
  try dsimp only
  repeat'
    first
      | with_reducible assumption
      | with_reducible refine Kept.ite (fun _ => ?_) (fun _ => ?_)
      | with_reducible refine Kept.ite2 (fun _ => ?_) (fun _ => ?_)
      | with_reducible refine Kept.dite (fun _ => ?_) (fun _ => ?_)
      | with_reducible refine State.eachAx_kept ?_ (fun _ _ _ => ?_)
      | with_reducible refine State.setReg_kept ?_
      | with_reducible refine State.setBit_kept ?_
      | with_reducible refine Kept.foldl ?_ ?_
      | fail_if_no_progress with_reducible refine Kept.upd ?_
      | fail_if_no_progress with_reducible refine Kept.updH ?_ ?_
      | (refine Hearth.keeps ?_ ?_ ?_ <;> first | with_reducible exact id | with_reducible exact putWords_wf _ _ | with_reducible exact (fun x => storeSet_wf x _ _) | exact (fun x => storeFilter_wf x _) | exact fun _ => rfl)

theorem State.emberTidy_kept  {s : State} (h : Kept mq lk s0 s) :
    Kept mq lk s0 (State.emberTidy s) := by
  unfold State.emberTidy
  try dsimp only
  repeat'
    first
      | with_reducible assumption
      | with_reducible refine Kept.ite (fun _ => ?_) (fun _ => ?_)
      | with_reducible refine Kept.ite2 (fun _ => ?_) (fun _ => ?_)
      | with_reducible refine Kept.dite (fun _ => ?_) (fun _ => ?_)
      | with_reducible refine Kept.foldl ?_ ?_
      | fail_if_no_progress with_reducible refine Kept.upd ?_
      | fail_if_no_progress with_reducible refine Kept.updH ?_ ?_
      | (refine Hearth.keeps ?_ ?_ ?_ <;> first | with_reducible exact id | with_reducible exact putWords_wf _ _ | with_reducible exact (fun x => storeSet_wf x _ _) | exact (fun x => storeFilter_wf x _))

theorem State.applyRetired_kept  {s : State} (h : Kept mq lk s0 s) :
    Kept mq lk s0 (State.applyRetired s) := by
  unfold State.applyRetired
  try dsimp only
  repeat'
    first
      | with_reducible assumption
      | with_reducible refine Kept.ite (fun _ => ?_) (fun _ => ?_)
      | with_reducible refine Kept.ite2 (fun _ => ?_) (fun _ => ?_)
      | with_reducible refine Kept.dite (fun _ => ?_) (fun _ => ?_)
      | with_reducible refine State.eachAx_kept ?_ (fun _ _ _ => ?_)
      | with_reducible refine State.setBit_kept ?_
      | with_reducible refine State.flag_kept ?_
      | with_reducible refine State.setSt_kept ?_

theorem State.bootState_kept {b : Boot} {s : State} (h : Kept mq lk s0 s) :
    Kept mq lk s0 (State.bootState s b) := by
  unfold State.bootState
  try dsimp only
  repeat'
    first
      | with_reducible assumption
      | with_reducible refine Kept.ite (fun _ => ?_) (fun _ => ?_)
      | with_reducible refine Kept.ite2 (fun _ => ?_) (fun _ => ?_)
      | with_reducible refine Kept.dite (fun _ => ?_) (fun _ => ?_)
      | with_reducible refine State.modPwr_kept ?_
      | with_reducible refine State.setStep_kept ?_

theorem State.bootAccount_kept  {s : State} (h : Kept mq lk s0 s) :
    Kept mq lk s0 (State.bootAccount s) := by
  unfold State.bootAccount
  try dsimp only
  repeat'
    first
      | with_reducible assumption
      | with_reducible refine Kept.ite (fun _ => ?_) (fun _ => ?_)
      | with_reducible refine Kept.ite2 (fun _ => ?_) (fun _ => ?_)
      | with_reducible refine Kept.dite (fun _ => ?_) (fun _ => ?_)
      | with_reducible refine State.bootState_kept ?_
      | with_reducible refine State.done_kept ?_
      | with_reducible refine State.setFld_kept ?_
      | with_reducible refine State.bump_kept ?_
      | with_reducible refine State.modPwr_kept ?_
      | with_reducible refine Kept.foldl ?_ ?_
      | fail_if_no_progress with_reducible refine Kept.upd ?_

theorem Desc.handOver_ne {d : Desc} (h : d ≠ Desc.free) : d.handOver ≠ Desc.free := by
  obtain ⟨o, l, n, v, i, p⟩ := d
  intro e
  apply h
  simp only [Desc.handOver, Desc.free, Desc.mk.injEq, isAxisOwner] at *
  grind

theorem State.handOver_kept {s : State} (h : Kept mq lk s0 s) : Kept mq lk s0 s.handOver :=
  Kept.descMap (s := s) rfl h (fun _ => Desc.handOver_ne) rfl rfl rfl rfl rfl rfl rfl rfl rfl id

theorem State.endRequest_kept {cmd : Option Nat} {viaReg : Bool} {st : Status} {s : State} (h : Kept mq lk s0 s) :
    Kept mq lk s0 (State.endRequest s cmd viaReg st) := by
  unfold State.endRequest
  try dsimp only
  repeat'
    first
      | with_reducible assumption
      | with_reducible refine Kept.ite (fun _ => ?_) (fun _ => ?_)
      | with_reducible refine Kept.ite2 (fun _ => ?_) (fun _ => ?_)
      | with_reducible refine Kept.dite (fun _ => ?_) (fun _ => ?_)
      | with_reducible refine State.fail_kept ?_
      | with_reducible refine State.done_kept ?_
      | with_reducible refine State.reqResult_kept ?_
      | with_reducible refine Kept.foldl ?_ ?_
      | fail_if_no_progress with_reducible refine Kept.upd ?_
      | refine Kept.tagsFilter ?_
      | refine Kept.enter ?_ ?_
      | dsimp only
      | split

theorem State.setChange_kept {c : Change} {s : State} (h : Kept mq lk s0 s) :
    Kept mq lk s0 (State.setChange s c) := by
  unfold State.setChange
  try dsimp only
  repeat'
    first
      | with_reducible assumption
      | with_reducible refine Kept.ite (fun _ => ?_) (fun _ => ?_)
      | with_reducible refine Kept.ite2 (fun _ => ?_) (fun _ => ?_)
      | with_reducible refine Kept.dite (fun _ => ?_) (fun _ => ?_)
      | with_reducible refine State.modPwr_kept ?_

theorem State.setDiv_kept {d : Nat} {s : State} (h : Kept mq lk s0 s) :
    Kept mq lk s0 (State.setDiv s d) := by
  unfold State.setDiv
  try dsimp only
  repeat'
    first
      | with_reducible assumption
      | with_reducible refine Kept.ite (fun _ => ?_) (fun _ => ?_)
      | with_reducible refine Kept.ite2 (fun _ => ?_) (fun _ => ?_)
      | with_reducible refine Kept.dite (fun _ => ?_) (fun _ => ?_)
      | with_reducible refine State.modPwr_kept ?_

theorem State.setVcore_kept {mv : Nat} {s : State} (h : Kept mq lk s0 s) :
    Kept mq lk s0 (State.setVcore s mv) := by
  unfold State.setVcore
  try dsimp only
  repeat'
    first
      | with_reducible assumption
      | with_reducible refine Kept.ite (fun _ => ?_) (fun _ => ?_)
      | with_reducible refine Kept.ite2 (fun _ => ?_) (fun _ => ?_)
      | with_reducible refine Kept.dite (fun _ => ?_) (fun _ => ?_)
      | with_reducible refine State.modPwr_kept ?_

theorem State.requestLevel_kept {l : Nat} {cmd : Option Nat} {viaReg : Bool} {s : State} (h : Kept mq lk s0 s) :
    Kept mq lk s0 (State.requestLevel s l cmd viaReg) := by
  unfold State.requestLevel
  try dsimp only
  repeat'
    first
      | with_reducible assumption
      | with_reducible refine Kept.ite (fun _ => ?_) (fun _ => ?_)
      | with_reducible refine Kept.ite2 (fun _ => ?_) (fun _ => ?_)
      | with_reducible refine Kept.dite (fun _ => ?_) (fun _ => ?_)
      | with_reducible refine State.setVcore_kept ?_
      | with_reducible refine State.modClk_kept ?_
      | with_reducible refine State.enterGates_kept ?_
      | with_reducible refine State.setLevel_kept ?_
      | with_reducible refine State.done_kept ?_
      | with_reducible refine State.setFld_kept ?_
      | with_reducible refine State.setBit_kept ?_
      | with_reducible refine State.sendStarted_kept ?_
      | with_reducible refine State.reqResult_kept ?_
      | with_reducible refine State.applyGates_kept ?_
      | with_reducible refine State.startSwitch_kept ?_
      | with_reducible refine State.endRequest_kept ?_
      | with_reducible refine State.setChange_kept ?_
      | with_reducible refine State.setDiv_kept ?_
      | with_reducible refine Kept.foldl ?_ ?_
      | fail_if_no_progress with_reducible refine Kept.upd ?_
      | refine Kept.tagsFilter ?_
      | refine Kept.enter ?_ ?_
      | dsimp only
      | split

theorem State.writePwrReq_kept {v : Word} {s : State} (h : Kept mq lk s0 s) :
    Kept mq lk s0 (State.writePwrReq s v) := by
  unfold State.writePwrReq
  try dsimp only
  repeat'
    first
      | with_reducible assumption
      | with_reducible refine Kept.ite (fun _ => ?_) (fun _ => ?_)
      | with_reducible refine Kept.ite2 (fun _ => ?_) (fun _ => ?_)
      | with_reducible refine Kept.dite (fun _ => ?_) (fun _ => ?_)
      | with_reducible refine State.setFld_kept ?_
      | with_reducible refine State.requestLevel_kept ?_

theorem State.writeCeil_kept {v : Word} {s : State} (h : Kept mq lk s0 s) :
    Kept mq lk s0 (State.writeCeil s v) := by
  unfold State.writeCeil
  try dsimp only
  repeat'
    first
      | with_reducible assumption
      | with_reducible refine Kept.ite (fun _ => ?_) (fun _ => ?_)
      | with_reducible refine Kept.ite2 (fun _ => ?_) (fun _ => ?_)
      | with_reducible refine Kept.dite (fun _ => ?_) (fun _ => ?_)
      | with_reducible refine State.setReg_kept ?_
      | with_reducible refine State.setBit_kept ?_

theorem State.powerFail_kept {s : State} (h : Kept mq lk s0 s) : Kept mq lk s0 (State.powerFail s) := by
  unfold State.powerFail
  split
  · exact h
  · exact h
  · exact h
  · refine State.emberBegin_kept ?_
    exact (State.setLink_kept (State.setLink_kept (State.setFld_kept (Kept.upd (State.allSafe_kept
      (State.takeItem_kept (State.setBit_kept h))))))).sameNone rfl rfl rfl rfl rfl rfl rfl rfl rfl id

theorem State.writeChp_kept {a : AxisId} {idx : Nat} {v : Word} {s : State} (h : Kept mq lk s0 s) :
    Kept mq lk s0 (State.writeChp s a idx v) := by
  unfold State.writeChp
  try dsimp only
  repeat'
    first
      | with_reducible assumption
      | with_reducible refine Kept.ite (fun _ => ?_) (fun _ => ?_)
      | with_reducible refine Kept.ite2 (fun _ => ?_) (fun _ => ?_)
      | with_reducible refine Kept.dite (fun _ => ?_) (fun _ => ?_)
      | with_reducible refine State.gridRelease_kept ?_
      | with_reducible refine State.gridOwed_kept ?_
      | with_reducible refine State.plainWrite_kept ?_
      | with_reducible refine State.setChp_kept ?_
      | with_reducible refine State.writeTabctl_kept ?_
      | with_reducible refine State.hold_kept ?_
      | with_reducible refine Kept.foldl ?_ ?_
      | fail_if_no_progress with_reducible refine Kept.upd ?_
      | refine Kept.tagsFilter ?_
      | refine Kept.enter ?_ ?_
      | dsimp only
      | split

theorem State.writeObs_kept {a : AxisId} {idx : Nat} {v : Word} {s : State} (h : Kept mq lk s0 s) :
    Kept mq lk s0 (State.writeObs s a idx v) := by
  unfold State.writeObs
  try dsimp only
  repeat'
    first
      | with_reducible assumption
      | with_reducible refine Kept.ite (fun _ => ?_) (fun _ => ?_)
      | with_reducible refine Kept.ite2 (fun _ => ?_) (fun _ => ?_)
      | with_reducible refine Kept.dite (fun _ => ?_) (fun _ => ?_)
      | with_reducible refine State.whenClocked_kept ?_ (fun _ _ => ?_)
      | with_reducible refine State.writeRpu_kept ?_
      | with_reducible refine State.plainWrite_kept ?_
      | with_reducible refine State.setObs_kept ?_

theorem State.writeFbk_kept {c : ChanId} {idx : Nat} {v : Word} {s : State} (h : Kept mq lk s0 s) :
    Kept mq lk s0 (State.writeFbk s c idx v) := by
  unfold State.writeFbk
  try dsimp only
  repeat'
    first
      | with_reducible assumption
      | with_reducible refine Kept.ite (fun _ => ?_) (fun _ => ?_)
      | with_reducible refine Kept.ite2 (fun _ => ?_) (fun _ => ?_)
      | with_reducible refine Kept.dite (fun _ => ?_) (fun _ => ?_)
      | with_reducible refine State.plainWrite_kept ?_
      | with_reducible refine State.writeLattrig_kept ?_
      | with_reducible refine State.writeFbkCfg_kept ?_
      | with_reducible refine Kept.foldl ?_ ?_
      | fail_if_no_progress with_reducible refine Kept.upd ?_
      | refine Kept.tagsFilter ?_
      | refine Kept.enter ?_ ?_
      | dsimp only
      | split

theorem State.writeFbg_kept {idx : Nat} {v : Word} {s : State} (h : Kept mq lk s0 s) :
    Kept mq lk s0 (State.writeFbg s idx v) := by
  unfold State.writeFbg
  try dsimp only
  repeat'
    first
      | with_reducible assumption
      | with_reducible refine Kept.ite (fun _ => ?_) (fun _ => ?_)
      | with_reducible refine Kept.ite2 (fun _ => ?_) (fun _ => ?_)
      | with_reducible refine Kept.dite (fun _ => ?_) (fun _ => ?_)
      | with_reducible refine State.plainWrite_kept ?_
      | with_reducible refine State.writeSlot_kept ?_
      | with_reducible refine State.writeEcho_kept ?_

theorem State.writePar_kept {kind : Nat} {n : Nat} {idx : Nat} {v : Word} {s : State} (h : Kept mq lk s0 s) :
    Kept mq lk s0 (State.writePar s kind n idx v) := by
  unfold State.writePar
  try dsimp only
  repeat'
    first
      | with_reducible assumption
      | with_reducible refine Kept.ite (fun _ => ?_) (fun _ => ?_)
      | with_reducible refine Kept.ite2 (fun _ => ?_) (fun _ => ?_)
      | with_reducible refine Kept.dite (fun _ => ?_) (fun _ => ?_)
      | with_reducible refine State.plainWrite_kept ?_
      | with_reducible refine State.writeModeCfg_kept ?_
      | with_reducible refine State.writePro_kept ?_
      | with_reducible refine State.writeChp_kept ?_
      | with_reducible refine State.writeObs_kept ?_
      | with_reducible refine State.writeFbk_kept ?_
      | with_reducible refine State.writeFbg_kept ?_
      | with_reducible refine Kept.foldl ?_ ?_
      | fail_if_no_progress with_reducible refine Kept.upd ?_
      | refine Kept.tagsFilter ?_
      | refine Kept.enter ?_ ?_
      | dsimp only
      | split

theorem State.writeIlim_kept {a : AxisId} {v : Word} {s : State} (h : Kept mq lk s0 s) :
    Kept mq lk s0 (State.writeIlim s a v) := by
  unfold State.writeIlim
  try dsimp only
  repeat'
    first
      | with_reducible assumption
      | with_reducible refine Kept.ite (fun _ => ?_) (fun _ => ?_)
      | with_reducible refine Kept.ite2 (fun _ => ?_) (fun _ => ?_)
      | with_reducible refine Kept.dite (fun _ => ?_) (fun _ => ?_)
      | with_reducible refine State.gridRelease_kept ?_
      | with_reducible refine State.gridOwed_kept ?_
      | with_reducible refine State.setFld_kept ?_
      | with_reducible refine State.flag_kept ?_
      | with_reducible refine State.plainWrite_kept ?_

theorem State.writePortcfg_kept {i : Fin 3} {v : Word} {s : State} (h : Kept mq lk s0 s) :
    Kept mq lk s0 (State.writePortcfg s i v) := by
  unfold State.writePortcfg
  try dsimp only
  repeat'
    first
      | with_reducible assumption
      | with_reducible refine Kept.ite (fun _ => ?_) (fun _ => ?_)
      | with_reducible refine Kept.ite2 (fun _ => ?_) (fun _ => ?_)
      | with_reducible refine Kept.dite (fun _ => ?_) (fun _ => ?_)
      | with_reducible refine State.setFld_kept ?_
      | with_reducible refine State.setBit_kept ?_
      | with_reducible refine State.flag_kept ?_
      | with_reducible refine Kept.foldl ?_ ?_
      | fail_if_no_progress with_reducible refine Kept.upd ?_

theorem State.writeAxisReg_kept {a : AxisId} {off : Nat} {k : Nat} {v : Word} {s : State} (h : Kept mq lk s0 s) :
    Kept mq lk s0 (State.writeAxisReg s a off k v) := by
  unfold State.writeAxisReg
  try dsimp only
  repeat'
    first
      | with_reducible assumption
      | with_reducible refine Kept.ite (fun _ => ?_) (fun _ => ?_)
      | with_reducible refine Kept.ite2 (fun _ => ?_) (fun _ => ?_)
      | with_reducible refine Kept.dite (fun _ => ?_) (fun _ => ?_)
      | with_reducible refine State.plainWrite_kept ?_
      | with_reducible refine State.writeFreeze_kept ?_
      | with_reducible refine State.writeChpCfg_kept ?_
      | with_reducible refine State.writeStpCfg_kept ?_
      | with_reducible refine State.writePwmCfg_kept ?_
      | with_reducible refine Kept.foldl ?_ ?_
      | fail_if_no_progress with_reducible refine Kept.upd ?_
      | refine Kept.tagsFilter ?_
      | refine Kept.enter ?_ ?_
      | dsimp only
      | split

theorem State.writeGlobal_kept {p : Port} {k : Nat} {v : Word} {s : State} (h : Kept mq lk s0 s) :
    Kept mq lk s0 (State.writeGlobal s p k v) := by
  unfold State.writeGlobal
  try dsimp only
  repeat'
    first
      | with_reducible assumption
      | with_reducible refine Kept.ite (fun _ => ?_) (fun _ => ?_)
      | with_reducible refine Kept.ite2 (fun _ => ?_) (fun _ => ?_)
      | with_reducible refine Kept.dite (fun _ => ?_) (fun _ => ?_)
      | with_reducible refine State.plainWrite_kept ?_
      | with_reducible refine State.writeLink_kept ?_
      | with_reducible refine State.writeTrace_kept ?_
      | with_reducible refine State.hold_kept ?_
      | with_reducible refine State.clearTrips_kept2 ?_
      | with_reducible refine State.clearTrips_kept (by with_reducible assumption) ?_
      | with_reducible refine State.writeGuycfg_kept ?_
      | with_reducible refine State.writeErrpin_kept ?_
      | with_reducible refine State.writeRam_kept ?_
      | with_reducible refine State.writePcfg_kept ?_
      | with_reducible refine State.writeNode_kept ?_
      | with_reducible refine State.writeEpoch_kept ?_
      | with_reducible refine State.writePtpcfg_kept ?_
      | with_reducible refine State.writeGate_kept ?_
      | with_reducible refine State.writePwrReq_kept ?_
      | with_reducible refine State.writePortcfg_kept ?_
      | with_reducible refine Kept.foldl ?_ ?_
      | fail_if_no_progress with_reducible refine Kept.upd ?_
      | refine Kept.tagsFilter ?_
      | refine Kept.enter ?_ ?_
      | dsimp only
      | split

theorem State.writeKey_kept {p : Port} {k : Nat} {v : Word} {s : State} (h : Kept mq lk s0 s) :
    Kept mq lk s0 (State.writeKey s p k v) := by
  unfold State.writeKey
  try dsimp only
  repeat'
    first
      | with_reducible assumption
      | with_reducible refine Kept.ite (fun _ => ?_) (fun _ => ?_)
      | with_reducible refine Kept.ite2 (fun _ => ?_) (fun _ => ?_)
      | with_reducible refine Kept.dite (fun _ => ?_) (fun _ => ?_)
      | with_reducible refine State.plainWrite_kept ?_
      | with_reducible refine State.syncBank_kept ?_
      | with_reducible refine State.writePar_kept ?_
      | with_reducible refine State.writeAxisReg_kept ?_
      | with_reducible refine State.writeGlobal_kept ?_
      | with_reducible refine Kept.foldl ?_ ?_
      | fail_if_no_progress with_reducible refine Kept.upd ?_
      | refine Kept.tagsFilter ?_
      | refine Kept.enter ?_ ?_
      | dsimp only
      | split

theorem State.takeKeyed_kept {k : Nat} {v : Word} {s : State} (h : Kept mq lk s0 s) :
    Kept mq lk s0 (State.takeKeyed s k v) := by
  unfold State.takeKeyed
  try dsimp only
  repeat'
    first
      | with_reducible assumption
      | with_reducible refine Kept.ite (fun _ => ?_) (fun _ => ?_)
      | with_reducible refine Kept.ite2 (fun _ => ?_) (fun _ => ?_)
      | with_reducible refine Kept.dite (fun _ => ?_) (fun _ => ?_)
      | with_reducible refine State.mark_kept ?_
      | with_reducible refine State.plainWrite_kept ?_
      | with_reducible refine State.writeTripmap_kept ?_
      | with_reducible refine State.writeAxctl_kept ?_
      | with_reducible refine State.writeClass_kept ?_
      | with_reducible refine State.writeEnable_kept ?_
      | with_reducible refine State.writeCalctl_kept ?_
      | with_reducible refine State.select_kept ?_
      | with_reducible refine State.writeCeil_kept ?_
      | with_reducible refine State.writeIlim_kept ?_
      | with_reducible refine Kept.foldl ?_ ?_
      | fail_if_no_progress with_reducible refine Kept.upd ?_
      | refine Kept.tagsFilter ?_
      | refine Kept.enter ?_ ?_
      | dsimp only
      | split

theorem State.complementWrite_kept {p : Port} {k : Nat} {v : Word} {s : State} (h : Kept mq lk s0 s) :
    Kept mq lk s0 (State.complementWrite s p k v) := by
  unfold State.complementWrite
  try dsimp only
  repeat'
    first
      | with_reducible assumption
      | with_reducible refine Kept.ite (fun _ => ?_) (fun _ => ?_)
      | with_reducible refine Kept.ite2 (fun _ => ?_) (fun _ => ?_)
      | with_reducible refine Kept.dite (fun _ => ?_) (fun _ => ?_)
      | with_reducible refine State.setPend_kept ?_
      | with_reducible refine State.keyFail_kept ?_
      | with_reducible refine State.expire_kept ?_
      | with_reducible refine State.cancel_kept ?_
      | with_reducible refine State.takeKeyed_kept ?_
      | with_reducible refine Kept.foldl ?_ ?_
      | fail_if_no_progress with_reducible refine Kept.upd ?_
      | refine Kept.tagsFilter ?_
      | refine Kept.enter ?_ ?_
      | dsimp only
      | split

theorem State.valueWrite_kept {p : Port} {k : Nat} {v : Word} {s : State} (h : Kept mq lk s0 s) :
    Kept mq lk s0 (State.valueWrite s p k v) := by
  unfold State.valueWrite
  try dsimp only
  repeat'
    first
      | with_reducible assumption
      | with_reducible refine Kept.ite (fun _ => ?_) (fun _ => ?_)
      | with_reducible refine Kept.ite2 (fun _ => ?_) (fun _ => ?_)
      | with_reducible refine Kept.dite (fun _ => ?_) (fun _ => ?_)
      | with_reducible refine State.setPend_kept ?_
      | with_reducible refine State.cancel_kept ?_

theorem State.refusedWrite_kept {p : Port} {s : State} (h : Kept mq lk s0 s) :
    Kept mq lk s0 (State.refusedWrite s p) := by
  unfold State.refusedWrite
  try dsimp only
  repeat'
    first
      | with_reducible assumption
      | with_reducible refine Kept.ite (fun _ => ?_) (fun _ => ?_)
      | with_reducible refine Kept.ite2 (fun _ => ?_) (fun _ => ?_)
      | with_reducible refine Kept.dite (fun _ => ?_) (fun _ => ?_)
      | with_reducible refine State.keyFail_kept ?_
      | with_reducible refine State.cancel_kept ?_

theorem State.aliasWrite_kept {p : Port} {k : Nat} {i : Nat} {v : Word} {s : State} (h : Kept mq lk s0 s) :
    Kept mq lk s0 (State.aliasWrite s p k i v) := by
  unfold State.aliasWrite
  try dsimp only
  repeat'
    first
      | with_reducible assumption
      | with_reducible refine Kept.ite (fun _ => ?_) (fun _ => ?_)
      | with_reducible refine Kept.ite2 (fun _ => ?_) (fun _ => ?_)
      | with_reducible refine Kept.dite (fun _ => ?_) (fun _ => ?_)
      | with_reducible refine State.unwound_kept ?_
      | with_reducible refine State.counted_kept ?_
      | with_reducible refine State.cancel_kept ?_
      | with_reducible refine State.writeKey_kept ?_
      | with_reducible refine State.refusedWrite_kept ?_

theorem State.busWrite_kept {p : Port} {addr : Word} {v : Word} {s : State} (h : Kept false lk s0 s) :
    Kept false lk s0 (State.busWrite s p addr v) := by
  unfold State.busWrite
  try dsimp only
  repeat'
    first
      | with_reducible assumption
      | with_reducible refine Kept.ite (fun _ => ?_) (fun _ => ?_)
      | with_reducible refine Kept.ite2 (fun _ => ?_) (fun _ => ?_)
      | with_reducible refine Kept.dite (fun _ => ?_) (fun _ => ?_)
      | with_reducible refine State.cancel_kept ?_
      | with_reducible refine State.windowWrite_kept ?_
      | with_reducible refine State.writeKey_kept ?_
      | with_reducible refine State.complementWrite_kept ?_
      | with_reducible refine State.valueWrite_kept ?_
      | with_reducible refine State.aliasWrite_kept ?_
      | with_reducible refine Kept.foldl ?_ ?_
      | fail_if_no_progress with_reducible refine Kept.upd ?_
      | refine Kept.tagsFilter ?_
      | refine Kept.enter ?_ ?_
      | dsimp only
      | split

theorem State.keyedWrite_kept {p : Port} {addr : Word} {v : Word} {w : Word} {s : State} (h : Kept false lk s0 s) :
    Kept false lk s0 (State.keyedWrite s p addr v w) := by
  unfold State.keyedWrite
  try dsimp only
  repeat'
    first
      | with_reducible assumption
      | with_reducible refine Kept.ite (fun _ => ?_) (fun _ => ?_)
      | with_reducible refine Kept.ite2 (fun _ => ?_) (fun _ => ?_)
      | with_reducible refine Kept.dite (fun _ => ?_) (fun _ => ?_)
      | with_reducible refine State.busWrite_kept ?_

theorem State.upset_kept {u : Upset} {s : State} (h : Kept mq lk s0 s) : Kept mq lk s0 (State.upset s u) := by
  refine h.trans ?_
  unfold State.upset
  refine Kept.ite (fun _ => Kept.refl) fun _ => Kept.ite (fun _ => ?_) fun _ => Kept.ite (fun _ => ?_) fun _ => ?_
  · exact ⟨rfl, Nat.le_refl _, fun x => ⟨x.mem, storeSet_wf x.regs _ _, x.tmrB, x.tmrC, x.desc, x.tags, x.hearth⟩, fun _ => id, fun _ => rfl⟩
  · exact ⟨rfl, Nat.le_refl _, fun x => ⟨x.mem, x.regs, storeSet_wf x.tmrB _ _, x.tmrC, x.desc, x.tags, x.hearth⟩, fun _ => id, fun _ => rfl⟩
  · exact ⟨rfl, Nat.le_refl _, fun x => ⟨x.mem, x.regs, x.tmrB, storeSet_wf x.tmrC _ _, x.desc, x.tags, x.hearth⟩, fun _ => id, fun _ => rfl⟩

theorem State.disagree_kept {k : Nat} {lo : Nat} {s : State} (h : Kept mq lk s0 s) :
    Kept mq lk s0 (State.disagree s k lo) := by
  unfold State.disagree
  try dsimp only
  repeat'
    first
      | with_reducible assumption
      | with_reducible refine Kept.ite (fun _ => ?_) (fun _ => ?_)
      | with_reducible refine Kept.ite2 (fun _ => ?_) (fun _ => ?_)
      | with_reducible refine Kept.dite (fun _ => ?_) (fun _ => ?_)
      | with_reducible refine State.raiseC0_kept ?_
      | with_reducible refine State.raiseSc_kept ?_
      | with_reducible refine Kept.foldl ?_ ?_
      | fail_if_no_progress with_reducible refine Kept.upd ?_

theorem State.scrubWord_kept {k : Nat} {s : State} (h : Kept mq lk s0 s) :
    Kept mq lk s0 (State.scrubWord s k) := by
  unfold State.scrubWord
  try dsimp only
  repeat'
    first
      | with_reducible assumption
      | with_reducible refine Kept.ite (fun _ => ?_) (fun _ => ?_)
      | with_reducible refine Kept.ite2 (fun _ => ?_) (fun _ => ?_)
      | with_reducible refine Kept.dite (fun _ => ?_) (fun _ => ?_)
      | with_reducible refine State.setReg_kept ?_
      | with_reducible refine State.disagree_kept ?_
      | with_reducible refine Kept.foldl ?_ ?_
      | fail_if_no_progress with_reducible refine Kept.upd ?_
      | refine Kept.tagsFilter ?_
      | refine Kept.enter ?_ ?_
      | (intro _; intros; try dsimp only)

theorem State.found_kept {addr : Word} {s : State} (h : Kept mq lk s0 s) :
    Kept mq lk s0 (State.found s addr) := by
  unfold State.found
  try dsimp only
  repeat'
    first
      | with_reducible assumption
      | with_reducible refine Kept.ite (fun _ => ?_) (fun _ => ?_)
      | with_reducible refine Kept.ite2 (fun _ => ?_) (fun _ => ?_)
      | with_reducible refine Kept.dite (fun _ => ?_) (fun _ => ?_)
      | with_reducible refine State.scrubWord_kept ?_
      | with_reducible refine Kept.foldl ?_ ?_
      | fail_if_no_progress with_reducible refine Kept.upd ?_
      | refine Kept.tagsFilter ?_
      | dsimp only
      | split

end Sys2Proof.Machine
end

