-- ==== Sys2Proof/Laws/KeptCmd.lean ====
section
/-! SUPPORT. That each operation of Cmd.lean, Opcodes.lean, Wire.lean, Boot.lean, Hif.lean, Ember.lean, Frames.lean, Pins.lean
keeps what `Kept` says. -/

namespace Sys2Proof.Machine

variable {mq lk : Bool} {s0 : State}

theorem State.stage_kept {a : AxisId} {c : Cmd} {s : State} (h : Kept mq lk s0 s) :
    Kept mq lk s0 (State.stage s a c) := by
  unfold State.stage
  try dsimp only
  repeat'
    first
      | with_reducible assumption
      | with_reducible refine Kept.ite (fun _ => ?_) (fun _ => ?_)
      | with_reducible refine Kept.ite2 (fun _ => ?_) (fun _ => ?_)
      | with_reducible refine Kept.dite (fun _ => ?_) (fun _ => ?_)
      | with_reducible refine State.setCmd_kept ?_
      | with_reducible refine State.fail_kept ?_
      | with_reducible refine Kept.foldl ?_ ?_
      | fail_if_no_progress with_reducible refine Kept.upd ?_
      | refine Kept.tagsFilter ?_
      | refine Kept.enter ?_ ?_
      | dsimp only
      | split

theorem State.abortStaged_kept {a : AxisId} {id : Nat} {s : State} (h : Kept mq lk s0 s) :
    Kept mq lk s0 (State.abortStaged s a id) := by
  unfold State.abortStaged
  try dsimp only
  repeat'
    first
      | with_reducible assumption
      | with_reducible refine Kept.ite (fun _ => ?_) (fun _ => ?_)
      | with_reducible refine Kept.ite2 (fun _ => ?_) (fun _ => ?_)
      | with_reducible refine Kept.dite (fun _ => ?_) (fun _ => ?_)
      | with_reducible refine State.fail_kept ?_
      | with_reducible refine State.withdraw_kept ?_
      | with_reducible refine Kept.foldl ?_ ?_
      | fail_if_no_progress with_reducible refine Kept.upd ?_
      | refine Kept.tagsFilter ?_
      | refine Kept.enter ?_ ?_
      | dsimp only
      | split

theorem State.abortOne_kept {a : AxisId} {ab : Nat} {at_ : Option Nat} {c : Cmd} {s : State} (h : Kept mq lk s0 s) :
    Kept mq lk s0 (State.abortOne s a ab at_ c) := by
  unfold State.abortOne
  try dsimp only
  repeat'
    first
      | with_reducible assumption
      | with_reducible refine Kept.ite (fun _ => ?_) (fun _ => ?_)
      | with_reducible refine Kept.ite2 (fun _ => ?_) (fun _ => ?_)
      | with_reducible refine Kept.dite (fun _ => ?_) (fun _ => ?_)
      | with_reducible refine State.fail_kept ?_
      | with_reducible refine State.place_kept ?_
      | with_reducible refine State.abortStaged_kept ?_
      | with_reducible refine State.abortMotion_kept ?_

theorem State.takeAbort_kept {a : AxisId} {c : Cmd} {s : State} (h : Kept mq lk s0 s) :
    Kept mq lk s0 (State.takeAbort s a c) := by
  unfold State.takeAbort
  try dsimp only
  repeat'
    first
      | with_reducible assumption
      | with_reducible refine Kept.ite (fun _ => ?_) (fun _ => ?_)
      | with_reducible refine Kept.ite2 (fun _ => ?_) (fun _ => ?_)
      | with_reducible refine Kept.dite (fun _ => ?_) (fun _ => ?_)
      | with_reducible refine State.place_kept ?_
      | with_reducible refine State.fail_kept ?_
      | with_reducible refine State.done_kept ?_
      | with_reducible refine State.sendStarted_kept ?_
      | with_reducible refine State.abortOne_kept ?_
      | with_reducible refine Kept.foldl ?_ ?_
      | fail_if_no_progress with_reducible refine Kept.upd ?_
      | refine Kept.tagsFilter ?_
      | refine Kept.enter ?_ ?_
      | (intro _; intros; try dsimp only)

theorem State.takeRelease_kept {a : AxisId} {id : Nat} {s : State} (h : Kept mq lk s0 s) :
    Kept mq lk s0 (State.takeRelease s a id) := by
  unfold State.takeRelease
  try dsimp only
  repeat'
    first
      | with_reducible assumption
      | with_reducible refine Kept.ite (fun _ => ?_) (fun _ => ?_)
      | with_reducible refine Kept.ite2 (fun _ => ?_) (fun _ => ?_)
      | with_reducible refine Kept.dite (fun _ => ?_) (fun _ => ?_)
      | with_reducible refine State.setPro_kept ?_
      | with_reducible refine State.done_kept ?_
      | with_reducible refine State.beginRelease_kept ?_

theorem State.takeEnergise_kept {a : AxisId} {id : Nat} {s : State} (h : Kept mq lk s0 s) :
    Kept mq lk s0 (State.takeEnergise s a id) := by
  unfold State.takeEnergise
  try dsimp only
  repeat'
    first
      | with_reducible assumption
      | with_reducible refine Kept.ite (fun _ => ?_) (fun _ => ?_)
      | with_reducible refine Kept.ite2 (fun _ => ?_) (fun _ => ?_)
      | with_reducible refine Kept.dite (fun _ => ?_) (fun _ => ?_)
      | with_reducible refine State.fail_kept ?_
      | with_reducible refine State.sendStarted_kept ?_
      | with_reducible refine State.startEnergise_kept ?_
      | with_reducible refine State.failState_kept ?_

theorem State.takeDiag_kept {a : AxisId} {id : Nat} {selftest : Bool} {s : State} (h : Kept mq lk s0 s) :
    Kept mq lk s0 (State.takeDiag s a id selftest) := by
  unfold State.takeDiag
  try dsimp only
  repeat'
    first
      | with_reducible assumption
      | with_reducible refine Kept.ite (fun _ => ?_) (fun _ => ?_)
      | with_reducible refine Kept.ite2 (fun _ => ?_) (fun _ => ?_)
      | with_reducible refine Kept.dite (fun _ => ?_) (fun _ => ?_)
      | with_reducible refine State.fail_kept ?_
      | with_reducible refine State.sendStarted_kept ?_
      | with_reducible refine State.startDiag_kept ?_
      | with_reducible refine State.failState_kept ?_

theorem State.takeRetire_kept {a : AxisId} {id : Nat} {s : State} (h : Kept mq lk s0 s) :
    Kept mq lk s0 (State.takeRetire s a id) := by
  unfold State.takeRetire
  try dsimp only
  repeat'
    first
      | with_reducible assumption
      | with_reducible refine Kept.ite (fun _ => ?_) (fun _ => ?_)
      | with_reducible refine Kept.ite2 (fun _ => ?_) (fun _ => ?_)
      | with_reducible refine Kept.dite (fun _ => ?_) (fun _ => ?_)
      | with_reducible refine State.fail_kept ?_
      | with_reducible refine State.spreadShares_kept ?_
      | with_reducible refine State.swRetire_kept ?_

theorem State.takeReinstate_kept {a : AxisId} {c : Cmd} {s : State} (h : Kept mq lk s0 s) :
    Kept mq lk s0 (State.takeReinstate s a c) := by
  unfold State.takeReinstate
  try dsimp only
  repeat'
    first
      | with_reducible assumption
      | with_reducible refine Kept.ite (fun _ => ?_) (fun _ => ?_)
      | with_reducible refine Kept.ite2 (fun _ => ?_) (fun _ => ?_)
      | with_reducible refine Kept.dite (fun _ => ?_) (fun _ => ?_)
      | with_reducible refine State.fail_kept ?_
      | with_reducible refine State.reinstate_kept ?_

theorem State.axisOp_kept {a : AxisId} {c : Cmd} {s : State} (h : Kept false lk s0 s) :
    Kept false lk s0 (State.axisOp s a c) := by
  unfold State.axisOp
  try dsimp only
  repeat'
    first
      | with_reducible assumption
      | with_reducible refine Kept.ite (fun _ => ?_) (fun _ => ?_)
      | with_reducible refine Kept.ite2 (fun _ => ?_) (fun _ => ?_)
      | with_reducible refine Kept.dite (fun _ => ?_) (fun _ => ?_)
      | with_reducible refine State.followEnd_kept ?_
      | with_reducible refine State.hold_kept ?_
      | with_reducible refine State.done_kept ?_
      | with_reducible refine State.sendStarted_kept ?_
      | with_reducible refine State.takeMove_kept ?_
      | with_reducible refine State.takeVel_kept ?_
      | with_reducible refine State.takeRun_kept ?_
      | with_reducible refine State.takeSetPosition_kept ?_
      | with_reducible refine State.takeStop_kept ?_
      | with_reducible refine State.takeHold_kept ?_
      | with_reducible refine State.takeResume_kept ?_
      | with_reducible refine State.takeFollow_kept ?_
      | with_reducible refine State.takeFollowEnd_kept ?_
      | with_reducible refine State.takeAppend_kept ?_
      | with_reducible refine State.takeAbort_kept ?_
      | with_reducible refine State.takeRelease_kept ?_
      | with_reducible refine State.takeEnergise_kept ?_
      | with_reducible refine State.takeDiag_kept ?_
      | with_reducible refine State.takeRetire_kept ?_
      | with_reducible refine State.takeReinstate_kept ?_
      | with_reducible refine Kept.foldl ?_ ?_
      | fail_if_no_progress with_reducible refine Kept.upd ?_
      | refine Kept.tagsFilter ?_
      | refine Kept.enter ?_ ?_
      | dsimp only
      | split

theorem State.runAxis_kept {a : AxisId} {c : Cmd} {s : State} (h : Kept false lk s0 s) :
    Kept false lk s0 (State.runAxis s a c) := by
  unfold State.runAxis
  try dsimp only
  repeat'
    first
      | with_reducible assumption
      | with_reducible refine Kept.ite (fun _ => ?_) (fun _ => ?_)
      | with_reducible refine Kept.ite2 (fun _ => ?_) (fun _ => ?_)
      | with_reducible refine Kept.dite (fun _ => ?_) (fun _ => ?_)
      | with_reducible refine State.setCmd_kept ?_
      | with_reducible refine State.axisOp_kept ?_

theorem State.takeAxis_kept {a : AxisId} {c : Cmd} {s : State} (h : Kept false lk s0 s) :
    Kept false lk s0 (State.takeAxis s a c) := by
  unfold State.takeAxis
  try dsimp only
  repeat'
    first
      | with_reducible assumption
      | with_reducible refine Kept.ite (fun _ => ?_) (fun _ => ?_)
      | with_reducible refine Kept.ite2 (fun _ => ?_) (fun _ => ?_)
      | with_reducible refine Kept.dite (fun _ => ?_) (fun _ => ?_)
      | with_reducible refine State.fail_kept ?_
      | with_reducible refine State.stage_kept ?_
      | with_reducible refine State.runAxis_kept ?_
      | with_reducible refine Kept.foldl ?_ ?_
      | fail_if_no_progress with_reducible refine Kept.upd ?_
      | refine Kept.tagsFilter ?_
      | refine Kept.enter ?_ ?_
      | dsimp only
      | split

theorem State.takeHead_kept {a : AxisId} {s : State} (h : Kept false lk s0 s) :
    Kept false lk s0 (State.takeHead s a) := by
  unfold State.takeHead
  try dsimp only
  repeat'
    first
      | with_reducible assumption
      | with_reducible refine Kept.ite (fun _ => ?_) (fun _ => ?_)
      | with_reducible refine Kept.ite2 (fun _ => ?_) (fun _ => ?_)
      | with_reducible refine Kept.dite (fun _ => ?_) (fun _ => ?_)
      | with_reducible refine State.setCmd_kept ?_
      | with_reducible refine State.promote_kept ?_
      | with_reducible refine State.takeAxis_kept ?_
      | with_reducible refine Kept.foldl ?_ ?_
      | fail_if_no_progress with_reducible refine Kept.upd ?_
      | refine Kept.tagsFilter ?_
      | refine Kept.enter ?_ ?_
      | dsimp only
      | split

theorem State.takeRegWrite_kept {c : Cmd} {s : State} (h : Kept false lk s0 s) :
    Kept false lk s0 (State.takeRegWrite s c) := by
  unfold State.takeRegWrite
  try dsimp only
  repeat'
    first
      | with_reducible assumption
      | with_reducible refine Kept.ite (fun _ => ?_) (fun _ => ?_)
      | with_reducible refine Kept.ite2 (fun _ => ?_) (fun _ => ?_)
      | with_reducible refine Kept.dite (fun _ => ?_) (fun _ => ?_)
      | with_reducible refine State.fail_kept ?_
      | with_reducible refine State.done_kept ?_
      | with_reducible refine State.clearTrips_kept2 ?_
      | with_reducible refine State.clearTrips_kept (by with_reducible assumption) ?_
      | with_reducible refine State.refusedWrite_kept ?_
      | with_reducible refine State.busWrite_kept ?_
      | with_reducible refine Kept.foldl ?_ ?_
      | fail_if_no_progress with_reducible refine Kept.upd ?_
      | refine Kept.tagsFilter ?_
      | refine Kept.enter ?_ ?_
      | dsimp only
      | split

theorem State.takeRegKeyed_kept {c : Cmd} {s : State} (h : Kept false lk s0 s) :
    Kept false lk s0 (State.takeRegKeyed s c) := by
  unfold State.takeRegKeyed
  try dsimp only
  repeat'
    first
      | with_reducible assumption
      | with_reducible refine Kept.ite (fun _ => ?_) (fun _ => ?_)
      | with_reducible refine Kept.ite2 (fun _ => ?_) (fun _ => ?_)
      | with_reducible refine Kept.dite (fun _ => ?_) (fun _ => ?_)
      | with_reducible refine State.fail_kept ?_
      | with_reducible refine State.done_kept ?_
      | with_reducible refine State.keyFail_kept ?_
      | with_reducible refine State.keyedWrite_kept ?_
      | with_reducible refine Kept.foldl ?_ ?_
      | fail_if_no_progress with_reducible refine Kept.upd ?_
      | refine Kept.tagsFilter ?_
      | refine Kept.enter ?_ ?_
      | dsimp only
      | split

theorem State.takeRegRead_kept {c : Cmd} {s : State} (h : Kept mq lk s0 s) :
    Kept mq lk s0 (State.takeRegRead s c) := by
  unfold State.takeRegRead
  try dsimp only
  repeat'
    first
      | with_reducible assumption
      | with_reducible refine Kept.ite (fun _ => ?_) (fun _ => ?_)
      | with_reducible refine Kept.ite2 (fun _ => ?_) (fun _ => ?_)
      | with_reducible refine Kept.dite (fun _ => ?_) (fun _ => ?_)
      | with_reducible refine State.found_kept ?_
      | with_reducible refine State.done_kept ?_
      | with_reducible refine State.finish_kept ?_
      | with_reducible refine State.fail_kept ?_

theorem State.takeRegMulti_kept {c : Cmd} {s : State} (h : Kept mq lk s0 s) :
    Kept mq lk s0 (State.takeRegMulti s c) := by
  unfold State.takeRegMulti
  try dsimp only
  repeat'
    first
      | with_reducible assumption
      | with_reducible refine Kept.ite (fun _ => ?_) (fun _ => ?_)
      | with_reducible refine Kept.ite2 (fun _ => ?_) (fun _ => ?_)
      | with_reducible refine Kept.dite (fun _ => ?_) (fun _ => ?_)
      | with_reducible refine State.found_kept ?_
      | with_reducible refine State.done_kept ?_
      | with_reducible refine State.finish_kept ?_
      | with_reducible refine State.fail_kept ?_
      | with_reducible refine Kept.foldl ?_ ?_
      | (intro _; intros)

theorem State.takeAlloc_kept {c : Cmd} {s : State} (h : Kept mq lk s0 s) :
    Kept mq lk s0 (State.takeAlloc s c) := by
  unfold State.takeAlloc
  try dsimp only
  repeat'
    first
      | with_reducible assumption
      | with_reducible refine Kept.ite (fun _ => ?_) (fun _ => ?_)
      | with_reducible refine Kept.ite2 (fun _ => ?_) (fun _ => ?_)
      | with_reducible refine Kept.dite (fun _ => ?_) (fun _ => ?_)
      | with_reducible refine State.allocBlocks_kept (by with_reducible assumption) ?_
      | with_reducible refine State.done_kept ?_
      | with_reducible refine State.finish_kept ?_
      | with_reducible refine State.fail_kept ?_
      | with_reducible refine State.allocBlocks_kept2 ?_

theorem State.poolRefuse_kept {c : Cmd} {i : Nat} {st : Status} {block : Nat} {s : State} (h : Kept mq lk s0 s) :
    Kept mq lk s0 (State.poolRefuse s c i st block) := by
  unfold State.poolRefuse
  try dsimp only
  repeat'
    first
      | with_reducible assumption
      | with_reducible refine Kept.ite (fun _ => ?_) (fun _ => ?_)
      | with_reducible refine Kept.ite2 (fun _ => ?_) (fun _ => ?_)
      | with_reducible refine Kept.dite (fun _ => ?_) (fun _ => ?_)
      | with_reducible refine State.fail_kept ?_
      | with_reducible refine State.violation_kept ?_

theorem State.takeFree_kept {c : Cmd} {s : State} (h : Kept mq lk s0 s) :
    Kept mq lk s0 (State.takeFree s c) := by
  unfold State.takeFree
  try dsimp only
  repeat'
    first
      | with_reducible assumption
      | with_reducible refine Kept.ite (fun _ => ?_) (fun _ => ?_)
      | with_reducible refine Kept.ite2 (fun _ => ?_) (fun _ => ?_)
      | with_reducible refine Kept.dite (fun _ => ?_) (fun _ => ?_)
      | with_reducible refine State.portFree_kept ?_
      | with_reducible refine State.done_kept ?_
      | with_reducible refine State.freeBlock_kept ?_
      | with_reducible refine State.poolRefuse_kept ?_
      | with_reducible refine Kept.foldl ?_ ?_
      | fail_if_no_progress with_reducible refine Kept.upd ?_
      | refine Kept.tagsFilter ?_
      | refine Kept.enter ?_ ?_
      | (intro _; intros; try dsimp only)
      | dsimp only
      | split

theorem State.takeGive_kept {c : Cmd} {s : State} (h : Kept mq lk s0 s) :
    Kept mq lk s0 (State.takeGive s c) := by
  unfold State.takeGive
  try dsimp only
  repeat'
    first
      | with_reducible assumption
      | with_reducible refine Kept.ite (fun _ => ?_) (fun _ => ?_)
      | with_reducible refine Kept.ite2 (fun _ => ?_) (fun _ => ?_)
      | with_reducible refine Kept.dite (fun _ => ?_) (fun _ => ?_)
      | with_reducible refine State.giveBlock_kept ?_
      | with_reducible refine State.setBlk_kept ?_
      | with_reducible refine State.done_kept ?_
      | with_reducible refine State.poolRefuse_kept ?_
      | with_reducible refine Kept.foldl ?_ ?_
      | fail_if_no_progress with_reducible refine Kept.upd ?_
      | refine Kept.tagsFilter ?_
      | refine Kept.enter ?_ ?_
      | (intro _; intros; try dsimp only)
      | dsimp only
      | split

theorem State.takePoolWrite_kept {c : Cmd} {s : State} (h : Kept false lk s0 s) :
    Kept false lk s0 (State.takePoolWrite s c) := by
  unfold State.takePoolWrite
  try dsimp only
  repeat'
    first
      | with_reducible assumption
      | with_reducible refine Kept.ite (fun _ => ?_) (fun _ => ?_)
      | with_reducible refine Kept.ite2 (fun _ => ?_) (fun _ => ?_)
      | with_reducible refine Kept.dite (fun _ => ?_) (fun _ => ?_)
      | with_reducible refine State.fail_kept ?_
      | with_reducible refine State.done_kept ?_
      | with_reducible refine State.poolPuts_kept2 ?_
      | with_reducible refine State.poolPuts_kept (by with_reducible assumption) ?_
      | with_reducible refine State.poolRefuse_kept ?_
      | with_reducible refine Kept.foldl ?_ ?_
      | fail_if_no_progress with_reducible refine Kept.upd ?_
      | refine Kept.tagsFilter ?_
      | refine Kept.enter ?_ ?_
      | dsimp only
      | split

theorem State.takePoolRead_kept {c : Cmd} {s : State} (h : Kept mq lk s0 s) :
    Kept mq lk s0 (State.takePoolRead s c) := by
  unfold State.takePoolRead
  try dsimp only
  repeat'
    first
      | with_reducible assumption
      | with_reducible refine Kept.ite (fun _ => ?_) (fun _ => ?_)
      | with_reducible refine Kept.ite2 (fun _ => ?_) (fun _ => ?_)
      | with_reducible refine Kept.dite (fun _ => ?_) (fun _ => ?_)
      | with_reducible refine State.eccReads_kept (by with_reducible assumption) ?_
      | with_reducible refine State.done_kept ?_
      | with_reducible refine State.finish_kept ?_
      | with_reducible refine State.fail_kept ?_
      | with_reducible refine State.raiseC0_kept ?_
      | with_reducible refine State.eccReads_kept2 ?_

theorem State.takeTimeQuery_kept {c : Cmd} {s : State} (h : Kept mq lk s0 s) :
    Kept mq lk s0 (State.takeTimeQuery s c) := by
  unfold State.takeTimeQuery
  try dsimp only
  repeat'
    first
      | with_reducible assumption
      | with_reducible refine Kept.ite (fun _ => ?_) (fun _ => ?_)
      | with_reducible refine Kept.ite2 (fun _ => ?_) (fun _ => ?_)
      | with_reducible refine Kept.dite (fun _ => ?_) (fun _ => ?_)
      | with_reducible refine State.done_kept ?_
      | with_reducible refine State.finish_kept ?_

theorem State.takeLogRead_kept {c : Cmd} {s : State} (h : Kept mq lk s0 s) :
    Kept mq lk s0 (State.takeLogRead s c) := by
  unfold State.takeLogRead
  try dsimp only
  repeat'
    first
      | with_reducible assumption
      | with_reducible refine Kept.ite (fun _ => ?_) (fun _ => ?_)
      | with_reducible refine Kept.ite2 (fun _ => ?_) (fun _ => ?_)
      | with_reducible refine Kept.dite (fun _ => ?_) (fun _ => ?_)
      | with_reducible refine State.fail_kept ?_
      | with_reducible refine State.tryLogRead_kept ?_

theorem State.takeLogMark_kept {c : Cmd} {s : State} (h : Kept mq lk s0 s) :
    Kept mq lk s0 (State.takeLogMark s c) := by
  unfold State.takeLogMark
  try dsimp only
  repeat'
    first
      | with_reducible assumption
      | with_reducible refine Kept.ite (fun _ => ?_) (fun _ => ?_)
      | with_reducible refine Kept.ite2 (fun _ => ?_) (fun _ => ?_)
      | with_reducible refine Kept.dite (fun _ => ?_) (fun _ => ?_)
      | with_reducible refine State.mark_kept ?_
      | with_reducible refine State.queueEmber_kept ?_

theorem State.takePlRequest_kept {c : Cmd} {s : State} (h : Kept mq lk s0 s) :
    Kept mq lk s0 (State.takePlRequest s c) := by
  unfold State.takePlRequest
  try dsimp only
  repeat'
    first
      | with_reducible assumption
      | with_reducible refine Kept.ite (fun _ => ?_) (fun _ => ?_)
      | with_reducible refine Kept.ite2 (fun _ => ?_) (fun _ => ?_)
      | with_reducible refine Kept.dite (fun _ => ?_) (fun _ => ?_)
      | with_reducible refine State.fail_kept ?_
      | with_reducible refine State.requestLevel_kept ?_

theorem State.moduleOp_kept {c : Cmd} {s : State} (h : Kept false lk s0 s) :
    Kept false lk s0 (State.moduleOp s c) := by
  unfold State.moduleOp
  try dsimp only
  repeat'
    first
      | with_reducible assumption
      | with_reducible refine Kept.ite (fun _ => ?_) (fun _ => ?_)
      | with_reducible refine Kept.ite2 (fun _ => ?_) (fun _ => ?_)
      | with_reducible refine Kept.dite (fun _ => ?_) (fun _ => ?_)
      | with_reducible refine State.poolItem_kept ?_
      | with_reducible refine State.finish_kept ?_
      | with_reducible refine State.done_kept ?_
      | with_reducible refine State.takeJoin_kept ?_
      | with_reducible refine State.takeLeave_kept ?_
      | with_reducible refine State.takeArm_kept ?_
      | with_reducible refine State.takeStartAt_kept ?_
      | with_reducible refine State.takeHalt_kept ?_
      | with_reducible refine State.takeSelect_kept ?_
      | with_reducible refine State.takeRegWrite_kept ?_
      | with_reducible refine State.takeRegKeyed_kept ?_
      | with_reducible refine State.takeRegRead_kept ?_
      | with_reducible refine State.takeRegMulti_kept ?_
      | with_reducible refine State.takeAlloc_kept ?_
      | with_reducible refine State.takeFree_kept ?_
      | with_reducible refine State.takeGive_kept ?_
      | with_reducible refine State.takePoolWrite_kept ?_
      | with_reducible refine State.takePoolRead_kept ?_
      | with_reducible refine State.takeTimeQuery_kept ?_
      | with_reducible refine State.takeLogRead_kept ?_
      | with_reducible refine State.takeLogMark_kept ?_
      | with_reducible refine State.takePlRequest_kept ?_
      | with_reducible refine Kept.foldl ?_ ?_
      | fail_if_no_progress with_reducible refine Kept.upd ?_
      | refine Kept.tagsFilter ?_
      | refine Kept.enter ?_ ?_
      | dsimp only
      | split

theorem State.runModule_kept {c : Cmd} {s : State} (h : Kept false lk s0 s) :
    Kept false lk s0 (State.runModule s c) := by
  unfold State.runModule
  try dsimp only
  repeat'
    first
      | with_reducible assumption
      | with_reducible refine Kept.ite (fun _ => ?_) (fun _ => ?_)
      | with_reducible refine Kept.ite2 (fun _ => ?_) (fun _ => ?_)
      | with_reducible refine Kept.dite (fun _ => ?_) (fun _ => ?_)
      | with_reducible refine State.setCmd_kept ?_
      | with_reducible refine State.moduleOp_kept ?_

theorem State.takeNow_kept {c : Cmd} {s : State} (h : Kept false lk s0 s) :
    Kept false lk s0 (State.takeNow s c) := by
  unfold State.takeNow
  try dsimp only
  repeat'
    first
      | with_reducible assumption
      | with_reducible refine Kept.ite (fun _ => ?_) (fun _ => ?_)
      | with_reducible refine Kept.ite2 (fun _ => ?_) (fun _ => ?_)
      | with_reducible refine Kept.dite (fun _ => ?_) (fun _ => ?_)
      | with_reducible refine State.setCmd_kept ?_
      | with_reducible refine State.takeAxis_kept ?_
      | with_reducible refine State.runModule_kept ?_
      | with_reducible refine Kept.foldl ?_ ?_
      | fail_if_no_progress with_reducible refine Kept.upd ?_
      | refine Kept.tagsFilter ?_
      | refine Kept.enter ?_ ?_
      | dsimp only
      | split

theorem State.refuse_kept {op : Nat} {p : Packet} {port : Port} {src : Nat} {st : Status} {code : Nat} {s : State} (h : Kept mq lk s0 s) :
    Kept mq lk s0 (State.refuse s op p port src st code) := by
  unfold State.refuse
  try dsimp only
  repeat'
    first
      | with_reducible assumption
      | with_reducible refine Kept.ite (fun _ => ?_) (fun _ => ?_)
      | with_reducible refine Kept.ite2 (fun _ => ?_) (fun _ => ?_)
      | with_reducible refine Kept.dite (fun _ => ?_) (fun _ => ?_)
      | with_reducible refine State.reply_kept ?_

theorem State.place_kept {c : Cmd} {s : State} (h : Kept false lk s0 s) :
    Kept false lk s0 (State.place s c) := by
  unfold State.place
  try dsimp only
  repeat'
    first
      | with_reducible assumption
      | with_reducible refine Kept.ite (fun _ => ?_) (fun _ => ?_)
      | with_reducible refine Kept.ite2 (fun _ => ?_) (fun _ => ?_)
      | with_reducible refine Kept.dite (fun _ => ?_) (fun _ => ?_)
      | with_reducible refine State.setCmd_kept ?_
      | with_reducible refine State.takeNow_kept ?_
      | with_reducible refine Kept.foldl ?_ ?_
      | fail_if_no_progress with_reducible refine Kept.upd ?_
      | refine Kept.tagsFilter ?_
      | refine Kept.enter ?_ ?_
      | dsimp only
      | split

theorem State.lookAt_kept {c : Cmd} {s : State} (h : Kept false lk s0 s) :
    Kept false lk s0 (State.lookAt s c) := by
  unfold State.lookAt
  try dsimp only
  repeat'
    first
      | with_reducible assumption
      | with_reducible refine Kept.ite (fun _ => ?_) (fun _ => ?_)
      | with_reducible refine Kept.ite2 (fun _ => ?_) (fun _ => ?_)
      | with_reducible refine Kept.dite (fun _ => ?_) (fun _ => ?_)
      | with_reducible refine State.takeHead_kept ?_
      | with_reducible refine Kept.foldl ?_ ?_
      | fail_if_no_progress with_reducible refine Kept.upd ?_
      | refine Kept.tagsFilter ?_
      | refine Kept.enter ?_ ?_
      | dsimp only
      | split

theorem State.placeOpen_kept {c : Cmd} {s : State} (h : Kept false lk s0 s) :
    Kept false lk s0 (State.placeOpen s c) := by
  unfold State.placeOpen
  try dsimp only
  repeat'
    first
      | with_reducible assumption
      | with_reducible refine Kept.ite (fun _ => ?_) (fun _ => ?_)
      | with_reducible refine Kept.ite2 (fun _ => ?_) (fun _ => ?_)
      | with_reducible refine Kept.dite (fun _ => ?_) (fun _ => ?_)
      | with_reducible refine State.place_kept ?_

theorem State.launch_kept {cs : List Cmd} {s : State} (h : Kept false lk s0 s) :
    Kept false lk s0 (State.launch s cs) := by
  unfold State.launch
  try dsimp only
  repeat'
    first
      | with_reducible assumption
      | with_reducible refine Kept.ite (fun _ => ?_) (fun _ => ?_)
      | with_reducible refine Kept.ite2 (fun _ => ?_) (fun _ => ?_)
      | with_reducible refine Kept.dite (fun _ => ?_) (fun _ => ?_)
      | with_reducible refine State.placeOpen_kept ?_
      | with_reducible refine State.place_kept ?_
      | with_reducible refine State.lookAt_kept ?_
      | with_reducible refine Kept.foldl ?_ ?_
      | fail_if_no_progress with_reducible refine Kept.upd ?_
      | refine Kept.tagsFilter ?_
      | refine Kept.enter ?_ ?_
      | (intro _; intros; try dsimp only)

theorem State.endBurst_kept {port : Port} {src : Nat} {s : State} (h : Kept mq lk s0 s) :
    Kept mq lk s0 (State.endBurst s port src) := by
  unfold State.endBurst
  try dsimp only
  repeat'
    first
      | with_reducible assumption
      | with_reducible refine Kept.ite (fun _ => ?_) (fun _ => ?_)
      | with_reducible refine Kept.ite2 (fun _ => ?_) (fun _ => ?_)
      | with_reducible refine Kept.dite (fun _ => ?_) (fun _ => ?_)
      | with_reducible refine Kept.foldl ?_ ?_
      | fail_if_no_progress with_reducible refine Kept.upd ?_

theorem State.arriveNow_kept {cs : List Cmd} {s : State} (h : Kept mq lk s0 s)
    (hc : (cs.map Cmd.id).Sublist (s.tags.map Cmd.id)) : Kept mq lk s0 (State.arriveNow s cs) :=
  h.trans ⟨rfl, Nat.le_refl _, fun x => ⟨x.mem, x.regs, x.tmrB, x.tmrC, x.desc, by
    refine ⟨?_, fun d hd => ?_⟩
    · simp only [State.arriveNow, List.map_append]
      refine List.nodup_append.mpr ⟨x.tags.1.sublist (List.Sublist.map _ List.filter_sublist), x.tags.1.sublist hc, ?_⟩
      intro i hi j hj e
      obtain ⟨d, hd, rfl⟩ := List.mem_map.mp hi
      obtain ⟨c, hc, rfl⟩ := List.mem_map.mp hj
      have := (List.mem_filter.mp hd).2
      simp only [Bool.not_eq_true', List.any_eq_false, beq_iff_eq] at this
      exact this c hc e.symm
    · rcases List.mem_append.mp hd with hd | hd
      · exact x.tags.2 d (List.mem_filter.mp hd).1
      · obtain ⟨c, hc, e⟩ := List.mem_map.mp (hc.subset (List.mem_map_of_mem (f := Cmd.id) hd))
        exact e ▸ x.tags.2 c hc, x.hearth⟩, fun _ => id, fun _ => rfl⟩

theorem State.closeBurst_kept {port : Port} {src : Nat} {s : State} (h : Kept false lk s0 s) :
    Kept false lk s0 (State.closeBurst s port src) := by
  refine State.launch_kept (State.arriveNow_kept (State.endBurst_kept h) ?_)
  rw [List.map_map, List.map_congr_left (g := Cmd.id) fun c _ => ?_]
  · exact List.Sublist.map _ List.filter_sublist
  · simp only [Function.comp, State.dueNow]
    split <;> rfl

theorem State.breakBurst_kept {port : Port} {src : Nat} {s : State} (h : Kept mq lk s0 s) :
    Kept mq lk s0 (State.breakBurst s port src) := by
  unfold State.breakBurst
  try dsimp only
  repeat'
    first
      | with_reducible assumption
      | with_reducible refine Kept.ite (fun _ => ?_) (fun _ => ?_)
      | with_reducible refine Kept.ite2 (fun _ => ?_) (fun _ => ?_)
      | with_reducible refine Kept.dite (fun _ => ?_) (fun _ => ?_)
      | with_reducible refine State.raiseC0_kept ?_
      | with_reducible refine State.flag_kept ?_
      | with_reducible refine State.finishAll_kept ?_
      | with_reducible refine State.raiseSc_kept ?_
      | with_reducible refine State.endBurst_kept ?_

theorem State.burstStep_kept {c : Cmd} {last : Bool} {s : State} (h : Kept false lk s0 s) :
    Kept false lk s0 (State.burstStep s c last) := by
  unfold State.burstStep
  try dsimp only
  repeat'
    first
      | with_reducible assumption
      | with_reducible refine Kept.ite (fun _ => ?_) (fun _ => ?_)
      | with_reducible refine Kept.ite2 (fun _ => ?_) (fun _ => ?_)
      | with_reducible refine Kept.dite (fun _ => ?_) (fun _ => ?_)
      | with_reducible refine State.closeBurst_kept ?_
      | with_reducible refine State.launch_kept ?_
      | with_reducible refine State.endBurst_kept ?_
      | with_reducible refine State.breakBurst_kept ?_
      | with_reducible refine Kept.foldl ?_ ?_
      | fail_if_no_progress with_reducible refine Kept.upd ?_

theorem State.sendAccepted_kept {c : Cmd} {s : State} (h : Kept mq lk s0 s) :
    Kept mq lk s0 (State.sendAccepted s c) := by
  unfold State.sendAccepted
  try dsimp only
  repeat'
    first
      | with_reducible assumption
      | with_reducible refine Kept.ite (fun _ => ?_) (fun _ => ?_)
      | with_reducible refine Kept.ite2 (fun _ => ?_) (fun _ => ?_)
      | with_reducible refine Kept.dite (fun _ => ?_) (fun _ => ?_)
      | with_reducible refine State.reply_kept ?_

theorem State.addCmd_kept {c : Cmd} {s : State} (h : Kept mq lk s0 s) (hc : c.id = s.nextId) :
    Kept mq lk s0 (State.addCmd s c) := State.trace_kept (h.enter hc)

theorem State.enterPacket_kept {op : Op} {p : Packet} {s : State} (h : Kept false lk s0 s) :
    Kept false lk s0 (State.enterPacket s op p) := by
  unfold State.enterPacket
  dsimp only
  refine Kept.ite (fun _ => h) fun _ => ?_
  split
  · exact State.refuse_kept h
  · exact State.burstStep_kept (State.sendAccepted_kept (State.addCmd_kept h rfl))

theorem State.enterBad_kept {version : Nat} {opcode : Nat} {p : Packet} {s : State} (h : Kept mq lk s0 s) :
    Kept mq lk s0 (State.enterBad s version opcode p) := by
  unfold State.enterBad
  try dsimp only
  repeat'
    first
      | with_reducible assumption
      | with_reducible refine Kept.ite (fun _ => ?_) (fun _ => ?_)
      | with_reducible refine Kept.ite2 (fun _ => ?_) (fun _ => ?_)
      | with_reducible refine Kept.dite (fun _ => ?_) (fun _ => ?_)
      | with_reducible refine State.refuse_kept ?_

theorem State.badCrc_kept {p : Port} {s : State} (h : Kept mq lk s0 s) :
    Kept mq lk s0 (State.badCrc s p) := by
  unfold State.badCrc
  try dsimp only
  repeat'
    first
      | with_reducible assumption
      | with_reducible refine Kept.ite (fun _ => ?_) (fun _ => ?_)
      | with_reducible refine Kept.ite2 (fun _ => ?_) (fun _ => ?_)
      | with_reducible refine Kept.dite (fun _ => ?_) (fun _ => ?_)
      | with_reducible refine State.bump_kept ?_

theorem State.arrive_kept {op : Op} {p : Packet} {s : State} (h : Kept false lk s0 s) :
    Kept false lk s0 (State.arrive s op p) := by
  unfold State.arrive
  try dsimp only
  repeat'
    first
      | with_reducible assumption
      | with_reducible refine Kept.ite (fun _ => ?_) (fun _ => ?_)
      | with_reducible refine Kept.ite2 (fun _ => ?_) (fun _ => ?_)
      | with_reducible refine Kept.dite (fun _ => ?_) (fun _ => ?_)
      | with_reducible refine State.enterPacket_kept ?_

theorem State.receive_kept {port : Port} {src : Nat} {bs : List Byte} {s : State} (h : Kept false lk s0 s) :
    Kept false lk s0 (State.receive s port src bs) := by
  unfold State.receive
  try dsimp only
  repeat'
    first
      | with_reducible assumption
      | with_reducible refine Kept.ite (fun _ => ?_) (fun _ => ?_)
      | with_reducible refine Kept.ite2 (fun _ => ?_) (fun _ => ?_)
      | with_reducible refine Kept.dite (fun _ => ?_) (fun _ => ?_)
      | with_reducible refine State.enterPacket_kept ?_
      | with_reducible refine State.enterBad_kept ?_
      | with_reducible refine State.badCrc_kept ?_
      | with_reducible refine Kept.foldl ?_ ?_
      | fail_if_no_progress with_reducible refine Kept.upd ?_
      | refine Kept.tagsFilter ?_
      | refine Kept.enter ?_ ?_
      | dsimp only
      | split

theorem State.receiveFrame_kept {port : Port} {src n : Nat} {bs : List Byte} {s : State} (h : Kept false lk s0 s) :
    Kept false lk s0 (s.receiveFrame port src n bs) := by
  induction n generalizing s bs with
  | zero => exact h
  | succ n ih =>
    unfold State.receiveFrame
    refine Kept.ite (fun _ => h) fun _ => ?_
    split
    · exact State.badCrc_kept h
    · exact ih (State.receive_kept h)

theorem State.readFlash_kept {addr : Nat} {s : State} (h : Kept mq lk s0 s) :
    Kept mq lk s0 (State.readFlash s addr) := by
  unfold State.readFlash
  try dsimp only
  repeat'
    first
      | with_reducible assumption
      | with_reducible refine Kept.ite (fun _ => ?_) (fun _ => ?_)
      | with_reducible refine Kept.ite2 (fun _ => ?_) (fun _ => ?_)
      | with_reducible refine Kept.dite (fun _ => ?_) (fun _ => ?_)
      | with_reducible refine State.modPwr_kept ?_

theorem State.bootFrom_kept {image : List Byte} {packets : List (List Byte)} {fallback : Bool} {s : State} (h : Kept mq lk s0 s) :
    Kept mq lk s0 (State.bootFrom s image packets fallback) := by
  unfold State.bootFrom
  try dsimp only
  repeat'
    first
      | with_reducible assumption
      | with_reducible refine Kept.ite (fun _ => ?_) (fun _ => ?_)
      | with_reducible refine Kept.ite2 (fun _ => ?_) (fun _ => ?_)
      | with_reducible refine Kept.dite (fun _ => ?_) (fun _ => ?_)
      | with_reducible refine State.readFlash_kept ?_
      | with_reducible refine State.bootState_kept ?_
      | with_reducible refine State.setReg_kept ?_
      | with_reducible refine State.setFld_kept ?_
      | with_reducible refine State.writeNode_kept ?_

theorem State.noBoot_kept {result : Nat} {s : State} (h : Kept mq lk s0 s) :
    Kept mq lk s0 (State.noBoot s result) := by
  unfold State.noBoot
  try dsimp only
  repeat'
    first
      | with_reducible assumption
      | with_reducible refine Kept.ite (fun _ => ?_) (fun _ => ?_)
      | with_reducible refine Kept.ite2 (fun _ => ?_) (fun _ => ?_)
      | with_reducible refine Kept.dite (fun _ => ?_) (fun _ => ?_)
      | with_reducible refine State.bootState_kept ?_
      | with_reducible refine State.setFld_kept ?_

theorem State.bootReceive_kept {bs : List Byte} {s : State} (h : Kept false lk s0 s) :
    Kept false lk s0 (State.bootReceive s bs) := by
  unfold State.bootReceive
  try dsimp only
  repeat'
    first
      | with_reducible assumption
      | with_reducible refine Kept.ite (fun _ => ?_) (fun _ => ?_)
      | with_reducible refine Kept.ite2 (fun _ => ?_) (fun _ => ?_)
      | with_reducible refine Kept.dite (fun _ => ?_) (fun _ => ?_)
      | with_reducible refine State.refuse_kept ?_
      | with_reducible refine State.receive_kept ?_
      | with_reducible refine Kept.foldl ?_ ?_
      | fail_if_no_progress with_reducible refine Kept.upd ?_
      | refine Kept.tagsFilter ?_
      | refine Kept.enter ?_ ?_
      | dsimp only
      | split

theorem State.drain_kept {s : State} (h : Kept false lk s0 s) :
    Kept false lk s0 (State.drain s) := by
  unfold State.drain
  try dsimp only
  repeat'
    first
      | with_reducible assumption
      | with_reducible refine Kept.ite (fun _ => ?_) (fun _ => ?_)
      | with_reducible refine Kept.ite2 (fun _ => ?_) (fun _ => ?_)
      | with_reducible refine Kept.dite (fun _ => ?_) (fun _ => ?_)
      | with_reducible refine State.receive_kept ?_
      | with_reducible refine Kept.foldl ?_ ?_
      | fail_if_no_progress with_reducible refine Kept.upd ?_
      | refine Kept.tagsFilter ?_
      | dsimp only
      | split
      | (intro _; intros; try dsimp only)

theorem State.hifErr_kept {i : Nat} {s : State} (h : Kept mq lk s0 s) :
    Kept mq lk s0 (State.hifErr s i) := by
  unfold State.hifErr
  try dsimp only
  repeat'
    first
      | with_reducible assumption
      | with_reducible refine Kept.ite (fun _ => ?_) (fun _ => ?_)
      | with_reducible refine Kept.ite2 (fun _ => ?_) (fun _ => ?_)
      | with_reducible refine Kept.dite (fun _ => ?_) (fun _ => ?_)
      | with_reducible refine State.flag_kept ?_
      | with_reducible refine State.irq_kept ?_

theorem State.endWait_kept {s : State} (h : Kept mq lk s0 s) :
    Kept mq lk s0 (State.endWait s) := by
  unfold State.endWait
  try dsimp only
  repeat'
    first
      | with_reducible assumption
      | with_reducible refine Kept.ite (fun _ => ?_) (fun _ => ?_)
      | with_reducible refine Kept.ite2 (fun _ => ?_) (fun _ => ?_)
      | with_reducible refine Kept.dite (fun _ => ?_) (fun _ => ?_)
      | with_reducible refine State.hifErr_kept ?_
      | with_reducible refine Kept.foldl ?_ ?_
      | fail_if_no_progress with_reducible refine Kept.upd ?_
      | refine Kept.tagsFilter ?_
      | dsimp only
      | split
      | (intro _; intros; try dsimp only)

theorem State.frameIn_kept  {s : State} (h : Kept false lk s0 s) :
    Kept false lk s0 (State.frameIn s) := by
  unfold State.frameIn
  try dsimp only
  repeat'
    first
      | with_reducible assumption
      | with_reducible refine Kept.ite (fun _ => ?_) (fun _ => ?_)
      | with_reducible refine Kept.ite2 (fun _ => ?_) (fun _ => ?_)
      | with_reducible refine Kept.dite (fun _ => ?_) (fun _ => ?_)
      | with_reducible refine State.endWait_kept ?_
      | with_reducible refine State.drain_kept ?_
      | with_reducible refine Kept.foldl ?_ ?_
      | fail_if_no_progress with_reducible refine Kept.upd ?_

theorem State.overdue_kept {s : State} (h : Kept mq lk s0 s) :
    Kept mq lk s0 (State.overdue s) := by
  unfold State.overdue
  try dsimp only
  repeat'
    first
      | with_reducible assumption
      | with_reducible refine Kept.ite (fun _ => ?_) (fun _ => ?_)
      | with_reducible refine Kept.ite2 (fun _ => ?_) (fun _ => ?_)
      | with_reducible refine Kept.dite (fun _ => ?_) (fun _ => ?_)
      | with_reducible refine State.keyFail_kept ?_
      | with_reducible refine State.setPend_kept ?_
      | with_reducible refine Kept.foldl ?_ ?_
      | fail_if_no_progress with_reducible refine Kept.upd ?_
      | refine Kept.tagsFilter ?_
      | dsimp only
      | split

theorem State.frameErr_kept {bad : Bool} {s : State} (h : Kept mq lk s0 s) :
    Kept mq lk s0 (State.frameErr s bad) := by
  unfold State.frameErr
  try dsimp only
  repeat'
    first
      | with_reducible assumption
      | with_reducible refine Kept.ite (fun _ => ?_) (fun _ => ?_)
      | with_reducible refine Kept.ite2 (fun _ => ?_) (fun _ => ?_)
      | with_reducible refine Kept.dite (fun _ => ?_) (fun _ => ?_)
      | with_reducible refine State.hifErr_kept ?_

theorem State.hostWrites_kept {ws : List Word} {addr : Word} {s : State} (h : Kept false lk s0 s) :
    Kept false lk s0 (State.hostWrites ws addr s) := by
  induction ws generalizing s addr with
  | nil => exact h
  | cons w ws ih => exact ih (State.busWrite_kept h)

theorem State.hostWord_kept2 {addr : Word} {s : State} (h : Kept mq lk s0 s) :
    Kept mq lk s0 (State.hostWord s addr).2 := by
  unfold State.hostWord
  try dsimp only
  repeat'
    first
      | with_reducible assumption
      | with_reducible refine Kept.ite (fun _ => ?_) (fun _ => ?_)
      | with_reducible refine Kept.ite2 (fun _ => ?_) (fun _ => ?_)
      | with_reducible refine Kept.dite (fun _ => ?_) (fun _ => ?_)
      | with_reducible refine State.found_kept ?_
      | with_reducible refine State.windowRead_kept2 ?_
      | with_reducible refine State.windowRead_kept (by with_reducible assumption) ?_
      | with_reducible refine Kept.foldl ?_ ?_
      | fail_if_no_progress with_reducible refine Kept.upd ?_
      | refine Kept.tagsFilter ?_
      | refine Kept.enter ?_ ?_
      | dsimp only
      | split

theorem State.hostWord_kept {addr : Word} {s t : State} {x : Word} (e : State.hostWord s addr = (x, t)) (h : Kept mq lk s0 s) :
    Kept mq lk s0 t := by
  have := State.hostWord_kept2 (s := s) (addr := addr) (h := h)
  rw [e] at this
  exact this

theorem State.hostReadWords_kept {n : Nat} {late : Bool} {addr : Word} {s : State} (h : Kept mq lk s0 s) :
    Kept mq lk s0 (State.hostReadWords n late addr s) := by
  induction n generalizing s late addr with
  | zero => exact h
  | succ n ih =>
    unfold State.hostReadWords
    refine Kept.ite (fun _ => Kept.upd h) fun _ => ?_
    exact ih (Kept.upd (Kept.ite (fun _ => State.hifErr_kept (State.hostWord_kept2 h)) fun _ => State.hostWord_kept2 h))

theorem State.pushAll_kept {left fuel : Nat} {bs : List Byte} {s : State} (h : Kept false lk s0 s) :
    Kept false lk s0 (State.pushAll left fuel bs s) := by
  induction fuel generalizing s bs with
  | zero => exact h
  | succ fuel ih =>
    unfold State.pushAll
    refine Kept.ite (fun _ => h) fun _ => ?_
    split
    · exact State.badCrc_kept h
    · have g (p : List Byte) : Kept false lk s0
          (if 4096 < ingressBytes s.ingress + p.length then (s.badCrc .host).hifErr 2
          else { s with ingress := s.ingress ++ [p] }) :=
        Kept.ite (fun _ => State.hifErr_kept (State.badCrc_kept h)) fun _ => Kept.upd h
      refine ih ?_
      split
      · exact Kept.ite (fun _ => State.receive_kept (Kept.upd (g _))) fun _ => g _
      · exact g _

theorem State.readOn_kept {c : Cmd} {s : State} (h : Kept mq lk s0 s) :
    Kept mq lk s0 (State.readOn s c) := by
  unfold State.readOn
  try dsimp only
  repeat'
    first
      | with_reducible assumption
      | with_reducible refine Kept.ite (fun _ => ?_) (fun _ => ?_)
      | with_reducible refine Kept.ite2 (fun _ => ?_) (fun _ => ?_)
      | with_reducible refine Kept.dite (fun _ => ?_) (fun _ => ?_)
      | with_reducible refine State.tryLogRead_kept ?_
      | with_reducible refine State.takeRegRead_kept ?_
      | with_reducible refine State.takeRegMulti_kept ?_
      | with_reducible refine Kept.foldl ?_ ?_
      | fail_if_no_progress with_reducible refine Kept.upd ?_
      | refine Kept.tagsFilter ?_
      | dsimp only
      | split
      | (intro _; intros; try dsimp only)

theorem State.logReads_kept {s : State} (h : Kept mq lk s0 s) :
    Kept mq lk s0 (State.logReads s) := by
  unfold State.logReads
  try dsimp only
  repeat'
    first
      | with_reducible assumption
      | with_reducible refine Kept.ite (fun _ => ?_) (fun _ => ?_)
      | with_reducible refine Kept.ite2 (fun _ => ?_) (fun _ => ?_)
      | with_reducible refine Kept.dite (fun _ => ?_) (fun _ => ?_)
      | with_reducible refine State.place_kept ?_
      | with_reducible refine State.readOn_kept ?_
      | with_reducible refine State.hostReadWords_kept ?_
      | with_reducible refine Kept.foldl ?_ ?_
      | fail_if_no_progress with_reducible refine Kept.upd ?_
      | refine Kept.tagsFilter ?_
      | dsimp only
      | split
      | (intro _; intros; try dsimp only)

theorem State.emberDone_kept {q : EmberReq} {ws : List Word} {ok zeroed : Bool} {s : State} (h : Kept mq lk s0 s) :
    Kept mq lk s0 (State.emberDone s q ws ok zeroed) := by
  have h1 : ∀ (e : List Word) (n w : Nat) (i : Nat), Kept mq lk s0 { s with hearth := { s.hearth with
      ember := putWords s.hearth.ember i e, next := n, written := w } } :=
    fun e n w i => h.storage (Hearth.keeps id id (putWords_wf _ _))
  have h2 : ∀ (e : List Word) (d i : Nat), Kept mq lk s0 { s with
      draws := d, hearth := { s.hearth with ember := putWords s.hearth.ember i e } } :=
    fun e d i => h.same rfl rfl rfl rfl rfl rfl rfl rfl rfl rfl (Hearth.keeps id id (putWords_wf _ _))
  have go : ∀ t, Kept mq lk s0 t → ∀ idx : Option Nat, Kept mq lk s0 (match q.why with
    | .opening a n => t.openedEntry a n idx
    | .closing a r => t.closedEntry a r idx
    | .mark id => if ok then t.finish id .done [BitVec.ofNat 32 s.hearth.next] t.net else t.fail id .internalError 0 0 t.net
    | .notice | .kindling | .calset => t) := fun t ht idx => by
    split
    · exact State.openedEntry_kept ht
    · exact State.closedEntry_kept ht
    · exact Kept.ite (fun _ => State.finish_kept ht) fun _ => State.fail_kept ht
    all_goals exact ht
  unfold State.emberDone
  cases ok with
  | true => exact State.emberBegin_kept (State.logReads_kept (go _ (h1 _ _ _ _) _))
  | false => exact State.raiseSc_kept (State.emberBegin_kept (State.logReads_kept (go _ (h2 _ _ _) _)))

theorem State.originate_kept {dest : Nat} {packets : List Byte} {s : State} (h : Kept mq lk s0 s) :
    Kept mq lk s0 (State.originate s dest packets) := by
  unfold State.originate
  try dsimp only
  repeat'
    first
      | with_reducible assumption
      | with_reducible refine Kept.ite (fun _ => ?_) (fun _ => ?_)
      | with_reducible refine Kept.ite2 (fun _ => ?_) (fun _ => ?_)
      | with_reducible refine Kept.dite (fun _ => ?_) (fun _ => ?_)
      | with_reducible refine State.modNet_kept ?_

theorem State.sendReplies_kept {n : Nat} {s : State} (h : Kept mq lk s0 s) : Kept mq lk s0 (State.sendReplies n s) := by
  induction n generalizing s with
  | zero => exact h
  | succ n ih =>
    unfold State.sendReplies
    split
    · exact h
    · exact ih (State.originate_kept (Kept.upd h))

theorem State.forward_kept {p : Fin 2} {bytes : List Byte} {badFcs : Bool} {s : State} (h : Kept mq lk s0 s) :
    Kept mq lk s0 (State.forward s p bytes badFcs) := by
  unfold State.forward
  try dsimp only
  repeat'
    first
      | with_reducible assumption
      | with_reducible refine Kept.ite (fun _ => ?_) (fun _ => ?_)
      | with_reducible refine Kept.ite2 (fun _ => ?_) (fun _ => ?_)
      | with_reducible refine Kept.dite (fun _ => ?_) (fun _ => ?_)
      | with_reducible refine State.bumpMod_kept ?_
      | with_reducible refine State.modNet_kept ?_

theorem State.deliver_kept {p : Fin 2} {src : Nat} {bytes : List Byte} {s : State} (h : Kept false lk s0 s) :
    Kept false lk s0 (State.deliver s p src bytes) := by
  unfold State.deliver
  try dsimp only
  repeat'
    first
      | with_reducible assumption
      | with_reducible refine Kept.ite (fun _ => ?_) (fun _ => ?_)
      | with_reducible refine Kept.ite2 (fun _ => ?_) (fun _ => ?_)
      | with_reducible refine Kept.dite (fun _ => ?_) (fun _ => ?_)
      | with_reducible refine State.bumpMod_kept ?_
      | with_reducible refine State.receiveFrame_kept ?_

theorem State.zizel_kept {p : Fin 2} {bytes : List Byte} {s : State} (h : Kept false lk s0 s) :
    Kept false lk s0 (State.zizel s p bytes) := by
  unfold State.zizel
  try dsimp only
  repeat'
    first
      | with_reducible assumption
      | with_reducible refine Kept.ite (fun _ => ?_) (fun _ => ?_)
      | with_reducible refine Kept.ite2 (fun _ => ?_) (fun _ => ?_)
      | with_reducible refine Kept.dite (fun _ => ?_) (fun _ => ?_)
      | with_reducible refine State.bump_kept ?_
      | with_reducible refine State.modNet_kept ?_
      | with_reducible refine State.forward_kept ?_
      | with_reducible refine State.deliver_kept ?_
      | with_reducible refine Kept.foldl ?_ ?_
      | fail_if_no_progress with_reducible refine Kept.upd ?_
      | refine Kept.tagsFilter ?_
      | refine Kept.enter ?_ ?_
      | dsimp only
      | split

theorem State.setExtest_kept {on : Bool} {s : State} (h : Kept mq lk s0 s) :
    Kept mq lk s0 (State.setExtest s on) := by
  unfold State.setExtest
  try dsimp only
  repeat'
    first
      | with_reducible assumption
      | with_reducible refine Kept.ite (fun _ => ?_) (fun _ => ?_)
      | with_reducible refine Kept.ite2 (fun _ => ?_) (fun _ => ?_)
      | with_reducible refine Kept.dite (fun _ => ?_) (fun _ => ?_)
      | with_reducible refine State.freeBank_kept ?_
      | with_reducible refine State.eachAx_kept ?_ (fun _ _ _ => ?_)
      | with_reducible refine State.syncReady_kept ?_
      | with_reducible refine State.raiseAx_kept ?_
      | with_reducible refine State.modBank_kept ?_
      | with_reducible refine State.bump_kept ?_
      | with_reducible refine State.raiseBank_kept ?_
      | with_reducible refine State.syncBank_kept ?_
      | with_reducible refine Kept.foldl ?_ ?_
      | fail_if_no_progress with_reducible refine Kept.upd ?_
      | refine Kept.tagsFilter ?_
      | dsimp only
      | split
      | (intro _; intros; try dsimp only)

end Sys2Proof.Machine
end

