-- ==== Sys2Proof/Laws/KeptStep.lean ====
section
/-! SUPPORT. That the meaning of every command answers a next state and keeps what `Kept` says, and so each step. -/

namespace Sys2Proof.Machine

variable {mq lk : Bool}

/-- A meaning answers a next state, and what it does keeps what `Kept` says. -/
def KeptNext (mq lk : Bool) (s : State) (r : Res) : Prop := ∃ t, r = .next t ∧ Kept mq lk s t

theorem execStall_kept {dt : Nat} {a : AxisId} {s : State} : KeptNext mq lk s (execStall dt a s) := by
  unfold execStall
  have h : Kept mq lk s s := Kept.refl
  refine ⟨_, rfl, ?_⟩
  try dsimp only
  repeat'
    first
      | with_reducible assumption
      | with_reducible refine Kept.ite (fun _ => ?_) (fun _ => ?_)
      | with_reducible refine Kept.ite2 (fun _ => ?_) (fun _ => ?_)
      | with_reducible refine Kept.dite (fun _ => ?_) (fun _ => ?_)
      | with_reducible refine State.flag_kept ?_
      | with_reducible refine State.bump_kept ?_
      | with_reducible refine State.setObs_kept ?_
      | with_reducible refine State.raiseAx_kept ?_
      | with_reducible refine State.advance_kept ?_
      | with_reducible refine Kept.foldl ?_ ?_
      | fail_if_no_progress with_reducible refine Kept.upd ?_
      | refine Kept.tagsFilter ?_
      | refine Kept.enter ?_ ?_
      | dsimp only
      | split

theorem execRtrackDone_kept {dt : Nat} {a : AxisId} {s : State} : KeptNext mq lk s (execRtrackDone dt a s) := by
  unfold execRtrackDone
  have h : Kept mq lk s s := Kept.refl
  refine ⟨_, rfl, ?_⟩
  try dsimp only
  repeat'
    first
      | with_reducible assumption
      | with_reducible refine Kept.ite (fun _ => ?_) (fun _ => ?_)
      | with_reducible refine Kept.ite2 (fun _ => ?_) (fun _ => ?_)
      | with_reducible refine Kept.dite (fun _ => ?_) (fun _ => ?_)
      | with_reducible refine State.advance_kept ?_
      | with_reducible refine State.setObs_kept ?_
      | with_reducible refine State.setFld_kept ?_
      | with_reducible refine State.mark_kept ?_
      | with_reducible refine State.flag_kept ?_
      | with_reducible refine Kept.foldl ?_ ?_
      | fail_if_no_progress with_reducible refine Kept.upd ?_
      | refine Kept.tagsFilter ?_
      | dsimp only
      | split
      | (intro _; intros; try dsimp only)

theorem execFrozenWindowClose_kept {dt : Nat} {a : AxisId} {s : State} : KeptNext mq lk s (execFrozenWindowClose dt a s) := by
  unfold execFrozenWindowClose
  have h : Kept mq lk s s := Kept.refl
  refine ⟨_, rfl, ?_⟩
  try dsimp only
  repeat'
    first
      | with_reducible assumption
      | with_reducible refine Kept.ite (fun _ => ?_) (fun _ => ?_)
      | with_reducible refine Kept.ite2 (fun _ => ?_) (fun _ => ?_)
      | with_reducible refine Kept.dite (fun _ => ?_) (fun _ => ?_)
      | with_reducible refine State.advance_kept ?_
      | with_reducible refine State.setObs_kept ?_
      | with_reducible refine State.flag_kept ?_
      | with_reducible refine State.raiseAx_kept ?_
      | with_reducible refine Kept.foldl ?_ ?_
      | fail_if_no_progress with_reducible refine Kept.upd ?_
      | refine Kept.tagsFilter ?_
      | dsimp only
      | split

theorem execSampleArrival_kept {dt : Nat} {a : AxisId} {s : State} : KeptNext mq lk s (execSampleArrival dt a s) := by
  unfold execSampleArrival
  have h : Kept mq lk s s := Kept.refl
  refine ⟨_, rfl, ?_⟩
  try dsimp only
  repeat'
    first
      | with_reducible assumption
      | with_reducible refine Kept.ite (fun _ => ?_) (fun _ => ?_)
      | with_reducible refine Kept.ite2 (fun _ => ?_) (fun _ => ?_)
      | with_reducible refine Kept.dite (fun _ => ?_) (fun _ => ?_)
      | with_reducible refine State.advance_kept ?_
      | with_reducible refine State.gridRelease_kept ?_
      | with_reducible refine State.modAx_kept ?_
      | with_reducible refine State.icoil_kept ?_
      | with_reducible refine State.observe_kept ?_
      | with_reducible refine State.outerEval_kept ?_
      | with_reducible refine Kept.foldl ?_ ?_
      | fail_if_no_progress with_reducible refine Kept.upd ?_
      | refine Kept.tagsFilter ?_
      | dsimp only
      | split

theorem execIcoilBlind_kept {dt : Nat} {a : AxisId} {c : CoilId} {s : State} : KeptNext mq lk s (execIcoilBlind dt a c s) := by
  unfold execIcoilBlind
  have h : Kept mq lk s s := Kept.refl
  refine ⟨_, rfl, ?_⟩
  try dsimp only
  repeat'
    first
      | with_reducible assumption
      | with_reducible refine Kept.ite (fun _ => ?_) (fun _ => ?_)
      | with_reducible refine Kept.ite2 (fun _ => ?_) (fun _ => ?_)
      | with_reducible refine Kept.dite (fun _ => ?_) (fun _ => ?_)
      | with_reducible refine State.advance_kept ?_
      | with_reducible refine State.setLoop_kept ?_
      | with_reducible refine State.raiseC0_kept ?_

theorem execFollowErr_kept {dt : Nat} {a : AxisId} {s : State} : KeptNext mq lk s (execFollowErr dt a s) := by
  unfold execFollowErr
  have h : Kept mq lk s s := Kept.refl
  refine ⟨_, rfl, ?_⟩
  try dsimp only
  repeat'
    first
      | with_reducible assumption
      | with_reducible refine Kept.ite (fun _ => ?_) (fun _ => ?_)
      | with_reducible refine Kept.ite2 (fun _ => ?_) (fun _ => ?_)
      | with_reducible refine Kept.dite (fun _ => ?_) (fun _ => ?_)
      | with_reducible refine State.setLoop_kept ?_
      | with_reducible refine State.raiseAx_kept ?_
      | with_reducible refine State.advance_kept ?_
      | with_reducible refine Kept.foldl ?_ ?_
      | fail_if_no_progress with_reducible refine Kept.upd ?_
      | refine Kept.tagsFilter ?_
      | refine Kept.enter ?_ ?_
      | dsimp only
      | split

theorem execFreezeWrite_kept {dt : Nat} {port : Port} {a : AxisId} {value : Word} {s : State} : KeptNext mq lk s (execFreezeWrite dt port a value s) := by
  unfold execFreezeWrite
  have h : Kept mq lk s s := Kept.refl
  refine ⟨_, rfl, ?_⟩
  try dsimp only
  repeat'
    first
      | with_reducible assumption
      | with_reducible refine Kept.ite (fun _ => ?_) (fun _ => ?_)
      | with_reducible refine Kept.ite2 (fun _ => ?_) (fun _ => ?_)
      | with_reducible refine Kept.dite (fun _ => ?_) (fun _ => ?_)
      | with_reducible refine State.advance_kept ?_
      | with_reducible refine State.portWrite_kept ?_ ?_
      | with_reducible refine State.writeFreeze_kept ?_
      | with_reducible refine Kept.foldl ?_ ?_
      | fail_if_no_progress with_reducible refine Kept.upd ?_
      | refine Kept.tagsFilter ?_
      | refine Kept.enter ?_ ?_
      | (intro _; intros; try dsimp only)

theorem execFreezeEnd_kept {dt : Nat} {a : AxisId} {loop : Fin 7} {s : State} : KeptNext mq lk s (execFreezeEnd dt a loop s) := by
  unfold execFreezeEnd
  have h : Kept mq lk s s := Kept.refl
  refine ⟨_, rfl, ?_⟩
  try dsimp only
  repeat'
    first
      | with_reducible assumption
      | with_reducible refine Kept.ite (fun _ => ?_) (fun _ => ?_)
      | with_reducible refine Kept.ite2 (fun _ => ?_) (fun _ => ?_)
      | with_reducible refine Kept.dite (fun _ => ?_) (fun _ => ?_)
      | with_reducible refine State.setBit_kept ?_
      | with_reducible refine State.advance_kept ?_

theorem execBlockZeroingDone_kept {dt : Nat} {block : BitVec 15} {s : State} : KeptNext false lk s (execBlockZeroingDone dt block s) := by
  unfold execBlockZeroingDone
  have h : Kept false lk s s := Kept.refl
  refine ⟨_, rfl, ?_⟩
  try dsimp only
  repeat'
    first
      | with_reducible assumption
      | with_reducible refine Kept.ite (fun _ => ?_) (fun _ => ?_)
      | with_reducible refine Kept.ite2 (fun _ => ?_) (fun _ => ?_)
      | with_reducible refine Kept.dite (fun _ => ?_) (fun _ => ?_)
      | with_reducible refine State.zeroBlock_kept ?_
      | with_reducible refine State.advance_kept ?_
      | with_reducible refine Kept.foldl ?_ ?_
      | fail_if_no_progress with_reducible refine Kept.upd ?_

theorem execPoolLinkWrite_kept {dt : Nat} {port : Port} {value : Word} {s : State} : KeptNext mq lk s (execPoolLinkWrite dt port value s) := by
  unfold execPoolLinkWrite
  have h : Kept mq lk s s := Kept.refl
  refine ⟨_, rfl, ?_⟩
  try dsimp only
  repeat'
    first
      | with_reducible assumption
      | with_reducible refine Kept.ite (fun _ => ?_) (fun _ => ?_)
      | with_reducible refine Kept.ite2 (fun _ => ?_) (fun _ => ?_)
      | with_reducible refine Kept.dite (fun _ => ?_) (fun _ => ?_)
      | with_reducible refine State.advance_kept ?_
      | with_reducible refine State.portWrite_kept ?_ ?_
      | with_reducible refine State.writeLink_kept ?_
      | with_reducible refine Kept.foldl ?_ ?_
      | fail_if_no_progress with_reducible refine Kept.upd ?_
      | refine Kept.tagsFilter ?_
      | refine Kept.enter ?_ ?_
      | (intro _; intros; try dsimp only)

theorem execHostWindowWrite_kept {dt : Nat} {addr : Word} {value : Word} {s : State} : KeptNext false lk s (execHostWindowWrite dt addr value s) := by
  unfold execHostWindowWrite
  have h : Kept false lk s s := Kept.refl
  refine ⟨_, rfl, ?_⟩
  try dsimp only
  repeat'
    first
      | with_reducible assumption
      | with_reducible refine Kept.ite (fun _ => ?_) (fun _ => ?_)
      | with_reducible refine Kept.ite2 (fun _ => ?_) (fun _ => ?_)
      | with_reducible refine Kept.dite (fun _ => ?_) (fun _ => ?_)
      | with_reducible refine State.advance_kept ?_
      | with_reducible refine State.portWrite_kept ?_ ?_
      | with_reducible refine State.windowWrite_kept ?_
      | with_reducible refine Kept.foldl ?_ ?_
      | fail_if_no_progress with_reducible refine Kept.upd ?_
      | refine Kept.tagsFilter ?_
      | refine Kept.enter ?_ ?_
      | (intro _; intros; try dsimp only)

theorem execHostWindowRead_kept {dt : Nat} {addr : Word} {s : State} : KeptNext mq lk s (execHostWindowRead dt addr s) := by
  unfold execHostWindowRead
  have h : Kept mq lk s s := Kept.refl
  refine ⟨_, rfl, ?_⟩
  try dsimp only
  repeat'
    first
      | with_reducible assumption
      | with_reducible refine Kept.ite (fun _ => ?_) (fun _ => ?_)
      | with_reducible refine Kept.ite2 (fun _ => ?_) (fun _ => ?_)
      | with_reducible refine Kept.dite (fun _ => ?_) (fun _ => ?_)
      | with_reducible refine State.advance_kept ?_
      | with_reducible refine State.windowRead_kept2 ?_
      | with_reducible refine State.windowRead_kept (by with_reducible assumption) ?_
      | with_reducible refine Kept.foldl ?_ ?_
      | fail_if_no_progress with_reducible refine Kept.upd ?_

theorem execPoolScrub_kept {dt : Nat} {upsets : List (BitVec 20 × Bool)} {s : State} : KeptNext mq lk s (execPoolScrub dt upsets s) := by
  unfold execPoolScrub
  have h : Kept mq lk s s := Kept.refl
  refine ⟨_, rfl, ?_⟩
  try dsimp only
  repeat'
    first
      | with_reducible assumption
      | with_reducible refine Kept.ite (fun _ => ?_) (fun _ => ?_)
      | with_reducible refine Kept.ite2 (fun _ => ?_) (fun _ => ?_)
      | with_reducible refine Kept.dite (fun _ => ?_) (fun _ => ?_)
      | with_reducible refine State.raiseC0_kept ?_
      | with_reducible refine State.advance_kept ?_
      | with_reducible refine State.eccRead_kept2 ?_
      | with_reducible refine State.eccRead_kept (by with_reducible assumption) ?_
      | with_reducible refine Kept.foldl ?_ ?_
      | fail_if_no_progress with_reducible refine Kept.upd ?_
      | refine Kept.tagsFilter ?_
      | refine Kept.enter ?_ ?_
      | (intro _; intros; try dsimp only)

theorem execTraceEnable_kept {dt : Nat} {port : Port} {t : Fin 4} {value : Word} {s : State} : KeptNext mq lk s (execTraceEnable dt port t value s) := by
  unfold execTraceEnable
  have h : Kept mq lk s s := Kept.refl
  refine ⟨_, rfl, ?_⟩
  try dsimp only
  repeat'
    first
      | with_reducible assumption
      | with_reducible refine Kept.ite (fun _ => ?_) (fun _ => ?_)
      | with_reducible refine Kept.ite2 (fun _ => ?_) (fun _ => ?_)
      | with_reducible refine Kept.dite (fun _ => ?_) (fun _ => ?_)
      | with_reducible refine State.advance_kept ?_
      | with_reducible refine State.portWrite_kept ?_ ?_
      | with_reducible refine State.writeTrace_kept ?_
      | with_reducible refine Kept.foldl ?_ ?_
      | fail_if_no_progress with_reducible refine Kept.upd ?_
      | refine Kept.tagsFilter ?_
      | refine Kept.enter ?_ ?_
      | (intro _; intros; try dsimp only)

theorem execTraceCopy_kept {dt : Nat} {t : Fin 4} {s : State} : KeptNext false lk s (execTraceCopy dt t s) := by
  unfold execTraceCopy
  have h : Kept false lk s s := Kept.refl
  refine ⟨_, rfl, ?_⟩
  try dsimp only
  repeat'
    first
      | with_reducible assumption
      | with_reducible refine Kept.ite (fun _ => ?_) (fun _ => ?_)
      | with_reducible refine Kept.ite2 (fun _ => ?_) (fun _ => ?_)
      | with_reducible refine Kept.dite (fun _ => ?_) (fun _ => ?_)
      | with_reducible refine State.bumpMod_kept ?_
      | with_reducible refine State.advance_kept ?_
      | with_reducible refine State.setBytes_kept ?_
      | with_reducible refine State.dropRing_kept ?_
      | with_reducible refine Kept.foldl ?_ ?_
      | fail_if_no_progress with_reducible refine Kept.upd ?_
      | refine Kept.tagsFilter ?_
      | refine Kept.enter ?_ ?_
      | dsimp only
      | split

theorem execSetpointEffect_kept {dt : Nat} {a : AxisId} {c : CoilId} {s : State} : KeptNext mq lk s (execSetpointEffect dt a c s) := by
  unfold execSetpointEffect
  have h : Kept mq lk s s := Kept.refl
  refine ⟨_, rfl, ?_⟩
  try dsimp only
  repeat'
    first
      | with_reducible assumption
      | with_reducible refine Kept.ite (fun _ => ?_) (fun _ => ?_)
      | with_reducible refine Kept.ite2 (fun _ => ?_) (fun _ => ?_)
      | with_reducible refine Kept.dite (fun _ => ?_) (fun _ => ?_)
      | with_reducible refine State.setChp_kept ?_
      | with_reducible refine State.advance_kept ?_
      | with_reducible refine State.coilSetpoint_kept ?_
      | with_reducible refine State.edgeDone_kept ?_
      | with_reducible refine Kept.foldl ?_ ?_
      | fail_if_no_progress with_reducible refine Kept.upd ?_
      | refine Kept.tagsFilter ?_
      | refine Kept.enter ?_ ?_
      | dsimp only
      | split

theorem execBlankingEnd_kept {dt : Nat} {a : AxisId} {c : CoilId} {above : Bool} {s : State} : KeptNext mq lk s (execBlankingEnd dt a c above s) := by
  unfold execBlankingEnd
  have h : Kept mq lk s s := Kept.refl
  refine ⟨_, rfl, ?_⟩
  try dsimp only
  repeat'
    first
      | with_reducible assumption
      | with_reducible refine Kept.ite (fun _ => ?_) (fun _ => ?_)
      | with_reducible refine Kept.ite2 (fun _ => ?_) (fun _ => ?_)
      | with_reducible refine Kept.dite (fun _ => ?_) (fun _ => ?_)
      | with_reducible refine State.advance_kept ?_
      | with_reducible refine State.setCoil_kept ?_
      | with_reducible refine State.startOff_kept ?_

theorem execChopperCrossing_kept {dt : Nat} {a : AxisId} {c : CoilId} {s : State} : KeptNext mq lk s (execChopperCrossing dt a c s) := by
  unfold execChopperCrossing
  have h : Kept mq lk s s := Kept.refl
  refine ⟨_, rfl, ?_⟩
  try dsimp only
  repeat'
    first
      | with_reducible assumption
      | with_reducible refine Kept.ite (fun _ => ?_) (fun _ => ?_)
      | with_reducible refine Kept.ite2 (fun _ => ?_) (fun _ => ?_)
      | with_reducible refine Kept.dite (fun _ => ?_) (fun _ => ?_)
      | with_reducible refine State.advance_kept ?_
      | with_reducible refine State.startOff_kept ?_

theorem execFastDecayEnd_kept {dt : Nat} {a : AxisId} {c : CoilId} {s : State} : KeptNext mq lk s (execFastDecayEnd dt a c s) := by
  unfold execFastDecayEnd
  have h : Kept mq lk s s := Kept.refl
  refine ⟨_, rfl, ?_⟩
  try dsimp only
  repeat'
    first
      | with_reducible assumption
      | with_reducible refine Kept.ite (fun _ => ?_) (fun _ => ?_)
      | with_reducible refine Kept.ite2 (fun _ => ?_) (fun _ => ?_)
      | with_reducible refine Kept.dite (fun _ => ?_) (fun _ => ?_)
      | with_reducible refine State.advance_kept ?_
      | with_reducible refine State.bridge_kept ?_

theorem execOffTimeEnd_kept {dt : Nat} {a : AxisId} {c : CoilId} {s : State} : KeptNext mq lk s (execOffTimeEnd dt a c s) := by
  unfold execOffTimeEnd
  have h : Kept mq lk s s := Kept.refl
  refine ⟨_, rfl, ?_⟩
  try dsimp only
  repeat'
    first
      | with_reducible assumption
      | with_reducible refine Kept.ite (fun _ => ?_) (fun _ => ?_)
      | with_reducible refine Kept.ite2 (fun _ => ?_) (fun _ => ?_)
      | with_reducible refine Kept.dite (fun _ => ?_) (fun _ => ?_)
      | with_reducible refine State.advance_kept ?_
      | with_reducible refine State.startOn_kept ?_

theorem execGridInstant_kept {dt : Nat} {a : AxisId} {s : State} : KeptNext mq lk s (execGridInstant dt a s) := by
  unfold execGridInstant
  have h : Kept mq lk s s := Kept.refl
  refine ⟨_, rfl, ?_⟩
  try dsimp only
  repeat'
    first
      | with_reducible assumption
      | with_reducible refine Kept.ite (fun _ => ?_) (fun _ => ?_)
      | with_reducible refine Kept.ite2 (fun _ => ?_) (fun _ => ?_)
      | with_reducible refine Kept.dite (fun _ => ?_) (fun _ => ?_)
      | with_reducible refine State.advance_kept ?_
      | with_reducible refine State.releaseGrid_kept ?_
      | with_reducible refine State.gridArrive_kept ?_

theorem execBrakeWaitEnd_kept {dt : Nat} {a : AxisId} {s : State} : KeptNext mq lk s (execBrakeWaitEnd dt a s) := by
  unfold execBrakeWaitEnd
  have h : Kept mq lk s s := Kept.refl
  refine ⟨_, rfl, ?_⟩
  try dsimp only
  repeat'
    first
      | with_reducible assumption
      | with_reducible refine Kept.ite (fun _ => ?_) (fun _ => ?_)
      | with_reducible refine Kept.ite2 (fun _ => ?_) (fun _ => ?_)
      | with_reducible refine Kept.dite (fun _ => ?_) (fun _ => ?_)
      | with_reducible refine State.advance_kept ?_
      | with_reducible refine State.energiseDone_kept ?_
      | with_reducible refine Kept.foldl ?_ ?_
      | fail_if_no_progress with_reducible refine Kept.upd ?_
      | refine Kept.tagsFilter ?_
      | refine Kept.enter ?_ ?_
      | dsimp only
      | split

theorem execReleaseBrakeWaitEnd_kept {dt : Nat} {a : AxisId} {s : State} : KeptNext mq lk s (execReleaseBrakeWaitEnd dt a s) := by
  unfold execReleaseBrakeWaitEnd
  have h : Kept mq lk s s := Kept.refl
  refine ⟨_, rfl, ?_⟩
  try dsimp only
  repeat'
    first
      | with_reducible assumption
      | with_reducible refine Kept.ite (fun _ => ?_) (fun _ => ?_)
      | with_reducible refine Kept.ite2 (fun _ => ?_) (fun _ => ?_)
      | with_reducible refine Kept.dite (fun _ => ?_) (fun _ => ?_)
      | with_reducible refine State.advance_kept ?_
      | with_reducible refine State.releaseRamp_kept ?_
      | with_reducible refine Kept.foldl ?_ ?_
      | fail_if_no_progress with_reducible refine Kept.upd ?_
      | refine Kept.tagsFilter ?_
      | refine Kept.enter ?_ ?_
      | dsimp only
      | split

theorem execReleaseEnd_kept {dt : Nat} {a : AxisId} {s : State} : KeptNext mq lk s (execReleaseEnd dt a s) := by
  unfold execReleaseEnd
  have h : Kept mq lk s s := Kept.refl
  refine ⟨_, rfl, ?_⟩
  try dsimp only
  repeat'
    first
      | with_reducible assumption
      | with_reducible refine Kept.ite (fun _ => ?_) (fun _ => ?_)
      | with_reducible refine Kept.ite2 (fun _ => ?_) (fun _ => ?_)
      | with_reducible refine Kept.dite (fun _ => ?_) (fun _ => ?_)
      | with_reducible refine State.setSt_kept ?_
      | with_reducible refine State.done_kept ?_
      | with_reducible refine State.advance_kept ?_
      | with_reducible refine State.killAxis_kept ?_
      | with_reducible refine Kept.foldl ?_ ?_
      | fail_if_no_progress with_reducible refine Kept.upd ?_
      | refine Kept.tagsFilter ?_
      | refine Kept.enter ?_ ?_
      | (intro _; intros; try dsimp only)
      | dsimp only
      | split

theorem execHoldTimerExpiry_kept {dt : Nat} {a : AxisId} {s : State} : KeptNext mq lk s (execHoldTimerExpiry dt a s) := by
  unfold execHoldTimerExpiry
  have h : Kept mq lk s s := Kept.refl
  refine ⟨_, rfl, ?_⟩
  try dsimp only
  repeat'
    first
      | with_reducible assumption
      | with_reducible refine Kept.ite (fun _ => ?_) (fun _ => ?_)
      | with_reducible refine Kept.ite2 (fun _ => ?_) (fun _ => ?_)
      | with_reducible refine Kept.dite (fun _ => ?_) (fun _ => ?_)
      | with_reducible refine State.advance_kept ?_
      | with_reducible refine State.gridRelease_kept ?_
      | with_reducible refine State.setChp_kept ?_
      | with_reducible refine Kept.foldl ?_ ?_
      | fail_if_no_progress with_reducible refine Kept.upd ?_
      | refine Kept.tagsFilter ?_
      | dsimp only
      | split
      | (intro _; intros; try dsimp only)

theorem execTableLoad_kept {dt : Nat} {port : Port} {a : AxisId} {value : Word} {s : State} : KeptNext mq lk s (execTableLoad dt port a value s) := by
  unfold execTableLoad
  have h : Kept mq lk s s := Kept.refl
  refine ⟨_, rfl, ?_⟩
  try dsimp only
  repeat'
    first
      | with_reducible assumption
      | with_reducible refine Kept.ite (fun _ => ?_) (fun _ => ?_)
      | with_reducible refine Kept.ite2 (fun _ => ?_) (fun _ => ?_)
      | with_reducible refine Kept.dite (fun _ => ?_) (fun _ => ?_)
      | with_reducible refine State.advance_kept ?_
      | with_reducible refine State.portWrite_kept ?_ ?_
      | with_reducible refine State.writeTabctl_kept ?_
      | with_reducible refine Kept.foldl ?_ ?_
      | fail_if_no_progress with_reducible refine Kept.upd ?_
      | refine Kept.tagsFilter ?_
      | refine Kept.enter ?_ ?_
      | (intro _; intros; try dsimp only)

theorem execTableSwap_kept {dt : Nat} {port : Port} {a : AxisId} {value : Word} {s : State} : KeptNext mq lk s (execTableSwap dt port a value s) := by
  unfold execTableSwap
  have h : Kept mq lk s s := Kept.refl
  refine ⟨_, rfl, ?_⟩
  try dsimp only
  repeat'
    first
      | with_reducible assumption
      | with_reducible refine Kept.ite (fun _ => ?_) (fun _ => ?_)
      | with_reducible refine Kept.ite2 (fun _ => ?_) (fun _ => ?_)
      | with_reducible refine Kept.dite (fun _ => ?_) (fun _ => ?_)
      | with_reducible refine State.advance_kept ?_
      | with_reducible refine State.portWrite_kept ?_ ?_
      | with_reducible refine State.writeTabctl_kept ?_
      | with_reducible refine Kept.foldl ?_ ?_
      | fail_if_no_progress with_reducible refine Kept.upd ?_
      | refine Kept.tagsFilter ?_
      | refine Kept.enter ?_ ?_
      | (intro _; intros; try dsimp only)

theorem execTableLoadDone_kept {dt : Nat} {a : AxisId} {s : State} : KeptNext mq lk s (execTableLoadDone dt a s) := by
  unfold execTableLoadDone
  have h : Kept mq lk s s := Kept.refl
  refine ⟨_, rfl, ?_⟩
  try dsimp only
  repeat'
    first
      | with_reducible assumption
      | with_reducible refine Kept.ite (fun _ => ?_) (fun _ => ?_)
      | with_reducible refine Kept.ite2 (fun _ => ?_) (fun _ => ?_)
      | with_reducible refine Kept.dite (fun _ => ?_) (fun _ => ?_)
      | with_reducible refine State.advance_kept ?_
      | with_reducible refine State.eccReads_kept2 ?_
      | with_reducible refine State.eccReads_kept (by with_reducible assumption) ?_
      | with_reducible refine State.setChp_kept ?_
      | with_reducible refine State.flag_kept ?_
      | with_reducible refine State.raiseC0_kept ?_
      | with_reducible refine State.gridRelease_kept ?_
      | with_reducible refine State.swapWaiting_kept ?_
      | with_reducible refine Kept.foldl ?_ ?_
      | fail_if_no_progress with_reducible refine Kept.upd ?_
      | refine Kept.tagsFilter ?_
      | dsimp only
      | split
      | (intro _; intros; try dsimp only)

theorem execChpCfgWrite_kept {dt : Nat} {port : Port} {a : AxisId} {value : Word} {s : State} : KeptNext mq lk s (execChpCfgWrite dt port a value s) := by
  unfold execChpCfgWrite
  have h : Kept mq lk s s := Kept.refl
  refine ⟨_, rfl, ?_⟩
  try dsimp only
  repeat'
    first
      | with_reducible assumption
      | with_reducible refine Kept.ite (fun _ => ?_) (fun _ => ?_)
      | with_reducible refine Kept.ite2 (fun _ => ?_) (fun _ => ?_)
      | with_reducible refine Kept.dite (fun _ => ?_) (fun _ => ?_)
      | with_reducible refine State.advance_kept ?_
      | with_reducible refine State.portWrite_kept ?_ ?_
      | with_reducible refine State.writeChpCfg_kept ?_
      | with_reducible refine Kept.foldl ?_ ?_
      | fail_if_no_progress with_reducible refine Kept.upd ?_
      | refine Kept.tagsFilter ?_
      | refine Kept.enter ?_ ?_
      | (intro _; intros; try dsimp only)

theorem execModecfgWrite_kept {dt : Nat} {port : Port} {a : AxisId} {index : BitVec 10} {value : Word} {s : State} : KeptNext mq lk s (execModecfgWrite dt port a index value s) := by
  unfold execModecfgWrite
  have h : Kept mq lk s s := Kept.refl
  refine ⟨_, rfl, ?_⟩
  try dsimp only
  repeat'
    first
      | with_reducible assumption
      | with_reducible refine Kept.ite (fun _ => ?_) (fun _ => ?_)
      | with_reducible refine Kept.ite2 (fun _ => ?_) (fun _ => ?_)
      | with_reducible refine Kept.dite (fun _ => ?_) (fun _ => ?_)
      | with_reducible refine State.advance_kept ?_
      | with_reducible refine State.portWrite_kept ?_ ?_
      | with_reducible refine State.writeModeCfg_kept ?_
      | with_reducible refine Kept.foldl ?_ ?_
      | fail_if_no_progress with_reducible refine Kept.upd ?_
      | refine Kept.tagsFilter ?_
      | refine Kept.enter ?_ ?_
      | (intro _; intros; try dsimp only)

theorem execEdgeSolve_kept {dt : Nat} {a : AxisId} {s : State} : KeptNext mq lk s (execEdgeSolve dt a s) := by
  unfold execEdgeSolve
  have h : Kept mq lk s s := Kept.refl
  refine ⟨_, rfl, ?_⟩
  try dsimp only
  repeat'
    first
      | with_reducible assumption
      | with_reducible refine Kept.ite (fun _ => ?_) (fun _ => ?_)
      | with_reducible refine Kept.ite2 (fun _ => ?_) (fun _ => ?_)
      | with_reducible refine Kept.dite (fun _ => ?_) (fun _ => ?_)
      | with_reducible refine State.setStp_kept ?_
      | with_reducible refine State.advance_kept ?_
      | with_reducible refine State.putEdge_kept ?_
      | with_reducible refine Kept.foldl ?_ ?_
      | fail_if_no_progress with_reducible refine Kept.upd ?_
      | refine Kept.tagsFilter ?_
      | refine Kept.enter ?_ ?_
      | dsimp only
      | split

theorem execEdgeRelease_kept {dt : Nat} {a : AxisId} {s : State} : KeptNext mq lk s (execEdgeRelease dt a s) := by
  unfold execEdgeRelease
  have h : Kept mq lk s s := Kept.refl
  refine ⟨_, rfl, ?_⟩
  try dsimp only
  repeat'
    first
      | with_reducible assumption
      | with_reducible refine Kept.ite (fun _ => ?_) (fun _ => ?_)
      | with_reducible refine Kept.ite2 (fun _ => ?_) (fun _ => ?_)
      | with_reducible refine Kept.dite (fun _ => ?_) (fun _ => ?_)
      | with_reducible refine State.advance_kept ?_
      | with_reducible refine State.gridFor_kept ?_
      | with_reducible refine State.lagCheck_kept ?_
      | with_reducible refine State.setStp_kept ?_
      | with_reducible refine State.flag_kept ?_
      | with_reducible refine State.bump_kept ?_
      | with_reducible refine State.raiseAx_kept ?_
      | with_reducible refine State.trace_kept ?_
      | with_reducible refine State.driveEdge_kept ?_
      | with_reducible refine State.placeDerived_kept ?_
      | with_reducible refine Kept.foldl ?_ ?_
      | fail_if_no_progress with_reducible refine Kept.upd ?_
      | refine Kept.tagsFilter ?_
      | dsimp only
      | split
      | (intro _; intros; try dsimp only)

theorem execFollowPulse_kept {dt : Nat} {a : AxisId} {s : State} : KeptNext mq lk s (execFollowPulse dt a s) := by
  unfold execFollowPulse
  have h : Kept mq lk s s := Kept.refl
  refine ⟨_, rfl, ?_⟩
  try dsimp only
  repeat'
    first
      | with_reducible assumption
      | with_reducible refine Kept.ite (fun _ => ?_) (fun _ => ?_)
      | with_reducible refine Kept.ite2 (fun _ => ?_) (fun _ => ?_)
      | with_reducible refine Kept.dite (fun _ => ?_) (fun _ => ?_)
      | with_reducible refine State.setStp_kept ?_
      | with_reducible refine State.advance_kept ?_
      | with_reducible refine State.followEnd_kept ?_
      | with_reducible refine State.placeDerived_kept ?_
      | with_reducible refine State.takePulse_kept ?_
      | with_reducible refine State.lagCheck_kept ?_
      | with_reducible refine Kept.foldl ?_ ?_
      | fail_if_no_progress with_reducible refine Kept.upd ?_
      | refine Kept.tagsFilter ?_
      | refine Kept.enter ?_ ?_
      | dsimp only
      | split

theorem execStpCfgWrite_kept {dt : Nat} {port : Port} {a : AxisId} {value : Word} {s : State} : KeptNext mq lk s (execStpCfgWrite dt port a value s) := by
  unfold execStpCfgWrite
  have h : Kept mq lk s s := Kept.refl
  refine ⟨_, rfl, ?_⟩
  try dsimp only
  repeat'
    first
      | with_reducible assumption
      | with_reducible refine Kept.ite (fun _ => ?_) (fun _ => ?_)
      | with_reducible refine Kept.ite2 (fun _ => ?_) (fun _ => ?_)
      | with_reducible refine Kept.dite (fun _ => ?_) (fun _ => ?_)
      | with_reducible refine State.advance_kept ?_
      | with_reducible refine State.portWrite_kept ?_ ?_
      | with_reducible refine State.writeStpCfg_kept ?_
      | with_reducible refine Kept.foldl ?_ ?_
      | fail_if_no_progress with_reducible refine Kept.upd ?_
      | refine Kept.tagsFilter ?_
      | refine Kept.enter ?_ ?_
      | (intro _; intros; try dsimp only)

theorem execSegmentCommit_kept {dt : Nat} {a : AxisId} {s : State} : KeptNext mq lk s (execSegmentCommit dt a s) := by
  unfold execSegmentCommit
  have h : Kept mq lk s s := Kept.refl
  refine ⟨_, rfl, ?_⟩
  try dsimp only
  repeat'
    first
      | with_reducible assumption
      | with_reducible refine Kept.ite (fun _ => ?_) (fun _ => ?_)
      | with_reducible refine Kept.ite2 (fun _ => ?_) (fun _ => ?_)
      | with_reducible refine Kept.dite (fun _ => ?_) (fun _ => ?_)
      | with_reducible refine State.advance_kept ?_
      | with_reducible refine State.commitStep_kept ?_

theorem execEntryFetch_kept {dt : Nat} {a : AxisId} {s : State} : KeptNext mq lk s (execEntryFetch dt a s) := by
  unfold execEntryFetch
  have h : Kept mq lk s s := Kept.refl
  refine ⟨_, rfl, ?_⟩
  try dsimp only
  repeat'
    first
      | with_reducible assumption
      | with_reducible refine Kept.ite (fun _ => ?_) (fun _ => ?_)
      | with_reducible refine Kept.ite2 (fun _ => ?_) (fun _ => ?_)
      | with_reducible refine Kept.dite (fun _ => ?_) (fun _ => ?_)
      | with_reducible refine State.advance_kept ?_
      | with_reducible refine State.fetched_kept ?_
      | with_reducible refine State.fetchOne_kept2 ?_
      | with_reducible refine State.fetchOne_kept (by with_reducible assumption) ?_
      | with_reducible refine State.passWait_kept ?_
      | with_reducible refine State.settle_kept ?_
      | with_reducible refine Kept.foldl ?_ ?_
      | fail_if_no_progress with_reducible refine Kept.upd ?_
      | refine Kept.tagsFilter ?_
      | dsimp only
      | split
      | (intro _; intros; try dsimp only)

theorem execSplice_kept {dt : Nat} {a : AxisId} {s : State} : KeptNext mq lk s (execSplice dt a s) := by
  unfold execSplice
  have h : Kept mq lk s s := Kept.refl
  refine ⟨_, rfl, ?_⟩
  try dsimp only
  repeat'
    first
      | with_reducible assumption
      | with_reducible refine Kept.ite (fun _ => ?_) (fun _ => ?_)
      | with_reducible refine Kept.ite2 (fun _ => ?_) (fun _ => ?_)
      | with_reducible refine Kept.dite (fun _ => ?_) (fun _ => ?_)
      | with_reducible refine State.advance_kept ?_
      | with_reducible refine State.enter_kept ?_
      | with_reducible refine State.popSeg_kept ?_
      | with_reducible refine Kept.foldl ?_ ?_
      | fail_if_no_progress with_reducible refine Kept.upd ?_
      | refine Kept.tagsFilter ?_
      | refine Kept.enter ?_ ?_
      | dsimp only
      | split

theorem execSegmentEnd_kept {dt : Nat} {a : AxisId} {s : State} : KeptNext mq lk s (execSegmentEnd dt a s) := by
  unfold execSegmentEnd
  have h : Kept mq lk s s := Kept.refl
  refine ⟨_, rfl, ?_⟩
  try dsimp only
  repeat'
    first
      | with_reducible assumption
      | with_reducible refine Kept.ite (fun _ => ?_) (fun _ => ?_)
      | with_reducible refine Kept.ite2 (fun _ => ?_) (fun _ => ?_)
      | with_reducible refine Kept.dite (fun _ => ?_) (fun _ => ?_)
      | with_reducible refine State.advance_kept ?_
      | with_reducible refine State.popSeg_kept ?_
      | with_reducible refine State.syncHold_kept ?_
      | with_reducible refine State.enter_kept ?_
      | with_reducible refine State.passWait_kept ?_
      | with_reducible refine State.settle_kept ?_
      | with_reducible refine State.fetched_kept ?_
      | with_reducible refine State.starved_kept ?_
      | with_reducible refine Kept.foldl ?_ ?_
      | fail_if_no_progress with_reducible refine Kept.upd ?_
      | refine Kept.tagsFilter ?_
      | dsimp only
      | split

theorem execWaitStampReached_kept {dt : Nat} {a : AxisId} {s : State} : KeptNext mq lk s (execWaitStampReached dt a s) := by
  unfold execWaitStampReached
  have h : Kept mq lk s s := Kept.refl
  refine ⟨_, rfl, ?_⟩
  try dsimp only
  repeat'
    first
      | with_reducible assumption
      | with_reducible refine Kept.ite (fun _ => ?_) (fun _ => ?_)
      | with_reducible refine Kept.ite2 (fun _ => ?_) (fun _ => ?_)
      | with_reducible refine Kept.dite (fun _ => ?_) (fun _ => ?_)
      | with_reducible refine State.advance_kept ?_
      | with_reducible refine State.enter_kept ?_
      | with_reducible refine State.passWait_kept ?_
      | with_reducible refine State.settle_kept ?_
      | with_reducible refine Kept.foldl ?_ ?_
      | fail_if_no_progress with_reducible refine Kept.upd ?_
      | refine Kept.tagsFilter ?_
      | dsimp only
      | split

theorem execProParamWrite_kept {dt : Nat} {port : Port} {a : AxisId} {index : BitVec 5} {value : Word} {s : State} : KeptNext mq lk s (execProParamWrite dt port a index value s) := by
  unfold execProParamWrite
  have h : Kept mq lk s s := Kept.refl
  refine ⟨_, rfl, ?_⟩
  try dsimp only
  repeat'
    first
      | with_reducible assumption
      | with_reducible refine Kept.ite (fun _ => ?_) (fun _ => ?_)
      | with_reducible refine Kept.ite2 (fun _ => ?_) (fun _ => ?_)
      | with_reducible refine Kept.dite (fun _ => ?_) (fun _ => ?_)
      | with_reducible refine State.advance_kept ?_
      | with_reducible refine State.portWrite_kept ?_ ?_
      | with_reducible refine State.writePro_kept ?_
      | with_reducible refine Kept.foldl ?_ ?_
      | fail_if_no_progress with_reducible refine Kept.upd ?_
      | refine Kept.tagsFilter ?_
      | refine Kept.enter ?_ ?_
      | (intro _; intros; try dsimp only)

theorem execFbEdge_kept {dt : Nat} {ch : ChanId} {levels : BitVec 3} {fine : Fin 16} {s : State} : KeptNext mq lk s (execFbEdge dt ch levels fine s) := by
  unfold execFbEdge
  have h : Kept mq lk s s := Kept.refl
  refine ⟨_, rfl, ?_⟩
  try dsimp only
  repeat'
    first
      | with_reducible assumption
      | with_reducible refine Kept.ite (fun _ => ?_) (fun _ => ?_)
      | with_reducible refine Kept.ite2 (fun _ => ?_) (fun _ => ?_)
      | with_reducible refine Kept.dite (fun _ => ?_) (fun _ => ?_)
      | with_reducible refine State.advance_kept ?_
      | with_reducible refine State.setChan_kept ?_
      | with_reducible refine State.pinTriggers_kept ?_
      | with_reducible refine State.decodeEdge_kept ?_

theorem execSpeedWindowEnd_kept {dt : Nat} {ch : ChanId} {s : State} : KeptNext mq lk s (execSpeedWindowEnd dt ch s) := by
  unfold execSpeedWindowEnd
  have h : Kept mq lk s s := Kept.refl
  refine ⟨_, rfl, ?_⟩
  try dsimp only
  repeat'
    first
      | with_reducible assumption
      | with_reducible refine Kept.ite (fun _ => ?_) (fun _ => ?_)
      | with_reducible refine Kept.ite2 (fun _ => ?_) (fun _ => ?_)
      | with_reducible refine Kept.dite (fun _ => ?_) (fun _ => ?_)
      | with_reducible refine State.advance_kept ?_
      | with_reducible refine State.setChan_kept ?_
      | with_reducible refine Kept.foldl ?_ ?_
      | fail_if_no_progress with_reducible refine Kept.upd ?_
      | refine Kept.tagsFilter ?_
      | refine Kept.enter ?_ ?_
      | dsimp only
      | split

theorem execStandstillTimeout_kept {dt : Nat} {ch : ChanId} {s : State} : KeptNext mq lk s (execStandstillTimeout dt ch s) := by
  unfold execStandstillTimeout
  have h : Kept mq lk s s := Kept.refl
  refine ⟨_, rfl, ?_⟩
  try dsimp only
  repeat'
    first
      | with_reducible assumption
      | with_reducible refine Kept.ite (fun _ => ?_) (fun _ => ?_)
      | with_reducible refine Kept.ite2 (fun _ => ?_) (fun _ => ?_)
      | with_reducible refine Kept.dite (fun _ => ?_) (fun _ => ?_)
      | with_reducible refine State.advance_kept ?_
      | with_reducible refine State.setChan_kept ?_
      | with_reducible refine State.clearSlot_kept ?_
      | with_reducible refine Kept.foldl ?_ ?_
      | fail_if_no_progress with_reducible refine Kept.upd ?_
      | refine Kept.tagsFilter ?_
      | refine Kept.enter ?_ ?_
      | dsimp only
      | split

theorem execLatchTrigger_kept {dt : Nat} {ch : ChanId} {s : State} : KeptNext mq lk s (execLatchTrigger dt ch s) := by
  unfold execLatchTrigger
  have h : Kept mq lk s s := Kept.refl
  refine ⟨_, rfl, ?_⟩
  try dsimp only
  repeat'
    first
      | with_reducible assumption
      | with_reducible refine Kept.ite (fun _ => ?_) (fun _ => ?_)
      | with_reducible refine Kept.ite2 (fun _ => ?_) (fun _ => ?_)
      | with_reducible refine Kept.dite (fun _ => ?_) (fun _ => ?_)
      | with_reducible refine State.setReg_kept ?_
      | with_reducible refine State.setBit_kept ?_
      | with_reducible refine State.flag_kept ?_
      | with_reducible refine State.irq_kept ?_
      | with_reducible refine State.bumpMod_kept ?_
      | with_reducible refine State.trace_kept ?_
      | with_reducible refine State.advance_kept ?_
      | with_reducible refine State.setChan_kept ?_
      | with_reducible refine Kept.foldl ?_ ?_
      | fail_if_no_progress with_reducible refine Kept.upd ?_
      | refine Kept.tagsFilter ?_
      | refine Kept.enter ?_ ?_
      | dsimp only
      | split

theorem execLattrig_kept {dt : Nat} {port : Port} {ch : ChanId} {value : Word} {s : State} : KeptNext mq lk s (execLattrig dt port ch value s) := by
  unfold execLattrig
  have h : Kept mq lk s s := Kept.refl
  refine ⟨_, rfl, ?_⟩
  try dsimp only
  repeat'
    first
      | with_reducible assumption
      | with_reducible refine Kept.ite (fun _ => ?_) (fun _ => ?_)
      | with_reducible refine Kept.ite2 (fun _ => ?_) (fun _ => ?_)
      | with_reducible refine Kept.dite (fun _ => ?_) (fun _ => ?_)
      | with_reducible refine State.advance_kept ?_
      | with_reducible refine State.portWrite_kept ?_ ?_
      | with_reducible refine State.writeLattrig_kept ?_
      | with_reducible refine Kept.foldl ?_ ?_
      | fail_if_no_progress with_reducible refine Kept.upd ?_
      | refine Kept.tagsFilter ?_
      | refine Kept.enter ?_ ?_
      | (intro _; intros; try dsimp only)

theorem execEchoPulse_kept {dt : Nat} {e : Fin 16} {s : State} : KeptNext mq lk s (execEchoPulse dt e s) := by
  unfold execEchoPulse
  have h : Kept mq lk s s := Kept.refl
  refine ⟨_, rfl, ?_⟩
  try dsimp only
  repeat'
    first
      | with_reducible assumption
      | with_reducible refine Kept.ite (fun _ => ?_) (fun _ => ?_)
      | with_reducible refine Kept.ite2 (fun _ => ?_) (fun _ => ?_)
      | with_reducible refine Kept.dite (fun _ => ?_) (fun _ => ?_)
      | with_reducible refine State.advance_kept ?_
      | with_reducible refine Kept.foldl ?_ ?_
      | fail_if_no_progress with_reducible refine Kept.upd ?_
      | refine Kept.tagsFilter ?_
      | refine Kept.enter ?_ ?_
      | dsimp only
      | split

theorem execFbkCfgWrite_kept {dt : Nat} {port : Port} {ch : ChanId} {wrap : Bool} {value : Word} {s : State} : KeptNext mq lk s (execFbkCfgWrite dt port ch wrap value s) := by
  unfold execFbkCfgWrite
  have h : Kept mq lk s s := Kept.refl
  refine ⟨_, rfl, ?_⟩
  try dsimp only
  repeat'
    first
      | with_reducible assumption
      | with_reducible refine Kept.ite (fun _ => ?_) (fun _ => ?_)
      | with_reducible refine Kept.ite2 (fun _ => ?_) (fun _ => ?_)
      | with_reducible refine Kept.dite (fun _ => ?_) (fun _ => ?_)
      | with_reducible refine State.advance_kept ?_
      | with_reducible refine State.portWrite_kept ?_ ?_
      | with_reducible refine State.writeFbkCfg_kept ?_
      | with_reducible refine Kept.foldl ?_ ?_
      | fail_if_no_progress with_reducible refine Kept.upd ?_
      | refine Kept.tagsFilter ?_
      | refine Kept.enter ?_ ?_
      | (intro _; intros; try dsimp only)

theorem execSlotcfgWrite_kept {dt : Nat} {port : Port} {slot : Fin 8} {value : Word} {s : State} : KeptNext mq lk s (execSlotcfgWrite dt port slot value s) := by
  unfold execSlotcfgWrite
  have h : Kept mq lk s s := Kept.refl
  refine ⟨_, rfl, ?_⟩
  try dsimp only
  repeat'
    first
      | with_reducible assumption
      | with_reducible refine Kept.ite (fun _ => ?_) (fun _ => ?_)
      | with_reducible refine Kept.ite2 (fun _ => ?_) (fun _ => ?_)
      | with_reducible refine Kept.dite (fun _ => ?_) (fun _ => ?_)
      | with_reducible refine State.advance_kept ?_
      | with_reducible refine State.portWrite_kept ?_ ?_
      | with_reducible refine State.writeSlot_kept ?_
      | with_reducible refine Kept.foldl ?_ ?_
      | fail_if_no_progress with_reducible refine Kept.upd ?_
      | refine Kept.tagsFilter ?_
      | refine Kept.enter ?_ ?_
      | (intro _; intros; try dsimp only)

theorem execEchoConfigWrite_kept {dt : Nat} {port : Port} {e : Fin 16} {ratio : Bool} {value : Word} {s : State} : KeptNext mq lk s (execEchoConfigWrite dt port e ratio value s) := by
  unfold execEchoConfigWrite
  have h : Kept mq lk s s := Kept.refl
  refine ⟨_, rfl, ?_⟩
  try dsimp only
  repeat'
    first
      | with_reducible assumption
      | with_reducible refine Kept.ite (fun _ => ?_) (fun _ => ?_)
      | with_reducible refine Kept.ite2 (fun _ => ?_) (fun _ => ?_)
      | with_reducible refine Kept.dite (fun _ => ?_) (fun _ => ?_)
      | with_reducible refine State.advance_kept ?_
      | with_reducible refine State.portWrite_kept ?_ ?_
      | with_reducible refine State.writeEcho_kept ?_
      | with_reducible refine Kept.foldl ?_ ?_
      | fail_if_no_progress with_reducible refine Kept.upd ?_
      | refine Kept.tagsFilter ?_
      | refine Kept.enter ?_ ?_
      | (intro _; intros; try dsimp only)

theorem execCarrierBoundary_kept {dt : Nat} {a : AxisId} {s : State} : KeptNext mq lk s (execCarrierBoundary dt a s) := by
  unfold execCarrierBoundary
  have h : Kept mq lk s s := Kept.refl
  refine ⟨_, rfl, ?_⟩
  try dsimp only
  repeat'
    first
      | with_reducible assumption
      | with_reducible refine Kept.ite (fun _ => ?_) (fun _ => ?_)
      | with_reducible refine Kept.ite2 (fun _ => ?_) (fun _ => ?_)
      | with_reducible refine Kept.dite (fun _ => ?_) (fun _ => ?_)
      | with_reducible refine State.advance_kept ?_
      | with_reducible refine State.guySync_kept ?_
      | with_reducible refine State.setPwm_kept ?_
      | with_reducible refine State.setLoop_kept ?_
      | with_reducible refine State.planCoil_kept ?_
      | with_reducible refine State.flag_kept ?_

theorem execLegEdge_kept {dt : Nat} {a : AxisId} {l : LegId} {s : State} : KeptNext mq lk s (execLegEdge dt a l s) := by
  unfold execLegEdge
  have h : Kept mq lk s s := Kept.refl
  refine ⟨_, rfl, ?_⟩
  try dsimp only
  repeat'
    first
      | with_reducible assumption
      | with_reducible refine Kept.ite (fun _ => ?_) (fun _ => ?_)
      | with_reducible refine Kept.ite2 (fun _ => ?_) (fun _ => ?_)
      | with_reducible refine Kept.dite (fun _ => ?_) (fun _ => ?_)
      | with_reducible refine State.setPwm_kept ?_
      | with_reducible refine State.setTile_kept ?_
      | with_reducible refine State.advance_kept ?_
      | with_reducible refine Kept.foldl ?_ ?_
      | fail_if_no_progress with_reducible refine Kept.upd ?_
      | refine Kept.tagsFilter ?_
      | refine Kept.enter ?_ ?_
      | dsimp only
      | split

theorem execDutyArrival_kept {dt : Nat} {a : AxisId} {c : CoilId} {s : State} : KeptNext mq lk s (execDutyArrival dt a c s) := by
  unfold execDutyArrival
  have h : Kept mq lk s s := Kept.refl
  refine ⟨_, rfl, ?_⟩
  try dsimp only
  repeat'
    first
      | with_reducible assumption
      | with_reducible refine Kept.ite (fun _ => ?_) (fun _ => ?_)
      | with_reducible refine Kept.ite2 (fun _ => ?_) (fun _ => ?_)
      | with_reducible refine Kept.dite (fun _ => ?_) (fun _ => ?_)
      | with_reducible refine State.advance_kept ?_
      | with_reducible refine State.setPwm_kept ?_
      | with_reducible refine State.setFld_kept ?_
      | with_reducible refine State.peak_kept ?_
      | with_reducible refine State.startLegs_kept ?_
      | with_reducible refine State.replanCoil_kept ?_
      | with_reducible refine State.trace_kept ?_
      | with_reducible refine Kept.foldl ?_ ?_
      | fail_if_no_progress with_reducible refine Kept.upd ?_
      | refine Kept.tagsFilter ?_
      | dsimp only
      | split

theorem execHalfWrite_kept {dt : Nat} {port : Port} {a : AxisId} {value : Word} {s : State} : KeptNext mq lk s (execHalfWrite dt port a value s) := by
  unfold execHalfWrite
  have h : Kept mq lk s s := Kept.refl
  refine ⟨_, rfl, ?_⟩
  try dsimp only
  repeat'
    first
      | with_reducible assumption
      | with_reducible refine Kept.ite (fun _ => ?_) (fun _ => ?_)
      | with_reducible refine Kept.ite2 (fun _ => ?_) (fun _ => ?_)
      | with_reducible refine Kept.dite (fun _ => ?_) (fun _ => ?_)
      | with_reducible refine State.advance_kept ?_
      | with_reducible refine State.portWrite_kept ?_ ?_
      | with_reducible refine State.writePwmCfg_kept ?_
      | with_reducible refine Kept.foldl ?_ ?_
      | fail_if_no_progress with_reducible refine Kept.upd ?_
      | refine Kept.tagsFilter ?_
      | refine Kept.enter ?_ ?_
      | (intro _; intros; try dsimp only)

theorem execSampleStrobe_kept {dt : Nat} {a : AxisId} {m : Strobe} {s : State} : KeptNext mq lk s (execSampleStrobe dt a m s) := by
  unfold execSampleStrobe
  have h : Kept mq lk s s := Kept.refl
  refine ⟨_, rfl, ?_⟩
  try dsimp only
  repeat'
    first
      | with_reducible assumption
      | with_reducible refine Kept.ite (fun _ => ?_) (fun _ => ?_)
      | with_reducible refine Kept.ite2 (fun _ => ?_) (fun _ => ?_)
      | with_reducible refine Kept.dite (fun _ => ?_) (fun _ => ?_)
      | with_reducible refine State.advance_kept ?_
      | with_reducible refine State.modAx_kept ?_
      | with_reducible refine State.setFld_kept ?_
      | with_reducible refine State.peak_kept ?_
      | with_reducible refine State.setReg_kept ?_
      | with_reducible refine State.trace_kept ?_

theorem execDelayLineSwap_kept {dt : Nat} {b : BankId} {trim : Int} {error : Int} {s : State} : KeptNext mq lk s (execDelayLineSwap dt b trim error s) := by
  unfold execDelayLineSwap
  have h : Kept mq lk s s := Kept.refl
  refine ⟨_, rfl, ?_⟩
  try dsimp only
  repeat'
    first
      | with_reducible assumption
      | with_reducible refine Kept.ite (fun _ => ?_) (fun _ => ?_)
      | with_reducible refine Kept.ite2 (fun _ => ?_) (fun _ => ?_)
      | with_reducible refine Kept.dite (fun _ => ?_) (fun _ => ?_)
      | with_reducible refine State.advance_kept ?_
      | with_reducible refine State.setBank_kept ?_
      | with_reducible refine State.bumpMod_kept ?_
      | with_reducible refine State.bump_kept ?_
      | with_reducible refine State.raiseC0_kept ?_

theorem execTripActive_kept {dt : Nat} {k : Fin 16} {s : State} : KeptNext mq lk s (execTripActive dt k s) := by
  unfold execTripActive
  have h : Kept mq lk s s := Kept.refl
  refine ⟨_, rfl, ?_⟩
  try dsimp only
  repeat'
    first
      | with_reducible assumption
      | with_reducible refine Kept.ite (fun _ => ?_) (fun _ => ?_)
      | with_reducible refine Kept.ite2 (fun _ => ?_) (fun _ => ?_)
      | with_reducible refine Kept.dite (fun _ => ?_) (fun _ => ?_)
      | with_reducible refine State.advance_kept ?_
      | with_reducible refine State.latchTrip_kept ?_
      | with_reducible refine Kept.foldl ?_ ?_
      | fail_if_no_progress with_reducible refine Kept.upd ?_

theorem execTripInputHigh_kept {dt : Nat} {k : Fin 16} {s : State} : KeptNext mq lk s (execTripInputHigh dt k s) := by
  unfold execTripInputHigh
  have h : Kept mq lk s s := Kept.refl
  refine ⟨_, rfl, ?_⟩
  try dsimp only
  repeat'
    first
      | with_reducible assumption
      | with_reducible refine Kept.ite (fun _ => ?_) (fun _ => ?_)
      | with_reducible refine Kept.ite2 (fun _ => ?_) (fun _ => ?_)
      | with_reducible refine Kept.dite (fun _ => ?_) (fun _ => ?_)
      | with_reducible refine State.advance_kept ?_
      | with_reducible refine Kept.foldl ?_ ?_
      | fail_if_no_progress with_reducible refine Kept.upd ?_

theorem execTripClear_kept {dt : Nat} {port : Port} {value : Word} {s : State} : KeptNext mq lk s (execTripClear dt port value s) := by
  unfold execTripClear
  have h : Kept mq lk s s := Kept.refl
  refine ⟨_, rfl, ?_⟩
  try dsimp only
  repeat'
    first
      | with_reducible assumption
      | with_reducible refine Kept.ite (fun _ => ?_) (fun _ => ?_)
      | with_reducible refine Kept.ite2 (fun _ => ?_) (fun _ => ?_)
      | with_reducible refine Kept.dite (fun _ => ?_) (fun _ => ?_)
      | with_reducible refine State.advance_kept ?_
      | with_reducible refine State.portWrite_kept ?_ ?_
      | with_reducible refine State.clearTrips_kept2 ?_
      | with_reducible refine State.clearTrips_kept (by with_reducible assumption) ?_
      | with_reducible refine Kept.foldl ?_ ?_
      | fail_if_no_progress with_reducible refine Kept.upd ?_
      | refine Kept.tagsFilter ?_
      | refine Kept.enter ?_ ?_
      | (intro _; intros; try dsimp only)

theorem execGuyHeadPulse_kept {dt : Nat} {s : State} : KeptNext mq lk s (execGuyHeadPulse dt s) := by
  unfold execGuyHeadPulse
  have h : Kept mq lk s s := Kept.refl
  refine ⟨_, rfl, ?_⟩
  try dsimp only
  repeat'
    first
      | with_reducible assumption
      | with_reducible refine Kept.ite (fun _ => ?_) (fun _ => ?_)
      | with_reducible refine Kept.ite2 (fun _ => ?_) (fun _ => ?_)
      | with_reducible refine Kept.dite (fun _ => ?_) (fun _ => ?_)
      | with_reducible refine State.advance_kept ?_
      | with_reducible refine State.guySync_kept ?_
      | with_reducible refine Kept.foldl ?_ ?_
      | fail_if_no_progress with_reducible refine Kept.upd ?_

theorem execGuyPulseAccepted_kept {dt : Nat} {fine : Fin 16} {s : State} : KeptNext mq lk s (execGuyPulseAccepted dt fine s) := by
  unfold execGuyPulseAccepted
  have h : Kept mq lk s s := Kept.refl
  refine ⟨_, rfl, ?_⟩
  try dsimp only
  repeat'
    first
      | with_reducible assumption
      | with_reducible refine Kept.ite (fun _ => ?_) (fun _ => ?_)
      | with_reducible refine Kept.ite2 (fun _ => ?_) (fun _ => ?_)
      | with_reducible refine Kept.dite (fun _ => ?_) (fun _ => ?_)
      | with_reducible refine State.advance_kept ?_
      | with_reducible refine State.guySync_kept ?_
      | with_reducible refine State.setReg_kept ?_
      | with_reducible refine State.setBit_kept ?_
      | with_reducible refine State.bumpMod_kept ?_
      | with_reducible refine State.flag_kept ?_
      | with_reducible refine State.raiseC0_kept ?_
      | with_reducible refine Kept.foldl ?_ ?_
      | fail_if_no_progress with_reducible refine Kept.upd ?_

theorem execGuyLost_kept {dt : Nat} {s : State} : KeptNext mq lk s (execGuyLost dt s) := by
  unfold execGuyLost
  have h : Kept mq lk s s := Kept.refl
  refine ⟨_, rfl, ?_⟩
  try dsimp only
  repeat'
    first
      | with_reducible assumption
      | with_reducible refine Kept.ite (fun _ => ?_) (fun _ => ?_)
      | with_reducible refine Kept.ite2 (fun _ => ?_) (fun _ => ?_)
      | with_reducible refine Kept.dite (fun _ => ?_) (fun _ => ?_)
      | with_reducible refine State.advance_kept ?_
      | with_reducible refine State.guySync_kept ?_
      | with_reducible refine State.setBit_kept ?_
      | with_reducible refine State.flag_kept ?_
      | with_reducible refine State.raiseC0_kept ?_
      | with_reducible refine Kept.foldl ?_ ?_
      | fail_if_no_progress with_reducible refine Kept.upd ?_

theorem execCauseRaised_kept {dt : Nat} {source : Fin 22} {disagree : Bool} {s : State} :
    KeptNext mq lk s (execCauseRaised dt source disagree s) := by
  unfold execCauseRaised
  have h : Kept mq lk s s := Kept.refl
  refine ⟨_, rfl, ?_⟩
  try dsimp only
  repeat'
    first
      | with_reducible assumption
      | with_reducible refine Kept.ite (fun _ => ?_) (fun _ => ?_)
      | with_reducible refine Kept.ite2 (fun _ => ?_) (fun _ => ?_)
      | with_reducible refine Kept.dite (fun _ => ?_) (fun _ => ?_)
      | with_reducible refine State.advance_kept ?_
      | with_reducible refine State.fltSelf_kept ?_
      | with_reducible refine State.takeItem_kept ?_
      | with_reducible refine Kept.foldl ?_ ?_
      | fail_if_no_progress with_reducible refine Kept.upd ?_
      | refine Kept.tagsFilter ?_
      | refine Kept.enter ?_ ?_
      | dsimp only
      | split

theorem execFlueWire_kept {dt : Nat} {source : Fin 22} {s : State} : KeptNext mq lk s (execFlueWire dt source s) := by
  unfold execFlueWire
  have h : Kept mq lk s s := Kept.refl
  refine ⟨_, rfl, ?_⟩
  try dsimp only
  repeat'
    first
      | with_reducible assumption
      | with_reducible refine Kept.ite (fun _ => ?_) (fun _ => ?_)
      | with_reducible refine Kept.ite2 (fun _ => ?_) (fun _ => ?_)
      | with_reducible refine Kept.dite (fun _ => ?_) (fun _ => ?_)
      | with_reducible refine State.advance_kept ?_
      | with_reducible refine State.breakPair_kept ?_

theorem execFlueStuck_kept {dt : Nat} {source : Fin 22} {s : State} : KeptNext mq lk s (execFlueStuck dt source s) := by
  unfold execFlueStuck
  have h : Kept mq lk s s := Kept.refl
  refine ⟨_, rfl, ?_⟩
  try dsimp only
  repeat'
    first
      | with_reducible assumption
      | with_reducible refine Kept.ite (fun _ => ?_) (fun _ => ?_)
      | with_reducible refine Kept.ite2 (fun _ => ?_) (fun _ => ?_)
      | with_reducible refine Kept.dite (fun _ => ?_) (fun _ => ?_)
      | with_reducible refine State.advance_kept ?_
      | with_reducible refine State.breakPair_kept ?_

theorem execFluePairRestored_kept {dt : Nat} {source : Fin 22} {s : State} : KeptNext mq lk s (execFluePairRestored dt source s) := by
  unfold execFluePairRestored
  have h : Kept mq lk s s := Kept.refl
  refine ⟨_, rfl, ?_⟩
  try dsimp only
  repeat'
    first
      | with_reducible assumption
      | with_reducible refine Kept.ite (fun _ => ?_) (fun _ => ?_)
      | with_reducible refine Kept.ite2 (fun _ => ?_) (fun _ => ?_)
      | with_reducible refine Kept.dite (fun _ => ?_) (fun _ => ?_)
      | with_reducible refine State.advance_kept ?_
      | with_reducible refine Kept.foldl ?_ ?_
      | fail_if_no_progress with_reducible refine Kept.upd ?_

theorem execSs1StopEnd_kept {dt : Nat} {a : AxisId} {s : State} : KeptNext mq lk s (execSs1StopEnd dt a s) := by
  unfold execSs1StopEnd
  have h : Kept mq lk s s := Kept.refl
  refine ⟨_, rfl, ?_⟩
  try dsimp only
  repeat'
    first
      | with_reducible assumption
      | with_reducible refine Kept.ite (fun _ => ?_) (fun _ => ?_)
      | with_reducible refine Kept.ite2 (fun _ => ?_) (fun _ => ?_)
      | with_reducible refine Kept.dite (fun _ => ?_) (fun _ => ?_)
      | with_reducible refine State.advance_kept ?_
      | with_reducible refine State.actC2_kept ?_
      | with_reducible refine State.retireSteps_kept ?_
      | with_reducible refine State.spreadShares_kept ?_
      | with_reducible refine Kept.foldl ?_ ?_
      | fail_if_no_progress with_reducible refine Kept.upd ?_
      | refine Kept.tagsFilter ?_
      | refine Kept.enter ?_ ?_
      | dsimp only
      | split

theorem execRetryRelease_kept {dt : Nat} {a : AxisId} {s : State} : KeptNext mq lk s (execRetryRelease dt a s) := by
  unfold execRetryRelease
  have h : Kept mq lk s s := Kept.refl
  refine ⟨_, rfl, ?_⟩
  try dsimp only
  repeat'
    first
      | with_reducible assumption
      | with_reducible refine Kept.ite (fun _ => ?_) (fun _ => ?_)
      | with_reducible refine Kept.ite2 (fun _ => ?_) (fun _ => ?_)
      | with_reducible refine Kept.dite (fun _ => ?_) (fun _ => ?_)
      | with_reducible refine State.modAx_kept ?_
      | with_reducible refine State.setTile_kept ?_
      | with_reducible refine State.eachOf_kept ?_ ?_
      | with_reducible refine State.advance_kept ?_
      | with_reducible refine State.syncReady_kept ?_
      | with_reducible refine State.closeRec_kept ?_
      | with_reducible refine Kept.foldl ?_ ?_
      | fail_if_no_progress with_reducible refine Kept.upd ?_
      | refine Kept.tagsFilter ?_
      | refine Kept.enter ?_ ?_
      | (intro _; intros; try dsimp only)
      | dsimp only
      | split

theorem execRetirementRecordWritten_kept {dt : Nat} {a : AxisId} {s : State} :
    KeptNext mq lk s (execRetirementRecordWritten dt a s) := by
  have h : Kept mq lk s (s.advance dt) := State.advance_kept Kept.refl
  have g : ∀ ws f, Kept mq lk s (State.modAx { s.advance dt with hearth := { (s.advance dt).hearth with
      retire := putWords (s.advance dt).hearth.retire (4 * a.val) ws } } a f) :=
    fun _ _ => State.modAx_kept (h.storage (Hearth.keeps id (putWords_wf _ _) id))
  have j : ∀ t (o : Option Nat), Kept mq lk s t → Kept mq lk s (match o with | some id => t.done id | none => t) :=
    fun t o x => by cases o with
      | none => exact x
      | some id => exact State.done_kept x
  refine ⟨_, rfl, ?_⟩
  refine Kept.ite (fun _ => h) fun _ => State.closeRec_kept ?_
  exact Kept.ite (fun _ => State.axctlResult_kept (j _ _ (g _ _))) fun _ => j _ _ (g _ _)

theorem execReinstatementEnded_kept {dt : Nat} {a : AxisId} {s : State} :
    KeptNext mq lk s (execReinstatementEnded dt a s) := by
  have h : Kept mq lk s (s.advance dt) := State.advance_kept Kept.refl
  have h' : Kept mq lk s ((s.advance dt).setReg (retFlag a) 0) := State.setReg_kept h
  have g : ∀ ws f, Kept mq lk s (State.modAx { (s.advance dt).setReg (retFlag a) 0 with hearth :=
      { ((s.advance dt).setReg (retFlag a) 0).hearth with
        retire := putWords ((s.advance dt).setReg (retFlag a) 0).hearth.retire (4 * a.val) ws } } a f) :=
    fun _ _ => State.modAx_kept (h'.storage (Hearth.keeps id (putWords_wf _ _) id))
  have j : ∀ t (o : Option Nat), Kept mq lk s t → Kept mq lk s (match o with | some id => t.done id | none => t) :=
    fun t o x => by cases o with
      | none => exact x
      | some id => exact State.done_kept x
  refine ⟨_, rfl, ?_⟩
  refine Kept.ite (fun _ => h) fun _ => ?_
  exact Kept.ite (fun _ => State.axctlResult_kept (j _ _ (g _ _))) fun _ => j _ _ (g _ _)

theorem execErrpinWrite_kept {dt : Nat} {port : Port} {value : Word} {s : State} : KeptNext mq lk s (execErrpinWrite dt port value s) := by
  unfold execErrpinWrite
  have h : Kept mq lk s s := Kept.refl
  refine ⟨_, rfl, ?_⟩
  try dsimp only
  repeat'
    first
      | with_reducible assumption
      | with_reducible refine Kept.ite (fun _ => ?_) (fun _ => ?_)
      | with_reducible refine Kept.ite2 (fun _ => ?_) (fun _ => ?_)
      | with_reducible refine Kept.dite (fun _ => ?_) (fun _ => ?_)
      | with_reducible refine State.advance_kept ?_
      | with_reducible refine State.portWrite_kept ?_ ?_
      | with_reducible refine State.writeErrpin_kept ?_
      | with_reducible refine Kept.foldl ?_ ?_
      | fail_if_no_progress with_reducible refine Kept.upd ?_
      | refine Kept.tagsFilter ?_
      | refine Kept.enter ?_ ?_
      | (intro _; intros; try dsimp only)

theorem execErrPulseEnd_kept {dt : Nat} {s : State} : KeptNext mq lk s (execErrPulseEnd dt s) := by
  unfold execErrPulseEnd
  have h : Kept mq lk s s := Kept.refl
  refine ⟨_, rfl, ?_⟩
  try dsimp only
  repeat'
    first
      | with_reducible assumption
      | with_reducible refine Kept.ite (fun _ => ?_) (fun _ => ?_)
      | with_reducible refine Kept.ite2 (fun _ => ?_) (fun _ => ?_)
      | with_reducible refine Kept.dite (fun _ => ?_) (fun _ => ?_)
      | with_reducible refine State.setFld_kept ?_
      | with_reducible refine State.advance_kept ?_
      | with_reducible refine State.errLevel_kept ?_
      | with_reducible refine Kept.foldl ?_ ?_
      | fail_if_no_progress with_reducible refine Kept.upd ?_
      | refine Kept.tagsFilter ?_
      | refine Kept.enter ?_ ?_
      | dsimp only
      | split

theorem execEmberWriteDone_kept {dt : Nat} {ok zeroed : Bool} {s : State} : KeptNext mq lk s (execEmberWriteDone dt ok zeroed s) := by
  have h : Kept mq lk s (s.advance dt) := State.advance_kept Kept.refl
  refine ⟨_, rfl, ?_⟩
  refine Kept.ite (fun _ => h) fun _ => ?_
  split
  · exact State.emberDone_kept (h.storage id)
  · exact h

theorem execAutoDiagDone_kept {dt : Nat} {a : AxisId} {continuity : Bool} {abortTrip : Bool} {vbus : BitVec 12} {s : State} : KeptNext mq lk s (execAutoDiagDone dt a continuity abortTrip vbus s) := by
  unfold execAutoDiagDone
  have h : Kept mq lk s s := Kept.refl
  refine ⟨_, rfl, ?_⟩
  try dsimp only
  repeat'
    first
      | with_reducible assumption
      | with_reducible refine Kept.ite (fun _ => ?_) (fun _ => ?_)
      | with_reducible refine Kept.ite2 (fun _ => ?_) (fun _ => ?_)
      | with_reducible refine Kept.dite (fun _ => ?_) (fun _ => ?_)
      | with_reducible refine State.advance_kept ?_
      | with_reducible refine State.setTile_kept ?_
      | with_reducible refine State.setReg_kept ?_
      | with_reducible refine State.bumpMod_kept ?_
      | with_reducible refine State.setFld_kept ?_
      | with_reducible refine State.subCause_kept ?_
      | with_reducible refine Kept.foldl ?_ ?_
      | fail_if_no_progress with_reducible refine Kept.upd ?_
      | refine Kept.tagsFilter ?_
      | dsimp only
      | split

theorem execScSense_kept {dt : Nat} {a : AxisId} {m : SenseHit} {s : State} : KeptNext mq lk s (execScSense dt a m s) := by
  unfold execScSense
  have h : Kept mq lk s s := Kept.refl
  refine ⟨_, rfl, ?_⟩
  try dsimp only
  repeat'
    first
      | with_reducible assumption
      | with_reducible refine Kept.ite (fun _ => ?_) (fun _ => ?_)
      | with_reducible refine Kept.ite2 (fun _ => ?_) (fun _ => ?_)
      | with_reducible refine Kept.dite (fun _ => ?_) (fun _ => ?_)
      | with_reducible refine State.advance_kept ?_
      | with_reducible refine State.abortPulse_kept ?_
      | with_reducible refine State.modTile_kept ?_
      | with_reducible refine State.evt_kept ?_
      | with_reducible refine State.raiseAx_kept ?_
      | with_reducible refine Kept.foldl ?_ ?_
      | fail_if_no_progress with_reducible refine Kept.upd ?_
      | refine Kept.tagsFilter ?_
      | dsimp only
      | split
      | (intro _; intros; try dsimp only)

theorem execShuntOc_kept {dt : Nat} {a : AxisId} {m : ShuntHit} {s : State} : KeptNext mq lk s (execShuntOc dt a m s) := by
  unfold execShuntOc
  have h : Kept mq lk s s := Kept.refl
  refine ⟨_, rfl, ?_⟩
  try dsimp only
  repeat'
    first
      | with_reducible assumption
      | with_reducible refine Kept.ite (fun _ => ?_) (fun _ => ?_)
      | with_reducible refine Kept.ite2 (fun _ => ?_) (fun _ => ?_)
      | with_reducible refine Kept.dite (fun _ => ?_) (fun _ => ?_)
      | with_reducible refine State.advance_kept ?_
      | with_reducible refine State.abortPulse_kept ?_
      | with_reducible refine State.modTile_kept ?_
      | with_reducible refine State.evt_kept ?_
      | with_reducible refine State.raiseAx_kept ?_
      | with_reducible refine Kept.foldl ?_ ?_
      | fail_if_no_progress with_reducible refine Kept.upd ?_
      | refine Kept.tagsFilter ?_
      | dsimp only
      | split
      | (intro _; intros; try dsimp only)

theorem execVgUvlo_kept {dt : Nat} {b : BankId} {code : BitVec 12} {s : State} : KeptNext mq lk s (execVgUvlo dt b code s) := by
  unfold execVgUvlo
  have h : Kept mq lk s s := Kept.refl
  refine ⟨_, rfl, ?_⟩
  try dsimp only
  repeat'
    first
      | with_reducible assumption
      | with_reducible refine Kept.ite (fun _ => ?_) (fun _ => ?_)
      | with_reducible refine Kept.ite2 (fun _ => ?_) (fun _ => ?_)
      | with_reducible refine Kept.dite (fun _ => ?_) (fun _ => ?_)
      | with_reducible refine State.setFld_kept ?_
      | with_reducible refine State.raiseBank_kept ?_
      | with_reducible refine State.advance_kept ?_
      | with_reducible refine State.modBank_kept ?_
      | with_reducible refine State.syncBank_kept ?_

theorem execVgRecovery_kept {dt : Nat} {b : BankId} {code : BitVec 12} {s : State} : KeptNext mq lk s (execVgRecovery dt b code s) := by
  unfold execVgRecovery
  have h : Kept mq lk s s := Kept.refl
  refine ⟨_, rfl, ?_⟩
  try dsimp only
  repeat'
    first
      | with_reducible assumption
      | with_reducible refine Kept.ite (fun _ => ?_) (fun _ => ?_)
      | with_reducible refine Kept.ite2 (fun _ => ?_) (fun _ => ?_)
      | with_reducible refine Kept.dite (fun _ => ?_) (fun _ => ?_)
      | with_reducible refine State.advance_kept ?_
      | with_reducible refine State.setFld_kept ?_
      | with_reducible refine State.modBank_kept ?_
      | with_reducible refine State.freeBank_kept ?_

theorem execBootUvlo_kept {dt : Nat} {a : AxisId} {l : LegId} {volts : BitVec 12} {s : State} : KeptNext mq lk s (execBootUvlo dt a l volts s) := by
  unfold execBootUvlo
  have h : Kept mq lk s s := Kept.refl
  refine ⟨_, rfl, ?_⟩
  try dsimp only
  repeat'
    first
      | with_reducible assumption
      | with_reducible refine Kept.ite (fun _ => ?_) (fun _ => ?_)
      | with_reducible refine Kept.ite2 (fun _ => ?_) (fun _ => ?_)
      | with_reducible refine Kept.dite (fun _ => ?_) (fun _ => ?_)
      | with_reducible refine State.advance_kept ?_
      | with_reducible refine State.measureBoot_kept ?_
      | with_reducible refine State.bootHold_kept ?_

theorem execBootstrapRefresh_kept {dt : Nat} {a : AxisId} {l : LegId} {s : State} : KeptNext mq lk s (execBootstrapRefresh dt a l s) := by
  unfold execBootstrapRefresh
  have h : Kept mq lk s s := Kept.refl
  refine ⟨_, rfl, ?_⟩
  try dsimp only
  repeat'
    first
      | with_reducible assumption
      | with_reducible refine Kept.ite (fun _ => ?_) (fun _ => ?_)
      | with_reducible refine Kept.ite2 (fun _ => ?_) (fun _ => ?_)
      | with_reducible refine Kept.dite (fun _ => ?_) (fun _ => ?_)
      | with_reducible refine State.bumpMod_kept ?_
      | with_reducible refine State.setTile_kept ?_
      | with_reducible refine State.advance_kept ?_

theorem execPrechargeDone_kept {dt : Nat} {a : AxisId} {boots : Vector (BitVec 12) 4} {offsets : Vector (BitVec 12) 2} {s : State} : KeptNext mq lk s (execPrechargeDone dt a boots offsets s) := by
  unfold execPrechargeDone
  have h : Kept mq lk s s := Kept.refl
  refine ⟨_, rfl, ?_⟩
  try dsimp only
  repeat'
    first
      | with_reducible assumption
      | with_reducible refine Kept.ite (fun _ => ?_) (fun _ => ?_)
      | with_reducible refine Kept.ite2 (fun _ => ?_) (fun _ => ?_)
      | with_reducible refine Kept.dite (fun _ => ?_) (fun _ => ?_)
      | with_reducible refine State.advance_kept ?_
      | with_reducible refine State.modTile_kept ?_
      | with_reducible refine State.measureBoot_kept ?_
      | with_reducible refine State.takeOffset_kept ?_
      | with_reducible refine State.bump_kept ?_
      | with_reducible refine State.bootHold_kept ?_
      | with_reducible refine State.setChp_kept ?_
      | with_reducible refine Kept.foldl ?_ ?_
      | fail_if_no_progress with_reducible refine Kept.upd ?_
      | refine Kept.tagsFilter ?_
      | dsimp only
      | split
      | (intro _; intros; try dsimp only)

theorem execSenseDisagree_kept {dt : Nat} {a : AxisId} {m : SenseCheck} {s : State} : KeptNext mq lk s (execSenseDisagree dt a m s) := by
  unfold execSenseDisagree
  have h : Kept mq lk s s := Kept.refl
  refine ⟨_, rfl, ?_⟩
  try dsimp only
  repeat'
    first
      | with_reducible assumption
      | with_reducible refine Kept.ite (fun _ => ?_) (fun _ => ?_)
      | with_reducible refine Kept.ite2 (fun _ => ?_) (fun _ => ?_)
      | with_reducible refine Kept.dite (fun _ => ?_) (fun _ => ?_)
      | with_reducible refine State.advance_kept ?_
      | with_reducible refine State.modTile_kept ?_
      | with_reducible refine State.evt_kept ?_
      | with_reducible refine State.raiseAx_kept ?_

theorem execNoCurrent_kept {dt : Nat} {a : AxisId} {m : SenseCheck} {s : State} : KeptNext mq lk s (execNoCurrent dt a m s) := by
  unfold execNoCurrent
  have h : Kept mq lk s s := Kept.refl
  refine ⟨_, rfl, ?_⟩
  try dsimp only
  repeat'
    first
      | with_reducible assumption
      | with_reducible refine Kept.ite (fun _ => ?_) (fun _ => ?_)
      | with_reducible refine Kept.ite2 (fun _ => ?_) (fun _ => ?_)
      | with_reducible refine Kept.dite (fun _ => ?_) (fun _ => ?_)
      | with_reducible refine State.advance_kept ?_
      | with_reducible refine State.bridge_kept ?_
      | with_reducible refine State.modTile_kept ?_
      | with_reducible refine State.evt_kept ?_
      | with_reducible refine State.raiseAx_kept ?_

theorem execShrefLost_kept {dt : Nat} {b : BankId} {offset : BitVec 12} {s : State} : KeptNext mq lk s (execShrefLost dt b offset s) := by
  unfold execShrefLost
  have h : Kept mq lk s s := Kept.refl
  refine ⟨_, rfl, ?_⟩
  try dsimp only
  repeat'
    first
      | with_reducible assumption
      | with_reducible refine Kept.ite (fun _ => ?_) (fun _ => ?_)
      | with_reducible refine Kept.ite2 (fun _ => ?_) (fun _ => ?_)
      | with_reducible refine Kept.dite (fun _ => ?_) (fun _ => ?_)
      | with_reducible refine State.setFld_kept ?_
      | with_reducible refine State.raiseBank_kept ?_
      | with_reducible refine State.advance_kept ?_
      | with_reducible refine State.modBank_kept ?_

theorem execBusOv_kept {dt : Nat} {b : BankId} {code : BitVec 12} {s : State} : KeptNext mq lk s (execBusOv dt b code s) := by
  unfold execBusOv
  have h : Kept mq lk s s := Kept.refl
  refine ⟨_, rfl, ?_⟩
  try dsimp only
  repeat'
    first
      | with_reducible assumption
      | with_reducible refine Kept.ite (fun _ => ?_) (fun _ => ?_)
      | with_reducible refine Kept.ite2 (fun _ => ?_) (fun _ => ?_)
      | with_reducible refine Kept.dite (fun _ => ?_) (fun _ => ?_)
      | with_reducible refine State.raiseBank_kept ?_
      | with_reducible refine State.advance_kept ?_
      | with_reducible refine State.modBank_kept ?_
      | with_reducible refine State.syncBank_kept ?_
      | with_reducible refine State.busCode_kept ?_

theorem execBusUv_kept {dt : Nat} {b : BankId} {code : BitVec 12} {s : State} : KeptNext mq lk s (execBusUv dt b code s) := by
  unfold execBusUv
  have h : Kept mq lk s s := Kept.refl
  refine ⟨_, rfl, ?_⟩
  try dsimp only
  repeat'
    first
      | with_reducible assumption
      | with_reducible refine Kept.ite (fun _ => ?_) (fun _ => ?_)
      | with_reducible refine Kept.ite2 (fun _ => ?_) (fun _ => ?_)
      | with_reducible refine Kept.dite (fun _ => ?_) (fun _ => ?_)
      | with_reducible refine State.raiseBank_kept ?_
      | with_reducible refine State.advance_kept ?_
      | with_reducible refine State.modBank_kept ?_
      | with_reducible refine State.syncBank_kept ?_
      | with_reducible refine State.busCode_kept ?_

theorem execTileWarm_kept {dt : Nat} {b : BankId} {temp : BitVec 12} {s : State} : KeptNext mq lk s (execTileWarm dt b temp s) := by
  unfold execTileWarm
  have h : Kept mq lk s s := Kept.refl
  refine ⟨_, rfl, ?_⟩
  try dsimp only
  repeat'
    first
      | with_reducible assumption
      | with_reducible refine Kept.ite (fun _ => ?_) (fun _ => ?_)
      | with_reducible refine Kept.ite2 (fun _ => ?_) (fun _ => ?_)
      | with_reducible refine Kept.dite (fun _ => ?_) (fun _ => ?_)
      | with_reducible refine State.setFld_kept ?_
      | with_reducible refine State.raiseBank_kept ?_
      | with_reducible refine State.advance_kept ?_
      | with_reducible refine State.modBank_kept ?_

theorem execTileOt_kept {dt : Nat} {b : BankId} {temp : BitVec 12} {s : State} : KeptNext mq lk s (execTileOt dt b temp s) := by
  unfold execTileOt
  have h : Kept mq lk s s := Kept.refl
  refine ⟨_, rfl, ?_⟩
  try dsimp only
  repeat'
    first
      | with_reducible assumption
      | with_reducible refine Kept.ite (fun _ => ?_) (fun _ => ?_)
      | with_reducible refine Kept.ite2 (fun _ => ?_) (fun _ => ?_)
      | with_reducible refine Kept.dite (fun _ => ?_) (fun _ => ?_)
      | with_reducible refine State.setFld_kept ?_
      | with_reducible refine State.raiseBank_kept ?_
      | with_reducible refine State.advance_kept ?_
      | with_reducible refine State.modBank_kept ?_
      | with_reducible refine State.syncBank_kept ?_

theorem execLinkCrc_kept {dt : Nat} {b : BankId} {sameFrame : Bool} {s : State} : KeptNext mq lk s (execLinkCrc dt b sameFrame s) := by
  unfold execLinkCrc
  have h : Kept mq lk s s := Kept.refl
  refine ⟨_, rfl, ?_⟩
  try dsimp only
  repeat'
    first
      | with_reducible assumption
      | with_reducible refine Kept.ite (fun _ => ?_) (fun _ => ?_)
      | with_reducible refine Kept.ite2 (fun _ => ?_) (fun _ => ?_)
      | with_reducible refine Kept.dite (fun _ => ?_) (fun _ => ?_)
      | with_reducible refine State.bump_kept ?_
      | with_reducible refine State.raiseBank_kept ?_
      | with_reducible refine State.advance_kept ?_
      | with_reducible refine State.modBank_kept ?_

theorem execLinkLost_kept {dt : Nat} {b : BankId} {up : Bool} {s : State} : KeptNext mq lk s (execLinkLost dt b up s) := by
  unfold execLinkLost
  have h : Kept mq lk s s := Kept.refl
  refine ⟨_, rfl, ?_⟩
  try dsimp only
  repeat'
    first
      | with_reducible assumption
      | with_reducible refine Kept.ite (fun _ => ?_) (fun _ => ?_)
      | with_reducible refine Kept.ite2 (fun _ => ?_) (fun _ => ?_)
      | with_reducible refine Kept.dite (fun _ => ?_) (fun _ => ?_)
      | with_reducible refine State.advance_kept ?_
      | with_reducible refine State.modBank_kept ?_
      | with_reducible refine State.freeBank_kept ?_
      | with_reducible refine State.syncBank_kept ?_
      | with_reducible refine State.bump_kept ?_
      | with_reducible refine State.raiseBank_kept ?_

theorem execKillMaskChange_kept {dt : Nat} {b : BankId} {bad : Bool} {s : State} : KeptNext mq lk s (execKillMaskChange dt b bad s) := by
  unfold execKillMaskChange
  have h : Kept mq lk s s := Kept.refl
  refine ⟨_, rfl, ?_⟩
  try dsimp only
  repeat'
    first
      | with_reducible assumption
      | with_reducible refine Kept.ite (fun _ => ?_) (fun _ => ?_)
      | with_reducible refine Kept.ite2 (fun _ => ?_) (fun _ => ?_)
      | with_reducible refine Kept.dite (fun _ => ?_) (fun _ => ?_)
      | with_reducible refine State.advance_kept ?_
      | with_reducible refine State.killHold_kept ?_
      | with_reducible refine State.spreadShares_kept ?_
      | with_reducible refine State.killAxis_kept ?_
      | with_reducible refine State.clearFreeze_kept ?_
      | with_reducible refine State.freeBank_kept ?_
      | with_reducible refine State.modBank_kept ?_
      | with_reducible refine State.syncBank_kept ?_
      | with_reducible refine Kept.foldl ?_ ?_
      | fail_if_no_progress with_reducible refine Kept.upd ?_
      | refine Kept.tagsFilter ?_
      | dsimp only
      | split
      | (intro _; intros; try dsimp only)

theorem execDrvenLow_kept {dt : Nat} {ns : Nat} {s : State} : KeptNext mq lk s (execDrvenLow dt ns s) := by
  unfold execDrvenLow
  have h : Kept mq lk s s := Kept.refl
  refine ⟨_, rfl, ?_⟩
  try dsimp only
  repeat'
    first
      | with_reducible assumption
      | with_reducible refine Kept.ite (fun _ => ?_) (fun _ => ?_)
      | with_reducible refine Kept.ite2 (fun _ => ?_) (fun _ => ?_)
      | with_reducible refine Kept.dite (fun _ => ?_) (fun _ => ?_)
      | with_reducible refine State.advance_kept ?_
      | with_reducible refine State.eachAx_kept ?_ (fun _ _ _ => ?_)
      | with_reducible refine State.raiseAx_kept ?_
      | with_reducible refine State.syncReady_kept ?_
      | with_reducible refine Kept.foldl ?_ ?_
      | fail_if_no_progress with_reducible refine Kept.upd ?_

theorem execDrvenClearing_kept {dt : Nat} {shunts : List (AxisId × ShuntHit)} {boots : List (AxisId × LegId × BitVec 12)} {s : State} : KeptNext mq lk s (execDrvenClearing dt shunts boots s) := by
  unfold execDrvenClearing
  have h : Kept mq lk s s := Kept.refl
  refine ⟨_, rfl, ?_⟩
  try dsimp only
  repeat'
    first
      | with_reducible assumption
      | with_reducible refine Kept.ite (fun _ => ?_) (fun _ => ?_)
      | with_reducible refine Kept.ite2 (fun _ => ?_) (fun _ => ?_)
      | with_reducible refine Kept.dite (fun _ => ?_) (fun _ => ?_)
      | with_reducible refine State.advance_kept ?_
      | with_reducible refine State.measureBoot_kept ?_
      | with_reducible refine State.freeBank_kept ?_
      | with_reducible refine State.flag_kept ?_
      | with_reducible refine State.raiseC0_kept ?_
      | with_reducible refine State.modBank_kept ?_
      | with_reducible refine Kept.foldl ?_ ?_
      | fail_if_no_progress with_reducible refine Kept.upd ?_
      | refine Kept.tagsFilter ?_
      | dsimp only
      | split
      | (intro _; intros; try dsimp only)

theorem execTilePowerOn_kept {dt : Nat} {b : BankId} {s : State} : KeptNext mq lk s (execTilePowerOn dt b s) := by
  unfold execTilePowerOn
  have h : Kept mq lk s s := Kept.refl
  refine ⟨_, rfl, ?_⟩
  try dsimp only
  repeat'
    first
      | with_reducible assumption
      | with_reducible refine Kept.ite (fun _ => ?_) (fun _ => ?_)
      | with_reducible refine Kept.ite2 (fun _ => ?_) (fun _ => ?_)
      | with_reducible refine Kept.dite (fun _ => ?_) (fun _ => ?_)
      | with_reducible refine State.advance_kept ?_
      | with_reducible refine State.modBank_kept ?_
      | with_reducible refine State.syncBank_kept ?_

theorem execOffstateDiagDone_kept {dt : Nat} {a : AxisId} {pulse : Option (BitVec 8)} {legs : Vector LegMeas 4} {coils : Vector CoilMeas 2} {s : State} : KeptNext mq lk s (execOffstateDiagDone dt a pulse legs coils s) := by
  unfold execOffstateDiagDone
  have h : Kept mq lk s s := Kept.refl
  refine ⟨_, rfl, ?_⟩
  try dsimp only
  repeat'
    first
      | with_reducible assumption
      | with_reducible refine Kept.ite (fun _ => ?_) (fun _ => ?_)
      | with_reducible refine Kept.ite2 (fun _ => ?_) (fun _ => ?_)
      | with_reducible refine Kept.dite (fun _ => ?_) (fun _ => ?_)
      | with_reducible refine State.advance_kept ?_
      | with_reducible refine State.gatesOff_kept ?_
      | with_reducible refine State.modAx_kept ?_
      | with_reducible refine State.commandCoil_kept ?_
      | with_reducible refine State.endDiag_kept ?_
      | with_reducible refine Kept.foldl ?_ ?_
      | fail_if_no_progress with_reducible refine Kept.upd ?_
      | refine Kept.tagsFilter ?_
      | dsimp only
      | split
      | (intro _; intros; try dsimp only)

theorem execSelftestDone_kept {dt : Nat} {a : AxisId} {w0 : Word} {s : State} : KeptNext mq lk s (execSelftestDone dt a w0 s) := by
  unfold execSelftestDone
  have h : Kept mq lk s s := Kept.refl
  refine ⟨_, rfl, ?_⟩
  try dsimp only
  repeat'
    first
      | with_reducible assumption
      | with_reducible refine Kept.ite (fun _ => ?_) (fun _ => ?_)
      | with_reducible refine Kept.ite2 (fun _ => ?_) (fun _ => ?_)
      | with_reducible refine Kept.dite (fun _ => ?_) (fun _ => ?_)
      | with_reducible refine State.advance_kept ?_
      | with_reducible refine State.endDiag_kept ?_

theorem execAxisReadyChange_kept {dt : Nat} {a : AxisId} {s : State} : KeptNext mq lk s (execAxisReadyChange dt a s) := by
  unfold execAxisReadyChange
  have h : Kept mq lk s s := Kept.refl
  refine ⟨_, rfl, ?_⟩
  try dsimp only
  repeat'
    first
      | with_reducible assumption
      | with_reducible refine Kept.ite (fun _ => ?_) (fun _ => ?_)
      | with_reducible refine Kept.ite2 (fun _ => ?_) (fun _ => ?_)
      | with_reducible refine Kept.dite (fun _ => ?_) (fun _ => ?_)
      | with_reducible refine State.advance_kept ?_
      | with_reducible refine State.syncReady_kept ?_

theorem execCalendarCycle_kept {dt : Nat} {s : State} : KeptNext mq lk s (execCalendarCycle dt s) := by
  unfold execCalendarCycle
  have h : Kept mq lk s s := Kept.refl
  refine ⟨_, rfl, ?_⟩
  try dsimp only
  repeat'
    first
      | with_reducible assumption
      | with_reducible refine Kept.ite (fun _ => ?_) (fun _ => ?_)
      | with_reducible refine Kept.ite2 (fun _ => ?_) (fun _ => ?_)
      | with_reducible refine Kept.dite (fun _ => ?_) (fun _ => ?_)
      | with_reducible refine State.advance_kept ?_
      | with_reducible refine Kept.foldl ?_ ?_
      | fail_if_no_progress with_reducible refine Kept.upd ?_
      | fail_if_no_progress with_reducible refine Kept.updH ?_ ?_
      | exact Hearth.keeps id id id

theorem execCalendarMeasure_kept {dt : Nat} {freq : BitVec 24} {s : State} : KeptNext mq lk s (execCalendarMeasure dt freq s) := by
  unfold execCalendarMeasure
  have h : Kept mq lk s s := Kept.refl
  refine ⟨_, rfl, ?_⟩
  try dsimp only
  repeat'
    first
      | with_reducible assumption
      | with_reducible refine Kept.ite (fun _ => ?_) (fun _ => ?_)
      | with_reducible refine Kept.ite2 (fun _ => ?_) (fun _ => ?_)
      | with_reducible refine Kept.dite (fun _ => ?_) (fun _ => ?_)
      | with_reducible refine State.setReg_kept ?_
      | with_reducible refine State.advance_kept ?_
      | fail_if_no_progress with_reducible refine Kept.upd ?_

theorem execHearthSwitchover_kept {dt : Nat} {toMain : Bool} {s : State} : KeptNext mq lk s (execHearthSwitchover dt toMain s) :=
  ⟨_, rfl, State.emberBegin_kept (Kept.updH (State.advance_kept Kept.refl) id)⟩

theorem execHearthContentsLost_kept {dt : Nat} {s : State} : KeptNext mq lk s (execHearthContentsLost dt s) := by
  unfold execHearthContentsLost
  have h : Kept mq lk s s := Kept.refl
  refine ⟨_, rfl, ?_⟩
  try dsimp only
  repeat'
    first
      | with_reducible assumption
      | with_reducible refine Kept.ite (fun _ => ?_) (fun _ => ?_)
      | with_reducible refine Kept.ite2 (fun _ => ?_) (fun _ => ?_)
      | with_reducible refine Kept.dite (fun _ => ?_) (fun _ => ?_)
      | with_reducible refine State.advance_kept ?_
      | with_reducible refine State.resetHrtRegs_kept ?_
      | with_reducible refine Kept.foldl ?_ ?_
      | fail_if_no_progress with_reducible refine Kept.upd ?_
      | fail_if_no_progress with_reducible refine Kept.updH ?_ ?_
      | (refine Hearth.keeps ?_ ?_ ?_ <;> first | with_reducible exact id | with_reducible exact putWords_wf _ _ | with_reducible exact (fun x => storeSet_wf x _ _) | exact (fun x => storeFilter_wf x _) | exact fun _ => rfl)

theorem execRamdataAccess_kept {dt : Nat} {port : Port} {value : Word} {s : State} : KeptNext mq lk s (execRamdataAccess dt port value s) := by
  unfold execRamdataAccess
  have h : Kept mq lk s s := Kept.refl
  refine ⟨_, rfl, ?_⟩
  try dsimp only
  repeat'
    first
      | with_reducible assumption
      | with_reducible refine Kept.ite (fun _ => ?_) (fun _ => ?_)
      | with_reducible refine Kept.ite2 (fun _ => ?_) (fun _ => ?_)
      | with_reducible refine Kept.dite (fun _ => ?_) (fun _ => ?_)
      | with_reducible refine State.advance_kept ?_
      | with_reducible refine State.portWrite_kept ?_ ?_
      | with_reducible refine State.writeRam_kept ?_
      | with_reducible refine Kept.foldl ?_ ?_
      | fail_if_no_progress with_reducible refine Kept.upd ?_
      | refine Kept.tagsFilter ?_
      | refine Kept.enter ?_ ?_
      | (intro _; intros; try dsimp only)

theorem execGroupWithdraw_kept {dt : Nat} {g : BitVec 12} {s : State} : KeptNext mq lk s (execGroupWithdraw dt g s) := by
  unfold execGroupWithdraw
  have h : Kept mq lk s s := Kept.refl
  refine ⟨_, rfl, ?_⟩
  try dsimp only
  repeat'
    first
      | with_reducible assumption
      | with_reducible refine Kept.ite (fun _ => ?_) (fun _ => ?_)
      | with_reducible refine Kept.ite2 (fun _ => ?_) (fun _ => ?_)
      | with_reducible refine Kept.dite (fun _ => ?_) (fun _ => ?_)
      | with_reducible refine State.advance_kept ?_
      | with_reducible refine State.withdraw_kept ?_
      | with_reducible refine Kept.foldl ?_ ?_
      | fail_if_no_progress with_reducible refine Kept.upd ?_
      | refine Kept.tagsFilter ?_
      | refine Kept.enter ?_ ?_
      | dsimp only
      | split

theorem execGroupStartInstant_kept {dt : Nat} {g : BitVec 12} {s : State} : KeptNext mq lk s (execGroupStartInstant dt g s) := by
  unfold execGroupStartInstant
  have h : Kept mq lk s s := Kept.refl
  refine ⟨_, rfl, ?_⟩
  try dsimp only
  repeat'
    first
      | with_reducible assumption
      | with_reducible refine Kept.ite (fun _ => ?_) (fun _ => ?_)
      | with_reducible refine Kept.ite2 (fun _ => ?_) (fun _ => ?_)
      | with_reducible refine Kept.dite (fun _ => ?_) (fun _ => ?_)
      | with_reducible refine State.finish_kept ?_
      | with_reducible refine State.advance_kept ?_
      | with_reducible refine State.modMember_kept ?_
      | with_reducible refine State.startStaged_kept ?_
      | with_reducible refine Kept.foldl ?_ ?_
      | fail_if_no_progress with_reducible refine Kept.upd ?_
      | refine Kept.tagsFilter ?_
      | refine Kept.enter ?_ ?_
      | (intro _; intros; try dsimp only)
      | dsimp only
      | split

theorem execPortLinkChange_kept {dt : Nat} {port : Fin 2} {up : Bool} {anDone : Bool} {rateBad : Bool} {s : State} : KeptNext mq lk s (execPortLinkChange dt port up anDone rateBad s) := by
  unfold execPortLinkChange
  have h : Kept mq lk s s := Kept.refl
  refine ⟨_, rfl, ?_⟩
  try dsimp only
  repeat'
    first
      | with_reducible assumption
      | with_reducible refine Kept.ite (fun _ => ?_) (fun _ => ?_)
      | with_reducible refine Kept.ite2 (fun _ => ?_) (fun _ => ?_)
      | with_reducible refine Kept.dite (fun _ => ?_) (fun _ => ?_)
      | with_reducible refine State.setBit_kept ?_
      | with_reducible refine State.advance_kept ?_
      | with_reducible refine State.setLink_kept ?_

theorem execNodeAddrWrite_kept {dt : Nat} {port : Port} {value : Word} {s : State} : KeptNext mq lk s (execNodeAddrWrite dt port value s) := by
  unfold execNodeAddrWrite
  have h : Kept mq lk s s := Kept.refl
  refine ⟨_, rfl, ?_⟩
  try dsimp only
  repeat'
    first
      | with_reducible assumption
      | with_reducible refine Kept.ite (fun _ => ?_) (fun _ => ?_)
      | with_reducible refine Kept.ite2 (fun _ => ?_) (fun _ => ?_)
      | with_reducible refine Kept.dite (fun _ => ?_) (fun _ => ?_)
      | with_reducible refine State.advance_kept ?_
      | with_reducible refine State.portWrite_kept ?_ ?_
      | with_reducible refine State.writeNode_kept ?_
      | with_reducible refine Kept.foldl ?_ ?_
      | fail_if_no_progress with_reducible refine Kept.upd ?_
      | refine Kept.tagsFilter ?_
      | refine Kept.enter ?_ ?_
      | (intro _; intros; try dsimp only)

theorem execSourceCommit_kept {dt : Nat} {s : State} : KeptNext mq lk s (execSourceCommit dt s) := by
  unfold execSourceCommit
  have h : Kept mq lk s s := Kept.refl
  refine ⟨_, rfl, ?_⟩
  try dsimp only
  repeat'
    first
      | with_reducible assumption
      | with_reducible refine Kept.ite (fun _ => ?_) (fun _ => ?_)
      | with_reducible refine Kept.ite2 (fun _ => ?_) (fun _ => ?_)
      | with_reducible refine Kept.dite (fun _ => ?_) (fun _ => ?_)
      | with_reducible refine State.advance_kept ?_
      | with_reducible refine State.modServo_kept ?_
      | with_reducible refine State.discipline_kept ?_
      | with_reducible refine State.checkTimes_kept ?_
      | with_reducible refine State.endSelect_kept ?_
      | with_reducible refine State.done_kept ?_
      | with_reducible refine Kept.foldl ?_ ?_
      | fail_if_no_progress with_reducible refine Kept.upd ?_
      | refine Kept.tagsFilter ?_
      | dsimp only
      | split

theorem execEpochWrite_kept {dt : Nat} {port : Port} {value : Word} {s : State} : KeptNext mq lk s (execEpochWrite dt port value s) := by
  unfold execEpochWrite
  have h : Kept mq lk s s := Kept.refl
  refine ⟨_, rfl, ?_⟩
  try dsimp only
  repeat'
    first
      | with_reducible assumption
      | with_reducible refine Kept.ite (fun _ => ?_) (fun _ => ?_)
      | with_reducible refine Kept.ite2 (fun _ => ?_) (fun _ => ?_)
      | with_reducible refine Kept.dite (fun _ => ?_) (fun _ => ?_)
      | with_reducible refine State.advance_kept ?_
      | with_reducible refine State.portWrite_kept ?_ ?_
      | with_reducible refine State.writeEpoch_kept ?_
      | with_reducible refine Kept.foldl ?_ ?_
      | fail_if_no_progress with_reducible refine Kept.upd ?_
      | refine Kept.tagsFilter ?_
      | refine Kept.enter ?_ ?_
      | (intro _; intros; try dsimp only)

theorem execPtpMessage_kept {dt : Nat} {port : Fin 2} {msg : PtpMsg} {s : State} : KeptNext mq lk s (execPtpMessage dt port msg s) := by
  unfold execPtpMessage
  have h : Kept mq lk s s := Kept.refl
  refine ⟨_, rfl, ?_⟩
  try dsimp only
  repeat'
    first
      | with_reducible assumption
      | with_reducible refine Kept.ite (fun _ => ?_) (fun _ => ?_)
      | with_reducible refine Kept.ite2 (fun _ => ?_) (fun _ => ?_)
      | with_reducible refine Kept.dite (fun _ => ?_) (fun _ => ?_)
      | with_reducible refine State.advance_kept ?_
      | with_reducible refine State.ptpHear_kept ?_

theorem execPtpTransparentForward_kept {dt : Nat} {port : Fin 2} {msg : PtpMsg} {s : State} : KeptNext mq lk s (execPtpTransparentForward dt port msg s) := by
  unfold execPtpTransparentForward
  have h : Kept mq lk s s := Kept.refl
  refine ⟨_, rfl, ?_⟩
  try dsimp only
  repeat'
    first
      | with_reducible assumption
      | with_reducible refine Kept.ite (fun _ => ?_) (fun _ => ?_)
      | with_reducible refine Kept.ite2 (fun _ => ?_) (fun _ => ?_)
      | with_reducible refine Kept.dite (fun _ => ?_) (fun _ => ?_)
      | with_reducible refine State.advance_kept ?_
      | with_reducible refine State.modPtp_kept ?_
      | with_reducible refine State.peak_kept ?_
      | with_reducible refine State.sendPtp_kept ?_
      | with_reducible refine Kept.foldl ?_ ?_
      | fail_if_no_progress with_reducible refine Kept.upd ?_
      | refine Kept.tagsFilter ?_
      | dsimp only
      | split

theorem execSyncInterval_kept {dt : Nat} {kind : PtpKind} {s : State} : KeptNext mq lk s (execSyncInterval dt kind s) := by
  unfold execSyncInterval
  have h : Kept mq lk s s := Kept.refl
  refine ⟨_, rfl, ?_⟩
  try dsimp only
  repeat'
    first
      | with_reducible assumption
      | with_reducible refine Kept.ite (fun _ => ?_) (fun _ => ?_)
      | with_reducible refine Kept.ite2 (fun _ => ?_) (fun _ => ?_)
      | with_reducible refine Kept.dite (fun _ => ?_) (fun _ => ?_)
      | with_reducible refine State.advance_kept ?_
      | with_reducible refine State.modPtp_kept ?_
      | with_reducible refine State.sendPtp_kept ?_
      | with_reducible refine Kept.foldl ?_ ?_
      | fail_if_no_progress with_reducible refine Kept.upd ?_
      | refine Kept.tagsFilter ?_
      | refine Kept.enter ?_ ?_
      | dsimp only
      | split

theorem execPtpLost_kept {dt : Nat} {s : State} : KeptNext mq lk s (execPtpLost dt s) := by
  unfold execPtpLost
  have h : Kept mq lk s s := Kept.refl
  refine ⟨_, rfl, ?_⟩
  try dsimp only
  repeat'
    first
      | with_reducible assumption
      | with_reducible refine Kept.ite (fun _ => ?_) (fun _ => ?_)
      | with_reducible refine Kept.ite2 (fun _ => ?_) (fun _ => ?_)
      | with_reducible refine Kept.dite (fun _ => ?_) (fun _ => ?_)
      | with_reducible refine State.advance_kept ?_
      | with_reducible refine State.modServo_kept ?_
      | with_reducible refine State.modPtp_kept ?_
      | with_reducible refine State.timeSource_kept ?_
      | with_reducible refine State.ptpShow_kept ?_
      | with_reducible refine State.ptpForget_kept ?_
      | with_reducible refine State.ptpDecide_kept ?_
      | with_reducible refine State.dropMasters_kept ?_

theorem execPtpRequalified_kept {dt : Nat} {s : State} : KeptNext mq lk s (execPtpRequalified dt s) := by
  unfold execPtpRequalified
  have h : Kept mq lk s s := Kept.refl
  refine ⟨_, rfl, ?_⟩
  try dsimp only
  repeat'
    first
      | with_reducible assumption
      | with_reducible refine Kept.ite (fun _ => ?_) (fun _ => ?_)
      | with_reducible refine Kept.ite2 (fun _ => ?_) (fun _ => ?_)
      | with_reducible refine Kept.dite (fun _ => ?_) (fun _ => ?_)
      | with_reducible refine State.advance_kept ?_
      | with_reducible refine State.modServo_kept ?_
      | with_reducible refine State.timeSource_kept ?_
      | with_reducible refine Kept.foldl ?_ ?_
      | fail_if_no_progress with_reducible refine Kept.upd ?_
      | refine Kept.tagsFilter ?_
      | refine Kept.enter ?_ ?_
      | dsimp only
      | split

theorem execClockSwitchStep_kept {dt : Nat} {s : State} : KeptNext mq lk s (execClockSwitchStep dt s) := by
  unfold execClockSwitchStep
  have h : Kept mq lk s s := Kept.refl
  refine ⟨_, rfl, ?_⟩
  try dsimp only
  repeat'
    first
      | with_reducible assumption
      | with_reducible refine Kept.ite (fun _ => ?_) (fun _ => ?_)
      | with_reducible refine Kept.ite2 (fun _ => ?_) (fun _ => ?_)
      | with_reducible refine Kept.dite (fun _ => ?_) (fun _ => ?_)
      | with_reducible refine State.advance_kept ?_
      | with_reducible refine State.modClk_kept ?_
      | with_reducible refine State.modPwr_kept ?_
      | with_reducible refine State.clkFlag_kept ?_
      | with_reducible refine State.startSwitch_kept ?_
      | with_reducible refine State.setSource_kept ?_
      | with_reducible refine State.onPllAgain_kept ?_
      | with_reducible refine Kept.foldl ?_ ?_
      | fail_if_no_progress with_reducible refine Kept.upd ?_
      | refine Kept.tagsFilter ?_
      | refine Kept.enter ?_ ?_
      | dsimp only
      | split

theorem execRefclkMeasure_kept {dt : Nat} {meas : BitVec 12} {s : State} : KeptNext mq lk s (execRefclkMeasure dt meas s) := by
  unfold execRefclkMeasure
  have h : Kept mq lk s s := Kept.refl
  refine ⟨_, rfl, ?_⟩
  try dsimp only
  repeat'
    first
      | with_reducible assumption
      | with_reducible refine Kept.ite (fun _ => ?_) (fun _ => ?_)
      | with_reducible refine Kept.ite2 (fun _ => ?_) (fun _ => ?_)
      | with_reducible refine Kept.dite (fun _ => ?_) (fun _ => ?_)
      | with_reducible refine State.setFld_kept ?_
      | with_reducible refine State.advance_kept ?_
      | with_reducible refine State.modClk_kept ?_
      | with_reducible refine State.clkFlag_kept ?_
      | with_reducible refine State.setStep_kept ?_
      | with_reducible refine Kept.foldl ?_ ?_
      | fail_if_no_progress with_reducible refine Kept.upd ?_
      | refine Kept.tagsFilter ?_
      | refine Kept.enter ?_ ?_
      | dsimp only
      | split

theorem execPllLock_kept {dt : Nat} {s : State} : KeptNext mq lk s (execPllLock dt s) := by
  unfold execPllLock
  have h : Kept mq lk s s := Kept.refl
  refine ⟨_, rfl, ?_⟩
  try dsimp only
  repeat'
    first
      | with_reducible assumption
      | with_reducible refine Kept.ite (fun _ => ?_) (fun _ => ?_)
      | with_reducible refine Kept.ite2 (fun _ => ?_) (fun _ => ?_)
      | with_reducible refine Kept.dite (fun _ => ?_) (fun _ => ?_)
      | with_reducible refine State.advance_kept ?_
      | with_reducible refine State.clkFlag_kept ?_
      | with_reducible refine State.startSwitch_kept ?_

theorem execRcperMeasure_kept {dt : Nat} {per : BitVec 24} {s : State} : KeptNext mq lk s (execRcperMeasure dt per s) := by
  unfold execRcperMeasure
  have h : Kept mq lk s s := Kept.refl
  refine ⟨_, rfl, ?_⟩
  try dsimp only
  repeat'
    first
      | with_reducible assumption
      | with_reducible refine Kept.ite (fun _ => ?_) (fun _ => ?_)
      | with_reducible refine Kept.ite2 (fun _ => ?_) (fun _ => ?_)
      | with_reducible refine Kept.dite (fun _ => ?_) (fun _ => ?_)
      | with_reducible refine State.setFld_kept ?_
      | with_reducible refine State.advance_kept ?_
      | with_reducible refine State.modClk_kept ?_
      | with_reducible refine State.rcWatch_kept ?_

theorem execRcBad_kept {dt : Nat} {bad : Bool} {s : State} : KeptNext mq lk s (execRcBad dt bad s) := by
  unfold execRcBad
  have h : Kept mq lk s s := Kept.refl
  refine ⟨_, rfl, ?_⟩
  try dsimp only
  repeat'
    first
      | with_reducible assumption
      | with_reducible refine Kept.ite (fun _ => ?_) (fun _ => ?_)
      | with_reducible refine Kept.ite2 (fun _ => ?_) (fun _ => ?_)
      | with_reducible refine Kept.dite (fun _ => ?_) (fun _ => ?_)
      | with_reducible refine State.advance_kept ?_
      | with_reducible refine State.rcWatch_kept ?_

theorem execClockLost_kept {dt : Nat} {reason : Fin 4} {gap : BitVec 16} {s : State} : KeptNext mq lk s (execClockLost dt reason gap s) := by
  unfold execClockLost
  have h : Kept mq lk s s := Kept.refl
  refine ⟨_, rfl, ?_⟩
  try dsimp only
  repeat'
    first
      | with_reducible assumption
      | with_reducible refine Kept.ite (fun _ => ?_) (fun _ => ?_)
      | with_reducible refine Kept.ite2 (fun _ => ?_) (fun _ => ?_)
      | with_reducible refine Kept.dite (fun _ => ?_) (fun _ => ?_)
      | with_reducible refine State.advance_kept ?_
      | with_reducible refine State.clkFlag_kept ?_
      | with_reducible refine State.pass_kept ?_
      | with_reducible refine State.clockLoss_kept ?_
      | with_reducible refine State.modClk_kept ?_
      | with_reducible refine State.forceRc_kept ?_
      | with_reducible refine State.pllGone_kept ?_
      | with_reducible refine Kept.foldl ?_ ?_
      | fail_if_no_progress with_reducible refine Kept.upd ?_
      | refine Kept.tagsFilter ?_
      | dsimp only
      | split
      | (intro _; intros; try dsimp only)

theorem execClockReturn_kept {dt : Nat} {s : State} : KeptNext mq lk s (execClockReturn dt s) := by
  unfold execClockReturn
  have h : Kept mq lk s s := Kept.refl
  refine ⟨_, rfl, ?_⟩
  try dsimp only
  repeat'
    first
      | with_reducible assumption
      | with_reducible refine Kept.ite (fun _ => ?_) (fun _ => ?_)
      | with_reducible refine Kept.ite2 (fun _ => ?_) (fun _ => ?_)
      | with_reducible refine Kept.dite (fun _ => ?_) (fun _ => ?_)
      | with_reducible refine State.setFld_kept ?_
      | with_reducible refine State.advance_kept ?_
      | with_reducible refine State.modClk_kept ?_
      | with_reducible refine Kept.foldl ?_ ?_
      | fail_if_no_progress with_reducible refine Kept.upd ?_
      | refine Kept.tagsFilter ?_
      | refine Kept.enter ?_ ?_
      | dsimp only
      | split

theorem execCalRoundDone_kept {dt : Nat} {s : State} : KeptNext mq lk s (execCalRoundDone dt s) := by
  unfold execCalRoundDone
  have h : Kept mq lk s s := Kept.refl
  refine ⟨_, rfl, ?_⟩
  try dsimp only
  repeat'
    first
      | with_reducible assumption
      | with_reducible refine Kept.ite (fun _ => ?_) (fun _ => ?_)
      | with_reducible refine Kept.ite2 (fun _ => ?_) (fun _ => ?_)
      | with_reducible refine Kept.dite (fun _ => ?_) (fun _ => ?_)
      | with_reducible refine State.advance_kept ?_
      | with_reducible refine State.clkFlag_kept ?_

theorem execGateWrite_kept {dt : Nat} {port : Port} {which : Fin 3} {value : Word} {s : State} : KeptNext mq lk s (execGateWrite dt port which value s) := by
  unfold execGateWrite
  have h : Kept mq lk s s := Kept.refl
  refine ⟨_, rfl, ?_⟩
  try dsimp only
  repeat'
    first
      | with_reducible assumption
      | with_reducible refine Kept.ite (fun _ => ?_) (fun _ => ?_)
      | with_reducible refine Kept.ite2 (fun _ => ?_) (fun _ => ?_)
      | with_reducible refine Kept.dite (fun _ => ?_) (fun _ => ?_)
      | with_reducible refine State.advance_kept ?_
      | with_reducible refine State.portWrite_kept ?_ ?_
      | with_reducible refine State.writeGate_kept ?_
      | with_reducible refine Kept.foldl ?_ ?_
      | fail_if_no_progress with_reducible refine Kept.upd ?_
      | refine Kept.tagsFilter ?_
      | refine Kept.enter ?_ ?_
      | (intro _; intros; try dsimp only)

theorem execKindlingCold_kept {dt : Nat} {straps : Straps} {s : State} : KeptNext false false s (execKindlingCold dt straps s) := by
  unfold execKindlingCold
  have h : Kept false false s s := Kept.refl
  refine ⟨_, rfl, ?_⟩
  try dsimp only
  repeat'
    first
      | with_reducible assumption
      | with_reducible refine Kept.ite (fun _ => ?_) (fun _ => ?_)
      | with_reducible refine Kept.ite2 (fun _ => ?_) (fun _ => ?_)
      | with_reducible refine Kept.dite (fun _ => ?_) (fun _ => ?_)
      | with_reducible refine State.advance_kept ?_
      | with_reducible refine State.kindle_kept ?_

theorem execNresetLow_kept {dt : Nat} {s : State} : KeptNext mq lk s (execNresetLow dt s) := by
  unfold execNresetLow
  have h : Kept mq lk s s := Kept.refl
  refine ⟨_, rfl, ?_⟩
  try dsimp only
  repeat'
    first
      | with_reducible assumption
      | with_reducible refine Kept.ite (fun _ => ?_) (fun _ => ?_)
      | with_reducible refine Kept.ite2 (fun _ => ?_) (fun _ => ?_)
      | with_reducible refine Kept.dite (fun _ => ?_) (fun _ => ?_)
      | with_reducible refine State.advance_kept ?_
      | with_reducible refine State.modPwr_kept ?_
      | with_reducible refine State.allSafe_kept ?_
      | with_reducible refine State.eachAx_kept ?_ (fun _ _ _ => ?_)
      | with_reducible refine State.syncReady_kept ?_
      | with_reducible refine Kept.foldl ?_ ?_
      | fail_if_no_progress with_reducible refine Kept.upd ?_
      | refine Kept.tagsFilter ?_
      | dsimp only
      | split

theorem execNresetRise_kept {dt : Nat} {straps : Straps} {s : State} : KeptNext false false s (execNresetRise dt straps s) := by
  unfold execNresetRise
  have h : Kept false false s s := Kept.refl
  refine ⟨_, rfl, ?_⟩
  try dsimp only
  repeat'
    first
      | with_reducible assumption
      | with_reducible refine Kept.ite (fun _ => ?_) (fun _ => ?_)
      | with_reducible refine Kept.ite2 (fun _ => ?_) (fun _ => ?_)
      | with_reducible refine Kept.dite (fun _ => ?_) (fun _ => ?_)
      | with_reducible refine State.advance_kept ?_
      | with_reducible refine State.modPwr_kept ?_
      | with_reducible refine State.kindle_kept ?_

theorem execWake_kept {dt : Nat} {high : Bool} {straps : Straps} {s : State} : KeptNext false false s (execWake dt high straps s) := by
  unfold execWake
  have h : Kept false false s s := Kept.refl
  refine ⟨_, rfl, ?_⟩
  try dsimp only
  repeat'
    first
      | with_reducible assumption
      | with_reducible refine Kept.ite (fun _ => ?_) (fun _ => ?_)
      | with_reducible refine Kept.ite2 (fun _ => ?_) (fun _ => ?_)
      | with_reducible refine Kept.dite (fun _ => ?_) (fun _ => ?_)
      | with_reducible refine State.advance_kept ?_
      | with_reducible refine State.modPwr_kept ?_
      | with_reducible refine State.kindle_kept ?_
      | with_reducible refine State.startSwitch_kept ?_
      | with_reducible refine State.setLevel_kept ?_
      | with_reducible refine State.applyGates_kept ?_
      | with_reducible refine Kept.foldl ?_ ?_
      | fail_if_no_progress with_reducible refine Kept.upd ?_
      | refine Kept.tagsFilter ?_
      | dsimp only
      | split

theorem execKindlingWarmSupply_kept {dt : Nat} {straps : Straps} {s : State} : KeptNext false false s (execKindlingWarmSupply dt straps s) := by
  unfold execKindlingWarmSupply
  have h : Kept false false s s := Kept.refl
  refine ⟨_, rfl, ?_⟩
  try dsimp only
  repeat'
    first
      | with_reducible assumption
      | with_reducible refine Kept.ite (fun _ => ?_) (fun _ => ?_)
      | with_reducible refine Kept.ite2 (fun _ => ?_) (fun _ => ?_)
      | with_reducible refine Kept.dite (fun _ => ?_) (fun _ => ?_)
      | with_reducible refine State.advance_kept ?_
      | with_reducible refine State.kindle_kept ?_
      | with_reducible refine State.modPwr_kept ?_
      | with_reducible refine Kept.foldl ?_ ?_
      | fail_if_no_progress with_reducible refine Kept.upd ?_
      | refine Kept.tagsFilter ?_
      | dsimp only
      | split

theorem execKindlingStep5_kept {dt : Nat} {s : State} : KeptNext mq lk s (execKindlingStep5 dt s) := by
  unfold execKindlingStep5
  have h : Kept mq lk s s := Kept.refl
  refine ⟨_, rfl, ?_⟩
  try dsimp only
  repeat'
    first
      | with_reducible assumption
      | with_reducible refine Kept.ite (fun _ => ?_) (fun _ => ?_)
      | with_reducible refine Kept.ite2 (fun _ => ?_) (fun _ => ?_)
      | with_reducible refine Kept.dite (fun _ => ?_) (fun _ => ?_)
      | with_reducible refine State.advance_kept ?_
      | with_reducible refine State.modBank_kept ?_
      | with_reducible refine State.modPwr_kept ?_
      | with_reducible refine State.setStep_kept ?_
      | with_reducible refine State.hearthFound_kept ?_
      | with_reducible refine State.emberTidy_kept ?_
      | with_reducible refine State.applyRetired_kept ?_
      | with_reducible refine Kept.foldl ?_ ?_
      | fail_if_no_progress with_reducible refine Kept.upd ?_
      | refine Kept.tagsFilter ?_
      | refine Kept.enter ?_ ?_
      | (intro _; intros; try dsimp only)

theorem execKindlingEnd_kept {dt : Nat} {s : State} : KeptNext mq lk s (execKindlingEnd dt s) := by
  unfold execKindlingEnd
  have h : Kept mq lk s s := Kept.refl
  refine ⟨_, rfl, ?_⟩
  try dsimp only
  repeat'
    first
      | with_reducible assumption
      | with_reducible refine Kept.ite (fun _ => ?_) (fun _ => ?_)
      | with_reducible refine Kept.ite2 (fun _ => ?_) (fun _ => ?_)
      | with_reducible refine Kept.dite (fun _ => ?_) (fun _ => ?_)
      | with_reducible refine State.setFld_kept ?_
      | with_reducible refine State.setBit_kept ?_
      | with_reducible refine State.eachAx_kept ?_ ?_
      | with_reducible refine State.advance_kept ?_
      | with_reducible refine State.syncReady_kept ?_
      | with_reducible refine State.latchTrips_kept ?_
      | with_reducible refine State.queueEmber_kept ?_
      | with_reducible refine State.modNet_kept ?_
      | with_reducible refine State.ptpInit_kept ?_
      | with_reducible refine State.modPwr_kept ?_
      | with_reducible refine State.setStep_kept ?_
      | with_reducible refine State.applyGates_kept ?_
      | with_reducible refine State.bootAccount_kept ?_
      | with_reducible refine State.handOver_kept ?_
      | with_reducible refine Kept.foldl ?_ ?_
      | fail_if_no_progress with_reducible refine Kept.upd ?_
      | fail_if_no_progress with_reducible refine Kept.updH ?_ ?_
      | exact Hearth.keeps id id id
      | refine Kept.tagsFilter ?_
      | refine Kept.enter ?_ ?_
      | (intro _; intros; try dsimp only)

theorem execPwrReqGo_kept {dt : Nat} {port : Port} {value : Word} {s : State} : KeptNext mq lk s (execPwrReqGo dt port value s) := by
  unfold execPwrReqGo
  have h : Kept mq lk s s := Kept.refl
  refine ⟨_, rfl, ?_⟩
  try dsimp only
  repeat'
    first
      | with_reducible assumption
      | with_reducible refine Kept.ite (fun _ => ?_) (fun _ => ?_)
      | with_reducible refine Kept.ite2 (fun _ => ?_) (fun _ => ?_)
      | with_reducible refine Kept.dite (fun _ => ?_) (fun _ => ?_)
      | with_reducible refine State.advance_kept ?_
      | with_reducible refine State.portWrite_kept ?_ ?_
      | with_reducible refine State.writePwrReq_kept ?_
      | with_reducible refine Kept.foldl ?_ ?_
      | fail_if_no_progress with_reducible refine Kept.upd ?_
      | refine Kept.tagsFilter ?_
      | refine Kept.enter ?_ ?_
      | (intro _; intros; try dsimp only)

theorem execVcoreOk_kept {dt : Nat} {s : State} : KeptNext mq lk s (execVcoreOk dt s) := by
  unfold execVcoreOk
  have h : Kept mq lk s s := Kept.refl
  refine ⟨_, rfl, ?_⟩
  try dsimp only
  repeat'
    first
      | with_reducible assumption
      | with_reducible refine Kept.ite (fun _ => ?_) (fun _ => ?_)
      | with_reducible refine Kept.ite2 (fun _ => ?_) (fun _ => ?_)
      | with_reducible refine Kept.dite (fun _ => ?_) (fun _ => ?_)
      | with_reducible refine State.advance_kept ?_
      | with_reducible refine State.setBit_kept ?_
      | with_reducible refine State.stage_kept ?_
      | with_reducible refine State.setVcore_kept ?_
      | with_reducible refine State.setChange_kept ?_
      | with_reducible refine State.enterGates_kept ?_
      | with_reducible refine State.setDiv_kept ?_
      | with_reducible refine Kept.foldl ?_ ?_
      | fail_if_no_progress with_reducible refine Kept.upd ?_
      | refine Kept.tagsFilter ?_
      | dsimp only
      | split

theorem execPlRampStep_kept {dt : Nat} {s : State} : KeptNext mq lk s (execPlRampStep dt s) := by
  unfold execPlRampStep
  have h : Kept mq lk s s := Kept.refl
  refine ⟨_, rfl, ?_⟩
  try dsimp only
  repeat'
    first
      | with_reducible assumption
      | with_reducible refine Kept.ite (fun _ => ?_) (fun _ => ?_)
      | with_reducible refine Kept.ite2 (fun _ => ?_) (fun _ => ?_)
      | with_reducible refine Kept.dite (fun _ => ?_) (fun _ => ?_)
      | with_reducible refine State.setFld_kept ?_
      | with_reducible refine State.advance_kept ?_
      | with_reducible refine State.setChange_kept ?_
      | with_reducible refine State.setDiv_kept ?_
      | with_reducible refine Kept.foldl ?_ ?_
      | fail_if_no_progress with_reducible refine Kept.upd ?_
      | refine Kept.tagsFilter ?_
      | refine Kept.enter ?_ ?_
      | dsimp only
      | split

theorem execPlChangeDone_kept {dt : Nat} {s : State} : KeptNext mq lk s (execPlChangeDone dt s) := by
  unfold execPlChangeDone
  have h : Kept mq lk s s := Kept.refl
  refine ⟨_, rfl, ?_⟩
  try dsimp only
  repeat'
    first
      | with_reducible assumption
      | with_reducible refine Kept.ite (fun _ => ?_) (fun _ => ?_)
      | with_reducible refine Kept.ite2 (fun _ => ?_) (fun _ => ?_)
      | with_reducible refine Kept.dite (fun _ => ?_) (fun _ => ?_)
      | with_reducible refine State.advance_kept ?_
      | with_reducible refine State.stage_kept ?_
      | with_reducible refine State.setLevel_kept ?_
      | with_reducible refine State.setVcore_kept ?_
      | with_reducible refine State.modPwr_kept ?_
      | with_reducible refine State.endRequest_kept ?_
      | with_reducible refine State.done_kept ?_
      | with_reducible refine State.modBank_kept ?_
      | with_reducible refine State.syncBank_kept ?_
      | with_reducible refine State.applyGates_kept ?_
      | with_reducible refine Kept.foldl ?_ ?_
      | fail_if_no_progress with_reducible refine Kept.upd ?_
      | refine Kept.tagsFilter ?_
      | dsimp only
      | split
      | (intro _; intros; try dsimp only)

theorem execVcoreUv_kept {dt : Nat} {s : State} : KeptNext mq lk s (execVcoreUv dt s) := by
  unfold execVcoreUv
  have h : Kept mq lk s s := Kept.refl
  refine ⟨_, rfl, ?_⟩
  try dsimp only
  repeat'
    first
      | with_reducible assumption
      | with_reducible refine Kept.ite (fun _ => ?_) (fun _ => ?_)
      | with_reducible refine Kept.ite2 (fun _ => ?_) (fun _ => ?_)
      | with_reducible refine Kept.dite (fun _ => ?_) (fun _ => ?_)
      | with_reducible refine State.setBit_kept ?_
      | with_reducible refine State.flag_kept ?_
      | with_reducible refine State.raiseSc_kept ?_
      | with_reducible refine State.advance_kept ?_
      | with_reducible refine State.stopChange_kept ?_

theorem execPl0VcoreRemoval_kept {dt : Nat} {s : State} : KeptNext mq lk s (execPl0VcoreRemoval dt s) := by
  unfold execPl0VcoreRemoval
  have h : Kept mq lk s s := Kept.refl
  refine ⟨_, rfl, ?_⟩
  try dsimp only
  repeat'
    first
      | with_reducible assumption
      | with_reducible refine Kept.ite (fun _ => ?_) (fun _ => ?_)
      | with_reducible refine Kept.ite2 (fun _ => ?_) (fun _ => ?_)
      | with_reducible refine Kept.dite (fun _ => ?_) (fun _ => ?_)
      | with_reducible refine State.advance_kept ?_
      | with_reducible refine State.setLink_kept ?_
      | with_reducible refine State.modPwr_kept ?_
      | with_reducible refine State.clkFlag_kept ?_

theorem execPowerFail_kept {dt : Nat} {s : State} : KeptNext mq lk s (execPowerFail dt s) := by
  unfold execPowerFail
  have h : Kept mq lk s s := Kept.refl
  refine ⟨_, rfl, ?_⟩
  try dsimp only
  repeat'
    first
      | with_reducible assumption
      | with_reducible refine Kept.ite (fun _ => ?_) (fun _ => ?_)
      | with_reducible refine Kept.ite2 (fun _ => ?_) (fun _ => ?_)
      | with_reducible refine Kept.dite (fun _ => ?_) (fun _ => ?_)
      | with_reducible refine State.advance_kept ?_
      | with_reducible refine State.powerFail_kept ?_

theorem execVioFail_kept {dt : Nat} {s : State} : KeptNext mq lk s (execVioFail dt s) := by
  unfold execVioFail
  have h : Kept mq lk s s := Kept.refl
  refine ⟨_, rfl, ?_⟩
  try dsimp only
  repeat'
    first
      | with_reducible assumption
      | with_reducible refine Kept.ite (fun _ => ?_) (fun _ => ?_)
      | with_reducible refine Kept.ite2 (fun _ => ?_) (fun _ => ?_)
      | with_reducible refine Kept.dite (fun _ => ?_) (fun _ => ?_)
      | with_reducible refine State.advance_kept ?_
      | with_reducible refine State.modPwr_kept ?_
      | with_reducible refine State.powerFail_kept ?_

theorem execVioRise_kept {dt : Nat} {s : State} : KeptNext mq lk s (execVioRise dt s) := by
  unfold execVioRise
  have h : Kept mq lk s s := Kept.refl
  refine ⟨_, rfl, ?_⟩
  try dsimp only
  repeat'
    first
      | with_reducible assumption
      | with_reducible refine Kept.ite (fun _ => ?_) (fun _ => ?_)
      | with_reducible refine Kept.ite2 (fun _ => ?_) (fun _ => ?_)
      | with_reducible refine Kept.dite (fun _ => ?_) (fun _ => ?_)
      | with_reducible refine State.setBit_kept ?_
      | with_reducible refine State.advance_kept ?_
      | with_reducible refine State.modPwr_kept ?_
      | with_reducible refine State.setStep_kept ?_

theorem execShutdownEnd_kept {dt : Nat} {s : State} : KeptNext mq lk s (execShutdownEnd dt s) := by
  unfold execShutdownEnd
  have h : Kept mq lk s s := Kept.refl
  refine ⟨_, rfl, ?_⟩
  try dsimp only
  repeat'
    first
      | with_reducible assumption
      | with_reducible refine Kept.ite (fun _ => ?_) (fun _ => ?_)
      | with_reducible refine Kept.ite2 (fun _ => ?_) (fun _ => ?_)
      | with_reducible refine Kept.dite (fun _ => ?_) (fun _ => ?_)
      | with_reducible refine State.advance_kept ?_
      | with_reducible refine State.modPwr_kept ?_
      | with_reducible refine Kept.foldl ?_ ?_
      | fail_if_no_progress with_reducible refine Kept.upd ?_
      | fail_if_no_progress with_reducible refine Kept.updH ?_ ?_
      | exact Hearth.keeps id id id

theorem execExtest_kept {dt : Nat} {code : BitVec 4} {scan : Option (BitVec 459)} {pins : BitVec 459} {s : State} : KeptNext mq lk s (execExtest dt code scan pins s) := by
  unfold execExtest
  have h : Kept mq lk s s := Kept.refl
  refine ⟨_, rfl, ?_⟩
  try dsimp only
  repeat'
    first
      | with_reducible assumption
      | with_reducible refine Kept.ite (fun _ => ?_) (fun _ => ?_)
      | with_reducible refine Kept.ite2 (fun _ => ?_) (fun _ => ?_)
      | with_reducible refine Kept.dite (fun _ => ?_) (fun _ => ?_)
      | with_reducible refine State.advance_kept ?_
      | with_reducible refine State.setExtest_kept ?_
      | with_reducible refine Kept.foldl ?_ ?_
      | fail_if_no_progress with_reducible refine Kept.upd ?_
      | refine Kept.tagsFilter ?_
      | dsimp only
      | split

theorem execKeyedValueWrite_kept {dt : Nat} {port : Port} {addr : Word} {value : Word} {s : State} : KeptNext false lk s (execKeyedValueWrite dt port addr value s) := by
  unfold execKeyedValueWrite
  have h : Kept false lk s s := Kept.refl
  refine ⟨_, rfl, ?_⟩
  try dsimp only
  repeat'
    first
      | with_reducible assumption
      | with_reducible refine Kept.ite (fun _ => ?_) (fun _ => ?_)
      | with_reducible refine Kept.ite2 (fun _ => ?_) (fun _ => ?_)
      | with_reducible refine Kept.dite (fun _ => ?_) (fun _ => ?_)
      | with_reducible refine State.advance_kept ?_
      | with_reducible refine State.busWrite_kept ?_
      | with_reducible refine Kept.foldl ?_ ?_
      | fail_if_no_progress with_reducible refine Kept.upd ?_
      | refine Kept.tagsFilter ?_
      | refine Kept.enter ?_ ?_
      | dsimp only
      | split

theorem execKeyedComplementWrite_kept {dt : Nat} {port : Port} {addr : Word} {value : Word} {s : State} : KeptNext false lk s (execKeyedComplementWrite dt port addr value s) := by
  unfold execKeyedComplementWrite
  have h : Kept false lk s s := Kept.refl
  refine ⟨_, rfl, ?_⟩
  try dsimp only
  repeat'
    first
      | with_reducible assumption
      | with_reducible refine Kept.ite (fun _ => ?_) (fun _ => ?_)
      | with_reducible refine Kept.ite2 (fun _ => ?_) (fun _ => ?_)
      | with_reducible refine Kept.dite (fun _ => ?_) (fun _ => ?_)
      | with_reducible refine State.advance_kept ?_
      | with_reducible refine State.busWrite_kept ?_
      | with_reducible refine Kept.foldl ?_ ?_
      | fail_if_no_progress with_reducible refine Kept.upd ?_
      | refine Kept.tagsFilter ?_
      | refine Kept.enter ?_ ?_
      | dsimp only
      | split

theorem execKeyedWriteTimeout_kept {dt : Nat} {port : Port} {s : State} : KeptNext mq lk s (execKeyedWriteTimeout dt port s) := by
  unfold execKeyedWriteTimeout
  have h : Kept mq lk s s := Kept.refl
  refine ⟨_, rfl, ?_⟩
  try dsimp only
  repeat'
    first
      | with_reducible assumption
      | with_reducible refine Kept.ite (fun _ => ?_) (fun _ => ?_)
      | with_reducible refine Kept.ite2 (fun _ => ?_) (fun _ => ?_)
      | with_reducible refine Kept.dite (fun _ => ?_) (fun _ => ?_)
      | with_reducible refine State.advance_kept ?_
      | with_reducible refine State.expire_kept ?_

theorem execBitAliasWrite_kept {dt : Nat} {port : Port} {addr : Word} {value : Word} {s : State} : KeptNext false lk s (execBitAliasWrite dt port addr value s) := by
  unfold execBitAliasWrite
  have h : Kept false lk s s := Kept.refl
  refine ⟨_, rfl, ?_⟩
  try dsimp only
  repeat'
    first
      | with_reducible assumption
      | with_reducible refine Kept.ite (fun _ => ?_) (fun _ => ?_)
      | with_reducible refine Kept.ite2 (fun _ => ?_) (fun _ => ?_)
      | with_reducible refine Kept.dite (fun _ => ?_) (fun _ => ?_)
      | with_reducible refine State.advance_kept ?_
      | with_reducible refine State.busWrite_kept ?_

theorem execRegisterWrite_kept {dt : Nat} {port : Port} {addr : Word} {value : Word} {s : State} : KeptNext false lk s (execRegisterWrite dt port addr value s) := by
  unfold execRegisterWrite
  have h : Kept false lk s s := Kept.refl
  refine ⟨_, rfl, ?_⟩
  try dsimp only
  repeat'
    first
      | with_reducible assumption
      | with_reducible refine Kept.ite (fun _ => ?_) (fun _ => ?_)
      | with_reducible refine Kept.ite2 (fun _ => ?_) (fun _ => ?_)
      | with_reducible refine Kept.dite (fun _ => ?_) (fun _ => ?_)
      | with_reducible refine State.advance_kept ?_
      | with_reducible refine State.busWrite_kept ?_

theorem execPortcfgWrite_kept {dt : Nat} {port : Port} {which : Fin 3} {value : Word} {s : State} : KeptNext false lk s (execPortcfgWrite dt port which value s) := by
  unfold execPortcfgWrite
  have h : Kept false lk s s := Kept.refl
  refine ⟨_, rfl, ?_⟩
  try dsimp only
  repeat'
    first
      | with_reducible assumption
      | with_reducible refine Kept.ite (fun _ => ?_) (fun _ => ?_)
      | with_reducible refine Kept.ite2 (fun _ => ?_) (fun _ => ?_)
      | with_reducible refine Kept.dite (fun _ => ?_) (fun _ => ?_)
      | with_reducible refine State.advance_kept ?_
      | with_reducible refine State.busWrite_kept ?_

theorem execAxctlClose_kept {dt : Nat} {port : Port} {value : Word} {complement : Word} {s : State} : KeptNext false lk s (execAxctlClose dt port value complement s) := by
  unfold execAxctlClose
  have h : Kept false lk s s := Kept.refl
  refine ⟨_, rfl, ?_⟩
  try dsimp only
  repeat'
    first
      | with_reducible assumption
      | with_reducible refine Kept.ite (fun _ => ?_) (fun _ => ?_)
      | with_reducible refine Kept.ite2 (fun _ => ?_) (fun _ => ?_)
      | with_reducible refine Kept.dite (fun _ => ?_) (fun _ => ?_)
      | with_reducible refine State.advance_kept ?_
      | with_reducible refine State.keyedWrite_kept ?_

theorem execAxctlRetire_kept {dt : Nat} {port : Port} {value : Word} {complement : Word} {s : State} : KeptNext false lk s (execAxctlRetire dt port value complement s) := by
  unfold execAxctlRetire
  have h : Kept false lk s s := Kept.refl
  refine ⟨_, rfl, ?_⟩
  try dsimp only
  repeat'
    first
      | with_reducible assumption
      | with_reducible refine Kept.ite (fun _ => ?_) (fun _ => ?_)
      | with_reducible refine Kept.ite2 (fun _ => ?_) (fun _ => ?_)
      | with_reducible refine Kept.dite (fun _ => ?_) (fun _ => ?_)
      | with_reducible refine State.advance_kept ?_
      | with_reducible refine State.keyedWrite_kept ?_

theorem execAxctlReinstate_kept {dt : Nat} {port : Port} {value : Word} {complement : Word} {s : State} : KeptNext false lk s (execAxctlReinstate dt port value complement s) := by
  unfold execAxctlReinstate
  have h : Kept false lk s s := Kept.refl
  refine ⟨_, rfl, ?_⟩
  try dsimp only
  repeat'
    first
      | with_reducible assumption
      | with_reducible refine Kept.ite (fun _ => ?_) (fun _ => ?_)
      | with_reducible refine Kept.ite2 (fun _ => ?_) (fun _ => ?_)
      | with_reducible refine Kept.dite (fun _ => ?_) (fun _ => ?_)
      | with_reducible refine State.advance_kept ?_
      | with_reducible refine State.keyedWrite_kept ?_

theorem execAxctlCloseModule_kept {dt : Nat} {port : Port} {value : Word} {complement : Word} {s : State} : KeptNext false lk s (execAxctlCloseModule dt port value complement s) := by
  unfold execAxctlCloseModule
  have h : Kept false lk s s := Kept.refl
  refine ⟨_, rfl, ?_⟩
  try dsimp only
  repeat'
    first
      | with_reducible assumption
      | with_reducible refine Kept.ite (fun _ => ?_) (fun _ => ?_)
      | with_reducible refine Kept.ite2 (fun _ => ?_) (fun _ => ?_)
      | with_reducible refine Kept.dite (fun _ => ?_) (fun _ => ?_)
      | with_reducible refine State.advance_kept ?_
      | with_reducible refine State.keyedWrite_kept ?_

theorem execClassWrite_kept {dt : Nat} {port : Port} {k : Fin 8} {value : Word} {complement : Word} {s : State} : KeptNext false lk s (execClassWrite dt port k value complement s) := by
  unfold execClassWrite
  have h : Kept false lk s s := Kept.refl
  refine ⟨_, rfl, ?_⟩
  try dsimp only
  repeat'
    first
      | with_reducible assumption
      | with_reducible refine Kept.ite (fun _ => ?_) (fun _ => ?_)
      | with_reducible refine Kept.ite2 (fun _ => ?_) (fun _ => ?_)
      | with_reducible refine Kept.dite (fun _ => ?_) (fun _ => ?_)
      | with_reducible refine State.advance_kept ?_
      | with_reducible refine State.keyedWrite_kept ?_

theorem execTripmapWrite_kept {dt : Nat} {port : Port} {a : AxisId} {value : Word} {complement : Word} {s : State} : KeptNext false lk s (execTripmapWrite dt port a value complement s) := by
  unfold execTripmapWrite
  have h : Kept false lk s s := Kept.refl
  refine ⟨_, rfl, ?_⟩
  try dsimp only
  repeat'
    first
      | with_reducible assumption
      | with_reducible refine Kept.ite (fun _ => ?_) (fun _ => ?_)
      | with_reducible refine Kept.ite2 (fun _ => ?_) (fun _ => ?_)
      | with_reducible refine Kept.dite (fun _ => ?_) (fun _ => ?_)
      | with_reducible refine State.advance_kept ?_
      | with_reducible refine State.keyedWrite_kept ?_

theorem execGdbEnableWrite_kept {dt : Nat} {port : Port} {b : BankId} {value : Word} {complement : Word} {s : State} : KeptNext false lk s (execGdbEnableWrite dt port b value complement s) := by
  unfold execGdbEnableWrite
  have h : Kept false lk s s := Kept.refl
  refine ⟨_, rfl, ?_⟩
  try dsimp only
  repeat'
    first
      | with_reducible assumption
      | with_reducible refine Kept.ite (fun _ => ?_) (fun _ => ?_)
      | with_reducible refine Kept.ite2 (fun _ => ?_) (fun _ => ?_)
      | with_reducible refine Kept.dite (fun _ => ?_) (fun _ => ?_)
      | with_reducible refine State.advance_kept ?_
      | with_reducible refine State.keyedWrite_kept ?_

theorem execCalset_kept {dt : Nat} {port : Port} {value : Word} {complement : Word} {s : State} : KeptNext false lk s (execCalset dt port value complement s) := by
  unfold execCalset
  have h : Kept false lk s s := Kept.refl
  refine ⟨_, rfl, ?_⟩
  try dsimp only
  repeat'
    first
      | with_reducible assumption
      | with_reducible refine Kept.ite (fun _ => ?_) (fun _ => ?_)
      | with_reducible refine Kept.ite2 (fun _ => ?_) (fun _ => ?_)
      | with_reducible refine Kept.dite (fun _ => ?_) (fun _ => ?_)
      | with_reducible refine State.advance_kept ?_
      | with_reducible refine State.keyedWrite_kept ?_

theorem execCeilWrite_kept {dt : Nat} {port : Port} {value : Word} {complement : Word} {s : State} : KeptNext false lk s (execCeilWrite dt port value complement s) := by
  unfold execCeilWrite
  have h : Kept false lk s s := Kept.refl
  refine ⟨_, rfl, ?_⟩
  try dsimp only
  repeat'
    first
      | with_reducible assumption
      | with_reducible refine Kept.ite (fun _ => ?_) (fun _ => ?_)
      | with_reducible refine Kept.ite2 (fun _ => ?_) (fun _ => ?_)
      | with_reducible refine Kept.dite (fun _ => ?_) (fun _ => ?_)
      | with_reducible refine State.advance_kept ?_
      | with_reducible refine State.keyedWrite_kept ?_

theorem execSrcselWrite_kept {dt : Nat} {port : Port} {value : Word} {complement : Word} {s : State} : KeptNext false lk s (execSrcselWrite dt port value complement s) := by
  unfold execSrcselWrite
  have h : Kept false lk s s := Kept.refl
  refine ⟨_, rfl, ?_⟩
  try dsimp only
  repeat'
    first
      | with_reducible assumption
      | with_reducible refine Kept.ite (fun _ => ?_) (fun _ => ?_)
      | with_reducible refine Kept.ite2 (fun _ => ?_) (fun _ => ?_)
      | with_reducible refine Kept.dite (fun _ => ?_) (fun _ => ?_)
      | with_reducible refine State.advance_kept ?_
      | with_reducible refine State.keyedWrite_kept ?_

theorem execTmrScrub_kept {dt : Nat} {upsets : List Upset} {pass : Bool} {s : State} : KeptNext mq lk s (execTmrScrub dt upsets pass s) := by
  unfold execTmrScrub
  have h : Kept mq lk s s := Kept.refl
  refine ⟨_, rfl, ?_⟩
  try dsimp only
  repeat'
    first
      | with_reducible assumption
      | with_reducible refine Kept.ite (fun _ => ?_) (fun _ => ?_)
      | with_reducible refine Kept.ite2 (fun _ => ?_) (fun _ => ?_)
      | with_reducible refine Kept.dite (fun _ => ?_) (fun _ => ?_)
      | with_reducible refine State.advance_kept ?_
      | with_reducible refine State.upset_kept ?_
      | with_reducible refine State.scrubWord_kept ?_
      | with_reducible refine Kept.foldl ?_ ?_
      | fail_if_no_progress with_reducible refine Kept.upd ?_
      | refine Kept.tagsFilter ?_
      | dsimp only
      | split
      | (intro _; intros; try dsimp only)

theorem execPacketCrcDiscard_kept {dt : Nat} {port : Port} {s : State} : KeptNext mq lk s (execPacketCrcDiscard dt port s) := by
  unfold execPacketCrcDiscard
  have h : Kept mq lk s s := Kept.refl
  refine ⟨_, rfl, ?_⟩
  try dsimp only
  repeat'
    first
      | with_reducible assumption
      | with_reducible refine Kept.ite (fun _ => ?_) (fun _ => ?_)
      | with_reducible refine Kept.ite2 (fun _ => ?_) (fun _ => ?_)
      | with_reducible refine Kept.dite (fun _ => ?_) (fun _ => ?_)
      | with_reducible refine State.advance_kept ?_
      | with_reducible refine State.badCrc_kept ?_

theorem execBadOpcode_kept {dt : Nat} {version : BitVec 4} {opcode : Byte} {p : Packet} {s : State} : KeptNext mq lk s (execBadOpcode dt version opcode p s) := by
  unfold execBadOpcode
  have h : Kept mq lk s s := Kept.refl
  refine ⟨_, rfl, ?_⟩
  try dsimp only
  repeat'
    first
      | with_reducible assumption
      | with_reducible refine Kept.ite (fun _ => ?_) (fun _ => ?_)
      | with_reducible refine Kept.ite2 (fun _ => ?_) (fun _ => ?_)
      | with_reducible refine Kept.dite (fun _ => ?_) (fun _ => ?_)
      | with_reducible refine State.advance_kept ?_
      | with_reducible refine State.enterBad_kept ?_

theorem execBurstBroken_kept {dt : Nat} {port : Port} {src : BitVec 14} {s : State} : KeptNext mq lk s (execBurstBroken dt port src s) := by
  unfold execBurstBroken
  have h : Kept mq lk s s := Kept.refl
  refine ⟨_, rfl, ?_⟩
  try dsimp only
  repeat'
    first
      | with_reducible assumption
      | with_reducible refine Kept.ite (fun _ => ?_) (fun _ => ?_)
      | with_reducible refine Kept.ite2 (fun _ => ?_) (fun _ => ?_)
      | with_reducible refine Kept.dite (fun _ => ?_) (fun _ => ?_)
      | with_reducible refine State.advance_kept ?_
      | with_reducible refine State.breakBurst_kept ?_
      | with_reducible refine Kept.foldl ?_ ?_
      | fail_if_no_progress with_reducible refine Kept.upd ?_
      | refine Kept.tagsFilter ?_
      | refine Kept.enter ?_ ?_
      | dsimp only
      | split

theorem execStampedCommandDue_kept {dt : Nat} {port : Port} {src : BitVec 14} {tag : BitVec 16} {s : State} : KeptNext false lk s (execStampedCommandDue dt port src tag s) := by
  unfold execStampedCommandDue
  have h : Kept false lk s s := Kept.refl
  refine ⟨_, rfl, ?_⟩
  try dsimp only
  repeat'
    first
      | with_reducible assumption
      | with_reducible refine Kept.ite (fun _ => ?_) (fun _ => ?_)
      | with_reducible refine Kept.ite2 (fun _ => ?_) (fun _ => ?_)
      | with_reducible refine Kept.dite (fun _ => ?_) (fun _ => ?_)
      | with_reducible refine State.advance_kept ?_
      | with_reducible refine State.takeNow_kept ?_
      | with_reducible refine Kept.foldl ?_ ?_
      | fail_if_no_progress with_reducible refine Kept.upd ?_
      | refine Kept.tagsFilter ?_
      | refine Kept.enter ?_ ?_
      | dsimp only
      | split

theorem execQueuedCommandTaken_kept {dt : Nat} {a : AxisId} {s : State} : KeptNext false lk s (execQueuedCommandTaken dt a s) := by
  unfold execQueuedCommandTaken
  have h : Kept false lk s s := Kept.refl
  refine ⟨_, rfl, ?_⟩
  try dsimp only
  repeat'
    first
      | with_reducible assumption
      | with_reducible refine Kept.ite (fun _ => ?_) (fun _ => ?_)
      | with_reducible refine Kept.ite2 (fun _ => ?_) (fun _ => ?_)
      | with_reducible refine Kept.dite (fun _ => ?_) (fun _ => ?_)
      | with_reducible refine State.advance_kept ?_
      | with_reducible refine State.takeHead_kept ?_

theorem execNop_kept {dt : Nat} {p : Packet} {s : State} : KeptNext false lk s (execNop dt p s) := by
  unfold execNop
  have h : Kept false lk s s := Kept.refl
  refine ⟨_, rfl, ?_⟩
  try dsimp only
  repeat'
    first
      | with_reducible assumption
      | with_reducible refine Kept.ite (fun _ => ?_) (fun _ => ?_)
      | with_reducible refine Kept.ite2 (fun _ => ?_) (fun _ => ?_)
      | with_reducible refine Kept.dite (fun _ => ?_) (fun _ => ?_)
      | with_reducible refine State.advance_kept ?_
      | with_reducible refine State.arrive_kept ?_

theorem execRegRead_kept {dt : Nat} {p : Packet} {s : State} : KeptNext false lk s (execRegRead dt p s) := by
  unfold execRegRead
  have h : Kept false lk s s := Kept.refl
  refine ⟨_, rfl, ?_⟩
  try dsimp only
  repeat'
    first
      | with_reducible assumption
      | with_reducible refine Kept.ite (fun _ => ?_) (fun _ => ?_)
      | with_reducible refine Kept.ite2 (fun _ => ?_) (fun _ => ?_)
      | with_reducible refine Kept.dite (fun _ => ?_) (fun _ => ?_)
      | with_reducible refine State.advance_kept ?_
      | with_reducible refine State.arrive_kept ?_

theorem execRegWrite_kept {dt : Nat} {p : Packet} {s : State} : KeptNext false lk s (execRegWrite dt p s) := by
  unfold execRegWrite
  have h : Kept false lk s s := Kept.refl
  refine ⟨_, rfl, ?_⟩
  try dsimp only
  repeat'
    first
      | with_reducible assumption
      | with_reducible refine Kept.ite (fun _ => ?_) (fun _ => ?_)
      | with_reducible refine Kept.ite2 (fun _ => ?_) (fun _ => ?_)
      | with_reducible refine Kept.dite (fun _ => ?_) (fun _ => ?_)
      | with_reducible refine State.advance_kept ?_
      | with_reducible refine State.arrive_kept ?_

theorem execRegWriteKeyed_kept {dt : Nat} {p : Packet} {s : State} : KeptNext false lk s (execRegWriteKeyed dt p s) := by
  unfold execRegWriteKeyed
  have h : Kept false lk s s := Kept.refl
  refine ⟨_, rfl, ?_⟩
  try dsimp only
  repeat'
    first
      | with_reducible assumption
      | with_reducible refine Kept.ite (fun _ => ?_) (fun _ => ?_)
      | with_reducible refine Kept.ite2 (fun _ => ?_) (fun _ => ?_)
      | with_reducible refine Kept.dite (fun _ => ?_) (fun _ => ?_)
      | with_reducible refine State.advance_kept ?_
      | with_reducible refine State.arrive_kept ?_

theorem execRegReadMulti_kept {dt : Nat} {p : Packet} {s : State} : KeptNext false lk s (execRegReadMulti dt p s) := by
  unfold execRegReadMulti
  have h : Kept false lk s s := Kept.refl
  refine ⟨_, rfl, ?_⟩
  try dsimp only
  repeat'
    first
      | with_reducible assumption
      | with_reducible refine Kept.ite (fun _ => ?_) (fun _ => ?_)
      | with_reducible refine Kept.ite2 (fun _ => ?_) (fun _ => ?_)
      | with_reducible refine Kept.dite (fun _ => ?_) (fun _ => ?_)
      | with_reducible refine State.advance_kept ?_
      | with_reducible refine State.arrive_kept ?_

theorem execAxisEnergise_kept {dt : Nat} {p : Packet} {s : State} : KeptNext false lk s (execAxisEnergise dt p s) := by
  unfold execAxisEnergise
  have h : Kept false lk s s := Kept.refl
  refine ⟨_, rfl, ?_⟩
  try dsimp only
  repeat'
    first
      | with_reducible assumption
      | with_reducible refine Kept.ite (fun _ => ?_) (fun _ => ?_)
      | with_reducible refine Kept.ite2 (fun _ => ?_) (fun _ => ?_)
      | with_reducible refine Kept.dite (fun _ => ?_) (fun _ => ?_)
      | with_reducible refine State.advance_kept ?_
      | with_reducible refine State.arrive_kept ?_

theorem execAxisRelease_kept {dt : Nat} {p : Packet} {s : State} : KeptNext false lk s (execAxisRelease dt p s) := by
  unfold execAxisRelease
  have h : Kept false lk s s := Kept.refl
  refine ⟨_, rfl, ?_⟩
  try dsimp only
  repeat'
    first
      | with_reducible assumption
      | with_reducible refine Kept.ite (fun _ => ?_) (fun _ => ?_)
      | with_reducible refine Kept.ite2 (fun _ => ?_) (fun _ => ?_)
      | with_reducible refine Kept.dite (fun _ => ?_) (fun _ => ?_)
      | with_reducible refine State.advance_kept ?_
      | with_reducible refine State.arrive_kept ?_

theorem execAxisDiagOffstate_kept {dt : Nat} {p : Packet} {s : State} : KeptNext false lk s (execAxisDiagOffstate dt p s) := by
  unfold execAxisDiagOffstate
  have h : Kept false lk s s := Kept.refl
  refine ⟨_, rfl, ?_⟩
  try dsimp only
  repeat'
    first
      | with_reducible assumption
      | with_reducible refine Kept.ite (fun _ => ?_) (fun _ => ?_)
      | with_reducible refine Kept.ite2 (fun _ => ?_) (fun _ => ?_)
      | with_reducible refine Kept.dite (fun _ => ?_) (fun _ => ?_)
      | with_reducible refine State.advance_kept ?_
      | with_reducible refine State.arrive_kept ?_

theorem execAxisSelftestCmp_kept {dt : Nat} {p : Packet} {s : State} : KeptNext false lk s (execAxisSelftestCmp dt p s) := by
  unfold execAxisSelftestCmp
  have h : Kept false lk s s := Kept.refl
  refine ⟨_, rfl, ?_⟩
  try dsimp only
  repeat'
    first
      | with_reducible assumption
      | with_reducible refine Kept.ite (fun _ => ?_) (fun _ => ?_)
      | with_reducible refine Kept.ite2 (fun _ => ?_) (fun _ => ?_)
      | with_reducible refine Kept.dite (fun _ => ?_) (fun _ => ?_)
      | with_reducible refine State.advance_kept ?_
      | with_reducible refine State.arrive_kept ?_

theorem execAxisRetire_kept {dt : Nat} {p : Packet} {s : State} : KeptNext false lk s (execAxisRetire dt p s) := by
  unfold execAxisRetire
  have h : Kept false lk s s := Kept.refl
  refine ⟨_, rfl, ?_⟩
  try dsimp only
  repeat'
    first
      | with_reducible assumption
      | with_reducible refine Kept.ite (fun _ => ?_) (fun _ => ?_)
      | with_reducible refine Kept.ite2 (fun _ => ?_) (fun _ => ?_)
      | with_reducible refine Kept.dite (fun _ => ?_) (fun _ => ?_)
      | with_reducible refine State.advance_kept ?_
      | with_reducible refine State.arrive_kept ?_

theorem execAxisReinstate_kept {dt : Nat} {p : Packet} {s : State} : KeptNext false lk s (execAxisReinstate dt p s) := by
  unfold execAxisReinstate
  have h : Kept false lk s s := Kept.refl
  refine ⟨_, rfl, ?_⟩
  try dsimp only
  repeat'
    first
      | with_reducible assumption
      | with_reducible refine Kept.ite (fun _ => ?_) (fun _ => ?_)
      | with_reducible refine Kept.ite2 (fun _ => ?_) (fun _ => ?_)
      | with_reducible refine Kept.dite (fun _ => ?_) (fun _ => ?_)
      | with_reducible refine State.advance_kept ?_
      | with_reducible refine State.arrive_kept ?_

theorem execMoveAbs_kept {dt : Nat} {p : Packet} {s : State} : KeptNext false lk s (execMoveAbs dt p s) := by
  unfold execMoveAbs
  have h : Kept false lk s s := Kept.refl
  refine ⟨_, rfl, ?_⟩
  try dsimp only
  repeat'
    first
      | with_reducible assumption
      | with_reducible refine Kept.ite (fun _ => ?_) (fun _ => ?_)
      | with_reducible refine Kept.ite2 (fun _ => ?_) (fun _ => ?_)
      | with_reducible refine Kept.dite (fun _ => ?_) (fun _ => ?_)
      | with_reducible refine State.advance_kept ?_
      | with_reducible refine State.arrive_kept ?_

theorem execMoveRel_kept {dt : Nat} {p : Packet} {s : State} : KeptNext false lk s (execMoveRel dt p s) := by
  unfold execMoveRel
  have h : Kept false lk s s := Kept.refl
  refine ⟨_, rfl, ?_⟩
  try dsimp only
  repeat'
    first
      | with_reducible assumption
      | with_reducible refine Kept.ite (fun _ => ?_) (fun _ => ?_)
      | with_reducible refine Kept.ite2 (fun _ => ?_) (fun _ => ?_)
      | with_reducible refine Kept.dite (fun _ => ?_) (fun _ => ?_)
      | with_reducible refine State.advance_kept ?_
      | with_reducible refine State.arrive_kept ?_

theorem execMoveVel_kept {dt : Nat} {p : Packet} {s : State} : KeptNext false lk s (execMoveVel dt p s) := by
  unfold execMoveVel
  have h : Kept false lk s s := Kept.refl
  refine ⟨_, rfl, ?_⟩
  try dsimp only
  repeat'
    first
      | with_reducible assumption
      | with_reducible refine Kept.ite (fun _ => ?_) (fun _ => ?_)
      | with_reducible refine Kept.ite2 (fun _ => ?_) (fun _ => ?_)
      | with_reducible refine Kept.dite (fun _ => ?_) (fun _ => ?_)
      | with_reducible refine State.advance_kept ?_
      | with_reducible refine State.arrive_kept ?_

theorem execSegRun_kept {dt : Nat} {p : Packet} {s : State} : KeptNext false lk s (execSegRun dt p s) := by
  unfold execSegRun
  have h : Kept false lk s s := Kept.refl
  refine ⟨_, rfl, ?_⟩
  try dsimp only
  repeat'
    first
      | with_reducible assumption
      | with_reducible refine Kept.ite (fun _ => ?_) (fun _ => ?_)
      | with_reducible refine Kept.ite2 (fun _ => ?_) (fun _ => ?_)
      | with_reducible refine Kept.dite (fun _ => ?_) (fun _ => ?_)
      | with_reducible refine State.advance_kept ?_
      | with_reducible refine State.arrive_kept ?_

theorem execSegAppend_kept {dt : Nat} {p : Packet} {s : State} : KeptNext false lk s (execSegAppend dt p s) := by
  unfold execSegAppend
  have h : Kept false lk s s := Kept.refl
  refine ⟨_, rfl, ?_⟩
  try dsimp only
  repeat'
    first
      | with_reducible assumption
      | with_reducible refine Kept.ite (fun _ => ?_) (fun _ => ?_)
      | with_reducible refine Kept.ite2 (fun _ => ?_) (fun _ => ?_)
      | with_reducible refine Kept.dite (fun _ => ?_) (fun _ => ?_)
      | with_reducible refine State.advance_kept ?_
      | with_reducible refine State.arrive_kept ?_

theorem execFollowStart_kept {dt : Nat} {p : Packet} {s : State} : KeptNext false lk s (execFollowStart dt p s) := by
  unfold execFollowStart
  have h : Kept false lk s s := Kept.refl
  refine ⟨_, rfl, ?_⟩
  try dsimp only
  repeat'
    first
      | with_reducible assumption
      | with_reducible refine Kept.ite (fun _ => ?_) (fun _ => ?_)
      | with_reducible refine Kept.ite2 (fun _ => ?_) (fun _ => ?_)
      | with_reducible refine Kept.dite (fun _ => ?_) (fun _ => ?_)
      | with_reducible refine State.advance_kept ?_
      | with_reducible refine State.arrive_kept ?_

theorem execFollowEnd_kept {dt : Nat} {p : Packet} {s : State} : KeptNext false lk s (execFollowEnd dt p s) := by
  unfold execFollowEnd
  have h : Kept false lk s s := Kept.refl
  refine ⟨_, rfl, ?_⟩
  try dsimp only
  repeat'
    first
      | with_reducible assumption
      | with_reducible refine Kept.ite (fun _ => ?_) (fun _ => ?_)
      | with_reducible refine Kept.ite2 (fun _ => ?_) (fun _ => ?_)
      | with_reducible refine Kept.dite (fun _ => ?_) (fun _ => ?_)
      | with_reducible refine State.advance_kept ?_
      | with_reducible refine State.arrive_kept ?_

theorem execSetPosition_kept {dt : Nat} {p : Packet} {s : State} : KeptNext false lk s (execSetPosition dt p s) := by
  unfold execSetPosition
  have h : Kept false lk s s := Kept.refl
  refine ⟨_, rfl, ?_⟩
  try dsimp only
  repeat'
    first
      | with_reducible assumption
      | with_reducible refine Kept.ite (fun _ => ?_) (fun _ => ?_)
      | with_reducible refine Kept.ite2 (fun _ => ?_) (fun _ => ?_)
      | with_reducible refine Kept.dite (fun _ => ?_) (fun _ => ?_)
      | with_reducible refine State.advance_kept ?_
      | with_reducible refine State.arrive_kept ?_

theorem execStop_kept {dt : Nat} {p : Packet} {s : State} : KeptNext false lk s (execStop dt p s) := by
  unfold execStop
  have h : Kept false lk s s := Kept.refl
  refine ⟨_, rfl, ?_⟩
  try dsimp only
  repeat'
    first
      | with_reducible assumption
      | with_reducible refine Kept.ite (fun _ => ?_) (fun _ => ?_)
      | with_reducible refine Kept.ite2 (fun _ => ?_) (fun _ => ?_)
      | with_reducible refine Kept.dite (fun _ => ?_) (fun _ => ?_)
      | with_reducible refine State.advance_kept ?_
      | with_reducible refine State.arrive_kept ?_

theorem execAbort_kept {dt : Nat} {p : Packet} {s : State} : KeptNext false lk s (execAbort dt p s) := by
  unfold execAbort
  have h : Kept false lk s s := Kept.refl
  refine ⟨_, rfl, ?_⟩
  try dsimp only
  repeat'
    first
      | with_reducible assumption
      | with_reducible refine Kept.ite (fun _ => ?_) (fun _ => ?_)
      | with_reducible refine Kept.ite2 (fun _ => ?_) (fun _ => ?_)
      | with_reducible refine Kept.dite (fun _ => ?_) (fun _ => ?_)
      | with_reducible refine State.advance_kept ?_
      | with_reducible refine State.arrive_kept ?_

theorem execHold_kept {dt : Nat} {p : Packet} {s : State} : KeptNext false lk s (execHold dt p s) := by
  unfold execHold
  have h : Kept false lk s s := Kept.refl
  refine ⟨_, rfl, ?_⟩
  try dsimp only
  repeat'
    first
      | with_reducible assumption
      | with_reducible refine Kept.ite (fun _ => ?_) (fun _ => ?_)
      | with_reducible refine Kept.ite2 (fun _ => ?_) (fun _ => ?_)
      | with_reducible refine Kept.dite (fun _ => ?_) (fun _ => ?_)
      | with_reducible refine State.advance_kept ?_
      | with_reducible refine State.arrive_kept ?_

theorem execResume_kept {dt : Nat} {p : Packet} {s : State} : KeptNext false lk s (execResume dt p s) := by
  unfold execResume
  have h : Kept false lk s s := Kept.refl
  refine ⟨_, rfl, ?_⟩
  try dsimp only
  repeat'
    first
      | with_reducible assumption
      | with_reducible refine Kept.ite (fun _ => ?_) (fun _ => ?_)
      | with_reducible refine Kept.ite2 (fun _ => ?_) (fun _ => ?_)
      | with_reducible refine Kept.dite (fun _ => ?_) (fun _ => ?_)
      | with_reducible refine State.advance_kept ?_
      | with_reducible refine State.arrive_kept ?_

theorem execPoolAlloc_kept {dt : Nat} {p : Packet} {s : State} : KeptNext false lk s (execPoolAlloc dt p s) := by
  unfold execPoolAlloc
  have h : Kept false lk s s := Kept.refl
  refine ⟨_, rfl, ?_⟩
  try dsimp only
  repeat'
    first
      | with_reducible assumption
      | with_reducible refine Kept.ite (fun _ => ?_) (fun _ => ?_)
      | with_reducible refine Kept.ite2 (fun _ => ?_) (fun _ => ?_)
      | with_reducible refine Kept.dite (fun _ => ?_) (fun _ => ?_)
      | with_reducible refine State.advance_kept ?_
      | with_reducible refine State.arrive_kept ?_

theorem execPoolFree_kept {dt : Nat} {p : Packet} {s : State} : KeptNext false lk s (execPoolFree dt p s) := by
  unfold execPoolFree
  have h : Kept false lk s s := Kept.refl
  refine ⟨_, rfl, ?_⟩
  try dsimp only
  repeat'
    first
      | with_reducible assumption
      | with_reducible refine Kept.ite (fun _ => ?_) (fun _ => ?_)
      | with_reducible refine Kept.ite2 (fun _ => ?_) (fun _ => ?_)
      | with_reducible refine Kept.dite (fun _ => ?_) (fun _ => ?_)
      | with_reducible refine State.advance_kept ?_
      | with_reducible refine State.arrive_kept ?_

theorem execPoolGive_kept {dt : Nat} {p : Packet} {s : State} : KeptNext false lk s (execPoolGive dt p s) := by
  unfold execPoolGive
  have h : Kept false lk s s := Kept.refl
  refine ⟨_, rfl, ?_⟩
  try dsimp only
  repeat'
    first
      | with_reducible assumption
      | with_reducible refine Kept.ite (fun _ => ?_) (fun _ => ?_)
      | with_reducible refine Kept.ite2 (fun _ => ?_) (fun _ => ?_)
      | with_reducible refine Kept.dite (fun _ => ?_) (fun _ => ?_)
      | with_reducible refine State.advance_kept ?_
      | with_reducible refine State.arrive_kept ?_

theorem execPoolWrite_kept {dt : Nat} {p : Packet} {s : State} : KeptNext false lk s (execPoolWrite dt p s) := by
  unfold execPoolWrite
  have h : Kept false lk s s := Kept.refl
  refine ⟨_, rfl, ?_⟩
  try dsimp only
  repeat'
    first
      | with_reducible assumption
      | with_reducible refine Kept.ite (fun _ => ?_) (fun _ => ?_)
      | with_reducible refine Kept.ite2 (fun _ => ?_) (fun _ => ?_)
      | with_reducible refine Kept.dite (fun _ => ?_) (fun _ => ?_)
      | with_reducible refine State.advance_kept ?_
      | with_reducible refine State.arrive_kept ?_

theorem execPoolRead_kept {dt : Nat} {p : Packet} {s : State} : KeptNext false lk s (execPoolRead dt p s) := by
  unfold execPoolRead
  have h : Kept false lk s s := Kept.refl
  refine ⟨_, rfl, ?_⟩
  try dsimp only
  repeat'
    first
      | with_reducible assumption
      | with_reducible refine Kept.ite (fun _ => ?_) (fun _ => ?_)
      | with_reducible refine Kept.ite2 (fun _ => ?_) (fun _ => ?_)
      | with_reducible refine Kept.dite (fun _ => ?_) (fun _ => ?_)
      | with_reducible refine State.advance_kept ?_
      | with_reducible refine State.arrive_kept ?_

theorem execGroupJoin_kept {dt : Nat} {p : Packet} {s : State} : KeptNext false lk s (execGroupJoin dt p s) := by
  unfold execGroupJoin
  have h : Kept false lk s s := Kept.refl
  refine ⟨_, rfl, ?_⟩
  try dsimp only
  repeat'
    first
      | with_reducible assumption
      | with_reducible refine Kept.ite (fun _ => ?_) (fun _ => ?_)
      | with_reducible refine Kept.ite2 (fun _ => ?_) (fun _ => ?_)
      | with_reducible refine Kept.dite (fun _ => ?_) (fun _ => ?_)
      | with_reducible refine State.advance_kept ?_
      | with_reducible refine State.arrive_kept ?_

theorem execGroupLeave_kept {dt : Nat} {p : Packet} {s : State} : KeptNext false lk s (execGroupLeave dt p s) := by
  unfold execGroupLeave
  have h : Kept false lk s s := Kept.refl
  refine ⟨_, rfl, ?_⟩
  try dsimp only
  repeat'
    first
      | with_reducible assumption
      | with_reducible refine Kept.ite (fun _ => ?_) (fun _ => ?_)
      | with_reducible refine Kept.ite2 (fun _ => ?_) (fun _ => ?_)
      | with_reducible refine Kept.dite (fun _ => ?_) (fun _ => ?_)
      | with_reducible refine State.advance_kept ?_
      | with_reducible refine State.arrive_kept ?_

theorem execGroupArm_kept {dt : Nat} {p : Packet} {s : State} : KeptNext false lk s (execGroupArm dt p s) := by
  unfold execGroupArm
  have h : Kept false lk s s := Kept.refl
  refine ⟨_, rfl, ?_⟩
  try dsimp only
  repeat'
    first
      | with_reducible assumption
      | with_reducible refine Kept.ite (fun _ => ?_) (fun _ => ?_)
      | with_reducible refine Kept.ite2 (fun _ => ?_) (fun _ => ?_)
      | with_reducible refine Kept.dite (fun _ => ?_) (fun _ => ?_)
      | with_reducible refine State.advance_kept ?_
      | with_reducible refine State.arrive_kept ?_

theorem execGroupStartAt_kept {dt : Nat} {p : Packet} {s : State} : KeptNext false lk s (execGroupStartAt dt p s) := by
  unfold execGroupStartAt
  have h : Kept false lk s s := Kept.refl
  refine ⟨_, rfl, ?_⟩
  try dsimp only
  repeat'
    first
      | with_reducible assumption
      | with_reducible refine Kept.ite (fun _ => ?_) (fun _ => ?_)
      | with_reducible refine Kept.ite2 (fun _ => ?_) (fun _ => ?_)
      | with_reducible refine Kept.dite (fun _ => ?_) (fun _ => ?_)
      | with_reducible refine State.advance_kept ?_
      | with_reducible refine State.arrive_kept ?_

theorem execGroupHalt_kept {dt : Nat} {p : Packet} {s : State} : KeptNext false lk s (execGroupHalt dt p s) := by
  unfold execGroupHalt
  have h : Kept false lk s s := Kept.refl
  refine ⟨_, rfl, ?_⟩
  try dsimp only
  repeat'
    first
      | with_reducible assumption
      | with_reducible refine Kept.ite (fun _ => ?_) (fun _ => ?_)
      | with_reducible refine Kept.ite2 (fun _ => ?_) (fun _ => ?_)
      | with_reducible refine Kept.dite (fun _ => ?_) (fun _ => ?_)
      | with_reducible refine State.advance_kept ?_
      | with_reducible refine State.arrive_kept ?_

theorem execTimeSourceSelect_kept {dt : Nat} {p : Packet} {s : State} : KeptNext false lk s (execTimeSourceSelect dt p s) := by
  unfold execTimeSourceSelect
  have h : Kept false lk s s := Kept.refl
  refine ⟨_, rfl, ?_⟩
  try dsimp only
  repeat'
    first
      | with_reducible assumption
      | with_reducible refine Kept.ite (fun _ => ?_) (fun _ => ?_)
      | with_reducible refine Kept.ite2 (fun _ => ?_) (fun _ => ?_)
      | with_reducible refine Kept.dite (fun _ => ?_) (fun _ => ?_)
      | with_reducible refine State.advance_kept ?_
      | with_reducible refine State.arrive_kept ?_

theorem execTimeQuery_kept {dt : Nat} {p : Packet} {s : State} : KeptNext false lk s (execTimeQuery dt p s) := by
  unfold execTimeQuery
  have h : Kept false lk s s := Kept.refl
  refine ⟨_, rfl, ?_⟩
  try dsimp only
  repeat'
    first
      | with_reducible assumption
      | with_reducible refine Kept.ite (fun _ => ?_) (fun _ => ?_)
      | with_reducible refine Kept.ite2 (fun _ => ?_) (fun _ => ?_)
      | with_reducible refine Kept.dite (fun _ => ?_) (fun _ => ?_)
      | with_reducible refine State.advance_kept ?_
      | with_reducible refine State.arrive_kept ?_

theorem execLogRead_kept {dt : Nat} {p : Packet} {s : State} : KeptNext false lk s (execLogRead dt p s) := by
  unfold execLogRead
  have h : Kept false lk s s := Kept.refl
  refine ⟨_, rfl, ?_⟩
  try dsimp only
  repeat'
    first
      | with_reducible assumption
      | with_reducible refine Kept.ite (fun _ => ?_) (fun _ => ?_)
      | with_reducible refine Kept.ite2 (fun _ => ?_) (fun _ => ?_)
      | with_reducible refine Kept.dite (fun _ => ?_) (fun _ => ?_)
      | with_reducible refine State.advance_kept ?_
      | with_reducible refine State.arrive_kept ?_

theorem execLogMark_kept {dt : Nat} {p : Packet} {s : State} : KeptNext false lk s (execLogMark dt p s) := by
  unfold execLogMark
  have h : Kept false lk s s := Kept.refl
  refine ⟨_, rfl, ?_⟩
  try dsimp only
  repeat'
    first
      | with_reducible assumption
      | with_reducible refine Kept.ite (fun _ => ?_) (fun _ => ?_)
      | with_reducible refine Kept.ite2 (fun _ => ?_) (fun _ => ?_)
      | with_reducible refine Kept.dite (fun _ => ?_) (fun _ => ?_)
      | with_reducible refine State.advance_kept ?_
      | with_reducible refine State.arrive_kept ?_

theorem execPlRequest_kept {dt : Nat} {p : Packet} {s : State} : KeptNext false lk s (execPlRequest dt p s) := by
  unfold execPlRequest
  have h : Kept false lk s s := Kept.refl
  refine ⟨_, rfl, ?_⟩
  try dsimp only
  repeat'
    first
      | with_reducible assumption
      | with_reducible refine Kept.ite (fun _ => ?_) (fun _ => ?_)
      | with_reducible refine Kept.ite2 (fun _ => ?_) (fun _ => ?_)
      | with_reducible refine Kept.dite (fun _ => ?_) (fun _ => ?_)
      | with_reducible refine State.advance_kept ?_
      | with_reducible refine State.arrive_kept ?_

theorem execEcho_kept {dt : Nat} {p : Packet} {s : State} : KeptNext false lk s (execEcho dt p s) := by
  unfold execEcho
  have h : Kept false lk s s := Kept.refl
  refine ⟨_, rfl, ?_⟩
  try dsimp only
  repeat'
    first
      | with_reducible assumption
      | with_reducible refine Kept.ite (fun _ => ?_) (fun _ => ?_)
      | with_reducible refine Kept.ite2 (fun _ => ?_) (fun _ => ?_)
      | with_reducible refine Kept.dite (fun _ => ?_) (fun _ => ?_)
      | with_reducible refine State.advance_kept ?_
      | with_reducible refine State.arrive_kept ?_

theorem execBootImageRead_kept {dt : Nat} {primary : List Byte} {fallback : List Byte} {s : State} : KeptNext mq lk s (execBootImageRead dt primary fallback s) := by
  unfold execBootImageRead
  have h : Kept mq lk s s := Kept.refl
  refine ⟨_, rfl, ?_⟩
  try dsimp only
  repeat'
    first
      | with_reducible assumption
      | with_reducible refine Kept.ite (fun _ => ?_) (fun _ => ?_)
      | with_reducible refine Kept.ite2 (fun _ => ?_) (fun _ => ?_)
      | with_reducible refine Kept.dite (fun _ => ?_) (fun _ => ?_)
      | with_reducible refine State.advance_kept ?_
      | with_reducible refine State.readFlash_kept ?_
      | with_reducible refine State.bootFrom_kept ?_
      | with_reducible refine State.noBoot_kept ?_
      | with_reducible refine Kept.foldl ?_ ?_
      | fail_if_no_progress with_reducible refine Kept.upd ?_
      | refine Kept.tagsFilter ?_
      | dsimp only
      | split

theorem execBootPacket_kept {dt : Nat} {s : State} : KeptNext false lk s (execBootPacket dt s) := by
  unfold execBootPacket
  have h : Kept false lk s s := Kept.refl
  refine ⟨_, rfl, ?_⟩
  try dsimp only
  repeat'
    first
      | with_reducible assumption
      | with_reducible refine Kept.ite (fun _ => ?_) (fun _ => ?_)
      | with_reducible refine Kept.ite2 (fun _ => ?_) (fun _ => ?_)
      | with_reducible refine Kept.dite (fun _ => ?_) (fun _ => ?_)
      | with_reducible refine State.advance_kept ?_
      | with_reducible refine State.modPwr_kept ?_
      | with_reducible refine State.bootAccount_kept ?_
      | with_reducible refine State.bootReceive_kept ?_
      | with_reducible refine Kept.foldl ?_ ?_
      | fail_if_no_progress with_reducible refine Kept.upd ?_
      | refine Kept.tagsFilter ?_
      | refine Kept.enter ?_ ?_
      | dsimp only
      | split

theorem execHifWrite_kept {dt : Nat} {addr : Word} {words : List Word} {partialWord : Bool} {s : State} : KeptNext false lk s (execHifWrite dt addr words partialWord s) := by
  unfold execHifWrite
  have h : Kept false lk s s := Kept.refl
  refine ⟨_, rfl, ?_⟩
  try dsimp only
  repeat'
    first
      | with_reducible assumption
      | with_reducible refine Kept.ite (fun _ => ?_) (fun _ => ?_)
      | with_reducible refine Kept.ite2 (fun _ => ?_) (fun _ => ?_)
      | with_reducible refine Kept.dite (fun _ => ?_) (fun _ => ?_)
      | with_reducible refine State.advance_kept ?_
      | with_reducible refine State.hostWrites_kept ?_
      | with_reducible refine State.frameIn_kept ?_
      | with_reducible refine State.overdue_kept ?_
      | with_reducible refine State.frameErr_kept ?_

theorem execHifWriteKeyed_kept {dt : Nat} {addr : Word} {words : List Word} {partialWord : Bool} {s : State} : KeptNext false lk s (execHifWriteKeyed dt addr words partialWord s) := by
  unfold execHifWriteKeyed
  have h : Kept false lk s s := Kept.refl
  refine ⟨_, rfl, ?_⟩
  try dsimp only
  repeat'
    first
      | with_reducible assumption
      | with_reducible refine Kept.ite (fun _ => ?_) (fun _ => ?_)
      | with_reducible refine Kept.ite2 (fun _ => ?_) (fun _ => ?_)
      | with_reducible refine Kept.dite (fun _ => ?_) (fun _ => ?_)
      | with_reducible refine State.advance_kept ?_
      | with_reducible refine State.busWrite_kept ?_
      | with_reducible refine State.keyedWrite_kept ?_
      | with_reducible refine State.frameIn_kept ?_
      | with_reducible refine State.frameErr_kept ?_
      | with_reducible refine Kept.foldl ?_ ?_
      | fail_if_no_progress with_reducible refine Kept.upd ?_
      | refine Kept.tagsFilter ?_
      | refine Kept.enter ?_ ?_
      | dsimp only
      | split

theorem execHifRead_kept {dt : Nat} {addr : Word} {words : Nat} {ready : Nat} {bitNs : Nat} {partialWord : Bool} {s : State} : KeptNext false lk s (execHifRead dt addr words ready bitNs partialWord s) := by
  unfold execHifRead
  have h : Kept false lk s s := Kept.refl
  refine ⟨_, rfl, ?_⟩
  try dsimp only
  repeat'
    first
      | with_reducible assumption
      | with_reducible refine Kept.ite (fun _ => ?_) (fun _ => ?_)
      | with_reducible refine Kept.ite2 (fun _ => ?_) (fun _ => ?_)
      | with_reducible refine Kept.dite (fun _ => ?_) (fun _ => ?_)
      | with_reducible refine State.advance_kept ?_
      | with_reducible refine State.frameIn_kept ?_
      | with_reducible refine State.hostReadWords_kept ?_
      | with_reducible refine State.frameErr_kept ?_
      | with_reducible refine Kept.foldl ?_ ?_
      | fail_if_no_progress with_reducible refine Kept.upd ?_
      | refine Kept.tagsFilter ?_
      | dsimp only
      | split
      | (intro _; intros; try dsimp only)

theorem execHifPush_kept {dt : Nat} {bytes : List Byte} {left : Nat} {s : State} : KeptNext false lk s (execHifPush dt bytes left s) := by
  unfold execHifPush
  have h : Kept false lk s s := Kept.refl
  refine ⟨_, rfl, ?_⟩
  try dsimp only
  repeat'
    first
      | with_reducible assumption
      | with_reducible refine Kept.ite (fun _ => ?_) (fun _ => ?_)
      | with_reducible refine Kept.ite2 (fun _ => ?_) (fun _ => ?_)
      | with_reducible refine Kept.dite (fun _ => ?_) (fun _ => ?_)
      | with_reducible refine State.advance_kept ?_
      | with_reducible refine State.frameIn_kept ?_
      | with_reducible refine State.pushAll_kept ?_
      | with_reducible refine State.frameErr_kept ?_

theorem execHifPull_kept {dt : Nat} {words : Nat} {partialWord : Bool} {s : State} : KeptNext false lk s (execHifPull dt words partialWord s) := by
  unfold execHifPull
  have h : Kept false lk s s := Kept.refl
  refine ⟨_, rfl, ?_⟩
  try dsimp only
  repeat'
    first
      | with_reducible assumption
      | with_reducible refine Kept.ite (fun _ => ?_) (fun _ => ?_)
      | with_reducible refine Kept.ite2 (fun _ => ?_) (fun _ => ?_)
      | with_reducible refine Kept.dite (fun _ => ?_) (fun _ => ?_)
      | with_reducible refine State.advance_kept ?_
      | with_reducible refine State.frameIn_kept ?_
      | with_reducible refine State.frameErr_kept ?_
      | with_reducible refine Kept.foldl ?_ ?_
      | fail_if_no_progress with_reducible refine Kept.upd ?_
      | refine Kept.tagsFilter ?_
      | dsimp only
      | split
      | (intro _; intros; try dsimp only)

theorem execHifBadFrame_kept {dt : Nat} {opcode : Byte} {s : State} : KeptNext false lk s (execHifBadFrame dt opcode s) := by
  unfold execHifBadFrame
  have h : Kept false lk s s := Kept.refl
  refine ⟨_, rfl, ?_⟩
  try dsimp only
  repeat'
    first
      | with_reducible assumption
      | with_reducible refine Kept.ite (fun _ => ?_) (fun _ => ?_)
      | with_reducible refine Kept.ite2 (fun _ => ?_) (fun _ => ?_)
      | with_reducible refine Kept.dite (fun _ => ?_) (fun _ => ?_)
      | with_reducible refine State.advance_kept ?_
      | with_reducible refine State.frameIn_kept ?_
      | with_reducible refine State.frameErr_kept ?_

theorem execFrameReceived_kept {dt : Nat} {port : Fin 2} {bytes : List Byte} {s : State} : KeptNext false lk s (execFrameReceived dt port bytes s) := by
  unfold execFrameReceived
  have h : Kept false lk s s := Kept.refl
  refine ⟨_, rfl, ?_⟩
  try dsimp only
  repeat'
    first
      | with_reducible assumption
      | with_reducible refine Kept.ite (fun _ => ?_) (fun _ => ?_)
      | with_reducible refine Kept.ite2 (fun _ => ?_) (fun _ => ?_)
      | with_reducible refine Kept.dite (fun _ => ?_) (fun _ => ?_)
      | with_reducible refine State.bump_kept ?_
      | with_reducible refine State.advance_kept ?_
      | with_reducible refine State.zizel_kept ?_

/-- The rows that begin a Kindling: with them a lock may end (R299). -/
def startsKindling : Instr → Bool
  | .kindlingCold .. | .kindlingWarmSupply .. | .nresetRise .. | .wake .. => true
  | _ => false

/-- Every command answers a next state; it leaves the waiting commands alone, the timebase does not run back, a sound
state stays sound, and a lock stays unless a Kindling begins. -/
theorem exec_kept (c : Instr) (s : State) : KeptNext false (!startsKindling c) s (exec c s) := by
  cases c with
  | packetCrcDiscard => exact execPacketCrcDiscard_kept
  | badOpcode => exact execBadOpcode_kept
  | nop => exact execNop_kept
  | regRead => exact execRegRead_kept
  | regWrite => exact execRegWrite_kept
  | regWriteKeyed => exact execRegWriteKeyed_kept
  | regReadMulti => exact execRegReadMulti_kept
  | axisEnergise => exact execAxisEnergise_kept
  | axisRelease => exact execAxisRelease_kept
  | axisDiagOffstate => exact execAxisDiagOffstate_kept
  | axisSelftestCmp => exact execAxisSelftestCmp_kept
  | axisRetire => exact execAxisRetire_kept
  | axisReinstate => exact execAxisReinstate_kept
  | moveAbs => exact execMoveAbs_kept
  | moveRel => exact execMoveRel_kept
  | moveVel => exact execMoveVel_kept
  | segRun => exact execSegRun_kept
  | segAppend => exact execSegAppend_kept
  | followStart => exact execFollowStart_kept
  | followEnd => exact execFollowEnd_kept
  | setPosition => exact execSetPosition_kept
  | stop => exact execStop_kept
  | abort => exact execAbort_kept
  | hold => exact execHold_kept
  | resume => exact execResume_kept
  | poolAlloc => exact execPoolAlloc_kept
  | poolFree => exact execPoolFree_kept
  | poolGive => exact execPoolGive_kept
  | poolWrite => exact execPoolWrite_kept
  | poolRead => exact execPoolRead_kept
  | groupJoin => exact execGroupJoin_kept
  | groupLeave => exact execGroupLeave_kept
  | groupArm => exact execGroupArm_kept
  | groupStartAt => exact execGroupStartAt_kept
  | groupHalt => exact execGroupHalt_kept
  | timeSourceSelect => exact execTimeSourceSelect_kept
  | timeQuery => exact execTimeQuery_kept
  | logRead => exact execLogRead_kept
  | logMark => exact execLogMark_kept
  | plRequest => exact execPlRequest_kept
  | echo => exact execEcho_kept
  | burstBroken => exact execBurstBroken_kept
  | stampedCommandDue => exact execStampedCommandDue_kept
  | queuedCommandTaken => exact execQueuedCommandTaken_kept
  | entryFetch => exact execEntryFetch_kept
  | segmentCommit => exact execSegmentCommit_kept
  | splice => exact execSplice_kept
  | segmentEnd => exact execSegmentEnd_kept
  | waitStampReached => exact execWaitStampReached_kept
  | edgeSolve => exact execEdgeSolve_kept
  | edgeRelease => exact execEdgeRelease_kept
  | setpointEffect => exact execSetpointEffect_kept
  | followPulse => exact execFollowPulse_kept
  | gridInstant => exact execGridInstant_kept
  | brakeWaitEnd => exact execBrakeWaitEnd_kept
  | releaseBrakeWaitEnd => exact execReleaseBrakeWaitEnd_kept
  | releaseEnd => exact execReleaseEnd_kept
  | holdTimerExpiry => exact execHoldTimerExpiry_kept
  | tableLoad => exact execTableLoad_kept
  | tableLoadDone => exact execTableLoadDone_kept
  | tableSwap => exact execTableSwap_kept
  | chopperCrossing => exact execChopperCrossing_kept
  | blankingEnd => exact execBlankingEnd_kept
  | offTimeEnd => exact execOffTimeEnd_kept
  | carrierBoundary => exact execCarrierBoundary_kept
  | legEdge => exact execLegEdge_kept
  | dutyArrival => exact execDutyArrival_kept
  | halfWrite => exact execHalfWrite_kept
  | sampleStrobe => exact execSampleStrobe_kept
  | sampleArrival => exact execSampleArrival_kept
  | icoilBlind => exact execIcoilBlind_kept
  | stall => exact execStall_kept
  | rtrackDone => exact execRtrackDone_kept
  | frozenWindowClose => exact execFrozenWindowClose_kept
  | followErr => exact execFollowErr_kept
  | freezeWrite => exact execFreezeWrite_kept
  | freezeEnd => exact execFreezeEnd_kept
  | modecfgWrite => exact execModecfgWrite_kept
  | fbEdge => exact execFbEdge_kept
  | speedWindowEnd => exact execSpeedWindowEnd_kept
  | standstillTimeout => exact execStandstillTimeout_kept
  | latchTrigger => exact execLatchTrigger_kept
  | lattrig => exact execLattrig_kept
  | echoPulse => exact execEchoPulse_kept
  | fbkCfgWrite => exact execFbkCfgWrite_kept
  | slotcfgWrite => exact execSlotcfgWrite_kept
  | echoConfigWrite => exact execEchoConfigWrite_kept
  | stpCfgWrite => exact execStpCfgWrite_kept
  | chpCfgWrite => exact execChpCfgWrite_kept
  | proParamWrite => exact execProParamWrite_kept
  | scSense => exact execScSense_kept
  | shuntOc => exact execShuntOc_kept
  | vgUvlo => exact execVgUvlo_kept
  | vgRecovery => exact execVgRecovery_kept
  | bootUvlo => exact execBootUvlo_kept
  | bootstrapRefresh => exact execBootstrapRefresh_kept
  | prechargeDone => exact execPrechargeDone_kept
  | senseDisagree => exact execSenseDisagree_kept
  | noCurrent => exact execNoCurrent_kept
  | autoDiagDone => exact execAutoDiagDone_kept
  | shrefLost => exact execShrefLost_kept
  | busOv => exact execBusOv_kept
  | busUv => exact execBusUv_kept
  | linkCrc => exact execLinkCrc_kept
  | linkLost => exact execLinkLost_kept
  | killMaskChange => exact execKillMaskChange_kept
  | drvenLow => exact execDrvenLow_kept
  | drvenClearing => exact execDrvenClearing_kept
  | tileWarm => exact execTileWarm_kept
  | tileOt => exact execTileOt_kept
  | offstateDiagDone => exact execOffstateDiagDone_kept
  | selftestDone => exact execSelftestDone_kept
  | axisReadyChange => exact execAxisReadyChange_kept
  | gdbEnableWrite => exact execGdbEnableWrite_kept
  | tilePowerOn => exact execTilePowerOn_kept
  | tripActive => exact execTripActive_kept
  | tripClear => exact execTripClear_kept
  | tripmapWrite => exact execTripmapWrite_kept
  | delayLineSwap => exact execDelayLineSwap_kept
  | guyHeadPulse => exact execGuyHeadPulse_kept
  | guyPulseAccepted => exact execGuyPulseAccepted_kept
  | guyLost => exact execGuyLost_kept
  | causeRaised => exact execCauseRaised_kept
  | flueWire => exact execFlueWire_kept
  | flueStuck => exact execFlueStuck_kept
  | ss1StopEnd => exact execSs1StopEnd_kept
  | retryRelease => exact execRetryRelease_kept
  | retirementRecordWritten => exact execRetirementRecordWritten_kept
  | emberWriteDone => exact execEmberWriteDone_kept
  | axctlClose => exact execAxctlClose_kept
  | axctlRetire => exact execAxctlRetire_kept
  | axctlReinstate => exact execAxctlReinstate_kept
  | axctlCloseModule => exact execAxctlCloseModule_kept
  | classWrite => exact execClassWrite_kept
  | errpinWrite => exact execErrpinWrite_kept
  | errPulseEnd => exact execErrPulseEnd_kept
  | tmrScrub => exact execTmrScrub_kept
  | keyedValueWrite => exact execKeyedValueWrite_kept
  | keyedComplementWrite => exact execKeyedComplementWrite_kept
  | keyedWriteTimeout => exact execKeyedWriteTimeout_kept
  | bitAliasWrite => exact execBitAliasWrite_kept
  | registerWrite => exact execRegisterWrite_kept
  | portcfgWrite => exact execPortcfgWrite_kept
  | hifWrite => exact execHifWrite_kept
  | hifWriteKeyed => exact execHifWriteKeyed_kept
  | hifRead => exact execHifRead_kept
  | hifPush => exact execHifPush_kept
  | hifPull => exact execHifPull_kept
  | hifBadFrame => exact execHifBadFrame_kept
  | hostWindowWrite => exact execHostWindowWrite_kept
  | hostWindowRead => exact execHostWindowRead_kept
  | poolLinkWrite => exact execPoolLinkWrite_kept
  | blockZeroingDone => exact execBlockZeroingDone_kept
  | traceEnable => exact execTraceEnable_kept
  | traceCopy => exact execTraceCopy_kept
  | poolScrub => exact execPoolScrub_kept
  | frameReceived => exact execFrameReceived_kept
  | portLinkChange => exact execPortLinkChange_kept
  | nodeAddrWrite => exact execNodeAddrWrite_kept
  | ptpMessage => exact execPtpMessage_kept
  | ptpTransparentForward => exact execPtpTransparentForward_kept
  | ptpLost => exact execPtpLost_kept
  | ptpRequalified => exact execPtpRequalified_kept
  | sourceCommit => exact execSourceCommit_kept
  | srcselWrite => exact execSrcselWrite_kept
  | epochWrite => exact execEpochWrite_kept
  | groupStartInstant => exact execGroupStartInstant_kept
  | groupWithdraw => exact execGroupWithdraw_kept
  | refclkMeasure => exact execRefclkMeasure_kept
  | pllLock => exact execPllLock_kept
  | clockSwitchStep => exact execClockSwitchStep_kept
  | rcperMeasure => exact execRcperMeasure_kept
  | rcBad => exact execRcBad_kept
  | clockLost => exact execClockLost_kept
  | clockReturn => exact execClockReturn_kept
  | calRoundDone => exact execCalRoundDone_kept
  | gateWrite => exact execGateWrite_kept
  | kindlingCold => exact execKindlingCold_kept
  | nresetLow => exact execNresetLow_kept
  | nresetRise => exact execNresetRise_kept
  | wake => exact execWake_kept
  | kindlingWarmSupply => exact execKindlingWarmSupply_kept
  | kindlingStep5 => exact execKindlingStep5_kept
  | bootImageRead => exact execBootImageRead_kept
  | bootPacket => exact execBootPacket_kept
  | kindlingEnd => exact execKindlingEnd_kept
  | powerFail => exact execPowerFail_kept
  | vioFail => exact execVioFail_kept
  | shutdownEnd => exact execShutdownEnd_kept
  | vcoreUv => exact execVcoreUv_kept
  | pwrReqGo => exact execPwrReqGo_kept
  | vcoreOk => exact execVcoreOk_kept
  | plRampStep => exact execPlRampStep_kept
  | plChangeDone => exact execPlChangeDone_kept
  | ceilWrite => exact execCeilWrite_kept
  | pl0VcoreRemoval => exact execPl0VcoreRemoval_kept
  | hearthSwitchover => exact execHearthSwitchover_kept
  | calendarCycle => exact execCalendarCycle_kept
  | calendarMeasure => exact execCalendarMeasure_kept
  | calset => exact execCalset_kept
  | ramdataAccess => exact execRamdataAccess_kept
  | fastDecayEnd => exact execFastDecayEnd_kept
  | tripInputHigh => exact execTripInputHigh_kept
  | extest => exact execExtest_kept
  | vioRise => exact execVioRise_kept
  | hearthContentsLost => exact execHearthContentsLost_kept
  | fluePairRestored => exact execFluePairRestored_kept
  | syncInterval => exact execSyncInterval_kept
  | reinstatementEnded => exact execReinstatementEnded_kept


theorem State.idle_kept {s : State} : Kept true true s s.idle := by
  unfold State.idle
  exact Kept.ite (fun _ => State.sendReplies_kept (State.advance_kept Kept.refl)) fun _ => State.advance_kept Kept.refl


end Sys2Proof.Machine
end

