-- ==== Sys2Proof/WellFormed.lean ====
section
/-! DEFINITION. Which commands can come from the module's surroundings: the checks on the operands of each. The meanings are
total on all of them; what these checks leave out no sender can send. -/

namespace Sys2Proof

/-- A packet as it arrives: LENGTH has eight bits (Table 2-1), and only ports A and B name a source node (R52). The boot
loader's packets come with BOOT_PACKET. -/
def Packet.wf (p : Packet) : Bool :=
  p.port != .boot && decide (p.words.length ≤ 255) && (p.src.toNat == 0 || p.port == .a || p.port == .b)

/-- The opcodes of Table 2-6. -/
def opcodes : List Nat :=
  [0x00, 0x01, 0x02, 0x03, 0x04, 0x10, 0x11, 0x12, 0x13, 0x14, 0x15, 0x20, 0x21, 0x22, 0x23, 0x24, 0x25, 0x26, 0x27, 0x28,
    0x29, 0x2a, 0x2b, 0x30, 0x31, 0x32, 0x33, 0x34, 0x40, 0x41, 0x42, 0x43, 0x44, 0x50, 0x51, 0x60, 0x61, 0x70, 0x7f]

/-- A PTP message: 48-bit seconds, nanoseconds below 10^9, a 64-bit correction. -/
def PtpMsg.wf (m : PtpMsg) : Bool :=
  decide (m.sec < 2 ^ 48) && decide (m.ns < 1000000000) && decide (-(2 ^ 63) ≤ m.corr) && decide (m.corr < 2 ^ 63)

/-- A well-formed command. -/
def Instr.wf (i : Instr) : Bool :=
  match i with
  | .packetCrcDiscard _ _ => true
  | .badOpcode _ version opcode p => p.wf && (version.toNat != 1 || !opcodes.contains opcode.toNat)
  | .nop _ p => p.wf
  | .regRead _ p => p.wf
  | .regWrite _ p => p.wf
  | .regWriteKeyed _ p => p.wf
  | .regReadMulti _ p => p.wf
  | .axisEnergise _ p => p.wf
  | .axisRelease _ p => p.wf
  | .axisDiagOffstate _ p => p.wf
  | .axisSelftestCmp _ p => p.wf
  | .axisRetire _ p => p.wf
  | .axisReinstate _ p => p.wf
  | .moveAbs _ p => p.wf
  | .moveRel _ p => p.wf
  | .moveVel _ p => p.wf
  | .segRun _ p => p.wf
  | .segAppend _ p => p.wf
  | .followStart _ p => p.wf
  | .followEnd _ p => p.wf
  | .setPosition _ p => p.wf
  | .stop _ p => p.wf
  | .abort _ p => p.wf
  | .hold _ p => p.wf
  | .resume _ p => p.wf
  | .poolAlloc _ p => p.wf
  | .poolFree _ p => p.wf
  | .poolGive _ p => p.wf
  | .poolWrite _ p => p.wf
  | .poolRead _ p => p.wf
  | .groupJoin _ p => p.wf
  | .groupLeave _ p => p.wf
  | .groupArm _ p => p.wf
  | .groupStartAt _ p => p.wf
  | .groupHalt _ p => p.wf
  | .timeSourceSelect _ p => p.wf
  | .timeQuery _ p => p.wf
  | .logRead _ p => p.wf
  | .logMark _ p => p.wf
  | .plRequest _ p => p.wf
  | .echo _ p => p.wf
  | .burstBroken _ _ _ => true
  | .stampedCommandDue _ _ _ _ => true
  | .queuedCommandTaken _ _ => true
  | .entryFetch _ _ => true
  | .segmentCommit _ _ => true
  | .splice _ _ => true
  | .segmentEnd _ _ => true
  | .waitStampReached _ _ => true
  | .edgeSolve _ _ => true
  | .edgeRelease _ _ => true
  | .setpointEffect _ _ _ => true
  | .followPulse _ _ => true
  | .gridInstant _ _ => true
  | .brakeWaitEnd _ _ => true
  | .releaseBrakeWaitEnd _ _ => true
  | .releaseEnd _ _ => true
  | .holdTimerExpiry _ _ => true
  | .tableLoad _ _ _ value => value.bit 16
  | .tableLoadDone _ _ => true
  | .tableSwap _ _ _ value => value.bit 17
  | .chopperCrossing _ _ _ => true
  | .blankingEnd _ _ _ _ => true
  | .offTimeEnd _ _ _ => true
  | .carrierBoundary _ _ => true
  | .legEdge _ _ _ => true
  | .dutyArrival _ _ _ => true
  | .halfWrite _ _ _ _ => true
  | .sampleStrobe _ _ _ => true
  | .sampleArrival _ _ => true
  | .icoilBlind _ _ _ => true
  | .stall _ _ => true
  | .rtrackDone _ _ => true
  | .frozenWindowClose _ _ => true
  | .followErr _ _ => true
  | .freezeWrite _ _ _ _ => true
  | .freezeEnd _ _ _ => true
  | .modecfgWrite _ _ _ index _ => decide (index.toNat < 3)
  | .fbEdge _ _ _ _ => true
  | .speedWindowEnd _ _ => true
  | .standstillTimeout _ _ => true
  | .latchTrigger _ _ => true
  | .lattrig _ _ _ _ => true
  | .echoPulse _ _ => true
  | .fbkCfgWrite _ _ _ _ _ => true
  | .slotcfgWrite _ _ _ _ => true
  | .echoConfigWrite _ _ _ _ _ => true
  | .stpCfgWrite _ _ _ _ => true
  | .chpCfgWrite _ _ _ _ => true
  | .proParamWrite _ _ _ _ _ => true
  | .scSense _ _ _ => true
  | .shuntOc _ _ _ => true
  | .vgUvlo _ _ _ => true
  | .vgRecovery _ _ _ => true
  | .bootUvlo _ _ _ _ => true
  | .bootstrapRefresh _ _ _ => true
  | .prechargeDone _ _ _ _ => true
  | .senseDisagree _ _ _ => true
  | .noCurrent _ _ _ => true
  | .autoDiagDone _ _ _ _ _ => true
  | .shrefLost _ _ _ => true
  | .busOv _ _ _ => true
  | .busUv _ _ _ => true
  | .linkCrc _ _ _ => true
  | .linkLost _ _ _ => true
  | .killMaskChange _ _ _ => true
  | .drvenLow _ _ => true
  | .drvenClearing _ _ _ => true
  | .tileWarm _ _ _ => true
  | .tileOt _ _ _ => true
  | .offstateDiagDone _ _ _ _ _ => true
  | .selftestDone _ _ _ => true
  | .axisReadyChange _ _ => true
  | .gdbEnableWrite _ _ _ _ _ => true
  | .tilePowerOn _ _ => true
  | .tripActive _ _ => true
  | .tripClear _ _ _ => true
  | .tripmapWrite _ _ _ _ _ => true
  | .delayLineSwap _ _ _ _ => true
  | .guyHeadPulse _ => true
  | .guyPulseAccepted _ _ => true
  | .guyLost _ => true
  | .causeRaised _ _ _ => true
  | .flueWire _ _ => true
  | .flueStuck _ _ => true
  | .ss1StopEnd _ _ => true
  | .retryRelease _ _ => true
  | .retirementRecordWritten _ _ => true
  | .emberWriteDone _ _ _ => true
  | .axctlClose _ _ value _ => value.fld 8 3 == 1
  | .axctlRetire _ _ value _ => value.fld 8 3 == 2
  | .axctlReinstate _ _ value _ => value.fld 8 3 == 3
  | .axctlCloseModule _ _ value _ => value.fld 8 3 == 4
  | .classWrite _ _ _ _ _ => true
  | .errpinWrite _ _ _ => true
  | .errPulseEnd _ => true
  | .tmrScrub _ _ _ => true
  | .keyedValueWrite _ _ _ _ => true
  | .keyedComplementWrite _ _ _ _ => true
  | .keyedWriteTimeout _ _ => true
  | .bitAliasWrite _ _ addr _ => addr.bit 29
  | .registerWrite _ _ _ _ => true
  | .portcfgWrite _ _ _ _ => true
  | .hifWrite _ _ _ _ => true
  | .hifWriteKeyed _ _ _ _ => true
  | .hifRead _ _ _ _ _ _ => true
  | .hifPush _ _ _ => true
  | .hifPull _ _ _ => true
  | .hifBadFrame _ _ => true
  | .hostWindowWrite _ addr _ => !addr.bit 29 && addr.bit 24
  | .hostWindowRead _ addr => !addr.bit 29 && addr.bit 24
  | .poolLinkWrite _ _ _ => true
  | .blockZeroingDone _ _ => true
  | .traceEnable _ _ _ _ => true
  | .traceCopy _ _ => true
  | .poolScrub _ _ => true
  | .frameReceived _ _ _ => true
  | .portLinkChange _ _ _ _ _ => true
  | .nodeAddrWrite _ _ _ => true
  | .ptpMessage _ _ msg => msg.wf
  | .ptpTransparentForward _ _ msg => msg.wf
  | .ptpLost _ => true
  | .ptpRequalified _ => true
  | .sourceCommit _ => true
  | .srcselWrite _ _ _ _ => true
  | .epochWrite _ _ _ => true
  | .groupStartInstant _ _ => true
  | .groupWithdraw _ _ => true
  | .refclkMeasure _ _ => true
  | .pllLock _ => true
  | .clockSwitchStep _ => true
  | .rcperMeasure _ _ => true
  | .rcBad _ _ => true
  | .clockLost _ _ _ => true
  | .clockReturn _ => true
  | .calRoundDone _ => true
  | .gateWrite _ _ _ _ => true
  | .kindlingCold _ _ => true
  | .nresetLow _ => true
  | .nresetRise _ _ => true
  | .wake _ _ _ => true
  | .kindlingWarmSupply _ _ => true
  | .kindlingStep5 _ => true
  | .bootImageRead _ _ _ => true
  | .bootPacket _ => true
  | .kindlingEnd _ => true
  | .powerFail _ => true
  | .vioFail _ => true
  | .shutdownEnd _ => true
  | .vcoreUv _ => true
  | .pwrReqGo _ _ _ => true
  | .vcoreOk _ => true
  | .plRampStep _ => true
  | .plChangeDone _ => true
  | .ceilWrite _ _ _ _ => true
  | .pl0VcoreRemoval _ => true
  | .hearthSwitchover _ _ => true
  | .calendarCycle _ => true
  | .calendarMeasure _ _ => true
  | .calset _ _ value _ => value.bit 0
  | .ramdataAccess _ _ _ => true
  | .fastDecayEnd _ _ _ => true
  | .tripInputHigh _ _ => true
  | .extest _ _ _ _ => true
  | .vioRise _ => true
  | .hearthContentsLost _ => true
  | .fluePairRestored _ _ => true
  | .syncInterval _ kind => kind != .followUp && kind != .delayResp && kind != .other
  | .reinstatementEnded _ _ => true

end Sys2Proof
end

