-- ==== Sys2Proof/Tests/Slice0.lean ====
section
/-! SUPPORT. Tests: operands that WellFormed refuses, and for each statement with hypotheses states and operands that meet
them (`meets_…`, named after the statement). Values come from the tables of the spec. -/

namespace Sys2Proof.Tests

open Sys2Proof.Machine

-- One theorem at a time: every kernel evaluation under way holds a thread.
set_option Elab.async false

/-! ## States and packets to start from -/

/-- The module up at PL3 on the PLL, some time after reset. -/
def live : State :=
  ({ State.reset with pwr := { Pwr.reset with phase := .running }, net := 4000000, tb := 4000000 }.setReg Reg.pwrLevel 3).setReg
    Reg.clkStat 1

/-- A request of the host, TAG 7, last in its burst. -/
def pkt (ws : List Word) (target : BitVec 16 := 5) : Packet := ⟨.host, 0, false, false, false, true, false, 7, target, 0, ws⟩

/-- `live` with something done to axis 5. -/
def axis5 (f : Axis → Axis) : State := live.setAx 5 (f (live.ax 5))

/-- `live` with axis 5 in a state. -/
def inState (st : AxState) : State := axis5 fun x => { x with st := st }

/-- An open command of the host for axis 5. -/
def open5 (op : Op) (place : Place) (id : Nat := 0) : Cmd :=
  ⟨id, op, .host, 0, 100 + id, 5, false, false, false, .host, 0, 0, 0, [], place, 0, none⟩

/-- With open commands. -/
def withTags (s : State) (l : List Cmd) : State := { s with tags := l, nextId := 50 }

/-- A segment at rest from tick `a` for `n` ticks that has come into force. -/
def restSeg (a n : Nat) : Seg :=
  ⟨a, n, 0, 0, 0, 0, 0, Hdr.module, 0, 0, [], .move, false, true, false, false, [], n⟩

/-- A run of command 0 that is to fetch entry 0 of block 3. -/
def run0 : Run :=
  { cmd := 0, hdr := Hdr.module, first := 3, next := some (3, 0), lastAt := none, loops := [], controls := 0, fetched := []
    endP := 0, endV := 0, endT := 0, wait := [], cur := none, bad := false, awaits := false, blocks := [3], rejoining := false
    rejoinAt := none, rejoinP := 0, rejoinLoops := [] }

/-! ## Packets that go on at once -/

/-- The conditions of `State.Enters`, to be evaluated. -/
def entersNow (u : State) (op : Op) (p : Packet) : Bool :=
  p.port != .boot && u.portOpen p.port && !u.notMember (some op) p.target.toNat &&
  (u.entryCheck op p (u.entryPort p.port) (originOf p (u.entryPort p.port))).isNone &&
  !u.stampedOrder (u.entryPort p.port) && p.lastInBurst &&
  (u.held? (u.entryPort p.port) (originOf p (u.entryPort p.port))).isEmpty && u.tags.all fun c => c.id != u.nextId

theorem enters_of_entersNow {u : State} {op : Op} {p : Packet} (h : entersNow u op p = true) : u.Enters op p := by
  simp only [entersNow, Bool.and_eq_true, bne_iff_ne, Bool.not_eq_true', Option.isNone_iff_eq_none, List.isEmpty_iff,
    List.all_eq_true] at h
  obtain ⟨⟨⟨⟨⟨⟨⟨h1, h2⟩, h3⟩, h4⟩, h5⟩, h6⟩, h7⟩, h8⟩ := h
  exact ⟨h1, h2, h3, h4, h5, h6, h7, h8⟩

/-- The command of a packet one cycle after `s`, and the state in which it runs. -/
def cmd (s : State) (op : Op) (p : Packet) : Cmd := (s.advance 1).cmdOf op p
def after (s : State) (op : Op) (p : Packet) : State := (s.advance 1).running op p

/-- Each of a list of packets runs at once. -/
theorem runs_all {l : List (State × Op × Packet)} (h : (l.all fun x => entersNow (x.1.advance 1) x.2.1 x.2.2) = true) :
    ∀ x ∈ l, x.1.Runs 1 x.2.1 x.2.2 (cmd x.1 x.2.1 x.2.2) (after x.1 x.2.1 x.2.2) := fun x hx =>
  ⟨enters_of_entersNow (List.all_eq_true.1 h x hx), rfl, rfl⟩

/-- The conditions of `State.Reaches`, to be evaluated, for axis 5. -/
def reachesNow (u : State) (op : Op) (p : Packet) : Bool :=
  entersNow u op p && p.target.toNat == 5 && !u.gatedOff op &&
  (opKind op == .u || u.tags.all fun c => !c.on 5 || c.place != .queued && c.place != .excess) &&
  (kindOf op p.words != .w || !u.busyAx 5) && (kindOf op p.words != .s || !u.releasing 5)

theorem reaches_of_reachesNow {u : State} {op : Op} {p : Packet} (h : reachesNow u op p = true) : u.Reaches op p 5 := by
  simp only [reachesNow, Bool.and_eq_true, beq_iff_eq, Bool.not_eq_true', Bool.or_eq_true, List.all_eq_true, bne_iff_ne] at h
  obtain ⟨⟨⟨⟨⟨h1, h2⟩, h3⟩, h4⟩, h5⟩, h6⟩ := h
  exact ⟨enters_of_entersNow h1, h2, h3, fun hk c hc ho => by
      have := (h4.resolve_left hk) c hc
      simpa [ho] using this,
    fun hk => h5.resolve_left (by simp [hk]), fun hk => h6.resolve_left (by simp [hk])⟩

/-- The conditions of `State.Takes`, and of the tag table, for axis 5. -/
def takesNow (s : State) (op : Op) (p : Packet) : Bool :=
  let u := s.advance 1
  reachesNow u op p && u.verdict 5 op == .ok && !u.stagedRefuses 5 op && !u.stages 5 (u.cmdOf op p) &&
  decide (s.tags.map Cmd.id).Nodup && s.tags.all fun c => decide (c.id < s.nextId)

/-- Each of a list of packets for axis 5 is taken at once. -/
theorem runsOn_all {l : List (State × Op × Packet)} (h : (l.all fun x => takesNow x.1 x.2.1 x.2.2) = true) :
    ∀ x ∈ l, x.1.RunsOn 1 x.2.1 x.2.2 5 (cmd x.1 x.2.1 x.2.2) (after x.1 x.2.1 x.2.2) := by
  intro x hx
  have h := List.all_eq_true.1 h x hx
  simp only [takesNow, Bool.and_eq_true, beq_iff_eq, Bool.not_eq_true', List.all_eq_true, decide_eq_true_eq] at h
  obtain ⟨⟨⟨⟨⟨h1, h2⟩, h3⟩, h4⟩, h5⟩, h6⟩ := h
  exact ⟨⟨h5, h6⟩, ⟨reaches_of_reachesNow h1, h2, h3, h4⟩, rfl, rfl⟩

/-! ## WellFormed -/

/-- A packet that no port can bring: the loader's own port, too long, a source node on the host port. -/
theorem test_packet_wf : (pkt []).wf = true ∧ ({ pkt [] with port := .boot } : Packet).wf = false ∧
    (pkt (List.replicate 256 0)).wf = false ∧ (pkt (List.replicate 255 0)).wf = true ∧
    ({ pkt [] with src := 1 } : Packet).wf = false ∧ ({ pkt [] with src := 1, port := .a } : Packet).wf = true := by decide +kernel

def ptpMsg (k : PtpKind) : PtpMsg :=
  { kind := k, domain := 0, src := 3, srcPort := 1, seq := 4, corr := 0, twoStep := true, sec := 5, ns := 6, gmId := 3
    prio1 := 128, prio2 := 128, clockClass := 248, accuracy := 0xfe, variance := 0xffff, steps := 0, reqId := 0, reqPort := 0, ago := 0 }

/-- A PTP message's fields have their widths. -/
theorem test_ptp_wf : (ptpMsg .sync).wf = true ∧ ({ ptpMsg .sync with sec := 2 ^ 48 } : PtpMsg).wf = false ∧
    ({ ptpMsg .sync with ns := 1000000000 } : PtpMsg).wf = false ∧ ({ ptpMsg .sync with corr := 2 ^ 63 } : PtpMsg).wf = false ∧
    ({ ptpMsg .sync with corr := -(2 ^ 63) - 1 } : PtpMsg).wf = false := by decide +kernel

/-- The operands by which a command's row is told from its neighbours. -/
theorem test_instr_wf : (Instr.badOpcode 0 1 0x20 (pkt [])).wf = false ∧ (Instr.badOpcode 0 1 0x05 (pkt [])).wf = true ∧
    (Instr.badOpcode 0 2 0x20 (pkt [])).wf = true ∧ (Instr.tableLoad 0 .host 5 0x20000).wf = false ∧
    (Instr.tableSwap 0 .host 5 0x10000).wf = false ∧ (Instr.modecfgWrite 0 .host 5 3 0).wf = false ∧
    (Instr.axctlClose 0 .host 0x200 0).wf = false ∧ (Instr.axctlRetire 0 .host 0x100 0).wf = false ∧
    (Instr.axctlReinstate 0 .host 0x200 0).wf = false ∧ (Instr.axctlCloseModule 0 .host 0x300 0).wf = false ∧
    (Instr.bitAliasWrite 0 .host 0x4000 0).wf = false ∧ (Instr.hostWindowWrite 0 0x4000 0).wf = false ∧
    (Instr.hostWindowRead 0 0x21000000).wf = false ∧ (Instr.calset 0 .host 2 0).wf = false ∧
    (Instr.syncInterval 0 .followUp).wf = false ∧ (Instr.syncInterval 0 .delayResp).wf = false ∧ (Instr.syncInterval 0 .other).wf = false ∧
    (Instr.nop 0 { pkt [] with port := .boot }).wf = false ∧
    (Instr.ptpMessage 0 0 { ptpMsg .sync with ns := 1000000000 }).wf = false ∧
    (Instr.ptpTransparentForward 0 0 { ptpMsg .sync with ns := 1000000000 }).wf = false := by decide +kernel

/-- The table gives no row any bits, so no word spells a command. -/
theorem test_no_word_spells_a_command : ∀ n w, decodeTableWord n w = none := fun _ _ => rfl

/-! ## The machine as a whole -/

theorem meets_StepRunsTheCommandInFront : ({ live with pending := [.drvenLow 1 50] } : State).pending = .drvenLow 1 50 :: [] := rfl

theorem meets_EmptyQueueLetsOneCyclePass : live.pending = [] ∧ live.replies.find? Reply.isNet = none := ⟨rfl, rfl⟩

theorem reset_sound : State.reset.Wf :=
  ⟨by decide +kernel, by decide +kernel, by decide +kernel, by decide +kernel, by decide +kernel,
    ⟨List.nodup_nil, fun _ h => nomatch h⟩, by decide +kernel⟩

theorem live_sound : live.Wf :=
  ⟨by decide +kernel, by decide +kernel, by decide +kernel, by decide +kernel, by decide +kernel,
    ⟨List.nodup_nil, fun _ h => nomatch h⟩, by decide +kernel⟩

theorem meets_EveryStepKeepsASoundState : live.Wf ∧ ∃ t, step live = .next t := ⟨live_sound, _, rfl⟩

theorem meets_OnlyASupplyReturnEndsALock : ({ live with locked := true } : State).locked = true ∧
    ∃ t, exec (.tmrScrub 1 [] true) { live with locked := true } = .next t := ⟨rfl, _, rfl⟩

theorem meets_OtherCommandsLeaveThePoolAlone : mayWritePool (.drvenLow 1 50) = false ∧ ∃ t, exec (.drvenLow 1 50) live = .next t :=
  ⟨rfl, _, rfl⟩

/-- Axis 5 with the low side of leg A1 on, and nothing against it. -/
def gateOn5 : State :=
  let s := { live with drven := true }.setBank 0 { live.bank 0 with linkUp := true, linkHold := false, vgLow := false }
  s.setTile 5 { s.tile 5 with cmd := 2 }

theorem deadTicks_le : Config.deadTicks ≤ 160 := by unfold Config.deadTicks; split <;> [skip; split] <;> omega

theorem meets_GatesObeyTheirConditionsAndTheKillMask :
    ((gateOn5.tile 5).refreshing 0 gateOn5.tb = false ∧ gateOn5.gateLevel 5 1 = true) ∧
    (live.bank (bankOf 5)).vgLow = true ∧ (gateOn5.bank (bankOf 5)).vgLow = false := by
  refine ⟨⟨by decide +kernel, ?_⟩, by decide +kernel, by decide +kernel⟩
  have h : (gateOn5.tile 5).offAt.get (partner 1) + Config.deadTicks * 16 ≤ gateOn5.tbFine := by
    have h1 : (gateOn5.tile 5).offAt.get (partner 1) = 0 := by decide +kernel
    have h2 : gateOn5.tbFine = 64000000 := by decide +kernel
    have := deadTicks_le
    omega
  simp only [State.gateLevel, decide_eq_true h]
  decide +kernel

/-- Port A orders by stamps. -/
def stampedA : State := live.setBit (Reg.cmdPortcfg 1) 16 true

theorem meets_AShortStampExtendsByItsRule : (0xffffffffff : Nat) < 2 ^ 40 ∧
    ((2 ^ 39 : Nat) < 1 + 2 ^ 39 ∧ 1 < (2 ^ 39 : Nat) + 2 ^ 39) ∧ stampedA.usesStamp .nop .a = true ∧
    stampedA.net + stampedA.stampLead .nop ≤ extend stampedA.net ({ pkt [] with stamp := 4000800 } : Packet).stamp.toNat := by
  decide +kernel

theorem meets_ASoftwareWriteTouchesItsOwnBitsOnly : live.Wf ∧ (∃ r, rowOf (Reg.stpCfg 5) = some r) ∧ live.marks (Reg.stpCfg 5) = [] ∧
    rowOf 0x10 ≠ none ∧ rowOf 0x18 = none ∧
    (∃ r, rowOf Reg.fltTripev = some r ∧ live.marks Reg.fltTripev = [] ∧ r.w1c.fld 0 16 ≠ 0) ∧
    ∃ r, rowOf Reg.clkDlev = some r ∧ 16 + 8 ≤ 32 ∧ live.marks Reg.clkDlev = [] ∧ r.w1c = 0 ∧ r.rw.fld 16 8 = 2 ^ 8 - 1 :=
  ⟨live_sound, ⟨_, rfl⟩, by decide +kernel, by decide +kernel, by decide +kernel,
    ⟨_, rfl, by decide +kernel, by decide +kernel⟩, ⟨_, rfl, by decide, by decide +kernel, by decide +kernel, by decide +kernel⟩⟩

/-- One copy of a class register differs in bit 0. -/
def upset : State := { live with tmrB := [(Reg.fltClass 0, 1)] }

theorem meets_ATriplicatedBitReadsAsTwoOfThree : triplReg (Reg.fltClass 0) = true ∧
    (storeGet regReset upset.regs (Reg.fltClass 0)).bit 1 = (storeGet regReset upset.tmrC (Reg.fltClass 0)).bit 1 ∧
    (storeGet regReset upset.tmrB (Reg.fltClass 0)).bit 1 = false ∧
    (storeGet regReset upset.regs (Reg.fltClass 0)).bit 0 = (storeGet regReset upset.tmrC (Reg.fltClass 0)).bit 0 := by
  decide +kernel

theorem meets_AKeyedWriteNeedsItsComplement : (0 : Word) ≠ ~~~5 ∧ live.keyed.get (portIx .host) = none ∧ Port.host ≠ .a ∧
    live.Wf ∧ 3 < 4 := ⟨by decide, by decide +kernel, by decide, live_sound, by decide⟩

theorem meets_ARequestIsReadAsItWasMade : (pkt (List.replicate 255 1)).words.length ≤ 255 := by decide +kernel

/-! ## Entry and reply -/

theorem meets_ARefusedPacketIsOnlyAnswered : live.notMember (some .nop) (pkt []).target.toNat = false ∧
    live.entryCheck .moveAbs (pkt [] 96) (live.entryPort .host) (originOf (pkt [] 96) (live.entryPort .host)) = some .badTarget ∧
    live.notMember (some .groupArm) (pkt [0, 0, 0] 0x8000).target.toNat = true := by decide +kernel

/-- Axis 5 looks at an AXIS_ENERGISE at once, in each state. -/
theorem meets_a_command_that_its_axis_refuses : (∀ st, ((inState st).advance 1).Reaches .axisEnergise (pkt []) 5) ∧
    axisInstr 1 (pkt []) .axisEnergise = some (.axisEnergise 1 (pkt [])) ∧ live.tagsOk ∧ live.tags = [] ∧
    ((inState .off).advance 1).verdict 5 .axisEnergise = .refused ∧ ((inState .faulted).advance 1).verdict 5 .axisEnergise = .faulted ∧
    ((inState .retired).advance 1).verdict 5 .axisEnergise = .retired ∧ ((inState .diag).advance 1).verdict 5 .axisEnergise = .waits :=
  ⟨fun st => reaches_of_reachesNow (by cases st <;> decide +kernel), by decide +kernel, ⟨List.nodup_nil, fun _ h => nomatch h⟩,
    by decide +kernel⟩

/-- No credit on the host port; one open command with TAG 7. -/
def noCredit : State := live.setFld (Reg.cmdPortcfg 0) 0 16 0
def tag7 : State := withTags live [{ open5 .nop .running with tag := 7 }]

theorem meets_EntryChecksGoInTheOrderOfTheirTable :
    ((({ live with locked := true } : State).locked = true ∧ opLocked .moveAbs = false) ∧ opLocked .nop = true) ∧
    noCredit.fld (Reg.cmdPortcfg (portAcct .host)) 0 16 ≤ noCredit.tagsIn (portAcct .host) ∧
    live.tagsIn (portAcct .host) < live.fld (Reg.cmdPortcfg (portAcct .host)) 0 16 ∧
    (∃ c ∈ tag7.tags, c.port = .host ∧ c.src = 0 ∧ c.tag = (pkt []).tag.toNat) ∧ targetOk .moveAbs 96 = false ∧
    targetOk .moveAbs 95 = true ∧ lengthOk .moveAbs 8 = false ∧ lengthOk .moveAbs 9 = true ∧
    live.stampedOrder .host = false := by decide +kernel

/-- A stamp as a port asks for it, and one that is short of the lead by one tick, exact, and short of it but LATE_OK. -/
theorem meets_the_checks_of_stamps :
    let p (n : BitVec 40) : Packet := { pkt [] with stamped := true, stamp := n }
    let late (n : BitVec 40) : Prop := extend stampedA.net (p n).stamp.toNat < stampedA.net + stampedA.stampLead .nop
    ((pkt []).stamped = false ∧ (pkt []).stamped ≠ stampedA.stampedOrder .a ∧ (p 0).stamped = stampedA.stampedOrder .a) ∧
    stampedA.stampedOrder .a = true ∧ Op.nop ≠ .groupStartAt ∧ Op.nop ≠ .groupHalt ∧
    late 4000799 ∧ ¬late 4000800 ∧ (p 4000799).lateOk = false ∧ ({ p 4000799 with lateOk := true } : Packet).lateOk = true ∧
    (live.slowLevel = false ∧ live.level = 3) ∧
    ((live.setReg Reg.pwrLevel 2).slowLevel = true ∧ 2 ≤ (live.setReg Reg.pwrLevel 2).level) ∧
    ((live.setReg Reg.pwrLevel 1).level ≤ 1 ∧ opMotion .nop = false) := by decide +kernel

theorem meets_AFinalReplyClosesItsTag : tag7.tagsOk ∧ ∃ c ∈ tag7.tags, c.tag = 7 := by unfold State.tagsOk; decide +kernel

/-- In a burst that stays open, and before its stamp. -/
def inBurst : Packet := { pkt [] with lastInBurst := false }
def atStamp : Packet := { pkt [] with port := .a, src := 3, stamped := true, stamp := 4000800 }

theorem meets_AnEnteredPacketThatMustWaitOnlyWaits :
    (inBurst.port ≠ .boot ∧ live.portOpen .host = true ∧ live.notMember (some .nop) 5 = false ∧
      live.entryCheck .nop inBurst (live.entryPort .host) (originOf inBurst (live.entryPort .host)) = none ∧
      live.stampedOrder (live.entryPort .host) = false ∧ (live.held? (live.entryPort .host) 0).length < 63) ∧
    stampedA.tagsOk ∧ stampedA.portOpen .a = true ∧ stampedA.notMember (some .nop) 5 = false ∧
      stampedA.entryCheck .nop atStamp (stampedA.entryPort .a) (originOf atStamp (stampedA.entryPort .a)) = none ∧
      opKind .nop = .x ∧ stampedA.stampedOrder (stampedA.entryPort .a) = true ∧
      stampedA.net + stampedA.stampLead .nop ≤ extend stampedA.net atStamp.stamp.toNat ∧
      stampedA.net < extend stampedA.net atStamp.stamp.toNat := by unfold State.tagsOk; decide +kernel

/-- A STAMPED command of kind W, one tick more than the lead ahead, for an axis with nothing queued; what Table 2-9 makes wait
is in `meets_a_command_that_its_axis_refuses`. -/
theorem meets_a_stamped_command_of_an_axis :
    let p : Packet := { atStamp with stamp := 4000801 }
    opTarget .axisEnergise = .axis ∧ p.target.toNat = (5 : AxisId).val ∧
    stampedA.notMember (some .axisEnergise) p.target.toNat = false ∧
    stampedA.entryCheck .axisEnergise p (stampedA.entryPort .a) (originOf p (stampedA.entryPort .a)) = none ∧
    kindOf .axisEnergise p.words = .w ∧ stampedA.stampedOrder (stampedA.entryPort .a) = true ∧
    stampedA.net + stampedA.stampLead .axisEnergise < extend stampedA.net p.stamp.toNat ∧ stampedA.tags = [] := by decide +kernel

/-! ## What each packet does -/

/-- A request for the module as a whole, and one for group 2. -/
def mod (ws : List Word) : Packet := pkt ws 0x7fff
def grp (ws : List Word) : Packet := pkt ws 0x8002

theorem meets_QueriesAnswerFromTheState :
    let l := [(live, Op.nop, mod []), (live, .echo, mod [1]), (live, .timeQuery, mod []), (live, .regRead, mod [0x80]),
      (live, .regRead, mod [0x1000000]), (live, .regReadMulti, mod [0x80, 1]), (live, .regReadMulti, mod [0x80, 60]),
      (live, .regReadMulti, mod [0x80, 0]), (live, .regReadMulti, mod [0x80, 61]), (live, .regReadMulti, mod [0x1000000, 1]), (live, .regReadMulti, mod [0xfffffc, 2])]
    (∀ x ∈ l, x.1.Runs 1 x.2.1 x.2.2 (cmd x.1 x.2.1 x.2.2) (after x.1 x.2.1 x.2.2)) ∧
    isPool 0x1000000 = true ∧ isPool 0x80 = false ∧ (∀ i < 60, isPool (0x80 + BitVec.ofNat 32 (4 * i)) = false) ∧
    (isPool 0xfffffc = false ∧ isPool (0xfffffc + BitVec.ofNat 32 (4 * 1)) = true) ∧
    decodeAddr 0x3000 = .reg (Reg.fltClass 0) ∧ triplReg (Reg.fltClass 0) = true ∧ upset.mismatch (Reg.fltClass 0) ≠ [] :=
  ⟨runs_all (by decide +kernel), by decide +kernel, by decide +kernel, by decide +kernel, by decide +kernel, by decide +kernel⟩

/-- Axis 5 has a staged move; STP.CFG of axis 5 by its address; trip 3 holds. -/
def stagedNow : State := withTags (inState .holding) [open5 .moveAbs .staged]
def msize : Word := BitVec.ofNat 32 (Reg.stpCfg 5)
def tripNow : State := { live with trips := 8 }

theorem meets_RegisterWritePacketsWriteTheRegister :
    let l := [(live, Op.regWrite, mod [0x24, 1]), (live, .regWrite, mod [0x20000480, 1]), (live, .regWrite, mod [0x3000, 1]),
      (live, .regWrite, mod [0x1000000, 1]), (live, .regWriteKeyed, mod [0x3000, 1, ~~~1]),
      (live, .regWriteKeyed, mod [0x3000, 1, 1]), (live, .regWriteKeyed, mod [0x24, 1, ~~~1]),
      (live, .regWriteKeyed, mod [0x20000480, 1, ~~~1]), (stagedNow, .regWrite, mod [msize, 1]), (tripNow, .regWrite, mod [0x3080, 8]),
      (tripNow, .regWrite, mod [0x3080, 7])]
    (∀ x ∈ l, x.1.Runs 1 x.2.1 x.2.2 (cmd x.1 x.2.1 x.2.2) (after x.1 x.2.1 x.2.2)) ∧
    decodeAddr 0x24 = .reg 0x24 ∧ keyedReg 0x24 = false ∧ complementOf 0x24 = none ∧ live.stagedWrite 0x24 1 = false ∧
    0x24 ≠ Reg.fltTripstat ∧ decodeAddr 0x20000480 = .bit 0x24 0 ∧ live.stagedWrite 0x24 (live.aliasWord 0x24 0 1) = false ∧
    decodeAddr 0x3000 = .reg 0x3000 ∧ keyedReg 0x3000 = true ∧ decodeAddr 0x1000000 = .pool 0 ∧
    (decodeAddr msize = .reg (Reg.stpCfg 5) ∧ stagedNow.stagedWrite (Reg.stpCfg 5) 1 = true) ∧
    (decodeAddr 0x3080 = .reg Reg.fltTripstat ∧ tripNow.trips.toNat &&& (8 : Word).fld 0 16 ≠ 0 ∧
      tripNow.trips.toNat &&& (7 : Word).fld 0 16 = 0) :=
  ⟨runs_all (by decide +kernel), by decide +kernel⟩

theorem meets_ModuleRequestsReachTheirUnit :
    let l := [(live, Op.plRequest, mod [3]), (live, .plRequest, mod [4]), (live, .timeSourceSelect, mod [2, ~~~2]),
      (live, .timeSourceSelect, mod [2, 2]), (live, .timeSourceSelect, mod [3, ~~~3]), (live, .logRead, mod [0x10000]),
      (live, .logRead, mod [0]), (live, .logMark, mod [1, 2, 3, 4, 5])]
    (∀ x ∈ l, x.1.Runs 1 x.2.1 x.2.2 (cmd x.1 x.2.1 x.2.2) (after x.1 x.2.1 x.2.2)) ∧
    (3 : Word).fld 2 30 = 0 ∧ (4 : Word).fld 2 30 ≠ 0 ∧ (2 : Word).fld 0 4 ≤ 2 ∧ 2 < (3 : Word).fld 0 4 ∧
    1 ≤ (0x10000 : Word).fld 16 3 ∧ (after live .logRead (mod [0x10000])).hearth.queue = [] ∧ (0 : Word).fld 16 3 = 0 :=
  ⟨runs_all (by decide +kernel), by decide +kernel⟩

/-- A block owned by a caller (host 0, axis 5 0x15), lent by `len`. -/
def owned (s : State) (k o len : Nat) : State := s.setBlk k { Desc.free with owner := o, lender := len }

/-- The host owns block 3; port A owns block 4; a double-bit error in block 3; no free block. -/
def blocks : State := owned (owned live 3 0 0) 4 1 1
def doubleBit : State := { blocks with ecc := [(3 * 32, true)] }
def noFree : State := { live with desc := (List.range 32768).map fun k => (k, { Desc.free with owner := 1 }) }

theorem freeCount_zero {s : State} (hz : s.zeroing = []) (hd : s.desc.length = 32768) : s.freeCount = 0 := by
  simp [State.freeCount, State.takenBlocks, hz, hd]

theorem noFree_freeCount : noFree.freeCount = 0 :=
  freeCount_zero rfl (by unfold noFree; rw [List.length_map, List.length_range])

theorem meets_PoolPacketsActOnTheirBlocks :
    let l := [(live, Op.poolAlloc, mod [1]), (live, .poolAlloc, mod [60]), (live, .poolAlloc, mod [0]),
      (live, .poolAlloc, mod [61]), (blocks, .poolFree, mod [3]), (blocks, .poolFree, mod [3, 5]),
      (blocks, .poolFree, mod [4]), (blocks, .poolGive, mod [0x15000003]), (blocks, .poolGive, mod [0x80000003]),
      (blocks, .poolGive, mod [0x15000004]), (blocks, .poolWrite, mod [0x302, 1]), (blocks, .poolWrite, mod [0x7ffffc, 1, 2]),
      (blocks, .poolWrite, mod [0x3fc, 1, 2]), (blocks, .poolWrite, mod [0x3fc, 1]), (doubleBit, .poolWrite, mod [0x300, 1]),
      (live, .poolRead, mod [2, 1]), (live, .poolRead, mod [0, 0]), (live, .poolRead, mod [0, 61]),
      (live, .poolRead, mod [0, 60]), (doubleBit, .poolRead, mod [0x300, 1])]
    (∀ x ∈ l, x.1.Runs 1 x.2.1 x.2.2 (cmd x.1 x.2.1 x.2.2) (after x.1 x.2.1 x.2.2)) ∧
    60 ≤ live.freeCount ∧ live.Wf ∧ noFree.freeCount < 1 ∧ firstBad (blocks.freeCheck .host) 0 [3] = none ∧
    firstBad (blocks.freeCheck .host) 0 [3, 5] = some (1, .alreadyFree) ∧
    firstBad (blocks.freeCheck .host) 0 [4] = some (0, .notOwner) ∧
    firstBad (blocks.giveCheck .host) 0 [0x15000003] = none ∧
    firstBad (blocks.giveCheck .host) 0 [0x80000003] = some (0, .outOfRange) ∧
    firstBad (blocks.giveCheck .host) 0 [0x15000004] = some (0, .notOwner) ∧
    blocks.writeCheck .host 0x3fc 2 = some (1, 4) ∧ blocks.writeCheck .host 0x3fc 1 = none ∧ blocks.ecc = [] ∧
    Memory.wf blocks.mem = true ∧ (doubleBit.ecc.find? fun e => e.1 == 0x300 / 8) = some (0x300 / 8, true) ∧
    (doubleBit.eccReads ((0x300 + 4 + 7) / 8 - 0x300 / 8) (0x300 / 8)).1 = true :=
  ⟨runs_all (by decide +kernel), by decide +kernel, live_sound, by rw [noFree_freeCount]; decide, by decide +kernel⟩

/-- A member of group 2 with axis 5, in a state; the module is the PTP master. -/
def member2 (st : MemberSt) : Member := ⟨2, 1 <<< 5, st, 0, 1000, 0, none, 0, true⟩
def inGroup (s : State) (st : MemberSt) : State := s.setMembers [member2 st]
def master (s : State) : State := s.setFld Reg.netPtpstat 0 4 6
def stagedMove : Cmd := open5 .moveAbs .staged
def startAt : Packet := { grp [] with stamped := true, stamp := 4004001 }

/-- A member of group 3 with axis 63; members of sixteen other groups, with no axis. -/
def elsewhere : State := live.setMembers [⟨3, 1 <<< 63, .joined, 0, 0, 0, none, 0, false⟩]
def sixteen : State := live.setMembers ((List.range 16).map fun i => ⟨3 + i, 0, .joined, 0, 0, 0, none, 0, false⟩)

theorem meets_GroupPacketsMoveTheMember :
    let d := (inGroup live .joined).digest (member2 .joined)
    let v := BitVec.ofNat 32 (live.fld Reg.idCmdver 0 16)
    let armed := withTags (inGroup (master (inState .holding)) .armed) [stagedMove]
    let l := [(live, Op.groupJoin, grp [0, 0, 0]), (live, .groupJoin, grp [0x20, 0, 0x80000000]),
      (inGroup live .joined, .groupJoin, grp [1, 0, 0]), (inGroup live .joined, .groupLeave, grp [0, 0, 0]),
      (inGroup (live.setAx 6 (live.ax 6)) .joined, .groupLeave, grp [0x20, 0, 0]), (inGroup live .armed, .groupLeave, grp [1, 0, 0]),
      (master (inGroup live .joined), .groupArm, grp [d, v, 0]), (inGroup live .joined, .groupArm, grp [d, v, 5]),
      (inGroup live .joined, .groupArm, grp [d + 1, v, 0]), (armed, .groupStartAt, startAt),
      (inGroup live .armed, .groupStartAt, startAt), (elsewhere, .groupJoin, grp [0, 0x80000000, 0]),
      (sixteen, .groupJoin, grp [1, 0, 0]), (inGroup live .armed, .groupJoin, grp [1, 0, 0])]
    (∀ x ∈ l, x.1.Runs 1 x.2.1 x.2.2 (cmd x.1 x.2.1 x.2.2) (after x.1 x.2.1 x.2.2)) ∧
    (∀ st, ((inGroup live st).advance 1).Enters .groupHalt (grp [])) ∧ live.classOf 0x19 ≠ 0 ∧ live.member 2 = none ∧
    (inGroup live .joined).member 2 = some (member2 .joined) ∧ maskOf [0x20, 0, 0x80000000] ≠ 0 ∧
    (member2 .joined).axes &&& ~~~maskOf [0x20, 0, 0] = 0 ∧ (member2 .joined).axes &&& ~~~maskOf [1, 0, 0] ≠ 0 ∧
    (master live).timeWithin 1000 = true ∧ live.timeWithin 1000 = false ∧
    (∀ a ∈ (member2 .armed).list, armed.stagedOk a = true ∧ (armed.ax a).hasRec = false) ∧
    ((maskOf [0, 0x80000000, 0]).extractLsb' 0 32 = 0 ∧ (maskOf [0, 0x80000000, 0]).extractLsb' 32 32 ≠ 0 ∧
      (∀ j ∈ elsewhere.netw.members, j.group ≠ 2 ∧ (j.axes &&& maskOf [0, 0x80000000, 0]).extractLsb' 32 32 ≠ 0)) ∧
    (sixteen.member 2 = none ∧ 16 ≤ sixteen.netw.members.length) ∧ (∀ j ∈ sixteen.netw.members, j.axes &&& maskOf [1, 0, 0] = 0) :=
  ⟨runs_all (by decide +kernel), fun st => enters_of_entersNow (by cases st <;> decide +kernel), by decide +kernel⟩

/-- A GROUP_START_AT on a port that orders by stamps. -/
theorem meets_a_start_on_a_port_of_stamps :
    let u := (inGroup stampedA .armed).advance 1
    let p : Packet := { startAt with port := .a, src := 3 }
    u.EntersByStamp .groupStartAt p ∧ u.member 2 = some (member2 .armed) :=
  ⟨⟨by decide +kernel, by decide +kernel, by decide +kernel, by decide +kernel, by decide +kernel, by decide +kernel⟩, by decide +kernel⟩

/-! ## Commands of an axis -/

/-- Nothing missing for an energising: the delay lines are calibrated. -/
def calibrated (s : State) : State := s.setBit Reg.clkStat 6 true
def energised (st : AxState) : State := axis5 fun x => { x with st := st, energised := true }

theorem meets_AxisStateCommandsBeginTheirWork :
    let gates := calibrated (axis5 fun x => { x with st := .faulted })
    let gates := gates.setTile 5 { gates.tile 5 with cmd := 2 }
    let k : Word := 0xc3a50005
    let l := [(calibrated (inState .ready), Op.axisEnergise, pkt []), ((inState .ready).setReg Reg.pwrLevel 1, .axisEnergise, pkt []),
      (inState .ready, .axisEnergise, pkt []), (inState .holding, .axisRelease, pkt []), (energised .faulted, .axisRelease, pkt []),
      (axis5 fun x => { x with st := .holding, chp := { x.chp with ampst := .release } }, .axisRelease, pkt []),
      (inState .faulted, .axisRelease, pkt []), (calibrated (inState .ready), .axisDiagOffstate, pkt []),
      (calibrated (inState .faulted), .axisDiagOffstate, pkt []), (gates, .axisDiagOffstate, pkt []),
      (calibrated (inState .ready), .axisSelftestCmp, pkt []), (live, .axisRetire, pkt []),
      (inState .retired, .axisReinstate, pkt [k, ~~~k]), (inState .retired, .axisReinstate, pkt [0, 0]),
      (inState .retired, .axisReinstate, pkt [k, 0]),
      (axis5 fun x => { x with st := .retired, fault := { x.fault with retPhase := .erasing } }, .axisReinstate, pkt [k, ~~~k])]
    (∀ x ∈ l, x.1.RunsOn 1 x.2.1 x.2.2 5 (cmd x.1 x.2.1 x.2.2) (after x.1 x.2.1 x.2.2)) ∧
    live.level = 3 ∧ (live.setReg Reg.pwrLevel 1).level = 1 ∧ live.gateShort = false ∧ (calibrated live).clockBad = false ∧
    live.clockBad = true ∧ (after gates .axisDiagOffstate (pkt [])).anyGate 5 = true ∧
    (after (calibrated (inState .faulted)) .axisDiagOffstate (pkt [])).anyGate 5 = false ∧ live.retiring 5 = false :=
  ⟨runsOn_all (by decide +kernel), by decide +kernel⟩

theorem restsUntil_nil {s : State} {a : AxisId} {t : Nat} (h : (s.ax a).pro.segs = []) : s.restsUntil a t = true := by
  simp [State.restsUntil, h]

/-- A segment that holds its velocity of 1 pu/s at position 0 for 2^40 ticks. -/
def runaway : Seg := { restSeg 0 (2 ^ 40) with v0 := 1, full := 0 }

theorem runaway_at {p : Pro} (h : p.segs = [runaway]) (t : Nat) (ht : t ≤ 2 ^ 40) : p.at t = (0, 1) := by
  have : (runaway.start, runaway.endTick, runaway.full, runaway.p0, runaway.v0) = (0, 2 ^ 40, 0, 0, 1) := by decide +kernel
  simp only [Prod.mk.injEq] at this
  obtain ⟨h1, h2, h3, h4, h5⟩ := this
  simp only [Pro.at, h, trajOf, h1, h2, Seg.eval, h3, h4, h5]
  rw [if_neg (by omega), if_pos ht]
  rfl

theorem runaway_moves {s : State} {a : AxisId} {t : Nat} (h : (s.ax a).pro.segs = [runaway]) (ht : 0 < t) :
    s.restsUntil a t = false := by
  have h1 : runaway.moving = true := by decide +kernel
  have h2 : runaway.start = 0 := rfl
  simp [State.restsUntil, h, h1, h2]; omega

theorem spliceAt_bounds (s : State) (a : AxisId) (h : s.net ≤ 2 ^ 39) :
    0 < (s.spliceAt a none).1 ∧ (s.spliceAt a none).1 ≤ 2 ^ 40 := by
  simp only [State.spliceAt]
  have hl : 1600 ≤ s.lead ∧ s.lead ≤ 3200 := by unfold State.lead; split <;> omega
  have hm : Config.commitDelay s.draws % (if s.slowLevel then 2401 else 1201) < 2401 := by
    split
    · exact Nat.mod_lt _ (by decide)
    · exact Nat.lt_of_lt_of_le (Nat.mod_lt _ (by decide)) (by decide)
  omega

/-- Axis 5 moves: the MOVE_ABS with number 0 runs, or another motion. -/
def moving5 (m : Motion := .move 0 100 1 1 1) (segs : List Seg := []) (run : Option Run := none) : State :=
  withTags (axis5 fun x => { x with st := .moving, pro := { x.pro with motion := m, segs := segs, run := run } })
    [open5 .moveAbs .running]

/-- MOVE_ABS to 100, and to -100 with NO_REVERSE, V, A and D 1; to 0; with a negative V. -/
def goTo (x : Word) (flags : Word := 0) : Packet := pkt [if x.msb then 0xffff else 0, x, 0, 0x10000, 0, 0x10000, 0, 0x10000, flags]
def goBack : Packet := pkt [0, 100, 0xffff, 0, 0, 0, 0, 0, 0]
def spin (v : Word) (flags : Word := 0) : Packet := pkt [if v.msb then 0xffff else 0, v, 0, 0x10000, 0, 0x10000, flags]

/-- Entry `i` of block `b` written with words. -/
def entryIn (s : State) (b i : Nat) (ws : List Word) : State :=
  (List.range 8).foldl (fun s j => s.setWord (b * 256 + i * 32 + 4 * j) (wordAt ws j)) s

/-- A dwell of 2,560 ticks with SEGID 7, LAST; axis 5 holds, with this entry in slot 0 of its block 3. -/
def dwellLast : List Word := [0x70011, 10]
def table5 : State := entryIn (owned (inState .holding) 3 0x15 0) 3 0 dwellLast
def noTable : State := owned (inState .holding) 3 0x15 0
def limitsBad (s : State) : State := ((s.setReg (proPar 5 0x0e) 1).setReg (proPar 5 0x0c) (-1)).setReg (proPar 5 0x0d) (-1)

/-- The run that a SEG_RUN of block 3 begins with, and its checks. -/
def runOf (s : State) (p : Packet) (next : Nat × Nat) : Run :=
  let v := after s .segRun p
  let (ts, _, y) := v.spliceAt 5 none
  { run0 with cmd := (cmd s .segRun p).id, hdr := v.drawn.cmdHdr (some (cmd s .segRun p).id), next := some next
              endP := ((y.ax 5).pro.at ts).1, endV := ((y.ax 5).pro.at ts).2, endT := ts, blocks := v.drawn.chainOf 5 32768 [] 3 }
def checked (s : State) (p : Packet) : FetchRes := (State.precheck 5 16 (runOf s p (3, 0)) [] (after s .segRun p).drawn).1
def FetchRes.isOk : FetchRes → Bool | .ok .. => true | _ => false
def FetchRes.isBad : FetchRes → Bool | .bad .. => true | _ => false
def FetchRes.isEcc : FetchRes → Bool | .ecc => true | _ => false
/-- A double-bit error in the table; a chain that leads to a block which is not the axis's, with one in it. -/
def badTable : State := { table5 with ecc := [(3 * 32, true)] }
def badChain : State :=
  let s := (List.range 8).foldl (fun s i => entryIn s 3 i [0x60010, 10]) (owned noTable 4 0 0)
  { s.setBlk 3 { s.blk 3 with nextv := true, next := 4 } with ecc := [(4 * 32, true)] }

theorem meets_MotionCommandsAskForTheirPlan :
    let runs := pkt [3, 0, 0]
    let named := pkt [3, 0x10007, 0]
    let away := withTags (moving5 (.vel 0 1 1 1) [runaway]) [open5 .moveVel .running]
    let found (s : State) (p : Packet) := let y := (after s .segRun p).drawn; (y.findSeg (y.cmdHdr (some (cmd s .segRun p).id)) 5 7 (3, 0)).1
    let l := [(inState .holding, Op.moveAbs, goBack), (inState .holding, .moveRel, goBack), (inState .holding, .moveAbs, goTo 100),
      (inState .holding, .moveRel, goTo 100), (away, .moveAbs, goTo (-100) 1), (inState .holding, .moveAbs, goTo 0),
      (inState .holding, .moveVel, pkt [0, 0, 0xffff, 0, 0, 0, 0]), (inState .holding, .moveVel, spin 0x10000 1), (away, .moveVel, spin (-0x10000) 1),
      (limitsBad (inState .holding), .segRun, runs), (inState .holding, .segRun, runs), (table5, .segRun, runs),
      (table5, .segRun, named), (noTable, .segRun, runs), (noTable, .segRun, named), (badTable, .segRun, runs), (badTable, .segRun, named),
      (badChain, .segRun, runs)]
    (∀ x ∈ l, x.1.RunsOn 1 x.2.1 x.2.2 5 (cmd x.1 x.2.1 x.2.2) (after x.1 x.2.1 x.2.2)) ∧
    (inState .holding).moveValues 5 false goBack.words = .inl 2 ∧
    (inState .holding).moveValues 5 false (goTo 100).words = .inr (.move 100 1 1 1 false) ∧
    (inState .holding).moveValues 5 true (goTo 0).words = .inr (.move 0 1 1 1 false) ∧
    away.moveValues 5 false (goTo (-100) 1).words = .inr (.move (-100) 1 1 1 true) ∧
    (inState .holding).velValues 5 [0, 0, 0xffff, 0, 0, 0, 0] = .inl 2 ∧
    (inState .holding).velValues 5 (spin 0x10000 1).words = .inr (.vel 1 1 1 true) ∧
    away.velValues 5 (spin (-0x10000) 1).words = .inr (.vel (-1) 1 1 true) ∧
    needsReversal 0 1 (-100) 1 = true ∧ needsReversal 0 0 100 1 = false ∧ ((inState .holding).traj 5).1 = 0 ∧
    (limitsBad live).slBad 5 = true ∧ live.slBad 5 = false ∧ (live.blk 3).owner ≠ axisOwner 5 ∧
    (table5.blk 3).owner = axisOwner 5 ∧ FetchRes.isOk (checked table5 runs) = true ∧ FetchRes.isBad (checked noTable runs) = true ∧
    found table5 named = .at_ (3, 0) ∧ FetchRes.isOk (checked table5 named) = true ∧
    found noTable named = .missing ∧ FetchRes.isEcc (checked badTable runs) = true ∧ found badTable named = .ecc ∧
    checked badChain runs = .chain 4 :=
  ⟨runsOn_all (by decide +kernel), by decide +kernel⟩

/-- Where the velocity stands against the new target, or the axis moves, at any splice instant. -/
theorem meets_motion_at_the_splice (s : State) (h : s.net ≤ 2 ^ 39) (hs : (s.ax 5).pro.segs = [runaway]) :
    (s.ax 5).pro.at (s.spliceAt 5 none).1 = (0, 1) ∧ s.restsUntil 5 (s.spliceAt 5 none).1 = false :=
  ⟨runaway_at hs _ (spliceAt_bounds s 5 h).2, runaway_moves hs (spliceAt_bounds s 5 h).1⟩

/-- A follower of channel 5. -/
def follow5 : Follow :=
  { chan := 5, upDown := false, num := 1, den := 1, counting := true, since := 0, until_ := none, lastPulse := none, inbox := []
    derived := [], hdr := Hdr.module, overLag := false, enders := [] }
def following (f : Follow := follow5) : State := axis5 fun x => { x with st := .following, stp := { x.stp with follow := some f } }

theorem appendFrom_full {z : State} {d : Hdr} {lender : Nat} {e : List Word} (h : z.freeCount = 0)
    (hn : (z.blk 3).nextv = false) : (State.appendFrom d 5 lender [e] 3 8 z).1 = .full := by
  simp [State.appendFrom, h, hn]

theorem meets_TableFollowAndPositionCommandsAct :
    let h := Hdr.module
    let one := pkt (3 :: dwellLast ++ List.replicate 6 0)
    let two := pkt (3 :: [0x60010, 10] ++ List.replicate 6 0 ++ dwellLast ++ List.replicate 6 0)
    let bad := pkt (3 :: List.replicate 8 0)
    let slot7 := owned (entryIn noTable 3 7 dwellLast) 4 0 0
    let linked := slot7.setBlk 3 { slot7.blk 3 with nextv := true, next := 4 }
    let running := table5.setPro 5 { (table5.ax 5).pro with run := some { run0 with lastAt := some (3, 0), next := none } }
    let chan := (inState .holding).setReg (fbkPar 5 0) 3
    let l := [(inState .off, Op.segAppend, one), (noTable, .segAppend, bad), (noTable, .segAppend, one), (table5, .segAppend, one),
      (table5, .segAppend, two), (linked, .segAppend, one), (badTable, .segAppend, one), (running, .segAppend, one), (chan, .followStart, pkt [5, 0x10001]),
      (chan.setReg (fbkPar 5 0) 4, .followStart, pkt [0x105, 0x100001]), (following, .followEnd, pkt []),
      (inState .off, .setPosition, pkt [0, 77]), (limitsBad (inState .holding), .setPosition, pkt [0, 77])]
    (∀ x ∈ l, x.1.RunsOn 1 x.2.1 x.2.2 5 (cmd x.1 x.2.1 x.2.2) (after x.1 x.2.1 x.2.2)) ∧
    badAppend 0 (chunk8 1 (bad.words.drop 1)) = some 0 ∧ badAppend 0 (chunk8 1 (one.words.drop 1)) = none ∧
    badAppend 0 (chunk8 2 (two.words.drop 1)) = none ∧
    (noTable.findLast h 5 3).1 = .missing ∧ (table5.findLast h 5 3).1 = .at_ (3, 0) ∧ (linked.findLast h 5 3).1 = .at_ (3, 7) ∧
    (badTable.findLast h 5 3).1 = .ecc ∧ (State.appendFrom h 5 0 (chunk8 1 (one.words.drop 1)) 3 1 table5).1 = .ok ∧
    (State.appendFrom h 5 0 (chunk8 1 (one.words.drop 1)) 3 8 linked).1 = .foreign ∧
    (noFree.freeCount = 0 ∧ (noFree.blk 3).nextv = false) ∧ (running.ax 5).pro.run ≠ none ∧
    chan.fld (fbkPar 5 0) 0 3 = 3 ∧ (0x10001 : Word).fld 16 16 ≤ 16 * (0x10001 : Word).fld 0 16 ∧
    (0x100001 : Word).fld 16 16 ≤ 16 * (0x100001 : Word).fld 0 16 ∧ live.slBad 5 = false ∧ live.inLimits 5 77 = true :=
  ⟨runsOn_all (by decide +kernel), by decide +kernel, by decide +kernel, by decide +kernel, by decide +kernel, by decide +kernel,
    by decide +kernel, by decide +kernel, by decide +kernel, by decide +kernel, ⟨noFree_freeCount, by decide +kernel⟩,
    by decide +kernel⟩

/-- HOLDING with a motion command suspended. -/
def suspended5 (u : Suspended) (run : Option Run := none) : State :=
  withTags (axis5 fun x => { x with st := .holding, pro := { x.pro with susp := u, run := run } }) [open5 .moveAbs .suspended]
/-- VMAX below 0. -/
def noSpeed (s : State) : State := s.setReg (proPar 5 1) 0xffff

theorem meets_StopsAndSuspensionsActOnTheMotion :
    let stopping (m : Motion) := axis5 fun x => { x with st := .stopping, pro := { x.pro with motion := m } }
    let inTable := moving5 (.table 0) [] (some run0)
    let cruise := axis5 fun x => { x with st := .moving, pro := { x.pro with motion := .cruise 1 1 } }
    let rejoins := suspended5 (.table 0) (some { run0 with rejoining := true })
    let ends := suspended5 (.table 0) (some { run0 with next := none })
    let torn := { suspended5 (.table 0) (some run0) with ecc := [(3 * 32, true)] }
    let queued := withTags (inState .holding) [open5 .moveAbs .queued]
    let l := [(following, Op.stop, pkt [0]), (following, .stop, pkt [1]), (stopping (.stop false), .stop, pkt [0]),
      (stopping (.stop true), .stop, pkt [1]), (stopping (.stop false), .stop, pkt [1]), (moving5, .stop, pkt [0]),
      (moving5 (.vel 0 1 1 1) [runaway], .stop, pkt [1]), (moving5, .hold, pkt []), (inTable, .hold, pkt []), (cruise, .hold, pkt []),
      (inState .holding, .resume, pkt []), (suspended5 (.move 0 100 1 1 1), .resume, pkt []), (suspended5 (.vel 0 1 1 1), .resume, pkt []),
      (noSpeed rejoins, .resume, pkt []), (rejoins, .resume, pkt []), (ends, .resume, pkt []), (torn, .resume, pkt []), (live, .abort, pkt [100]),
      (queued, .abort, pkt [100]), (moving5, .abort, pkt [0x10000])]
    (∀ x ∈ l, x.1.RunsOn 1 x.2.1 x.2.2 5 (cmd x.1 x.2.1 x.2.2) (after x.1 x.2.1 x.2.2)) ∧
    (moving5.ax 5).pro.motion.suspends.cmd?.bind moving5.cmd = some (open5 .moveAbs .running) ∧
    (inTable.restsUntil 5 (inTable.net + 1) = true ∧ (inTable.ax 5).pro.motion.suspends.cmd?.bind inTable.cmd ≠ none) ∧
    (cruise.ax 5).pro.motion.suspends.cmd?.bind cruise.cmd = none ∧ (noSpeed rejoins).proQ 5 0 ≤ 0 ∧
    (0 < rejoins.proQ 5 0 ∧ 0 < rejoins.proQ 5 2 ∧ 0 < rejoins.proQ 5 4) ∧
    (rejoins.rejoinPoint 5 { run0 with rejoining := true }).1 = .at_ none 0 [] ∧
    (ends.rejoinPoint 5 { run0 with next := none }).1 = .missing ∧ (torn.rejoinPoint 5 run0).1 = .ecc ∧
    (open5 .moveAbs .queued).waiting = true ∧ (open5 .moveAbs .queued).stoppable = false ∧ (open5 .moveAbs .running).stoppable = true :=
  ⟨runsOn_all (by decide +kernel), by decide +kernel⟩

/-! ## What waits, and what each event does

The conditions are of the state at the event's instant, one cycle after the state named. -/

/-- Axis 5 changed, one cycle later. -/
def then5 (f : Axis → Axis) : State := (axis5 f).advance 1

theorem meets_TheEngineActsOnWhatWaits :
    let u := live.advance 1
    let burst (n : Nat) : State := { live with bursts := [⟨.host, 0, n⟩] }.advance 1
    let stamped (op : Op) (n : Nat) : State := (withTags live [{ open5 op .stamped with stamp := n }]).advance 1
    let held : State := { stamped .nop 4000001 with pwr := { Pwr.reset with phase := .held } }
    let queued (op : Op) (n : Nat) : State := (withTags (inState .holding) [{ open5 op .queued with stamp := n, due := n }]).advance 1
    (u.portOpen .host = true ∧ (2#4 ≠ 1 ∧ opOf 0x05 = none) ∧ u.notMember none 5 = false) ∧ live.Wf ∧
    (((burst 3960001).bursts.find? fun b => b.port == .host && b.src == 0) = some ⟨.host, 0, 3960001⟩ ∧
      3960001 + 40000 ≤ (burst 3960001).tb ∧ (burst 3960002).tb < 3960002 + 40000) ∧
    (((stamped .nop 4000002).tags.find? fun c => c.sameOrigin .host 0 && c.tag == 100 && c.place == .stamped) =
        some { open5 .nop .stamped with stamp := 4000002 } ∧ (stamped .nop 4000002).net < 4000002 ∧
      4000001 ≤ (stamped .nop 4000001).net ∧ held.resting = true ∧ (stamped .nop 4000001).resting = false ∧
      opKind .nop = .x ∧ opKind .followEnd = .u ∧ (open5 .followEnd .stamped).axis? = some 5) ∧
    (((queued .moveAbs 4000001).queueHead 5).isSome ∧ ({ open5 .moveAbs .queued with due := 4000001 } : Cmd).takeAt ≤ 4000001 ∧
      legal .moveAbs ((queued .moveAbs 4000001).ax 5).st = .ok ∧ (queued .moveAbs 4000001).releasing 5 = false ∧
      (queued .moveAbs 4000001).stagedRefuses 5 .moveAbs = false ∧ (queued .moveAbs 4000001).stages 5 (open5 .moveAbs .queued) = false ∧
      (queued .moveAbs 4000002).mayTake 5 { open5 .moveAbs .queued with due := 4000002 } = false) ∧
    u.queueHead 5 = none :=
  ⟨by decide +kernel, live_sound, by decide +kernel⟩

/-- A dwell that has been fetched. -/
def fetched0 : Fetched :=
  { block := 3, index := 0, segid := 7, flags := 0x11, dur := 2560, endP := 0, endV := 0, dwell := true, loops := [], wait := [] }

theorem meets_ProfileEventsAdvanceTheTrajectory :
    let pro (f : Pro → Pro) : State := then5 fun x => { x with st := .moving, pro := f x.pro }
    let fetching := (moving5 (.table 0) [] (some run0)).advance 1
    let full := pro fun p => { p with segs := List.replicate 16 { restSeg 0 1000 with entered := false } }
    let plan1 : PlanSeg := ⟨1000, 5, 0, .move, false⟩
    let g := restSeg 4000000 1
    let h := { restSeg 4000001 1000 with entered := false }
    let late := { restSeg 4000000 2 with entered := true }
    ((fetching.ax 5).pro.motion = .table 0 ∧ (fetching.ax 5).pro.run = some run0 ∧ run0.bad = false ∧ run0.next ≠ none) ∧
    (full.ax 5).room = false ∧
    (((pro fun p => { p with plan := [plan1], segs := [g] }).ax 5).room = true ∧ [g].getLast? = some g ∧ [plan1] ≠ []) ∧
    ((pro fun p => { p with plan := [plan1] }).ax 5).room = true ∧
    (((pro fun p => { p with motion := .table 0, run := some { run0 with fetched := [fetched0] } }).ax 5).room = true ∧
      ((pro fun p => { p with motion := .table 0, run := some { run0 with bad := true, endV := 1 }, segs := [g] }).ax 5).room = true) ∧
    (((pro fun p => { p with motion := .vel 0 1 1 1, segs := [g] }).ax 5).room = true ∧ g.soft = false) ∧
    ({ g with splice := true, entered := false } : Seg).splice = true ∧
    (g.entered = true ∧ ({ h with splice := true } : Seg).splice = true ∧ h.entered = false ∧ g.endTick ≤ h.start ∧ h.start ≤ (pro id).net) ∧
    (g.endTick ≤ (pro id).net ∧ h.splice = false ∧ ({ h with splice := true } : Seg).splice = true ∧ h.start = g.endTick ∧ ({ h with start := 4000002 } : Seg).start ≠ g.endTick) ∧
    (((pro fun p => { p with segs := [g], motion := .move 0 0 1 1 1 }).popSeg 5 g).ax 5).pro.finished = true ∧
    (((pro fun p => { p with segs := [g], motion := .cruise 1 1 }).popSeg 5 g).ax 5).pro.finished = false ∧
    ((((pro fun p => { p with segs := [g], motion := .table 0, run := some { run0 with awaits := true } }).popSeg 5 g).ax 5).pro.finished = false ∧
      g.endState.2 = 0) ∧
    ({ g with wait := [⟨4000001, 7, 3, 0, []⟩] } : Seg).wait ≠ [] ∧
    (let r := { run0 with wait := [⟨4000001, 7, 3, 0, []⟩], next := none }
     r.next = none ∧ r.fetched = [] ∧ (∀ w ∈ r.wait, w.at_ ≤ (pro id).net)) ∧
    (∃ w ∈ ({ run0 with wait := [⟨4000002, 7, 3, 0, []⟩] } : Run).wait, (pro id).net < w.at_) ∧
    late.endTick ≤ 4000002 := by decide +kernel

/-- An edge at a fine tick of network time. -/
def edge (i : Nat) : Edge :=
  { instant := i, dir := true, ep := 0, q := 0, hdr := Hdr.module, follow := false, fallback := false, nominal := 0, enq := 0 }

/-- 100 pu in 1 s at constant velocity. -/
def travel : Seg := { restSeg 4000000 400000000 with v0 := 100, p1 := 100, v1 := 100 }

/-- A setpoint due at a fine tick. -/
def setpoint (i : Nat) : Setpoint :=
  { instant := i, s := #v[0, 0], frac := #v[0, 0], fell := #v[false, false], amp := 0, ep := 0, edge := true, zc := #v[false, false]
    mode := #v[none, none], hdr := Hdr.module, done := #v[false, false] }

theorem meets_EdgesAndSetpointsTakeEffectInOrder :
    let stp (f : Stp → Stp) : State := then5 fun x => { x with stp := f x.stp }
    let edges (l : List Edge) := stp fun p => { p with edges := l }
    let f := { follow5 with inbox := [⟨64000000, true⟩] }
    let sp (i : Nat) := then5 fun x => { x with chp := { x.chp with setpoints := [setpoint i] } }
    (((Stp.solveNext 1 17 ((stp fun p => { p with segs := [travel] }).ax 5).stp).1.map fun x => x.2.1) = some true ∧
      (Stp.solveNext 1 17 ((stp id).ax 5).stp).1 = none) ∧
    64 ≤ ((edges (List.replicate 64 (edge 0))).ax 5).stp.edges.length ∧
    (edges [edge (4000114 * 16)]).net + 112 < (edge (4000114 * 16)).instant / 16 ∧
    ((edge (4000113 * 16)).instant / 16 ≤ (edges [edge (4000113 * 16)]).net + 112 ∧ max (edge 0).enq (0 - 112) + 128 ≤ 4000113) ∧
    (edge 1600).instant / 16 < max (edge 1600).enq (0 - 112) + 128 ∧
    (f.inbox = ⟨64000000, true⟩ :: [] ∧ f.counts (64000000 / 16) = true ∧
      ({ f with counting := false, until_ := some 4000000 } : Follow).counts 4000000 = false ∧
      ({ f with counting := false, until_ := some 4000001 } : Follow).counts 4000000 = true ∧
      ({ f with since := 4000001 } : Follow).counts 4000000 = false) ∧
    (((sp 64000017).ax 5).chp.setpoints.find? (fun p => !p.done.get 0) = some (setpoint 64000017) ∧
      (sp 64000017).stepCoarse 5 = false ∧ (sp 64000017).fine < 64000017 ∧ 64000016 ≤ (sp 64000016).fine) := by decide +kernel

theorem meets_CurrentEngineInstantsMoveTheAmplitude :
    let chp (f : Chp → Chp) : State := then5 fun x => { x with chp := f x.chp }
    let u := live.advance 1
    (u.net / 20000 * 20000 = 4000000 ∧ ((chp id).ax 5).chp.lastGrid < 4000000) ∧
    (((chp fun c => { c with lastGrid := 4000000 }).ax 5).chp.lastGrid = 4000000) ∧
    (((chp fun c => { c with brakeEnd := some 4000001, ampst := .brakeWait }).ax 5).chp.brakeEnd = some 4000001 ∧ 4000001 ≤ u.tb) ∧
    ((then5 fun x => { x with st := .energising }).ax 5).st = .energising ∧ (u.ax 5).st ≠ .energising ∧
    ((chp fun c => { c with brakeEnd := some 4000001, ampst := .release }).ax 5).chp.ampst = .release ∧
    (((chp fun c => { c with releasedAt := some 3980001 }).ax 5).chp.releasedAt = some 3980001 ∧ 3980001 + 20000 ≤ u.net) ∧
    (let z := (chp fun c => { c with holdFrom := some 1, holdDelay := 1, ampst := .run }).gridRelease 5
     (z.ax 5).chp.holdFrom = some 1 ∧ (z.ax 5).chp.ampst = .run ∧ (z.loopCfg 5).mode = 0 ∧ 1 + 1 * 4000000 ≤ z.tb) := by decide +kernel

theorem meets_CurrentTablesLoadAndSwap :
    let u := live.advance 1
    let chp (s : State) (f : Chp → Chp) : State := (s.setChp 5 (f (s.ax 5).chp)).advance 1
    (u.portOpen .host = true ∧ u.locked = false) ∧ ((0x10003 : Word).bit 16 = true ∧ (0x10003 : Word).bit 17 = false) ∧
    ((0x30003 : Word).bit 16 = true ∧ (0x30003 : Word).bit 17 = true) ∧ ((0x20003 : Word).bit 16 = false ∧ (0x20003 : Word).bit 17 = true) ∧
    ((blocks.blk 3).owner ≠ 0xff ∧ (blocks.blk 3).owner ≠ 0xf0 ∧ (blocks.blk 3).poison = false) ∧ (u.blk 3).owner = 0xff ∧
    (u.ax 5).chp.swapAfter = none ∧ (u.ax 5).chp.load = none ∧ ((chp live fun c => { c with load := some 3 }).ax 5).chp.load ≠ none ∧
    ((chp blocks fun c => { c with load := some 3 }).ax 5).chp.load = some 3 ∧ (chp blocks id).ecc = [] := by decide +kernel

theorem meets_ChopperGoesOnOffAndDecays :
    let coil (q : Coil) : State := (live.setCoil 5 0 q).advance 1
    let on : Coil := { Coil.reset with bridge := .drive, since := 3999901, blank := 100, armed := true }
    let off : Coil := { Coil.reset with bridge := .slow, since := 3998001, toff := 2000, s := 16 }
    (((coil on).coil 5 0).bridge = .drive ∧ ((coil on).coil 5 0).armed = true) ∧
    (((coil { on with armed := false }).coil 5 0).armed = false ∧ 3999901 + 100 ≤ (coil on).tb) ∧
    (((coil { on with bridge := .fast }).coil 5 0).bridge = .fast ∧ ((coil off).coil 5 0).bridge ≠ .fast) ∧
    (((coil off).coil 5 0).bridge = .slow ∧ 0 < off.toff ∧ off.since + off.toff ≤ (coil off).tb ∧ dacCode 16 ≠ 0 ∧ dacCode 15 = 0) := by
  decide +kernel

/-- Axis 5's PWM runs: the first period has begun, from 3,996,001 to 4,004,001. -/
def running5 : Pwm :=
  { Pwm.reset with run := true, started := true, b := 3996001, c := 4000001, e := 4004001, strobeAt := 4000001 }

theorem meets_PwmEventsFollowTheCarrier :
    let pwm (p : Pwm) : State := (energised .holding).setPwm 5 p |>.advance 1
    let volt (s : State) : State := s.setCoil 5 0 { s.coil 5 0 with volt := true, bridge := .pwm }
    let leg (t : Nat) : Pwm := { running5 with legs := running5.legs.set 0 ⟨[(t, true)], [], none, false⟩ }
    let duty (n : Nat) : Pwm := { running5 with duty := #v[some ⟨0, 4000000, n, Hdr.module⟩, none] }
    let swap (s : State) (n : Nat) : State := { s with net := n, tb := n }.advance 1
    let busy := live.setStp 0 { (live.ax 0).stp with edges := [edge (400001 * 16 + 100)] }
    let at48 := busy.setBank 0 { busy.bank 0 with swapAt := 48 }
    (({ running5 with e := 4000001 } : Pwm).run = true ∧ 4000001 ≤ (pwm running5).net) ∧
    ((pwm Pwm.reset).ax 5).pwm.run = false ∧ (pwm running5).net < running5.e ∧
    ((volt (pwm (leg 64000016))).legCoarse 5 0 = false ∧ ((volt (pwm (leg 0))).coil 5 0).volt = true ∧
      ((volt (pwm (leg 0))).coil 5 0).bridge = .pwm ∧ 64000016 < running5.e * 16 ∧ 64000016 ≤ (pwm (leg 0)).fine) ∧
    (pwm (leg 64000017)).fine < 64000017 ∧ ((running5.legs.get 0).edges = []) ∧
    (((pwm (duty 4000001)).ax 5).pwm.duty.get 0 = some ⟨0, 4000000, 4000001, Hdr.module⟩ ∧ 4000001 ≤ (pwm (duty 4000001)).net ∧
      ((pwm (duty 4000001)).coil 5 0).volt = false ∧ ((volt (pwm (duty 4000001))).coil 5 0).volt = true) ∧
    (((pwm running5).ax 5).energised = true ∧ running5.strobed = false ∧ running5.strobeAt ≤ (pwm running5).net) ∧
    (live.ax 5).energised = false ∧
    ((swap live 400000).onPll = true ∧ (swap live 400000).up = true ∧ ((swap live 400000).bank 0).lastSwap < 400001 / 400000 * 400000 ∧
      (swap live 400000).lineBusy 0 0 = false ∧ ¬400000 + 40000 ≤ (swap live 400000).net ∧ 400000 + 40000 ≤ (swap live 439999).net ∧
      (swap at48 400000).lineBusy 0 48 = true ∧ ((swap at48 400000).bank 0).swapAt = 48) := by decide +kernel

/-- The strobe of a sound state. -/
theorem meets_the_strobe_of_a_sound_state : ((energised .holding).setPwm 5 running5).Wf :=
  ⟨by decide +kernel, by decide +kernel, by decide +kernel, by decide +kernel, by decide +kernel,
    ⟨by decide +kernel, by decide +kernel⟩, by decide +kernel⟩

/-! ## Loops, observer and configuration -/

/-- A sample that waits for its loops, with the outer loops due. -/
def sample0 : Sample :=
  { stamp := 4000000, hdr := Hdr.module, i := #v[0, 0], vbus := 0, settled := #v[true, true], chop := #v[false, false], dn := #v[0, 0]
    interval := 0, sp := #v[0, 0], volt := #v[true, true], lowOn := #v[false, false], cpos := 0, vcmd := 0, fbCount := 0, fbSpeed := 0, outer := true }

theorem meets_LoopAndObserverEventsAct :
    let loop (f : LoopAxis → LoopAxis) : LoopAxis := f LoopAxis.reset
    let obs (f : Obs → Obs) : Obs := f Obs.reset
    let u := live.advance 1
    let mon := (((inState .holding).setReg (loopPar 5 0) 0x20).setReg (loopPar 5 4) 1).advance 1
    ((then5 fun x => { x with sample := some sample0 }).ax 5).sample = some sample0 ∧ (u.ax 5).sample = none ∧
    (16 ≤ (loop fun l => { l with unset := #v[16, 15] }).unset.get 0 ∧ (loop fun l => { l with unset := #v[16, 15] }).unset.get 1 < 16) ∧
    (mon.supervised 5 = true ∧ mon.fld (loopPar 5 4) 0 16 = 1 ∧ 3960001 + 1 * 40000 ≤ mon.net ∧ mon.net < 3960002 + 1 * 40000) ∧
    (((u.ax 5).loop.unit 6).frz = 0 ∧ (LoopUnit.mk 0 0 0 false 1).frz ≠ 0) ∧
    (obs fun o => { o with stallDue := some 1 }).stallDue = some 1 ∧ (obs fun o => { o with trackDue := true }).trackDue = true ∧
    (obs fun o => { o with windowDue := some (0, 0) }).windowDue = some (0, 0) ∧ Obs.reset.stallDue = none ∧ Obs.reset.trackDue = false := by
  decide +kernel

/-- Axis 5 with a staged move. -/
def staged5 : State := (withTags (inState .holding) [stagedMove]).advance 1

theorem meets_AxisConfigurationWritesActOrAreRefused :
    let u := live.advance 1
    let w := (inState .moving).advance 1
    let run (p : Pwm) : State := (live.setPwm 5 p).advance 1
    (u.portOpen .host = true ∧ u.locked = false) ∧
    (u.fld (Reg.stpCfg 5) 0 4 ≠ 10 ∧ u.staged 5 = false ∧ (u.ax 5).st = .off) ∧ (staged5.staged 5 = true ∧ staged5.fld (Reg.stpCfg 5) 0 4 ≠ 10) ∧
    ((w.ax 5).st = .moving ∧ w.staged 5 = false ∧ w.fld (Reg.stpCfg 5) 0 4 ≠ 10) ∧
    ((0x1800 : Word).fld 11 2 ≠ staged5.fld (Reg.chpCfg 5) 11 2 ∧ (w.ax 5).st ≠ .off ∧ (w.ax 5).st ≠ .ready) ∧
    (u.ax 5).pwm.run = false ∧ ((run running5).ax 5).pwm.run = true ∧ ((run running5).ax 5).pwm.started = true ∧
    ((u.plainWrite (Reg.pwmCfg 5) 5000).half 5 ≠ u.half 5 ∧ (u.plainWrite (Reg.pwmCfg 5) 4000).half 5 = u.half 5) ∧
    ((12#5).toNat < 14 ∧ (12#5).toNat % 2 = 0) ∧ ((13#5).toNat < 14 ∧ (13#5).toNat % 2 = 1 ∧ 10 ≤ (13#5).toNat) ∧
    ((7#5).toNat = 7 ∧ s48 0xffff (u.heldWord (proPar 5 6)) ≤ 0 ∧ 0 < s48 1 (u.heldWord (proPar 5 6))) ∧ 14 < (15#5).toNat := by decide +kernel

theorem meets_ModeConfigurationWritesActOrAreRefused :
    let u := live.advance 1
    let moving := (inState .moving).advance 1
    let closed := ((energised .holding).setReg (loopPar 5 0) 0x55402).advance 1
    let looping := (closed.setLoop 5 { (closed.ax 5).loop with running := true })
    (u.portOpen .host = true ∧ u.locked = false) ∧ ((u.loopCfg 5).mode = 0 ∧ (closed.loopCfg 5).mode = 2 ∧ (u.loopCfg 5).fbd ≠ 0) ∧
    (u.modeFree 5 = true ∧ moving.modeFree 5 = false ∧ staged5.staged 5 = true ∧ u.staged 5 = false) ∧
    ((u.ax 5).loop.running = false ∧ (u.setReg (loopPar 5 0) 1).closedMode 5 = false ∧ closed.closedMode 5 = true ∧
      (looping.ax 5).loop.running = true) ∧ (closed.loopCfg 5).icen = false ∧
    ((u.reg (loopPar 5 1) &&& ~~~(loopRow 5 1).rw) ||| (6 &&& (loopRow 5 1).rw) ≠ u.reg (loopPar 5 1)) ∧
    ((u.reg (loopPar 5 2) &&& ~~~(loopRow 5 2).rw) ||| (0x10000 &&& (loopRow 5 2).rw) ≠ u.reg (loopPar 5 2)) ∧
    ((closed.loopCfg 5).encoder = true ∧ (0x10000 : Word).fld 0 16 = 0) ∧ 3 ≤ (3#10).toNat := by decide +kernel

theorem meets_FeedbackEventsCountAndCapture :
    let u := live.advance 1
    let chan (f : Chan → Chan) : State := (live.setChan 5 (f Chan.reset)).advance 1
    let hall := (live.setReg (fbkPar 5 0) 2).advance 1
    let at_ := (u.tb - filterTicks (u.fld (fbkPar 5 0) 7 3)) * 16 + 15
    let window := chan fun x => { x with hist := [(63999999, 5)], ref := some (48000000, 0), winEnd := 3000000 }
    let rest := (live.setChan 5 { Chan.reset with hist := [(0, 0)] }).advance 1
    let t : Trig := ⟨64000000, true, 0, 5, 0⟩
    let taken := (live.setReg (fbgPar 0x41) 0x86).advance 1
    (u.fbkOn = true ∧ (u.chan 5).levels ≠ (u.chan 5).accepted at_ 4 0) ∧ (u.chan 5).levels = (u.chan 5).accepted at_ 4 7 ∧ live.fbkOn = true ∧
    State.reset.fbkOn = false ∧
    ((window.chan 5).winEnd < gridAt (max 1 (u.fld (fbkPar 5 2) 0 8) * 40000) u.net ∧
      ((window.chan 5).hist.find? fun e => decide (e.1 / 16 ≤ 4000000)) = some (63999999, 5) ∧ (window.chan 5).winEnd < 63999999 / 16 ∧
      (window.chan 5).ref = some (48000000, 0)) ∧
    ((rest.chan 5).hist = [(0, 0)] ∧ rest.fld (fbkPar 5 2) 8 16 ≠ 0 ∧ 0 + rest.fld (fbkPar 5 2) 8 16 * 40000 ≤ rest.net) ∧
    ((chan fun x => { x with trigs := [t] }).chan 5).trigs = t :: [] ∧ (u.chan 5).trigs = [] ∧
    (({ Echo.reset with queue := [⟨64000016, false, 100⟩] } : Echo).queue = ⟨64000016, false, 100⟩ :: [] ∧ 64000016 ≤ u.fine) ∧
    (u.portOpen .host = true ∧ u.locked = false) ∧ hall.decoder 5 = 2 ∧ u.decoder 5 ≠ 2 ∧
    ((u.reg (fbgPar 0x40)).bit 7 = false ∧ (taken.reg (fbgPar 0x41)).bit 7 = true ∧ axisNum (taken.fld (fbgPar 0x41) 0 7) = 6 ∧
      axisNum ((0x86 : Word).fld 0 7) = 6 ∧ ∀ j : Fin 8, j ≠ 1 → (taken.reg (fbgPar (0x40 + j.val))).bit 7 = false) ∧
    ((0x20001 : Word).fld 0 16 < (0x20001 : Word).fld 16 16 ∧ (0x10001 : Word).fld 16 16 ≤ (0x10001 : Word).fld 0 16) := by decide +kernel

theorem meets_a_latch_in_a_sound_state : (live.setChan 5 { Chan.reset with trigs := [⟨64000000, true, 0, 5, 0⟩] }).Wf :=
  ⟨by decide +kernel, by decide +kernel, by decide +kernel, by decide +kernel, by decide +kernel,
    ⟨List.nodup_nil, fun _ h => nomatch h⟩, by decide +kernel⟩

/-! ## Gate drive banks -/

/-- Bank 0 drives: DRVEN is high, its link up, VG good. -/
def driving (f : TileAxis → TileAxis) (s : State := energised .holding) : State :=
  let s := { s with drven := true }.setBank 0 { s.bank 0 with linkUp := true, linkHold := false, vgLow := false }
  (s.setTile 5 (f (s.tile 5))).advance 1

/-- One gate of axis 5 is on when its command line has been for a while and nothing is against it. -/
theorem gate_on {s : State} {g : GateId} (hb : (s.tile 5).refreshing (legOfGate g) s.tb = false)
    (hc : (s.tile 5).cmd.getLsbD g.val = true ∧ (s.tile 5).cmd.getLsbD (partner g).val = false)
    (ho : (s.tile 5).offAt.get (partner g) + 2560 ≤ s.tbFine)
    (hh : (s.tile 5).holds g = false ∧ (s.bank (bankOf 5)).kill.getLsbD (locOf 5).val = false ∧ s.bankHeld (bankOf 5) = false) :
    s.gateLevel 5 g = true := by
  have h : (s.tile 5).offAt.get (partner g) + Config.deadTicks * 16 ≤ s.tbFine := by
    have := deadTicks_le
    omega
  simp only [State.gateLevel, hb, hc.1, hc.2, hh.1, hh.2.1, hh.2.2, decide_eq_true h]
  simp

theorem turnOn_le {t : TileAxis} {g : GateId} (hr : t.refresh.get (legOfGate g) = none) (hs : t.onSince.get g = some 0)
    (ho : t.offAt.get (partner g) = 0) (now : Nat) : t.turnOn g now ≤ 2560 := by
  have := deadTicks_le
  simp only [TileAxis.turnOn, hr, hs, ho, Option.getD_some]
  omega

theorem scActive_on {s : State} {m : SenseHit} (hg : s.gateLevel 5 m.gate = true) (ht : (s.tile 5).turnOn m.gate s.tbFine ≤ 2560)
    (hb : 2560 + s.scBlank 5 * 16 ≤ s.tbFine) (hl : s.scLimit 5 ≤ m.current) : s.scActive 5 m = true := by
  have : (s.tile 5).turnOn m.gate s.tbFine + s.scBlank 5 * 16 ≤ s.tbFine := by omega
  simp [State.scActive, State.sensedFrom, hg, this, hl]

/-- One gate of axis 5 has been commanded on since reset. -/
def lowOn : State := driving fun t => { t with cmd := 2, onSince := t.onSince.set 1 (some 0) }
def highOn : State := driving fun t => { t with cmd := 1, onSince := t.onSince.set 0 (some 0) }
/-- So in a diagnostic: a test pulse on coil 0. -/
def pulsed : State :=
  driving (fun t => { t with cmd := 2, onSince := t.onSince.set 1 (some 0) })
    (axis5 fun x => { x with st := .diag, energised := true, diagOn := true, diagPulses := [(2, false)] })

theorem meets_the_gates_that_detectors_need : lowOn.scActive 5 ⟨1, 1000⟩ = true ∧ pulsed.scActive 5 ⟨1, 1000⟩ = true ∧
    highOn.gateLevel 5 (highOf 0) = true ∧ (highOn.tile 5).turnOn 0 highOn.tbFine + 400000 * 16 ≤ highOn.tbFine := by
  have h1 : lowOn.gateLevel 5 1 = true := gate_on (by decide +kernel) (by decide +kernel) (by decide +kernel) (by decide +kernel)
  have h2 : highOn.gateLevel 5 0 = true := gate_on (by decide +kernel) (by decide +kernel) (by decide +kernel) (by decide +kernel)
  have h5 : pulsed.gateLevel 5 1 = true := gate_on (by decide +kernel) (by decide +kernel) (by decide +kernel) (by decide +kernel)
  have h3 := turnOn_le (t := highOn.tile 5) (g := 0) (by decide +kernel) (by decide +kernel) (by decide +kernel) highOn.tbFine
  have h4 : 2560 + 400000 * 16 ≤ highOn.tbFine := by decide +kernel
  exact ⟨scActive_on h1 (turnOn_le (by decide +kernel) (by decide +kernel) (by decide +kernel) _) (by decide +kernel)
    (by decide +kernel), scActive_on h5 (turnOn_le (by decide +kernel) (by decide +kernel) (by decide +kernel) _)
    (by decide +kernel) (by decide +kernel), h2, Nat.le_trans (Nat.add_le_add_right h3 _) h4⟩

theorem meets_BridgeDetectorsActAndReport :
    let u := live.advance 1
    let idle := then5 fun x => { x with diagOn := true }
    let dis (s : State) := (s.setReg (Reg.gdbDiscfg 0) 0x10101).advance 1
    let on : Coil := { Coil.reset with bridge := .drive, since := 3000000, blank := 200, s := 2048 }
    let due := dis ((energised .holding).setCoil 5 0 { on with since := 3999401 })
    let stays := dis ((energised .holding).setCoil 5 0 on)
    let pre (n : Nat) (s : State) : State := (s.setTile 5 { s.tile 5 with prechAt := n }).advance 1
    let charging := axis5 fun x => { x with st := .energising, chp := { x.chp with ampst := .precharge } }
    let long := highOn
    ((u.ax 5).diagOn = false ∧ (lowOn.ax 5).diagOn = false ∧ (pulsed.ax 5).diagOn = true ∧ u.scActive 5 ⟨1, 0⟩ = false ∧
      (idle.ax 5).diagOn = true ∧ idle.scActive 5 ⟨1, 0⟩ = false ∧ idle.condCross 5 ⟨1, 0⟩ = false) ∧
    ((pulsed.ax 5).diagPulses.getLast? = some (2, false) ∧ 2#8 &&& coilGates 0 &&& (pulsed.tile 5).cmd ≠ 0 ∧
      2#8 &&& coilGates 1 &&& (pulsed.tile 5).cmd = 0 ∧ (u.ax 5).diagPulses.getLast? = none) ∧
    (u.shuntFactor 5 * u.fullScale 5 < 1000000 * 100 ∧ 0 * 100 ≤ u.shuntFactor 5 * u.fullScale 5) ∧
    ((due.bit (Reg.gdbDiscfg 0) 8 && (due.ax 5).energised && due.checkDue 5 0) = true ∧ due.failLimit 5 = 1 ∧
      due.condLimit 5 ≤ 100 ∧ due.shuntLow 5 ⟨0, 100, 0⟩ = true) ∧ (u.bit (Reg.gdbDiscfg 0) 8 && (u.ax 5).energised && u.checkDue 5 0) = false ∧
    (stays.fld (Reg.gdbDiscfg 0) 16 8 = 1 ∧ (stays.coil 5 0).volt = false ∧ (stays.coil 5 0).bridge = .drive ∧
      64 ≤ dacCode (stays.coil 5 0).s ∧ 0 < stays.condLimit 5 ∧ (stays.coilValue 5 0 0).natAbs < 1024 ∧
      max (stays.coil 5 0).since ((stays.tile 5).noCurAt.get 0) + 1 * 100000 ≤ stays.tb) ∧
    ((0 : Int) < u.bstThreshold 0 true ∧ (0 : Int) < u.bstThreshold 0 false ∧ u.bstThreshold 0 true ≤ 4095 ∧
      (long.tile 5).cmd.getLsbD 0 = true ∧ (long.tile 5).onSince.get (highOf 0) = some 0 ∧ 0 + 800 * 16 ≤ long.tbFine ∧
      (long.tile 5).soft.getLsbD 0 = false ∧ (long.tile 5).hard.getLsbD 0 = false) ∧
    (u.tile 5).cmd.getLsbD 0 = false ∧
    (((pre 3940001 charging).ax 5).chp.ampst = .precharge ∧ ((pre 3940001 charging).tile 5).prech = false ∧
      ((pre 3940001 charging).tile 5).prechAt + 60000 ≤ (pre 3940001 charging).tb ∧
      (pre 3940002 charging).tb < ((pre 3940002 charging).tile 5).prechAt + 60000) := by decide +kernel

theorem meets_BankMeasurementsRaiseTheirCausesOnce :
    let u := live.advance 1
    let e := (energised .holding).advance 1
    (((0#12).toNat : Int) < u.vgThreshold 0 false ∧ u.vgThreshold 0 true ≤ ((4095#12).toNat : Int) ∧ (u.bank 0).vgLow = true ∧
      (gateOn5.bank 0).vgLow = false) ∧
    (400 < (401#12).toInt.natAbs ∧ (400#12).toInt.natAbs ≤ 400 ∧ (u.bank 0).shrefLost = false) ∧
    (u.fld (Reg.gdbBuslim 0) 16 12 ≤ (4095#12).toNat ∧ (0#12).toNat < u.fld (Reg.gdbBuslim 0) 16 12 ∧ (u.bank 0).busOv = false) ∧
    ((0#12).toNat < e.fld (Reg.gdbBuslim 0) 0 12 ∧ (∃ j, (e.ax (axisOf 0 j)).energised = true) ∧ (e.bank 0).busUv = false) ∧
    (1000 ≤ (1000#12).toInt ∧ (919#12).toInt < 920 ∧ 920 ≤ (999#12).toInt ∧ (999#12).toInt < 1000 ∧ 1200 ≤ (1200#12).toInt ∧
      (1079#12).toInt < 1080 ∧ 1080 ≤ (1199#12).toInt ∧ (1199#12).toInt < 1200) := by decide +kernel

theorem meets_LinksMasksAndDrivenActOnTheBanks :
    let u := live.advance 1
    let up (n : Nat) : State := (live.setBank 0 { live.bank 0 with linkUp := true, crcRun := n }).advance 1
    let low (n : Nat) : State := { live with drvenLowAt := n }.advance 1
    (((up 2).bank 0).linkUp = true ∧ ((up 2).bank 0).crcRun = 2 ∧ ((up 1).bank 0).crcRun ≠ 2 ∧ (up 2).gateOn 10 = true) ∧
    (u.bank 0).linkUp = false ∧ gateOn5.drven = true ∧ u.drven = false ∧
    ((low 3992002).tb < 3992002 + 8000 ∧ 3992001 + 8000 ≤ (low 3992001).tb ∧ (low 0).locked = false) ∧ u.extest = false ∧
    ({ u with extest := true } : State).extest = true ∧ ({ u with locked := true } : State).locked = true := by decide +kernel

/-- An open record of cause 0x05 in class 2, and axis 5 with it. -/
def rec5 : Rec :=
  { first := 0x05, cls := 2, opened := true, pending := false, retired := false, sub := 0, repeats := 0, mask := 0x20, stamp := 0
    hdr := Hdr.module, retries := 0, seq := 0, ember := 0, emberv := false, shared := false, banks := 0, pairs := [], opentb := 0
    awaitSub := false, backoff := some 4000001, mergedAt := none, timev := false }
def withRec (r : Rec) (st : AxState := .faulted) (ph : RetPhase := .none) : State :=
  axis5 fun x => { x with st := st, fault := { x.fault with recs := [r], retPhase := ph } }

theorem gate_off {s : State} {g : GateId} (h : s.bankHeld (bankOf 5) = true) : s.gateLevel 5 g = false := by
  simp [State.gateLevel, h]

theorem meets_DiagnosticsEndWithTheirResults :
    let diag (id : Option Nat) := then5 fun x => { x with st := .diag, diagCmd := id }
    let auto (s : State) : State := (s.setTile 5 { s.tile 5 with autoDiag := #v[some 0x05, none] }).advance 1
    (((diag (some 0)).ax 5).st = .diag ∧ ((diag (some 0)).ax 5).diagCmd = some 0 ∧ ((diag none).ax 5).diagCmd = none ∧
      ((diag none).ax 5).diagKind = false) ∧ ((live.advance 1).ax 5).st ≠ .diag ∧
    (((auto live).tile 5).autoDiag.get 0 = some 0x05 ∧ ((auto live).ax 5).rec? = none ∧ (auto live).bankHeld (bankOf 5) = true) ∧
    (((auto (withRec rec5)).ax 5).rec? = some rec5 ∧ rec5.mask.testBit 0x05 = true ∧ rec5.mask.testBit 0x06 = false) ∧
    (((live.advance 1).ax 5).st = .off ∧ ((inState .holding).ax 5).st ≠ .off ∧ ((inState .holding).ax 5).st ≠ .ready) ∧
    ((live.advance 1).tile 5).autoDiag = #v[none, none] :=
  ⟨by decide +kernel, by decide +kernel, by decide +kernel, by decide +kernel, by decide +kernel, rfl⟩

/-! ## Trips, causes, records -/

theorem meets_TripsLatchAndTheGuylineFollows :
    let u := live.advance 1
    let mapped := (live.setReg (Reg.pwmTripmap 5) 8).advance 1
    let active := { u with trips := 8 }
    let each := live.setReg Reg.timeGuycfg 0x100
    let guy (r : Nat) (acc : Option (Nat × Nat)) (n : Nat) : State :=
      ({ each with netw := { live.netw with guyRole := r, guyAcc := acc, guySince := n } } : State).advance 1 |>.guySync
    (u.trips.getLsbD 3 = false ∧ u.up = true ∧ (∀ a : AxisId, u.bit (Reg.pwmTripmap a) 3 = false) ∧
      (∃ a : AxisId, mapped.bit (Reg.pwmTripmap a) 3 = true)) ∧ active.trips.getLsbD 3 = true ∧ State.reset.up = false ∧
    ((u.portOpen .host = true ∧ u.locked = false) ∧ active.trips.toNat &&& (7 : Word).fld 0 16 = 0 ∧
      active.trips.toNat &&& (8 : Word).fld 0 16 ≠ 0) ∧
    ((guy 1 none 0).netw.guyRole = 1 ∧ (guy 1 none 0).netw.guyHead < (guy 1 none 0).net / (guy 1 none 0).guyPeriod * (guy 1 none 0).guyPeriod) ∧
    (guy 0 none 0).netw.guyRole ≠ 1 ∧ (guy 2 none 0).netw.guyRole = 2 ∧
    ((guy 2 (some (63000000, 0)) 0).netw.guyAcc = some (63000000, 0) ∧
      ((guy 2 none 0).net - 200) * 16 < 63000000 + (guy 2 none 0).guyPeriod / 2 * 16 ∧
      10000000 + (guy 2 none 0).guyPeriod / 2 * 16 ≤ ((guy 2 none 0).net - 200) * 16) ∧
    ((guy 2 none 0).netw.guyMissed = false ∧ 0 + 2 * (guy 2 none 0).guyPeriod ≤ (guy 2 none 0).tb ∧
      (guy 2 none 4000001).tb < 4000001 + 2 * (guy 2 none 0).guyPeriod) := by decide +kernel

/-- A fault item of source 0. -/
def item (sc : Scope) (c : Nat) : FaultItem := ⟨0, 0x08, 0, sc, 4000000, Hdr.module, c, [], false⟩

theorem meets_CausesAreTakenAtTheirClass :
    let with_ (i : FaultItem) : State := { live with flue := [i] }.advance 1
    let u := live.advance 1
    let ss1 (t : Nat) (ph : RetPhase) := then5 fun x => { x with fault := { x.fault with ss1 := some t, retPhase := ph } }
    let broken := { u with broken := 1 }
    (∀ sc ∈ [Scope.axis 5, .bank 0, .module], ∀ c ∈ [0, 1, 3, 4], (with_ (item sc c)).flue.find? (fun i => i.source == (0 : Fin 22).val) = some (item sc c)) ∧
    (∀ j, u.activeAx (axisOf 0 j) = false) ∧ ((energised .holding).activeAx 5 = true ∧ axisOf 0 5 = 5) ∧
    (u.flue.find? fun i => i.source == (0 : Fin 22).val) = none ∧
    (u.broken.getLsbD 0 = false ∧ broken.broken.getLsbD 0 = true ∧ u.flueSince.get 0 + 200 ≤ u.tb ∧ 8 ≤ (21 : Fin 22).val ∧
      ({ u with flueSince := u.flueSince.set 0 3999802 } : State).tb < 3999802 + 200) ∧
    (((u.ax 5).fault.ss1 = none) ∧ ((ss1 4000002 .none).ax 5).fault.ss1 = some 4000002 ∧ ((ss1 4000002 .none).ax 5).st ≠ .faulted ∧
      (ss1 4000002 .none).tb < 4000002 ∧ 4000001 ≤ (ss1 4000001 .stopping).tb ∧ ((ss1 4000001 .stopping).ax 5).fault.retPhase = .stopping) ∧
    ((u.ax 5).rec? = none ∧ (((withRec rec5).advance 1).ax 5).rec? = some rec5 ∧ rec5.backoff = some 4000001 ∧
      4000001 ≤ ((withRec rec5).advance 1).tb ∧ ({ rec5 with backoff := some 4000002 } : Rec).backoff = some 4000002 ∧
      ((withRec rec5).advance 1).tb < 4000002 ∧ ((withRec rec5).advance 1).persistsAx 5 rec5 = false ∧
      ((withRec rec5).advance 1).wirePersists rec5 = false ∧ rec5.pending = false ∧ ((withRec rec5).ax 5).fault.acting = false) :=
  by decide +kernel

theorem meets_RetirementEmberAndErrPinEnd :
    let u := live.advance 1
    let ret (ph : RetPhase) (id : Option Nat) (ctl : Bool) : State :=
      let s := withRec rec5 .retired ph
      s.setFault 5 { (s.ax 5).fault with retCmd := id, retCtl := ctl } |>.advance 1
    let queue (y : EmberWhy) : State := { live with hearth := { live.hearth with queue := [⟨y, [1]⟩], writing := some [1, 2, 3] } }.advance 1
    let resting : State := { live with pwr := { Pwr.reset with phase := .pl0 } }.advance 1
    (u.ax 5).fault.retPhase ≠ .writing ∧
    (((ret .writing (some 0) false).ax 5).fault.retPhase = .writing ∧ ((ret .writing (some 0) false).ax 5).rec? = some rec5 ∧
      ((ret .writing (some 0) false).ax 5).fault.retCmd = some 0 ∧ ((ret .writing none true).ax 5).fault.retCtl = true ∧
      ((ret .writing none false).ax 5).fault.retCmd = none) ∧ (u.ax 5).fault.retPhase ≠ .erasing ∧
    ((ret .erasing (some 0) false).ax 5).fault.retPhase = .erasing ∧
    (∀ y ∈ [EmberWhy.opening 5 0, .closing 5 false, .mark 0, .notice, .kindling, .calset], (queue y).hearth.queue = ⟨y, [1]⟩ :: [] ∧
      (queue y).hearth.writing = some [1, 2, 3] ∧ (queue y).emberWrites = true) ∧
    (u.hearth.queue = [] ∧ u.hearth.writing = none) ∧ (resting.emberWrites = false ∧ resting.fltRuns = false ∧ u.fltRuns = true) ∧
    ((ret .writing none true).emberWrites = true ∧ (ret .erasing none true).emberWrites = true) ∧
    (u.portOpen .host = true ∧ u.locked = false) ∧ ({ u with errPulse := some 4000002 } : State).errPulse = some 4000002 ∧
    u.errPulse = none := by decide +kernel

/-! ## Registers and the host port -/

theorem meets_KeyedRegistersTakeTheirValue :
    let u := live.advance 1
    let en := (energised .holding).setReg (Reg.gdbEnable 0) 1
    let closing (r : Rec) := (withRec r).advance 1
    (u.portOpen .host = true ∧ u.locked = false) ∧ live.Wf ∧
    ((0 : Word).bit 0 = false ∧ (en.advance 1).bit (Reg.gdbEnable 0) 0 = true ∧ (∃ j, (en.advance 1).activeAx (axisOf 0 j) = true)) ∧
    (u.bit (Reg.gdbEnable 0) 0 = false ∧ (∀ j, u.activeAx (axisOf 0 j) = false)) ∧
    ((0x105 : Word).fld 8 3 = 1 ∧ axisNum ((0x105 : Word).fld 0 7) = 5 ∧ (0x10105 : Word).fld 16 16 ≠ 0 ∧
      (0xc3a50305 : Word).fld 16 16 = 0xc3a5 ∧ (0xc3a50305 : Word).fld 8 3 = 3) ∧
    ((u.ax 5).rec? = none ∧ ((closing { rec5 with pending := true }).ax 5).rec? = some { rec5 with pending := true } ∧
      ((closing rec5).ax 5).rec? = some rec5 ∧ (closing rec5).persistsAx 5 rec5 = false ∧ (closing rec5).wirePersists rec5 = false ∧
      rec5.mergedAt ≠ some 4000001 ∧ u.persistsAx 5 { rec5 with mask := 0x10 } = true ∧ ((closing rec5).ax 5).fault.retPhase = .none) ∧
    (u.retiring 5 = false ∧ ((inState .retired).advance 1).retiring 5 = true ∧ ((inState .retired).ax 5).st = .retired ∧
      (u.ax 5).st ≠ .retired) ∧
    (openRec u.modRecs = none ∧ openRec ({ u with modRecs := [rec5] } : State).modRecs = some rec5 ∧ u.persistsMod rec5 = false ∧
      u.persistsMod { rec5 with pairs := [(0, 0x0b)] } = true) ∧ (0 : Word) ≠ ~~~0x105 :=
  ⟨by decide +kernel, live_sound, by decide +kernel⟩

theorem meets_RegisterWritesActAsTheirSpaceSays :
    let u := live.advance 1
    let pend (n : Nat) : State := { u with keyed := u.keyed.set 0 (some ⟨0x3000, 1, n, false⟩) }
    let tagged := (withTags live [open5 .nop .running]).advance 1
    (u.portOpen .host = true ∧ u.locked = false) ∧ (decodeAddr 0x3000 = .reg 0x3000 ∧ keyedReg 0x3000 = true) ∧
    (decodeAddr 0x3040 = .reg 0x3040 ∧ keyedReg 0x3040 = false ∧ complementOf 0x3040 = some 0x3000) ∧
    ((pend 3999744).keyed.get (portIx .host) = some ⟨0x3000, 1, 3999744, false⟩ ∧ 3999744 + 256 < u.tb ∧ u.tb ≤ 3999745 + 256) ∧
    u.keyed.get (portIx .host) = none ∧ ((0x20000480 : Word).bit 29 = true ∧ decodeAddr 0x20000480 = .bit 0x24 0) ∧
    (decodeAddr 0x20060000 = .bit 0x3000 0 ∧ keyedReg 0x3000 = true) ∧
    (decodeAddr 0x200a0180 = .bit Reg.poolLink 0 ∧ u.writeOnly Reg.poolLink = true ∧ keyedReg Reg.poolLink = false ∧
      complementOf Reg.poolLink = none) ∧ u.writeOnly 0x24 = false ∧ complementOf 0x24 = none ∧ keyedReg 0x24 = false ∧
    decodeAddr 0x1000000 = .pool 0 ∧
    (u.fld (Reg.cmdPortcfg 0) 0 16 = 8192 ∧ (32769 : Nat) ≤ 0xffff + (u.fld (Reg.cmdPortcfg 1) 0 16 + u.fld (Reg.cmdPortcfg 2) 0 16) ∧
      1 + (u.fld (Reg.cmdPortcfg 1) 0 16 + u.fld (Reg.cmdPortcfg 2) 0 16) ≤ 32768 ∧ u.bit (Reg.cmdPortcfg 0) 16 = false) ∧
    ((∃ c ∈ tagged.tags, portId c.port = 0) ∧ (∀ c ∈ u.tags, portId c.port ≠ 0)) ∧
    ({ u with locked := true } : State).locked = true ∧ (triplReg 0x3000 = true ∧ u.justWritten 0x3000 = false) := by decide +kernel

theorem not_pool (o : Nat) : decodeAddr 0x80 ≠ .pool o := by
  rw [show decodeAddr 0x80 = .reg 0x80 by decide +kernel]; simp

theorem meets_HostFramesDoWhatTheirOpcodeSays :
    let u := live.advance 1
    u.hostOpen = true ∧ ((pkt []).words.length ≤ 255 ∧ (pkt []).port = .host ∧ (pkt []).src = 0) ∧ (cutPacket [1, 2] = none ∧ [1, 2] ≠ ([] : List Byte)) ∧
    u.hostReads = true ∧ (∀ o, decodeAddr 0x80 ≠ .pool o) ∧ decodeAddr 0x1000000 = .pool 0 ∧ u.hostPulls = true ∧
    (State.reset.hostOpen = false ∧ State.reset.hostReads = false ∧ State.reset.hostPulls = false) :=
  ⟨by decide +kernel, by decide +kernel, by decide +kernel, by decide +kernel, not_pool, by decide +kernel⟩

theorem meets_PoolWindowLinksAndTraceRings :
    let u := blocks.advance 1
    let lent := (owned live 3 0x15 0).advance 1
    let ring := owned live 3 0 0
    let ring := (ring.setBlk 3 { ring.blk 3 with nextv := true, next := 3 }).advance 1
    let buf (b : List TraceItem) : State := { live with rings := live.rings.set 0 ⟨[3], b, 0, 0, false⟩ }.advance 1
    let it : TraceItem := ⟨0, Hdr.module, 5, 3, false, []⟩
    (u.locked = false ∧ u.portOpen .host = true) ∧ live.Wf ∧ (inWindow 0x1000300 = true ∧ inWindow 0x300 = false) ∧
    ((u.blk 3).owner = 0 ∧ (u.blk 4).owner ≠ 0 ∧ u.ecc = []) ∧
    ((u.controls (portId .host) 3 = true ∧ (u.blk 3).inuse = false ∧ ¬(0x10 ≤ (u.blk 3).owner ∧ (u.blk 3).owner ≤ 0x6f)) ∧
      (0x10 ≤ (lent.blk 3).owner ∧ (lent.blk 3).owner ≤ 0x6f)) ∧
    ((3#15).toNat ∉ u.zeroing ∧ (3#15).toNat ∈ ({ u with zeroing := [3] } : State).zeroing) ∧
    (((3 : Word).bit 15 = false ∧ (u.rings.get 0).buf = []) ∧ ((buf [it]).rings.get 0).buf ≠ []) ∧
    ((0x8003 : Word).bit 15 = true ∧ u.ringChain 3 256 3 = none ∧ ring.ringChain 3 256 3 = some [3] ∧ (ring.blk 3).owner = portId .host ∧
      (∀ j : Fin 4, j ≠ 0 → 3 ∉ (ring.rings.get j).chain)) ∧
    (((buf [it]).rings.get 0).buf = it :: [] ∧ ((buf [it]).rings.get 0).closing = false) ∧
    (({ u with ecc := [(1, false)] } : State).ecc = [(1, false)] ∧ ({ u with ecc := [(1, true)] } : State).ecc = [(1, true)]) :=
  ⟨by decide +kernel, live_sound, by decide +kernel⟩

/-! ## Frames, PTP, time and groups -/

/-- A frame from node `src` to node `dst` of another module, whole or with its FCS damaged. -/
def frame (dst src hops : Byte) (typ : Byte := 0xb5) : List Byte :=
  let b : List Byte := List.replicate 12 0 ++ [0x88, typ, 0, dst, 0, src, 0, 1, hops] ++ List.replicate 21 0
  b ++ fcsOf b
def linked : State := (live.setBit (Reg.netPstat 0) 0 true).setReg Reg.netNode 1

theorem meets_FramesAreRoutedByTheirHeader :
    let u := linked.advance 1
    let f := frame 1 2 0
    let dup := { u with netw := { u.netw with dups := (dupStep [] u.tb 2 1).2 } }
    (u.portOpen (netPort 0) = true ∧ u.linkUp 0 = true ∧ (live.advance 1).linkUp 0 = false) ∧
    ((frame 1 2 0).take 45).length < 46 ∧ (46 ≤ f.length ∧ numAt (frame 1 2 0 0xf7) 12 2 = 0x88f7 ∧ numAt f 12 2 = 0x88b5) ∧
    (fcsOf (f.take (f.length - 4)) = f.drop (f.length - 4) ∧ fcsOf ((0 :: f).take (f.length - 3)) ≠ ((0 :: f).drop (f.length - 3)).map (· + 1)) ∧
    ((u.route 1 1 2 1 0).1 = .deliver ∧ (u.route 1 3 2 1 0).1 = .forward ∧ (u.route 1 0x3fff 2 1 0).1 = .both ∧
      (u.route 1 3 2 1 255).1 = .dropHop ∧ (dup.route 1 1 2 1 0).1 = .dropDup) ∧
    (u.nodeFor 64 = 1 ∧ (u.route 1 0 0 1 0).1 = .deliver ∧ (dupStep dup.netw.dups u.tb 2 1).1 = true ∧
      (dupStep u.netw.dups u.tb 2 1).1 = false ∧ u.fld Reg.netTopo 8 8 ≤ 255 ∧ 0 < u.fld Reg.netTopo 8 8) ∧
    ((0x3fff : Word).fld 0 14 = 0x3fff ∧ (5 : Word).fld 0 14 ≠ 0x3fff ∧ u.portOpen .host = true ∧ u.locked = false) := by decide +kernel

/-- Both ports carry PTP; the ordinary clock has a role; in SLAVE it follows node 3 on port 0. -/
def ptpOn (role state : Nat) : State :=
  let s := (linked.setBit (Reg.netPstat 1) 0 true).setFld Reg.netPtpcfg 0 2 role
  let s := ((s.setBit (Reg.netPcfg 0) 3 true).setBit (Reg.netPcfg 1) 3 true).setBit Reg.netTccfg 0 true
  let s := (s.setFld Reg.netPtpcfg 4 8 0).setFld Reg.netPtpstat 0 4 state
  (s.setFld Reg.netPtpstat 4 2 1).modPtp fun t => { t with masters := #v[some ⟨ptpMsg .announce, 4000000⟩, none] }

theorem meets_PtpMessagesAreHeardAnsweredAndPassedOn :
    let u := (ptpOn 1 9).advance 1
    let wait := u.modPtp fun t => { t with sync := some (4, 64000000, 0), req := some (4, 64000000), msDiff := some 0 }
    (u.ptpOpen 0 = true ∧ u.ptpOpen 1 = true ∧ u.ptpRole ≠ 0 ∧ u.onPll = true ∧ (ptpMsg .sync).domain.toNat = u.ptpDomain) ∧
    (live.advance 1).ptpOpen 0 = false ∧ u.fromMaster 0 (ptpMsg .sync) = true ∧ u.fromMaster 1 (ptpMsg .sync) = false ∧
    (u.netw.ptp.sync = none ∧ wait.netw.ptp.sync = some (4, 64000000, 0) ∧ (ptpMsg .followUp).seq = 4 ∧
      ({ ptpMsg .followUp with seq := 5 } : PtpMsg).seq ≠ 4 ∧ u.epoch ≤ (ptpMsg .followUp).sec) ∧
    (wait.netw.ptp.req = some (4, 64000000) ∧ wait.netw.ptp.msDiff = some 0 ∧ wait.fromMaster 0 (ptpMsg .delayResp) = true ∧
      (ptpMsg .delayResp).reqPort ≠ 1) ∧ (u.bit Reg.netTccfg 0 = true ∧ u.isMaster = false) ∧
    (State.reset.up = false ∧ u.up = true ∧ ((ptpOn 2 6).advance 1).isMaster = true ∧
      u.ocMaster = some (0, ptpMsg .announce) ∧ u.ptpState = 9) := by decide +kernel

theorem meets_TheTimeSourceChangesByItsRules :
    let u := live.advance 1
    let pend (r : Nat) : State := (live.modServo fun v => { v with pend := some (1, r) }).advance 1
    let slave (n : Nat) : State := ((ptpOn 1 9).modPtp fun t => { t with lastPair := n }).advance 1
    let listens (n : Nat) : State := ((ptpOn 2 4).modPtp fun t => { t with lastAnn := n }).advance 1
    let away (t : Nat) : State := ((ptpOn 1 9).modServo fun v => { v with away := true, heldSince := some t }).modPtp fun t => { t with good := 8 }
    u.locked = false ∧ u.netw.servo.pend = none ∧
    ((pend 3600000).netw.servo.pend = some (1, 3600000) ∧ gridAt 400000 3600000 + 400000 ≤ (pend 3600000).net ∧
      (pend 4000000).net < gridAt 400000 4000000 + 400000 ∧ (pend 0).netw.servo.source ≠ 2) ∧
    (u.portOpen .host = true ∧ u.netw.servo.unset = true ∧ (u.modServo fun v => { v with unset := false }).netw.servo.unset = false) ∧
    ((slave 0).up = true ∧ (slave 0).ptpState = 9 ∧ (slave 0).bestMaster ≠ none ∧ (slave 0).ocMaster ≠ none ∧
      (slave 4000001).tb < (slave 4000001).netw.ptp.lastPair + 4 * (slave 0).syncTicks) ∧
    ((listens 0).ptpState = 4 ∧ (listens 0).ptpRole = 2) ∧ u.netw.servo.heldSince = none ∧
    ((away 0).netw.servo.heldSince = some 0 ∧ (away 0).netw.servo.away = true ∧ (away 0).ptpState = 9 ∧ (away 0).netw.ptp.good = 8) := by
  decide +kernel

/-- What takes seconds, at a later time. -/
theorem meets_what_takes_seconds :
    let at_ (s : State) : State := { s with tb := 8000000000, net := 8000000000 }.advance 1
    let slave := at_ (ptpOn 1 9)
    let listens := at_ (ptpOn 2 4)
    (slave.netw.ptp.lastPair + 4 * slave.syncTicks ≤ slave.tb ∧ listens.netw.ptp.lastAnn + listens.annTicks ≤ listens.tb ∧
      0 + 2 * tickHz ≤ slave.tb) ∧ (slave.dropMasters.netw.ptp.masters.get 0).isNone = true ∧ (slave.netw.ptp.masters.get 0).isSome = true := by
  decide +kernel

theorem meets_CommittedMembersStartTogetherOrWithdraw :
    let m := { member2 .committed with start := some 0, at_ := 4000001 }
    let in_ (s : State) (m : Member) : State := (s.setMembers [m]).advance 1
    let ready := withTags (inState .holding) [stagedMove]
    (live.advance 1).member 2 = none ∧ ((in_ live (member2 .armed)).member 2 = some (member2 .armed) ∧ (member2 .armed).st ≠ .committed) ∧
    ((in_ live { m with within := false }).member 2 = some { m with within := false }) ∧
    ((in_ live m).member 2 = some m ∧ m.within = true ∧ (in_ live m).stagedOk 5 = false ∧ 5 ∈ m.list) ∧
    ((∀ a ∈ m.list, (in_ ready m).stagedOk a = true ∧ ((in_ ready m).ax a).hasRec = false) ∧ m.at_ ≤ (in_ ready m).net ∧
      (in_ ready m).net < ({ m with at_ := 4000002 } : Member).at_) := by decide +kernel

/-! ## Clocks -/

/-- `live` with the clock unit changed, some bits of CLK.STAT, and a cycle later. -/
def clocks (stat : Word) (f : Clk → Clk) : State := ((live.modClk f).setReg Reg.clkStat stat).advance 1

/-- A planned switch at a step that began at tick `t`. -/
def switching (toPll : Bool) (step : Nat) (back : Bool) (t : Nat) : State :=
  clocks 3 fun k => { k with sw := some ⟨toPll, step, back, t⟩ }

/-- `live` with a change of level that PWR.REQ asked for, a cycle later. -/
def changing (target : Nat) (st : ChStage) (at_ : Nat) : State := (live.setChange ⟨target, st, at_, none, true⟩).advance 1

theorem meets_ClocksLockAndSwitchStepByStep :
    let u := live.advance 1
    let locked := clocks 4 fun k => { k with locking := true }
    let rests (w : State) : Prop := w.onPll = true ∨ w.clk.sw ≠ none ∨ w.clk.locking = true ∨ w.pwr.phase = .pl0
    let free := clocks 0 id
    let gone := clocks 0 fun k => { k with lost := true }
    let lost (t : Nat) := clocks 4 fun k => { k with lost := true, goodSince := some t }
    ((u.refDue = true ∧ ((live.modClk fun k => { k with measAt := 4000000 }).advance 1).refDue = false) ∧
      rests u ∧ free.refDue = true ∧ ¬rests free ∧ free.clk.lost = false ∧ refOf 100 = some (1, 40) ∧ refOf 0 = none ∧
      ¬rests gone ∧ gone.refDue = true ∧ gone.clk.lost = true) ∧
    (u.clk.locking = false ∧ (clocks 0 fun k => { k with locking := true }).clk.locking = true) ∧
    ((switching true 7 false 3999000).clk.sw = some ⟨true, 7, false, 3999000⟩ ∧ (switching true 7 false 3999000).tb < 3999000 + 20000) ∧
    ((switching true 7 false 0).clk.sw = some ⟨true, 7, false, 0⟩ ∧ 0 + 20000 ≤ (switching true 7 false 0).tb ∧ 7 + 1 ≠ 16) ∧
    ((switching true 15 false 0).clk.sw = some ⟨true, 15, false, 0⟩ ∧ (switching false 15 false 0).clk.sw = some ⟨false, 15, false, 0⟩ ∧
      (switching false 15 false 0).pwr.change = none ∧
      ((switching false 15 false 0).setChange ⟨0, .deep, 0, none, true⟩).pwr.change = some ⟨0, .deep, 0, none, true⟩) ∧
    ((switching true 8 true 0).clk.sw = some ⟨true, 8, true, 0⟩ ∧ (switching true 1 true 0).clk.sw = some ⟨true, 1, true, 0⟩ ∧
      0 + 20000 ≤ (switching true 1 true 0).tb) ∧
    ((changing 2 .ramp 0).clk.sw = none ∧ (changing 2 .ramp 0).ramping = true ∧ u.ramping = false ∧ u.pwr.change = none ∧
      (locked.clk.sw = none ∧ locked.clk.locking = true ∧ locked.bit Reg.clkStat 2 = true ∧ locked.ramping = false) ∧
      (changing 0 .deep 0).clk.locking = false ∧ (changing 0 .deep 0).ramping = false ∧
      (changing 0 .deep 0).pwr.change = some ⟨0, .deep, 0, none, true⟩) ∧
    u.clk.goodSince = none ∧
    ((lost 0).clk.goodSince = some 0 ∧ (lost 0).clk.lost = true ∧ (lost 0).onPll = false ∧ (lost 0).clk.sw = none ∧
      (lost 0).clk.locking = false ∧ 0 + 4000000 ≤ (lost 0).tb ∧ (lost 3999999).clk.goodSince = some 3999999 ∧
      ¬(3999999 + 4000000 ≤ (lost 3999999).tb)) := by decide +kernel

theorem meets_ClockLossRcWatchAndGatesAct :
    let u := live.advance 1
    let bad (t : Option Nat) := clocks 0x21 fun k => { k with rcGood := t }
    let slow := (live.setFld Reg.pwrLevel 0 2 1).advance 1
    let busy := (inState .holding).advance 1
    let late := clocks 1 fun k => { k with rcAt := 4000000 }
    (u.locked = false ∧ u.portOpen .host = true ∧ slow.portOpen .host = true) ∧
    (((1 : Fin 4) ≠ 0 ∧ u.bit Reg.clkStat 5 = false ∧ u.pwr.phase = .running) ∧ (bad none).bit Reg.clkStat 5 = true) ∧
    u.clk.sw = none ∧ (switching true 3 true 0).clk.sw = some ⟨true, 3, true, 0⟩ ∧
    ((switching false 3 false 0).clk.sw = some ⟨false, 3, false, 0⟩ ∧ (switching false 3 false 0).bit Reg.clkStat 5 = false) ∧
    ((switching true 3 false 0).clk.sw = some ⟨true, 3, false, 0⟩ ∧ (2 : Fin 4) ≠ 1 ∧
      (switching true 0 false 0).clk.sw = some ⟨true, 0, false, 0⟩) ∧
    ((clocks 0 id).onPll = false ∧ u.onPll = true ∧ (bad none).onPll = true ∧ (bad none).clk.rcGood = none ∧
      (bad (some 0)).clk.rcGood = some 0 ∧ (bad (some 0)).bit Reg.clkStat 5 = true) ∧
    (u.clk.rcAt + 400000 ≤ u.tb ∧ late.tb < late.clk.rcAt + 400000) ∧
    (((0 : Fin 3) ≠ 2 ∧ (slow.cancel .host).gateInForce 0 = false ∧ (busy.cancel .host).gateInForce 0 = true) ∧
      (∀ i < 11, ((0x7ff : Word).bit i = false → (u.cancel .host).gateRefused .host i = true →
        ((u.cancel .host).reg (Reg.clkGateRun + 4 * 0)).bit i = false)) ∧
      (5 < 11 ∧ (0 : Word).bit 5 = false ∧ (busy.cancel .host).gateRefused .host 5 = true ∧
        ((busy.cancel .host).reg (Reg.clkGateRun + 4 * 0)).bit 5 = true)) := by decide +kernel

/-! ## Kindling, performance levels, shutdown and the Hearth -/

/-- `live` in another phase of the supply. -/
def inPhase (p : PwrPhase) : State := { live with pwr := { live.pwr with phase := p } }

theorem meets_KindlingsStartAndKeepWhatTheyMay :
    let entering (stat : Word) (sw : Option ClkSw) : State :=
      (((inPhase .entering).modClk fun k => { k with sw := sw }).setReg Reg.clkStat stat).advance 1
    ((State.reset.advance 1).pwr.phase = .unpowered ∧ ((inPhase .waiting).advance 1).pwr.phase = .waiting ∧
      ((inPhase .shutdown).advance 1).pwr.phase = .shutdown ∧ ((inPhase .held).advance 1).pwr.phase = .held) ∧
    ((live.advance 1).pwr.phase ≠ .unpowered ∧ (live.advance 1).pwr.phase ≠ .shutdown ∧ (live.advance 1).pwr.phase ≠ .waiting) ∧
    ((live.advance 1).pwr.wakeHigh = false ∧ ((inPhase .pl0).advance 1).pwr.phase = .pl0 ∧
      ((inPhase .pl0).advance 1).pwr.wakeHigh = false) ∧
    ((entering 0 none).pwr.phase = .entering ∧ (entering 0 none).pwr.wakeHigh = false ∧ (entering 0 none).clk.sw.isSome = false ∧
      (entering 4 none).bit Reg.clkStat 2 = true ∧ (entering 0 (some ⟨false, 3, false, 0⟩)).clk.sw.isSome = true) ∧ live.Wf ∧
    (1 ≠ 0 ∧ (live.modPwr fun p => { p with snapOk := true }).pwr.snapOk = true) :=
  ⟨by decide +kernel, by decide +kernel, by decide +kernel, by decide +kernel, live_sound, by decide +kernel⟩

/-- A boot image without packets: magic, header version 1, module 0x9600, length 36, and its CRC-32C (Table 16-4). -/
def goodImage : List Byte :=
  [0x1a, 0x5e, 0x96, 0x00, 1, 0, 0x96, 0x00, 0, 0, 0, 36] ++ List.replicate 20 0 ++ [0x86, 0xf5, 0xbd, 0x81]

theorem good_image : imagePackets goodImage = some [] := by
  have h : numAt (imageBytes goodImage 32) 0 4 = 0x1a5e9600 ∧ numAt (imageBytes goodImage 32) 4 1 = 1 ∧
      numAt (imageBytes goodImage 32) 6 2 = 0x9600 ∧ numAt (imageBytes goodImage 32) 8 4 = 36 ∧
      numAt (imageBytes goodImage 32) 18 1 = 0 ∧ numAt (imageBytes goodImage 32) 19 1 = 0 ∧
      (crc32c ((imageBytes goodImage 36).take 32)).toNat = numAt (imageBytes goodImage 36) 32 4 ∧
      numAt (imageBytes goodImage 32) 12 4 = 0 ∧ splitPackets 0 [] = some [] := by
    decide +kernel
  obtain ⟨h1, h2, h3, h4, h5, h6, h7, h8, h9⟩ := h
  simp only [imagePackets, h1, h2, h3, h4, h5, h6]
  simp [h7, h8, h9]

theorem no_image : imagePackets [] = none := by
  have h : numAt (imageBytes [] 32) 0 4 ≠ 0x1a5e9600 := by decide +kernel
  simp [imagePackets, h]

/-- In step `n` of a Kindling, one cycle on. -/
def kindling (n : Nat) (stat : Word) (b : Boot) : State :=
  ((((inPhase .kindling).setStep n).setReg Reg.clkStat stat).modPwr fun p => { p with boot := b }).advance 1

theorem meets_KindlingGoesOnStepByStep :
    let b (packets : List (List Byte)) (waiting ended : Bool) : Boot := ⟨packets, 0, false, waiting, false, ended, []⟩
    ((kindling 1 0 (b [] false false)).pwr.phase = .kindling ∧ (kindling 1 0 (b [] false false)).kstep = 1 ∧
      (kindling 1 0 (b [] false false)).kstep ≠ 5) ∧
    ((kindling 4 0x41 (b [] false false)).kstep = 4 ∧ (kindling 4 0x41 (b [] false false)).bit Reg.clkStat 6 = true ∧
      (kindling 4 1 (b [] false false)).bit Reg.clkStat 6 = false) ∧
    ((kindling 5 0 (b [] false false)).booting = true ∧ (kindling 5 0 (b [] false false)).pwr.boot.waiting = false ∧
      (kindling 5 0 (b [] false false)).pwr.boot.packets = [] ∧ (live.advance 1).booting = false) ∧
    (imagePackets goodImage = some [] ∧ imagePackets [] = none) ∧
    ((kindling 5 0 (b [[]] false false)).booting = true ∧ (kindling 5 0 (b [[]] false false)).bootAccount.pwr.boot.packets = [] :: [] ∧
      (kindling 5 0 (b [[]] false false)).bootAccount.pwr.boot.waiting = false ∧
      (kindling 5 0 (b [[]] false false)).bootAccount.pwr.boot.ended = false) ∧
    ((kindling 5 0 (b [] false true)).pwr.phase = .kindling ∧ (kindling 5 0 (b [] false true)).kstep = 5 ∧
      (kindling 5 0 (b [] false true)).bootAccount.pwr.boot.ended = true) :=
  ⟨by decide +kernel, by decide +kernel, by decide +kernel, ⟨good_image, no_image⟩, by decide +kernel, by decide +kernel⟩

theorem meets_PerformanceLevelsChangeInStages :
    let u := live.advance 1
    let at_ (n : Nat) : State := ((live.setFld Reg.pwrLevel 0 2 n).setFld Reg.pwrCeil 0 2 3).advance 1
    let req (n l : Nat) : State := ((at_ n).cancel .host).setFld Reg.pwrReq 0 2 l
    (u.locked = false ∧ u.portOpen .host = true ∧ (at_ 1).portOpen .host = true ∧ (at_ 3).portOpen .host = true) ∧
    ((0 : Word).bit 2 = false ∧ (7 : Word).bit 2 = true ∧ (7 : Word).fld 0 2 = 3 ∧ (4 : Word).fld 0 2 = 0) ∧
    ((live.setFld Reg.pwrCeil 0 2 1).levelCheck 2 = some .outOfRange ∧ (changing 2 .ramp 0).levelCheck 1 = some .stateRefused) ∧
    ((req 3 3).levelCheck 3 = none ∧ (req 3 3).level = 3 ∧ (req 1 3).levelCheck 3 = none ∧ (req 1 3).level < 3 ∧
      (req 3 2).levelCheck 2 = none ∧ 2 < (req 3 2).level ∧ (req 3 1).levelCheck 1 = none ∧ 1 < (req 3 1).level ∧
      (req 3 0).levelCheck 0 = none ∧ 0 < (req 3 0).level) ∧
    (1 < 2 ∧ ((live.setFld Reg.pwrCeil 0 2 1).fld Reg.pwrCeil 0 2 = 1) ∧ 3 ≤ (at_ 3).fld Reg.pwrCeil 0 2 ∧ (at_ 3).pwr.change = none ∧
      ((inState .holding).mayLower = false ∧ (at_ 3).mayLower = true) ∧ (at_ 3).bit Reg.clkStat 5 = false ∧ (at_ 3).pwr.wakeHigh = false) ∧
    ((State.reset.advance 1).up = false ∧ u.up = true ∧ (changing 3 .vcore 0).pwr.change = some ⟨3, .vcore, 0, none, true⟩ ∧
      ((at_ 2).setBit Reg.pwrStat 0 true).level = 2 ∧ (u.setBit Reg.pwrStat 0 true).level ≠ 2) ∧
    (u.pwr.change = none ∧ (changing 2 .ramp 0).pwr.change = some ⟨2, .ramp, 0, none, true⟩ ∧ (changing 2 .ramp 0).clk.sw = none ∧
      0 + 20000 ≤ (changing 2 .ramp 0).tb ∧ (changing 2 .ramp 3999999).tb < 3999999 + 20000 ∧
      (changing 2 .last 0).pwr.change = some ⟨2, .last, 0, none, true⟩) ∧
    (u.pwr.phase ≠ .entering ∧ ((inPhase .entering).advance 1).pwr.phase = .entering ∧ ((inPhase .entering).advance 1).clk.sw = none ∧
      ((inPhase .entering).advance 1).pwr.since + 400000 ≤ ((inPhase .entering).advance 1).tb) := by decide +kernel

theorem meets_ShutdownAndHearthFollowTheirRules :
    let u := live.advance 1
    let down (t : Nat) : State := ({ live with pwr := { live.pwr with phase := .shutdown, since := t } }).advance 1
    let hearth (onMain lost : Bool) : State := { live with hearth := { live.hearth with onMain := onMain, lost := lost } }.advance 1
    (u.locked = false ∧ u.portOpen .host = true) ∧ live.Wf ∧
    ((State.reset.advance 1).pwr.phase = .unpowered ∧ u.pwr.phase ≠ .unpowered ∧ u.pwr.phase ≠ .shutdown ∧ u.pwr.phase ≠ .waiting) ∧
    (u.pwr.phase ≠ .shutdown ∧ (down 0).pwr.phase = .shutdown ∧ (down 0).pwr.since + 20000 ≤ (down 0).tb ∧
      (down 4000000).tb < (down 4000000).pwr.since + 20000) ∧
    ((hearth true false).hearth.onMain = true ∧ (hearth false false).hearth.onMain = false ∧ (hearth true true).hearthOn = true ∧
      (hearth false true).hearthOn = false) ∧
    ((live.setBit Reg.hrtCalctl 1 false).advance 1).bit Reg.hrtCalctl 1 = false ∧
    ((live.setFld Reg.hrtRamaddr 14 2 1).fld Reg.hrtRamaddr 14 2 ≠ 0 ∧ (u.cancel .host).fld Reg.hrtRamaddr 14 2 = 0) :=
  ⟨by decide +kernel, live_sound, by decide +kernel⟩

/-! ## Single clauses

What a clause of a statement asks for where the theorem above of that name shows another clause's. -/

/-- Every unit is gated at PL2 and PL3. -/
def gated : State := (live.setReg Reg.clkGateRun 0).advance 1

theorem meets_units_that_are_gated_or_clocked : (∀ i ∈ [3, 4, 5, 6, 7, 8, 9, 10], gated.gateOn i = false ∧ (live.advance 1).gateOn i = true) ∧
    gated.guySync.gateOn 6 = false ∧ (gated.gridRelease 5).gateOn 7 = false ∧ gated.gatedOff .segAppend = true ∧
    gated.resting = false ∧ gated.up = true := by decide +kernel

/-- What waits at the head of a queue, under each verdict; a second motion command on an axis with a staged one. -/
theorem meets_heads_of_queues :
    let q (st : AxState) : State := (withTags (inState st) [{ open5 .axisEnergise .queued with stamp := 4000001, due := 4000001 }]).advance 1
    let two : State := (withTags (inState .holding) [stagedMove, { open5 .moveAbs .queued 1 with stamp := 4000001, due := 4000001 }]).advance 1
    let v (c : Cmd) := (two.setCmd (two.taken c)).promote 5
    (∀ st, ((q st).queueHead 5).isSome = true ∧ (q st).resting = false) ∧ (q .ready).verdict 5 .axisEnergise = .ok ∧
    (q .off).verdict 5 .axisEnergise = .refused ∧ (q .faulted).verdict 5 .axisEnergise = .faulted ∧
    (q .retired).verdict 5 .axisEnergise = .retired ∧ (q .diag).verdict 5 .axisEnergise = .waits ∧
    ((two.queueHead 5).map fun c => (two.verdict 5 c.op, (v c).stagedRefuses 5 c.op)) = some (.ok, true) :=
  ⟨fun st => by cases st <;> decide +kernel, by decide +kernel⟩

/-- A table that pauses at its end: awaited, by a WAIT_STAMP passed over, and by one of an entry still to come. -/
theorem meets_tables_that_wait :
    let g := restSeg 4000000 1
    let end_ (r : Run) : State :=
      let s := then5 fun x => { x with st := .moving, pro := { x.pro with segs := [g], motion := .table 0, run := some r } }
      (s.popSeg 5 g).passWait 5
    let w : WaitRec := ⟨5000000, 7, 3, 0, []⟩
    (∀ r ∈ [{ run0 with awaits := true }, { run0 with wait := [w] }, { run0 with fetched := [{ fetched0 with wait := [w, w] }] }],
      ((end_ r).ax 5).pro.finished = false ∧ ((end_ r).ax 5).pro.motion = .table 0 ∧ ((end_ r).ax 5).pro.run = some r) ∧
    g.endState.2 = 0 ∧ (end_ run0).net < waitEnd [w] ∧ (end_ run0).net < waitEnd [w, w] := by decide +kernel

/-- Grid setpoints: due, gone ahead of their instant, gone and passed. -/
theorem meets_grid_setpoints :
    let chp (f : Chp → Chp) : State := then5 fun x => { x with chp := f x.chp }
    let c (s : State) := (s.ax 5).chp
    let u0 := chp id
    (chp id).gateOn 5 = true ∧
    ((c (chp fun c => { c with gridSent := 4000000 })).lastGrid < 4000000 ∧ (c (chp fun c => { c with gridSent := 4000000 })).gridSent = 4000000) ∧
    ((c (chp id)).gridSent ≤ (c (chp id)).lastGrid ∧ (c (chp id)).gridSent < 4000000) ∧
    (4000000 ≤ (c (chp fun c => { c with gridSent := 4020000 })).gridSent ∧
      (chp id).net < (c (chp fun c => { c with gridSent := 4020000 })).gridSent) ∧
    ((chp id).net + 112) / 20000 * 20000 = 4000000 ∧ (u0.gridUnwait 5 (u0.edgeDue 5)) = u0 ∧ (c u0).gridSent < 4000000 ∧
    4000000 ≤ (c (chp fun c => { c with gridSent := 4000000, lastGrid := 4000000 })).gridSent := by decide +kernel

/-- Loads of a current table that end badly: the block is free, and a double-bit error is in it. -/
theorem meets_table_loads_that_fail :
    let s := blocks.setChp 5 { (blocks.ax 5).chp with load := some 3, swapAfter := some Hdr.module }
    let bad : State := { s with ecc := [(3 * 32, true)] }.advance 1
    bad.gateOn 5 = true ∧ (bad.ax 5).chp.load = some 3 ∧ (State.eccReads 32 (3 * 32) bad).1 = true ∧ (s.blk 7).owner = 0xff ∧
    (s.ax 5).chp.swapAfter = some Hdr.module := by decide +kernel

/-- A sample, a staged command and a mode, once a grid setpoint that is due has gone. -/
theorem meets_axes_after_the_grid :
    let sampled := (then5 fun x => { x with sample := some sample0 }).gridRelease 5
    let w (s : State) := (s.cancel .host).gridRelease 5
    let closed := ((energised .holding).setReg (loopPar 5 0) 0x55402).advance 1
    (sampled.gateOn 7 = true ∧ (sampled.ax 5).sample = some sample0 ∧ (((live.advance 1).gridRelease 5).ax 5).sample = none) ∧
    ((w staged5).staged 5 = true ∧ (0x1800 : Word).fld 11 2 ≠ (w staged5).fld (Reg.chpCfg 5) 11 2 ∧ (w (live.advance 1)).staged 5 = false) ∧
    (((w (live.advance 1)).loopCfg 5).mode = 0 ∧ ((w closed).loopCfg 5).mode = 2 ∧ ((w closed).loopCfg 5).fbd ≠ 0 ∧
      (w closed).modeFree 5 = true ∧ (w ((inState .moving).advance 1)).modeFree 5 = false ∧
      (w ((inState .moving).advance 1)).staged 5 = false) := by decide +kernel

/-- The detectors of an axis in a diagnostic, and its test pulses. -/
theorem meets_diagnostics_under_way :
    let diag (k : Bool) (id : Option Nat) (ps : List (BitVec 8 × Bool) := []) := then5 fun x => { x with
      st := .diag, diagOn := true, diagKind := k, diagCmd := id, diagVg := true, diagBus := 0xfff, diagPulses := ps }
    let legs : Vector LegMeas 4 := Vector.replicate 4 ⟨0, 0xfff, 0, 0, true⟩
    let coils : Vector CoilMeas 2 := Vector.replicate 2 ⟨0, 0, 5000⟩
    let ok (s : State) (g : BitVec 8) : Bool := (s.gatesOff 5).pulseOk 5 legs coils g
    let hard (s : State) : State := s.setTile 5 { s.tile 5 with hard := 1 }
    let second (s : State) : State := s.setTile 5 { s.tile 5 with autoDiag := #v[none, some 0x06] }
    (((diag false (some 0)).ax 5).diagOn = true ∧ ((diag true none).ax 5).diagKind = true ∧ ((live.advance 1).ax 5).diagOn = false) ∧
    (ok (diag false (some 0)) 0x01 = true ∧ ok (hard (diag false (some 0))) 0x01 = false ∧ ok (diag false (some 0)) 0x03 = false ∧
      ok (diag false (some 0) [(0x02, true)]) 0x08 = false ∧ ok (diag false (some 0) [(0x01, false)]) 0x02 = false) ∧
    (((second live).tile 5).autoDiag.get 1 = some 0x06 ∧ ((second live).tile 5).autoDiag.get 0 = none) := by decide +kernel

/-- The automatic test of coil A waits: a gate is on. -/
theorem meets_a_test_that_waits :
    let s := driving fun t => { t with cmd := 2, onSince := t.onSince.set 1 (some 0), autoDiag := #v[some 0x05, none] }
    (s.tile 5).autoDiag.get 0 = some 0x05 ∧ s.gateLevel 5 1 = true :=
  ⟨by decide +kernel, gate_on (by decide +kernel) (by decide +kernel) (by decide +kernel) (by decide +kernel)⟩

/-- EXTEST and the links; a bank with no energised axis. -/
theorem meets_links_and_scans :
    let u := live.advance 1
    let e : State := { u with extest := true }
    (e.extest = true ∧ e.gateOn 10 = true ∧ u.extest = false ∧ gated.gateOn 10 = false) ∧
    ((u.bank 0).killBad = false ∧ ((u.setBank 0 { u.bank 0 with killBad := true }).bank 0).killBad = true) ∧
    ((0#4).toNat < 2 ∧ (1#4).toNat < 2 ∧ 2 ≤ (2#4).toNat) ∧
    (∀ j, ((u.busCode 0 0).ax (axisOf 0 j)).energised = false) ∧ (∃ j, (((energised .holding).busCode 0 0).ax (axisOf 0 j)).energised = true) ∧
    (49 < 50 ∧ gateOn5.drven = true) := by decide +kernel

/-- A retry whose conditions hold but one. -/
theorem meets_retries_that_wait :
    let s (r : Rec) (f : AxFault → AxFault) : State := ((withRec r).setFault 5 (f ((withRec r).ax 5).fault)).advance 1
    ({ rec5 with backoff := none } : Rec).backoff = none ∧ ((s { rec5 with backoff := none } id).ax 5).rec? = some { rec5 with backoff := none } ∧
    ((s { rec5 with pending := true } id).ax 5).rec? = some { rec5 with pending := true } ∧
    ((s rec5 fun f => { f with acting := true }).ax 5).fault.acting = true ∧ ((s rec5 fun f => { f with ss1 := some 9 }).ax 5).fault.ss1 ≠ none ∧
    (s rec5 id).persistsAx 5 { rec5 with mask := 0x10 } = true ∧
    ({ s rec5 id with broken := 1 } : State).wirePersists { rec5 with mask := 2 ^ 0x2f } = true ∧
    ((s rec5 id).ax 5).fault.ss1 = none := by decide +kernel

/-- Entries that wait where the Hearth may not write, and what ERRPIN's writes meet. -/
theorem meets_ember_and_err_pin_in_every_phase :
    let u := live.advance 1
    let at_ (p : PwrPhase) : State := (inPhase p).advance 1
    (u.emberWrites = true ∧ (at_ .pl0).emberWrites = false ∧ u.hearth.queue = []) ∧
    ({ u with locked := true } : State).locked = true ∧ (at_ .unpowered).portOpen .host = false ∧
    ((u.cancel .host).errPulse = none ∧ (u.cancel .host).pwr.phase = .running ∧ ((at_ .entering).cancel .host).pwr.phase ≠ .running) ∧
    (u.tb < 4000002 ∧ u.bit Reg.fltErrpin 1 = false ∧ (u.setFld Reg.fltErrpin 1 2 3).bit Reg.fltErrpin 1 = true ∧
      (u.setFld Reg.fltErrpin 1 2 3).bit Reg.fltErrpin 2 = true) ∧
    (((withRec rec5 .retired .writing).ax 5).hasRec = true ∧ ((inState .retired).ax 5).hasRec = false) := by decide +kernel

/-- AXCTL's checks: a record that has just merged, one that persists, and a retirement under way. -/
theorem meets_checks_of_axctl :
    let s (r : Rec) (p : RetPhase) : State := (withRec r .faulted p).advance 1
    ({ rec5 with mergedAt := some 4000001 } : Rec).mergedAt = some (s rec5 .none).tb ∧
    (s { rec5 with mask := 0x10 } .none).persistsAx 5 { rec5 with mask := 0x10 } = true ∧
    ((s rec5 .stopping).ax 5).fault.retPhase ≠ .none ∧ (s rec5 .stopping).retiring 5 = true ∧
    ({ s rec5 .none with modRecs := [{ rec5 with pending := true }] } : State).modRecs = [{ rec5 with pending := true }] := by decide +kernel

/-- The host port: a keyed write that waits, an ingress buffer with room and without, and a first word that is late. -/
theorem meets_the_ingress_buffer :
    let u := live.advance 1
    let p := requestBytes .nop (pkt [])
    let room : State := u
    let full : State := { u with ingress := List.replicate 64 (List.replicate 64 0) }
    let pend : State := { u with keyed := u.keyed.set 0 (some ⟨0x3000, 1, 4000001, false⟩) }
    (u.ingress = [] ∧ cutPacket p = some (p, []) ∧ p.length = 20) ∧
    (4096 < (full.ingress.map List.length).sum + p.length ∧ full.ingress.length ≤ 64) ∧
    ((room.ingress.map List.length).sum + p.length ≤ 4096 ∧ room.ingress.length < 1) ∧
    (room.ingress.length = 0 ∧ room.ingress ++ [p] = p :: []) ∧
    (pend.locked = false ∧ pend.keyed.get (portIx .host) = some ⟨0x3000, 1, 4000001, false⟩ ∧ u.keyed.get (portIx .host) = none) ∧
    ([0, 0, 0, 0].length % 4 = 0 ∧ cutPacket [0, 0, 0, 0] = none ∧ [0].length % 4 ≠ 0 ∧ cutPacket [0] = none) ∧
    (0 * 8 * 20 < min 60 100 ∧ ¬2 * 8 * 20 < min 60 100) := by decide +kernel

/-- A ring that closes; a block that another ring holds; two errors of a scrub. -/
theorem meets_rings_that_close :
    let it : TraceItem := ⟨0, Hdr.module, 5, 3, false, []⟩
    let s : State := { live with rings := live.rings.set 0 ⟨[3], [it], 0, 0, true⟩ }.advance 1
    (s.rings.get 0).buf = it :: [] ∧ (s.rings.get 0).closing = true ∧ 3 ∈ (s.rings.get 0).chain := by decide +kernel

/-- Ports with auto-negotiation, without, in SGMII and off. -/
theorem meets_modes_of_ports :
    let port (m : Nat) (an : Bool) : State := ((linked.setFld (Reg.netPcfg 0) 0 2 m).setBit (Reg.netPcfg 0) 2 an).advance 1
    (port 1 true).portMode 0 = 1 ∧ (port 2 true).portMode 0 = 2 ∧ (port 0 true).portMode 0 = 0 ∧ (port 2 true).bit (Reg.netPcfg 0) 2 = true ∧
    (port 2 false).bit (Reg.netPcfg 0) 2 = false ∧ (port 2 true).linkUp 0 = true ∧ (live.advance 1).linkUp 0 = false := by decide +kernel

/-- PTP: a message of no kind of its own, a one-step Sync, a time before the epoch, and a Delay_Req that is not due. -/
theorem meets_ptp_messages_apart :
    let u := (ptpOn 1 9).advance 1
    let asked (t : Nat) : State := ((ptpOn 1 9).modPtp fun p => { p with reqAt := some t }).advance 1
    (ptpMsg .other).kind = .other ∧ ({ ptpMsg .sync with twoStep := false } : PtpMsg).twoStep = false ∧
    (ptpMsg .followUp).sec < (u.setReg Reg.timeEpochLo 6).epoch ∧ u.netw.ptp.reqAt = none ∧
    ((asked 4000000).tb < 4000000 + (asked 4000000).dreqTicks) ∧ (asked 0).netw.ptp.reqAt = some 0 := by decide +kernel

/-- A lock under way on the multiplier measured, and on another; every line calibrated; a switch that falls back on the PLL. -/
theorem meets_locks_and_rounds :
    let s : State := (((live.modClk fun k => { k with locking := true }).setReg Reg.clkStat 0).setFld Reg.clkRef 4 3 1).advance 1
    let all : State := { live with banks := live.banks.map fun b : Bank => { b with calibrated := BitVec.allOnes 61 } }.advance 1
    let back : State := ((live.modClk fun k => { k with sw := some ⟨true, 9, true, 0⟩ })).advance 1
    (s.onPll = false ∧ s.clk.locking = true ∧ 1 = s.fld Reg.clkRef 4 3 ∧ 2 ≠ s.fld Reg.clkRef 4 3) ∧
    (all.onPll = true ∧ all.clk.sw = none ∧ (∀ b : BankId, (all.bank b).calibrated = BitVec.allOnes 61) ∧
      ¬∀ b : BankId, (live.bank b).calibrated = BitVec.allOnes 61) ∧
    (back.onPll = true ∧ back.clk.sw = some ⟨true, 9, true, 0⟩) := by decide +kernel

/-- nRESET held with VIN_L lost and with it there; a snapshot that has lost an item. -/
theorem meets_resets_that_wait_for_the_supply :
    let held (v : Bool) : State := ((inPhase .held).modPwr fun p => { p with vinOk := v }).advance 1
    let st : Straps := { Pwr.reset.straps with snapLost := [lockItem] }
    ((held true).pwr.phase = .held ∧ (held true).pwr.vinOk = true ∧ (held false).pwr.vinOk = false) ∧
    (lockItem ∈ st.snapLost ∧ Reg.clkLoss ∉ st.snapLost) := by decide +kernel

/-- The boot: no source, or one; the step after it. -/
theorem meets_boots_with_and_without_a_source :
    let src (n : Nat) : State := (kindling 4 0x41 Boot.reset).setFld Reg.pwrBoot 0 2 n
    ((src 0).fld Reg.pwrBoot 0 2 = 0 ∧ (src 1).fld Reg.pwrBoot 0 2 = 1 ∧ (src 2).fld Reg.pwrBoot 0 2 = 2 ∧
      (src 3).fld Reg.pwrBoot 0 2 = 3) ∧
    ((kindling 6 0 Boot.reset).kstep = 6 ∧ (kindling 6 0 Boot.reset).pwr.phase = .kindling ∧ (kindling 6 0 Boot.reset).booting = false) := by
  decide +kernel

/-- The gating register of the level that is entered: a unit whose gate it would close is in use, or none is. -/
theorem meets_gates_of_a_level :
    let busy := (inState .holding).advance 1
    let shut := busy.setReg Reg.clkGateRun 0x7df
    (2 ≤ shut.clockLevel ∧ 5 < 11 ∧ shut.bit Reg.clkGateRun 5 = false ∧ shut.gateRefused .boot 5 = true) ∧
    (∀ i < 11, busy.bit Reg.clkGateRun i = true) ∧ (live.setReg Reg.pwrLevel 1).clockLevel ≤ 1 ∧
    (live.pwr.div8 < 16 ∧ 1 ≤ (live.setReg Reg.pwrLevel 1).fld Reg.pwrCeil 0 2) := by decide +kernel
/-- Reads of an Ember entry that is being written, and of registers beside it; a host frame that waits. -/
theorem meets_reads_that_wait :
    let writing : State := { live with hearth := { live.hearth with queue := [⟨.kindling, [1]⟩], writing := some [1] } }
    let s : State := (writing.setReg Reg.hrtRamaddr 0x8000).advance 1
    let ad : Word := BitVec.ofNat 32 Reg.hrtRamdata
    let run : State := s.running .regReadMulti (pkt [ad, 1])
    let waits : State := { s with hostWait := some (1, ad) }
    decodeAddr ad = .reg Reg.hrtRamdata ∧ s.windowBusy ad = true ∧ s.windowBusy 0x24 = false ∧ (live.advance 1).windowBusy ad = false ∧
    run.windowBusy (ad + BitVec.ofNat 32 (4 * 0)) = true ∧ isPool (ad + BitVec.ofNat 32 (4 * 0)) = false ∧
    (s.hearth.next ∈ (List.range ((0x10000 : Word).fld 16 3)).map (fun i => ((0x10000 : Word).fld 0 9 + i) % 512) ∧
      s.hearth.writing ≠ none ∧ s.hearth.next ∉ (List.range ((0x10001 : Word).fld 16 3)).map (fun i => ((0x10001 : Word).fld 0 9 + i) % 512)) ∧
    (s.hostWait = none ∧ waits.hostWait ≠ none ∧ waits.hostReads = true ∧ waits.hostPulls = true ∧ waits.hostOpen = true) := by
  decide +kernel

/-- A change of level in its last stage, running and with nRESET low; entries that the end of power keeps. -/
theorem meets_ends_of_changes_and_of_power :
    let held : State := { changing 2 .last 0 with pwr := { (changing 2 .last 0).pwr with phase := .held } }
    let e : EmberReq := ⟨.opening 127 0, [1, 2, 3, 4]⟩
    let l : List EmberReq := [⟨.opening 5 0, [1]⟩, ⟨.notice, [1]⟩, e]
    let q : State := { live with hearth := { live.hearth with queue := l } }.advance 1
    let v := q.setBit Reg.pwrStat 3 true
    (held.pwr.phase ≠ .running ∧ (changing 2 .last 0).pwr.phase = .running) ∧
    (pendingOpenings l = [] ++ e :: [⟨.opening 5 0, [1]⟩] ∧ pendingOpenings [] = []) ∧
    (let r := v.takeItem (v.item 18 0x33 0 .module 3)
     pendingOpenings r.hearth.queue ≠ [] ∧ r.hearth.onMain = true) ∧
    ({ q with hearth := { q.hearth with onMain := false } } : State).hearth.onMain = false := by decide +kernel

end Sys2Proof.Tests
end

/-! SUPPORT. The proofs of the statements of scope: what reset leaves, that every step goes on, and what a plain software
write touches. -/

namespace Sys2Proof.Machine

variable {s t u : State} {k : Nat}

/-! ## Reset -/

/-- Reset leaves a sound state: nothing is listed in any sparse content, and no command is open. -/
theorem State.Wf.reset : State.reset.Wf where
  mem := by decide +kernel
  regs := by decide +kernel
  tmrB := by decide +kernel
  tmrC := by decide +kernel
  desc := by decide +kernel
  tags := ⟨List.nodup_nil, fun _ h => nomatch h⟩
  hearth := by decide +kernel

/-- With nothing listed each of the three copies holds the reset value. -/
theorem State.reg_reset (k : Nat) : State.reset.reg k = regReset k := by
  have h : State.reset.reg k = if triplReg k then vote (regReset k) (regReset k) (regReset k) else regReset k := rfl
  rw [h, vote_self, ite_self]

theorem State.ax_reset (a : AxisId) : State.reset.ax a = Axis.reset := Vector.getElem_replicate a.isLt

/-- While the module is not up every bank is held, so every gate is low (R380). -/
theorem State.gateLevel_of_not_up (h : s.up = false) (a : AxisId) (g : GateId) : s.gateLevel a g = false := by
  have hb : s.bankHeld (bankOf a) = true := by simp [State.bankHeld, h]
  simp [State.gateLevel, hb]

/-- Settles O3: nothing is listed in the sparse contents of the reset state, each axis is `Axis.reset`, and the module is
not up. -/
theorem resetLeavesTheHarmlessState : Obligations.ResetLeavesTheHarmlessState := by
  refine ⟨.reset, rfl, rfl, State.reg_reset, fun a g => ?_, fun _ => rfl, fun _ => rfl⟩
  rw [State.ax_reset]
  exact ⟨rfl, rfl, rfl, State.gateLevel_of_not_up rfl a g⟩

/-! ## A step -/

theorem step_of_nil (h : s.pending = []) : step s = .next s.idle := by simp only [step, h]

theorem step_of_cons {c : Instr} {rest : List Instr} (h : s.pending = c :: rest) :
    step s = exec c { s with pending := rest } := by simp only [step, h]

/-- Settles O5: with nothing waiting the idle step is `Kept`, else the command in front is, run on a state whose queue is
the rest. -/
theorem everyStepGoesOnAndTimeNeverRunsBack : Obligations.EveryStepGoesOnAndTimeNeverRunsBack := by
  intro s
  cases hp : s.pending with
  | nil => exact ⟨s.idle, step_of_nil hp, State.idle_kept.pending.trans hp, State.idle_kept.tb⟩
  | cons c rest =>
    obtain ⟨t, hexec, hkept⟩ := exec_kept c { s with pending := rest }
    exact ⟨t, (step_of_cons hp).trans hexec, hkept.pending, hkept.tb⟩

/-! ## The word that a software write leaves (Table 0-6) -/

theorem bit_swWord (r : RegRow) (old v : Word) {i : Nat} (hi : i < 32) :
    (swWord r old v).bit i = if r.w1c.bit i && v.bit i then false else if r.rw.bit i then v.bit i else old.bit i := by
  have hb : (swWord r old v).bit i =
      ((old.bit i && !r.rw.bit i || v.bit i && r.rw.bit i) && !(v.bit i && r.w1c.bit i)) := by simp [swWord, Word.bit, hi]
  rw [hb]
  cases v.bit i
  · cases r.rw.bit i <;> simp
  · cases r.w1c.bit i <;> cases r.rw.bit i <;> simp

/-- Every bit of a field whose number is the largest is set. -/
theorem bit_of_fld_eq_max {x : Word} {lo w j : Nat} (h : x.fld lo w = 2 ^ w - 1) (hj : j < w) : x.bit (lo + j) = true := by
  have hb := Word.testBit_fld x lo w j
  rw [h, Nat.testBit_two_pow_sub_one] at hb
  simpa [hj, Word.bit] using hb.symm

/-- A field of RW bits takes what is written to it. -/
theorem fld_swWord {r : RegRow} {lo w : Nat} (hc : r.w1c = 0) (hr : r.rw.fld lo w = 2 ^ w - 1) (hw : lo + w ≤ 32)
    (old v : Word) : (swWord r old v).fld lo w = v.fld lo w := by
  apply Nat.eq_of_testBit_eq
  intro j
  rw [Word.testBit_fld, Word.testBit_fld]
  by_cases hj : j < w
  · have hb := bit_swWord r old v (i := lo + j) (by omega)
    rw [bit_of_fld_eq_max hr hj, hc] at hb
    simpa [Word.bit] using congrArg (decide (j < w) && ·) hb
  · simp [hj]

/-! ## What an update of one register leaves alone -/

/-- An operation that goes from `s` to `t` changes no register but `k`, and nothing else of the state but the marks of the
window. -/
structure RegOnly (k : Nat) (s t : State) : Prop where
  others : ∀ j, j ≠ k → t.reg j = s.reg j
  rest : t = { s with regs := t.regs, tmrB := t.tmrB, tmrC := t.tmrC, window := t.window }

theorem RegOnly.axes (h : RegOnly k s t) : t.axes = s.axes := by rw [h.rest]

theorem RegOnly.mem (h : RegOnly k s t) : t.mem = s.mem := by rw [h.rest]

theorem RegOnly.refl : RegOnly k s s := ⟨fun _ _ => rfl, rfl⟩

theorem RegOnly.trans (h : RegOnly k s t) (g : RegOnly k t u) : RegOnly k s u :=
  ⟨fun j hj => (g.others j hj).trans (h.others j hj), g.rest.trans <|
    congrArg (fun x : State => { x with regs := u.regs, tmrB := u.tmrB, tmrC := u.tmrC, window := u.window }) h.rest⟩

theorem RegOnly.setReg (v : Word) : RegOnly k s (s.setReg k v) :=
  ⟨State.reg_setReg_ne k v, by unfold State.setReg; split <;> rfl⟩

theorem RegOnly.window (l : List WinMark) : RegOnly k s { s with window := l } := ⟨fun _ _ => rfl, rfl⟩

/-- A field is put and the change noted in the window. -/
theorem RegOnly.setFld_mark (lo w v lo' w' : Nat) (x : WinKind) : RegOnly k s ((s.setFld k lo w v).mark k lo' w' x) :=
  (RegOnly.setReg _).trans (.window _)

/-- Every kind of the module's own updates, made again, is one of the mark's own register. -/
theorem RegOnly.again (m : WinMark) : RegOnly m.key s (s.again m) := by
  unfold State.again
  split
  · exact .setFld_mark ..
  · split
    · split
      · exact .setFld_mark ..
      · exact .setFld_mark ..
    · exact .window _
  · exact .setFld_mark ..
  · exact .setFld_mark ..
  · exact .refl
  · exact .window _

theorem State.key_of_mem_marks {m : WinMark} (h : m ∈ s.marks k) : m.key = k := by
  have hkey := (List.mem_filter.1 h).2
  rw [Bool.and_eq_true, beq_iff_eq] at hkey
  exact hkey.1

/-- Updates of one register, one after the other. -/
theorem RegOnly.foldl_again {l : List WinMark} (hl : ∀ m ∈ l, m.key = k) : RegOnly k s (l.foldl State.again s) :=
  List.foldlRecOn l State.again .refl fun _ h m hm => h.trans (hl m hm ▸ .again m)

theorem RegOnly.landed (v : Word) : RegOnly k s (s.landed k v) :=
  ((RegOnly.window _).trans (.foldl_again fun _ => State.key_of_mem_marks)).trans (.window _)

theorem RegOnly.plainWrite (v : Word) : RegOnly k s (s.plainWrite k v) := by
  unfold State.plainWrite
  split
  · exact (RegOnly.setReg _).trans (.landed v)
  · exact .refl

/-! ## The window of a software write (Table 13-4) -/

theorem State.plainWrite_of_row {r : RegRow} (h : rowOf k = some r) (v : Word) :
    s.plainWrite k v = (s.setReg k (swWord r (s.reg k) v)).landed k v := by simp only [State.plainWrite, h]

theorem State.plainWrite_of_no_row (h : rowOf k = none) (v : Word) : s.plainWrite k v = s := by
  simp only [State.plainWrite, h]

/-- The state with the marks of this window on a register taken away. -/
def State.unmarked (s : State) (k : Nat) : State :=
  { s with window := s.window.filter fun m => !(m.key == k && m.at_ == s.tb) }

theorem State.Wf.unmarked (h : s.Wf) (k : Nat) : (s.unmarked k).Wf :=
  ⟨h.mem, h.regs, h.tmrB, h.tmrC, h.desc, h.tags, h.hearth⟩

@[simp] theorem State.reg_unmarked (k j : Nat) : (s.unmarked k).reg j = s.reg j := rfl

/-- What has landed reads as the module's updates of the window leave it. -/
theorem State.reg_landed (k : Nat) (v : Word) (j : Nat) :
    (s.landed k v).reg j = ((s.marks k).foldl State.again (s.unmarked k)).reg j := State.reg_mark ..

@[simp] theorem State.marks_setReg (j k : Nat) (v : Word) : (s.setReg j v).marks k = s.marks k := by simp [State.marks]

/-- A mark on a register comes behind those the window holds of it. -/
theorem State.marks_mark (k lo w : Nat) (x : WinKind) : (s.mark k lo w x).marks k = s.marks k ++ [⟨k, lo, w, x, s.tb⟩] := by
  have hf (m : WinMark) : ((m.key == k && m.at_ == s.tb) && m.at_ == s.tb) = (m.key == k && m.at_ == s.tb) := by
    rw [Bool.and_assoc, Bool.and_self]
  simp [State.marks, State.mark, List.filter_filter, hf]

/-- The module's update of a field, the first of this window in its register, is the one mark there. -/
theorem State.marks_setReg_mark (hm : s.marks k = []) (v : Word) (lo w : Nat) (x : WinKind) :
    ((s.setReg k v).mark k lo w x).marks k = [⟨k, lo, w, x, s.tb⟩] := by
  rw [State.marks_mark, State.marks_setReg, hm, State.setReg_tb, List.nil_append]

/-- A write of a register that the module has not updated in this window reads as written. -/
theorem State.reg_plainWrite {r : RegRow} (h : s.Wf) (hr : rowOf k = some r) (hm : s.marks k = []) (v : Word) :
    (s.plainWrite k v).reg k = swWord r (s.reg k) v := by
  rw [State.plainWrite_of_row hr, State.reg_landed, State.marks_setReg, hm]
  exact State.reg_setReg_self h _ _

/-- A write of a register of which the module has updated one field in this window: the update is made again on the word
written. -/
theorem State.reg_plainWrite_again {r : RegRow} {m : WinMark} (hr : rowOf k = some r) (hm : s.marks k = [m]) (v : Word) :
    (s.plainWrite k v).reg k = (((s.setReg k (swWord r (s.reg k) v)).unmarked k).again m).reg k := by
  rw [State.plainWrite_of_row hr, State.reg_landed, State.marks_setReg, hm]
  rfl

/-- A flag that the module sets in the window stays set. -/
theorem State.bit_flag_plainWrite {r : RegRow} {i : Nat} (h : s.Wf) (hr : rowOf k = some r) (hm : s.marks k = [])
    (hi : i < 32) (v : Word) : ((s.flag k i).plainWrite k v).bit k i = true := by
  have hf : (s.flag k i).Wf := (h.setReg ..).mark ..
  have hmark : (s.flag k i).marks k = [⟨k, i, 1, .set, s.tb⟩] := State.marks_setReg_mark hm ..
  rw [State.bit, State.reg_plainWrite_again hr hmark, Word.bit_eq_fld]
  exact decide_eq_true (State.fld_setFld ((hf.setReg _ _).unmarked _) k i 1 _ (by omega))

/-- What is counted on from the value written in a field of RW bits. -/
theorem State.fld_count_plainWrite {r : RegRow} {lo w old n : Nat} {wraps : Bool} (h : s.Wf)
    (hr : rowOf k = some r) (hm : s.marks k = [⟨k, lo, w, .count wraps old, n⟩]) (hw : lo + w ≤ 32) (hc : r.w1c = 0)
    (hrw : r.rw.fld lo w = 2 ^ w - 1) (v : Word) :
    (s.plainWrite k v).fld k lo w = (if wraps then v.fld lo w + 1 else satAdd w (v.fld lo w) 1) % 2 ^ w := by
  rcases Nat.eq_zero_or_pos w with rfl | hpos
  · exact (Nat.mod_one _).trans (Nat.mod_one _).symm
  · have hbit : (((rowOf k).map RegRow.rw).getD 0).bit lo = true := by
      simpa [hr] using bit_of_fld_eq_max hrw hpos
    have hwf := (h.setReg k (swWord r (s.reg k) v)).unmarked k
    have hold : ((s.setReg k (swWord r (s.reg k) v)).unmarked k).fld k lo w = v.fld lo w := by
      rw [State.fld, State.reg_unmarked, State.reg_setReg_self h, fld_swWord hc hrw hw]
    rw [State.fld, State.reg_plainWrite_again hr hm, ← hold]
    simp only [State.again, hbit, if_true]
    cases wraps
    · exact State.fld_setFld hwf k lo w _ hw
    · exact State.fld_setFld hwf k lo w _ hw

theorem satAdd_mod (w n j : Nat) : satAdd w n j % 2 ^ w = satAdd w n j :=
  Nat.mod_eq_of_lt <| (Nat.min_le_right _ _).trans_lt (Nat.sub_one_lt (Nat.two_pow_pos w).ne')

theorem State.fld_bump_plainWrite {r : RegRow} {lo w : Nat} (h : s.Wf) (hr : rowOf k = some r) (hm : s.marks k = [])
    (hw : lo + w ≤ 32) (hc : r.w1c = 0) (hrw : r.rw.fld lo w = 2 ^ w - 1) (v : Word) :
    ((s.bump k lo w).plainWrite k v).fld k lo w = satAdd w (v.fld lo w) 1 := by
  have hb : (s.bump k lo w).Wf := (h.setReg ..).mark ..
  have hmark : (s.bump k lo w).marks k = [⟨k, lo, w, .count false (s.fld k lo w), s.tb⟩] := State.marks_setReg_mark hm ..
  rw [State.fld_count_plainWrite hb hr hmark hw hc hrw]
  exact satAdd_mod ..

theorem State.fld_bumpMod_plainWrite {r : RegRow} {lo w : Nat} (h : s.Wf) (hr : rowOf k = some r) (hm : s.marks k = [])
    (hw : lo + w ≤ 32) (hc : r.w1c = 0) (hrw : r.rw.fld lo w = 2 ^ w - 1) (v : Word) :
    ((s.bumpMod k lo w).plainWrite k v).fld k lo w = (v.fld lo w + 1) % 2 ^ w := by
  have hb : (s.bumpMod k lo w).Wf := (h.setReg ..).mark ..
  have hmark : (s.bumpMod k lo w).marks k = [⟨k, lo, w, .count true (s.fld k lo w), s.tb⟩] := State.marks_setReg_mark hm ..
  exact State.fld_count_plainWrite hb hr hmark hw hc hrw v

/-- Settles O11: the word written is `swWord`, the rest is `RegOnly`, and the module's update of the window is made again on
the word written. -/
theorem aSoftwareWriteTouchesItsOwnBitsOnly : Obligations.ASoftwareWriteTouchesItsOwnBitsOnly := by
  intro s k v hs
  have honly : RegOnly k s (s.plainWrite k v) := .plainWrite v
  refine ⟨fun r hr hm i hi => ?_, honly.others, fun hn => State.plainWrite_of_no_row hn v, honly.axes,
    honly.mem, fun r i hr hi hm => State.bit_flag_plainWrite hs hr hm hi v,
    fun r lo w hr hw hm hc hrw => ⟨State.fld_bump_plainWrite hs hr hm hw hc hrw v,
      State.fld_bumpMod_plainWrite hs hr hm hw hc hrw v⟩⟩
  rw [State.reg_plainWrite hs hr hm, bit_swWord r _ v hi]

end Sys2Proof.Machine

/-! SUPPORT. Edges and setpoints: what each event of step synthesis does, and the statement on their order. -/

namespace Sys2Proof.Machine

section EdgesAndSetpoints

variable {s u : State} {dt : Nat} {a b : AxisId}

/-! ## What an update of the synthesiser of one axis leaves -/

@[simp] theorem State.ax_setStp_self (p : Stp) : (s.setStp a p).ax a = { s.ax a with stp := p } := State.ax_setAx_self ..

theorem State.ax_setStp_ne (p : Stp) (h : b ≠ a) : (s.setStp a p).ax b = s.ax b := State.ax_setAx_ne h

/-- A cause that is raised waits on the Flue: the axes are as before. -/
@[simp] theorem State.ax_raiseC0 (source cause : Nat) (sc : Scope) : (s.raiseC0 source cause sc).ax b = s.ax b :=
  by simp [State.ax, State.raiseC0, State.raiseAt]

theorem State.ax_raiseC0_if (c : Bool) (source cause : Nat) (sc : Scope) :
    (if c then s.raiseC0 source cause sc else s).ax b = s.ax b := by
  split
  · exact State.ax_raiseC0 ..
  · rfl

theorem State.stp_putEdge (e : Edge) : ((s.putEdge a e).ax a).stp = { (s.ax a).stp with
    edges := (s.ax a).stp.edges ++ [e], q := e.q, ep := e.ep, lastEdge := some e.instant
    lateEpisode := (s.ax a).stp.lateEpisode && decide (e.instant / 16 < s.net + 128) } :=
  congrArg Axis.stp (State.ax_setStp_self _)

theorem State.ax_putEdge_ne (e : Edge) (h : b ≠ a) : (s.putEdge a e).ax b = s.ax b := State.ax_setStp_ne _ h

/-! ## Solving an edge -/

/-- The edge of a threshold reached at `t` ticks of a segment: one microstep on from the position solved so far. -/
def Stp.edgeAt (q : Stp) (m now : Nat) (g : Seg) (up : Bool) (t : Rat) (fb : Bool) : Edge :=
  { instant := g.start * 16 + (t * 16 + 1 / 2).floor.toNat, dir := up, ep := epMove q.ep m up
    q := if up then q.q + m else q.q - m, hdr := g.hdr, follow := false, fallback := fb
    nominal := g.start * 16 + (t * 16 + 1 / 2).floor.toNat, enq := now }

theorem exec_edgeSolve_gated (hu : u = s.advance dt) (hg : u.gateOn 4 = false) :
    exec (.edgeSolve dt a) s = .next u := by
  simp only [exec, execEdgeSolve, ← hu, hg, Bool.not_false, Bool.true_or, if_true]

theorem exec_edgeSolve_full (hu : u = s.advance dt) (hl : 64 ≤ (u.ax a).stp.edges.length) :
    exec (.edgeSolve dt a) s = .next u := by
  simp only [exec, execEdgeSolve, ← hu, hl, decide_true, Bool.or_true, if_true]

/-- A threshold that is reached makes an edge in the queue. -/
theorem exec_edgeSolve_some (hu : u = s.advance dt) (hg : u.gateOn 4 = true) (hl : (u.ax a).stp.edges.length < 64)
    {g : Seg} {up : Bool} {t : Rat} {fb : Bool} {q : Stp}
    (hs : Stp.solveNext (u.msize a) 17 (u.ax a).stp = (some (g, up, t, fb), q)) :
    exec (.edgeSolve dt a) s = .next ((u.setStp a q).putEdge a (q.edgeAt (u.msize a) u.net g up t fb)) := by
  simp only [exec, execEdgeSolve, ← hu, hg, hs, Nat.not_le.2 hl, Bool.not_true, decide_false, Bool.or_false,
    Bool.false_eq_true, if_false]
  rfl

theorem exec_edgeSolve_none (hu : u = s.advance dt) (hg : u.gateOn 4 = true) (hl : (u.ax a).stp.edges.length < 64)
    {q : Stp} (hs : Stp.solveNext (u.msize a) 17 (u.ax a).stp = (none, q)) :
    exec (.edgeSolve dt a) s = .next (u.setStp a q) := by
  simp only [exec, execEdgeSolve, ← hu, hg, hs, Nat.not_le.2 hl, Bool.not_true, decide_false, Bool.or_false,
    Bool.false_eq_true, if_false]

/-! ## Releasing an edge -/

theorem exec_edgeRelease_gated (hu : u = s.advance dt) (hg : u.gateOn 4 = false) :
    exec (.edgeRelease dt a) s = .next u := by
  simp only [exec, execEdgeRelease, ← hu, hg, Bool.not_false, Bool.true_or, if_true]
  split <;> rfl

theorem exec_edgeRelease_early (hu : u = s.advance dt) {e : Edge} {rest : List Edge} (he : (u.ax a).stp.edges = e :: rest)
    (hn : u.net + 112 < e.instant / 16) : exec (.edgeRelease dt a) s = .next u := by
  simp only [exec, execEdgeRelease, ← hu, he, hn, decide_true, Bool.or_true, if_true]

/-- The coil drive takes an edge, released at the fine tick that it holds; then the derived microsteps and the lag. -/
def State.hand (s : State) (a : AxisId) (e : Edge) (eff : Nat) (late : Bool) : State :=
  let v := s.trace ⟨eff, e.hdr, a.val, 2, late, e.payload (s.fld (Reg.stpCfg a) 0 4)⟩
  ((v.driveEdge a e (v.msize a)).placeDerived a 64).lagCheck a

/-- The head edge leaves the queue, to take effect at the fine tick `i` of the tick `eff`. -/
def State.popEdge (s : State) (a : AxisId) (e : Edge) (rest : List Edge) (i eff : Nat) (late : Bool) : State :=
  s.setStp a { (s.ax a).stp with
    edges := rest, qRel := e.q, epRel := e.ep, lastRel := some i, lastEffect := eff, lateEpisode := late }

/-- An edge that reached the head of the queue in time goes at its own fine instant. -/
theorem exec_edgeRelease_inTime (hu : u = s.advance dt) (hg : u.gateOn 4 = true) {e : Edge} {rest : List Edge}
    (he : (u.ax a).stp.edges = e :: rest) (hdue : e.instant / 16 ≤ u.net + 112)
    (hlead : max e.enq ((u.ax a).stp.lastEffect - 112) + 128 ≤ e.instant / 16)
    {w : State} (hw : w = (u.gridFor a (e.instant / 16)).lagCheck a) :
    exec (.edgeRelease dt a) s =
      .next ((w.popEdge a e rest e.instant (e.instant / 16) (w.ax a).stp.lateEpisode).hand a e (e.instant / 16) false) := by
  have horder : (u.ax a).stp.lastEffect < e.instant / 16 := by omega
  simp only [exec, execEdgeRelease, ← hu, he, hg, Nat.not_lt.2 hdue, Nat.not_lt.2 hlead, horder, Bool.not_true, decide_false,
    Bool.or_false, Bool.false_and, Bool.false_eq_true, if_false, if_true, ← hw]
  rfl

/-- An edge that reached the head of the queue later goes as early as the emitter can reach, in order; the first of a late
episode is reported. -/
theorem exec_edgeRelease_late (hu : u = s.advance dt) (hg : u.gateOn 4 = true) {e : Edge} {rest : List Edge}
    (he : (u.ax a).stp.edges = e :: rest) (hdue : e.instant / 16 ≤ u.net + 112)
    (hlead : e.instant / 16 < max e.enq ((u.ax a).stp.lastEffect - 112) + 128) {eff i : Nat} {w x y : State}
    (heff : eff = max ((u.ax a).stp.lastEffect + 1) (max (e.instant / 16) (u.net + 112)))
    (hw : w = (u.gridFor a eff).lagCheck a) (hi : i = if eff = e.instant / 16 then e.instant else eff * 16)
    (hx : x = w.popEdge a e rest i eff true)
    (hy : y = if (w.ax a).stp.lateEpisode then x
      else ((x.flag (Reg.stpStat a) 8).bump (Reg.stpStat a) 16 16).raiseAx 11 0x10 0 a) :
    exec (.edgeRelease dt a) s = .next (y.hand a { e with instant := i } eff true) := by
  have horder : (if (u.ax a).stp.lastEffect < max (e.instant / 16) (u.net + 112) then max (e.instant / 16) (u.net + 112)
      else (u.ax a).stp.lastEffect + 1) = eff := by
    rw [heff]
    split <;> omega
  simp only [exec, execEdgeRelease, ← hu, he, hg, Nat.not_lt.2 hdue, hlead, Bool.not_true, decide_false, decide_true,
    Bool.or_false, Bool.or_true, Bool.true_and, Bool.false_eq_true, if_false, if_true, horder, ← hw, ← hi]
  rw [hy, hx]
  cases (w.ax a).stp.lateEpisode <;> rfl

/-! ## Follow mode -/

/-- A pulse stamped outside the counting is dropped (R137). -/
theorem exec_followPulse_dropped (hu : u = s.advance dt) {f : Follow} {x : Pulse} {rest : List Pulse}
    (hf : (u.ax a).stp.follow = some f) (hx : f.inbox = x :: rest) (hc : f.counts (x.instant / 16) = false) :
    exec (.followPulse dt a) s =
      .next ((u.setStp a { (u.ax a).stp with follow := some { f with inbox := rest } }).followEnd a) := by
  have hc' : ({ f with inbox := rest } : Follow).counts (x.instant / 16) = false := hc
  simp only [exec, execFollowPulse, ← hu, hf, hx, hc', Bool.not_false, if_true]

theorem exec_followPulse_counted (hu : u = s.advance dt) {f : Follow} {x : Pulse} {rest : List Pulse}
    (hf : (u.ax a).stp.follow = some f) (hx : f.inbox = x :: rest) (hc : f.counts (x.instant / 16) = true) :
    exec (.followPulse dt a) s =
      .next ((((u.takePulse a { f with inbox := rest } x).placeDerived a 64).lagCheck a).followEnd a) := by
  have hc' : ({ f with inbox := rest } : Follow).counts (x.instant / 16) = true := hc
  simp only [exec, execFollowPulse, ← hu, hf, hx, hc', Bool.not_true, Bool.false_eq_true, if_false]

/-- A pulse that is counted: how many there were, and what is left in the ratio accumulator (R136, R137). -/
theorem State.takePulse_counts (f : Follow) (x : Pulse) :
    ((s.takePulse a f x).ax a).stp.pulses = ((s.ax a).stp.pulses + 1) % 32768 ∧
      ((s.takePulse a f x).ax a).stp.rem =
        (derive (if x.dir then (s.ax a).stp.rem + f.num else (s.ax a).stp.rem - f.num) f.den).2 := by
  simp only [State.takePulse, State.ax_raiseC0_if, State.ax_setStp_self, and_self]

/-! ## Setpoints -/

theorem exec_setpointEffect_early (hu : u = s.advance dt) {k : CoilId} {sp : Setpoint}
    (hsp : (u.ax a).chp.setpoints.find? (fun p => !p.done.get k) = some sp)
    (hn : u.fine < if u.stepCoarse a then sp.instant / 16 * 16 else sp.instant) :
    exec (.setpointEffect dt a k) s = .next u := by
  simp only [exec, execSetpointEffect, ← hu, hsp, hn, if_true]

theorem exec_setpointEffect_due (hu : u = s.advance dt) {k : CoilId} {sp sp' : Setpoint} {v : State}
    (hsp : (u.ax a).chp.setpoints.find? (fun p => !p.done.get k) = some sp)
    (hn : (if u.stepCoarse a then sp.instant / 16 * 16 else sp.instant) ≤ u.fine)
    (hsp' : sp' = { sp with done := sp.done.set k true })
    (hv : v = (u.setChp a { (u.ax a).chp with
      setpoints := ((u.ax a).chp.setpoints.map fun r => if r = sp then sp' else r).filter
        fun r => !(r.done.get 0 && r.done.get 1) }).coilSetpoint a k sp) :
    exec (.setpointEffect dt a k) s =
      .next (if sp'.done.get 0 && sp'.done.get 1 && sp.edge then v.edgeDone a sp else v) := by
  simp only [exec, execSetpointEffect, ← hu, hsp, Nat.not_lt.2 hn, if_false, hv, hsp']

end EdgesAndSetpoints

/-- Settles O31: each clause is what one event does: an edge is solved, released early, in time or late, a pulse is dropped
or counted, a setpoint waits or takes effect. -/
theorem edgesAndSetpointsTakeEffectInOrder : Obligations.EdgesAndSetpointsTakeEffectInOrder := by
  intro s u dt a hu
  refine ⟨fun hg => ⟨exec_edgeSolve_gated hu hg, exec_edgeRelease_gated hu hg⟩, fun g up t fb q hg hl hs => ?solved,
    fun q hg hl hs => exec_edgeSolve_none hu hg hl hs, exec_edgeSolve_full hu, fun e rest he => exec_edgeRelease_early hu he,
    fun e rest o hg ho he hdue => ?release, fun f x rest hf hx hc => exec_followPulse_dropped hu hf hx hc,
    fun f x rest v hf hx hc hv => ?pulse, fun k sp hsp => ⟨exec_setpointEffect_early hu hsp, fun hn sp' l hsp' hl v hv => ?due⟩⟩
  case solved =>
    have hstp := State.stp_putEdge (s := u.setStp a q) (a := a) (q.edgeAt (u.msize a) u.net g up t fb)
    refine ⟨_, q.edgeAt (u.msize a) u.net g up t fb, exec_edgeSolve_some hu hg hl hs, ?_, rfl, rfl, rfl, rfl, rfl, rfl, rfl,
      congrArg Stp.q hstp, fun b hb => ?_, rfl, rfl, rfl⟩
    · rw [hstp, State.ax_setStp_self]
    · rw [State.ax_putEdge_ne _ hb, State.ax_setStp_ne _ hb]
  case release =>
    subst ho
    refine ⟨fun hlead w p v hw hp hv => ?_, fun hlead eff w p i x y v heff hw hp hi hx hy hv => ?_⟩
    · subst hp hv
      exact exec_edgeRelease_inTime hu hg he hdue hlead hw
    · subst hp hv
      have released := exec_edgeRelease_late hu hg he hdue hlead heff hw hi hx hy
      exact released
  case pulse =>
    subst hv
    exact ⟨exec_followPulse_counted hu hf hx hc, State.takePulse_counts ..⟩
  case due =>
    subst hl
    exact exec_setpointEffect_due hu hsp hn hsp' hv

end Sys2Proof.Machine

/-! SUPPORT. The links, the kill mask, DRVEN and EXTEST: what each event does, and the statement on them. -/

namespace Sys2Proof.Machine

section LinksMasksAndDriven

variable {s u : State} {dt : Nat} {b : BankId}

@[simp] theorem State.bank_bump (j lo w : Nat) : (s.bump j lo w).bank b = s.bank b := by
  simp [State.bank, State.bump, State.setFld]

/-! ## Links -/

theorem exec_linkCrc_down (hu : u = s.advance dt) (hk : (u.bank b).linkUp = false) (x : Bool) :
    exec (.linkCrc dt b x) s = .next u := by
  simp only [exec, execLinkCrc, ← hu, hk, Bool.not_false, if_true]

/-- A frame that fails counts; the third failure of one frame in a row is the cause (R290). -/
theorem exec_linkCrc_up (hu : u = s.advance dt) (hk : (u.bank b).linkUp = true) {same : Bool} {v w : State}
    (hv : v = u.bump (Reg.gdbLink b) 0 16) {n : Nat} (hn : n = if same then (u.bank b).crcRun + 1 else 1)
    (hw : w = v.setBank b { v.bank b with crcRun := n }) :
    exec (.linkCrc dt b same) s = .next (if n = 3 then w.raiseBank 0x0a b else w) := by
  have hb : (u.bank b).crcRun = (v.bank b).crcRun := by rw [hv, State.bank_bump]
  rw [hb] at hn
  simp only [exec, execLinkCrc, ← hu, hk, Bool.not_true, Bool.false_eq_true, if_false, ← hv, ← hn, hw]
  rfl

theorem exec_linkLost_return (hu : u = s.advance dt) (hg : u.gateOn 10 = true) (he : u.extest = false) :
    exec (.linkLost dt b true) s = .next ((u.setBank b { u.bank b with
      linkUp := true, linkHold := u.linkItem b, crcRun := 0 }).freeBank b |>.syncBank b) := by
  simp only [exec, execLinkLost, ← hu, hg, he, Bool.not_true, Bool.or_false, Bool.false_eq_true, if_false, if_true]
  rfl

theorem exec_linkLost_noReturn (hu : u = s.advance dt) (h : u.gateOn 10 = false ∨ u.extest = true) :
    exec (.linkLost dt b true) s = .next u := by
  have h' : (!u.gateOn 10 || u.extest) = true := by simpa using h
  simp only [exec, execLinkLost, ← hu, h', if_true]

/-- A link that is lost holds the bank's gates; the cause comes where the link was up and the bank is clocked. -/
theorem exec_linkLost_loss (hu : u = s.advance dt) {v : State}
    (hv : v = u.setBank b { u.bank b with linkUp := false, linkHold := true }) :
    exec (.linkLost dt b false) s = .next ((if (u.bank b).linkUp && v.gateOn 10
      then (v.bump (Reg.gdbLink b) 16 8).raiseBank 0x0b b else v).syncBank b) := by
  rw [hv, hu]
  rfl

/-! ## The kill mask -/

/-- A symbol that arrives whole ends the hold of one that was corrupted (R450). -/
theorem State.killHold_false {x : State} (hx : x = s.setBank b { s.bank b with killBad := false }) :
    s.killHold b false = if (s.bank b).killBad then x.freeBank b else x := by
  rw [hx]
  cases h : (s.bank b).killBad <;> simp only [State.killHold, h] <;> rfl

theorem State.killHold_true : s.killHold b true = s.setBank b { s.bank b with killBad := true } := by
  simp only [State.killHold, Bool.not_true, Bool.and_false, Bool.false_eq_true, if_false]
  rfl

theorem exec_killMaskChange_bad (hu : u = s.advance dt) :
    exec (.killMaskChange dt b true) s = .next (u.setBank b { u.bank b with killBad := true }) := by
  simp only [exec, execKillMaskChange, ← hu, State.killHold_true, if_true]

/-- The tile takes the mask its shares call for: what it ends on the logic side goes off, and the bank's own hold after a
lost link ends where the link is up and its class action done (R290, R296). -/
theorem exec_killMaskChange_good (hu : u = s.advance dt) {x v w f : State} {m : BitVec 12} {hold : Bool}
    (hx : x = u.setBank b { u.bank b with killBad := false })
    (hv : v = (if (u.bank b).killBad then x.freeBank b else x).spreadShares) (hm : m = v.killMask b)
    (hw : w = (List.finRange 12).foldl (fun r j => if m.getLsbD j.val then if (r.ax (axisOf b j)).energised
      then r.killAxis (axisOf b j) else r.clearFreeze (axisOf b j) else r) v)
    (hhold : hold = ((w.bank b).linkHold && (!(w.bank b).linkUp || w.linkItem b)))
    (hf : f = if (w.bank b).linkHold && !hold then w.freeBank b else w) :
    exec (.killMaskChange dt b false) s =
      .next ((f.setBank b { f.bank b with kill := m, linkHold := hold }).syncBank b) := by
  simp only [exec, execKillMaskChange, ← hu, Bool.false_eq_true, if_false, State.killHold_false hx, ← hv, ← hm, ← hw, ← hhold,
    ← hf]
  rfl

theorem exec_tilePowerOn (hu : u = s.advance dt) : exec (.tilePowerOn dt b) s = .next ((u.setBank b { u.bank b with
    vgLow := true
    axes := (u.bank b).axes.map fun t => { TileAxis.reset with
      cmd := t.cmd, offAt := t.offAt, onSince := t.onSince } }).syncBank b) := by
  rw [hu]
  rfl

/-! ## DRVEN -/

theorem State.drvenHigh_eq : s.drvenHigh = (s.drven && !s.extest) := rfl

theorem exec_drvenLow_ignored (hu : u = s.advance dt) {ns : Nat} (h : u.drven = false ∨ ns < 50) :
    exec (.drvenLow dt ns) s = .next u := by
  have h' : (!u.drven || decide (ns < 50)) = true := by simpa using h
  simp only [exec, execDrvenLow, ← hu, h', if_true]

theorem exec_drvenLow (hu : u = s.advance dt) {ns : Nat} (hd : u.drven = true) (hn : 50 ≤ ns) {v : State}
    (hv : v = { u with drven := false, drvenLowAt := u.tb }) :
    exec (.drvenLow dt ns) s = .next (if u.extest then v else v.eachAx fun r a =>
      if r.activeAx a then r.raiseAx (bankOf a).val 0x0c 0 a else r.syncReady a) := by
  simp only [exec, execDrvenLow, ← hu, State.drvenHigh_eq, hd, Nat.not_lt.2 hn, Bool.not_true, decide_false, Bool.or_false,
    Bool.true_and, Bool.not_not, Bool.false_eq_true, if_false, ← hv]

theorem exec_drvenClearing_high (hu : u = s.advance dt) (hd : u.drven = true) (o : List (AxisId × ShuntHit))
    (l : List (AxisId × LegId × BitVec 12)) : exec (.drvenClearing dt o l) s = .next u := by
  simp only [exec, execDrvenClearing, ← hu, hd, if_true]

/-- Where DRVEN rises, every bank's gates are freed; the latches clear after a long low of a module that is not locked. -/
theorem exec_drvenClearing_rise (hu : u = s.advance dt) (hd : u.drven = false) {o : List (AxisId × ShuntHit)}
    {l : List (AxisId × LegId × BitVec 12)} {x v : State} (hx : x = { u with drven := true })
    (hv : v = (List.finRange 8).foldl State.freeBank (l.foldl (fun r m => r.measureBoot m.1 m.2.1 m.2.2.toNat) x)) :
    exec (.drvenClearing dt o l) s = .next (if u.extest then x
      else if !decide (u.drvenLowAt + 8000 ≤ u.tb) || v.locked then v
      else (List.finRange 8).foldl (fun r c => if r.latchPersists c o
          then (r.flag (Reg.gdbStat c) 5).raiseC0 c.val 0x0f .module
          else r.setBank c { r.bank c with axes := (r.bank c).axes.map TileAxis.cleared }) v) := by
  simp only [exec, execDrvenClearing, ← hu, hd, Bool.false_eq_true, if_false, ← hx, ← hv]
  rw [hx]
  rfl

/-! ## EXTEST -/

theorem State.setExtest_same : s.setExtest s.extest = s := if_pos rfl

theorem State.setExtest_end (h : s.extest = true) : s.setExtest false =
    ((List.finRange 8).foldl State.freeBank { s with extest := false }).eachAx fun r a => r.syncReady a := by
  simp only [State.setExtest, h, Bool.false_eq_true, if_false, Bool.not_false, if_true]

/-- EXTEST comes into force as DRVEN low does, and every link stops. -/
theorem State.setExtest_start (h : s.extest = false) {v : State} (hv : v = { s with extest := true }) : s.setExtest true =
    (List.finRange 8).foldl (fun r c => State.syncBank (if (r.bank c).linkUp && (r.setBank c { r.bank c with
          linkUp := false, linkHold := true }).gateOn 10 && (r.setBank c { r.bank c with
          linkUp := false, linkHold := true }).up
        then ((r.setBank c { r.bank c with linkUp := false, linkHold := true }).bump (Reg.gdbLink c) 16 8).raiseBank 0x0b c
        else r.setBank c { r.bank c with linkUp := false, linkHold := true }) c)
      (if s.drvenHigh then v.eachAx fun r a => if r.activeAx a then r.raiseAx (bankOf a).val 0x0c 0 a else r.syncReady a
        else v) := by
  simp only [State.setExtest, h, Bool.true_eq_false, if_false, Bool.not_true, Bool.false_eq_true, ← hv]
  rfl

/-- EXTEST and SAMPLE/PRELOAD, codes 0 and 1, select the boundary register. -/
theorem scansCells_iff {code : BitVec 4} : scansCells code = true ↔ code.toNat < 2 := by
  revert code
  decide

theorem exec_extest_load (hu : u = s.advance dt) (code : BitVec 4) (pins : BitVec 459) :
    exec (.extest dt code none pins) s = .next { u.setExtest (code == 0) with tapIr := code } := by
  rw [hu]
  rfl

/-- A scan goes through the register that the instruction selects (R424). -/
theorem exec_extest_scan (hu : u = s.advance dt) {code : BitVec 4} {pins v : BitVec 459} {y : State}
    (hy : y = { u.setExtest (code == 0) with tapIr := code }) :
    exec (.extest dt code (some v) pins) s =
      .next (if scansCells code then { y with tapOut := y.scanned pins, tapCells := v } else { y with tapOut := v <<< 1 }) := by
  rw [hy, hu]
  rfl

end LinksMasksAndDriven

/-- Settles O42: each clause is what one event does, or what EXTEST does as it comes into force and ends. -/
theorem linksMasksAndDrivenActOnTheBanks : Obligations.LinksMasksAndDrivenActOnTheBanks := by
  intro s u dt b k hu hk
  subst hk
  refine ⟨fun hup v hv w hw => ⟨?otherFrame, fun hrun => ?thirdFailure, fun hrun => ?sameFrame⟩, exec_linkCrc_down hu,
    exec_linkLost_return hu, exec_linkLost_noReturn hu, fun v hv => ⟨fun hup hg => ?linkFell, fun h => ?linkStays⟩,
    fun x v m hx hv hm w hold f hw hhold hf => exec_killMaskChange_good hu hx hv hm hw hhold hf, exec_killMaskChange_bad hu,
    fun ns v hv => ⟨exec_drvenLow_ignored hu, fun hd hn he => ?lowInExtest, fun hd hn he => ?low⟩,
    fun hd => exec_drvenClearing_high hu hd, fun hd o l x v hx hv =>
      ⟨fun he => ?riseInExtest, fun he h => ?shortOrLocked, fun he ht hl => ?clears⟩, exec_tilePowerOn hu,
    fun code pins y hy => ⟨hy ▸ exec_extest_load hu code pins, fun v hc => ?cells, fun v hc => ?bypass⟩, State.setExtest_same,
    State.setExtest_end, fun he v hv => State.setExtest_start he hv⟩
  case otherFrame => exact exec_linkCrc_up hu hup hv (n := 1) rfl rfl
  case thirdFailure => rw [exec_linkCrc_up hu hup hv rfl hw, if_pos (by simp [hrun])]
  case sameFrame => rw [exec_linkCrc_up hu hup hv rfl hw, if_neg (by simpa using hrun)]
  case linkFell => rw [exec_linkLost_loss hu hv, hup, hg]; rfl
  case linkStays => rw [exec_linkLost_loss hu hv, if_neg (by rcases h with h | h <;> simp [h])]
  case lowInExtest => rw [exec_drvenLow hu hd hn hv, if_pos he]
  case low => rw [exec_drvenLow hu hd hn hv, he]; rfl
  case riseInExtest => rw [exec_drvenClearing_rise hu hd hx hv, if_pos he]
  case shortOrLocked => rw [exec_drvenClearing_rise hu hd hx hv, he, if_neg Bool.false_ne_true, if_pos (by simpa using h)]
  case clears => rw [exec_drvenClearing_rise hu hd hx hv, he, if_neg Bool.false_ne_true, if_neg (by simp [ht, hl])]
  case cells => rw [exec_extest_scan hu hy, if_pos (scansCells_iff.2 hc)]
  case bypass => rw [exec_extest_scan hu hy, if_neg (mt scansCells_iff.1 (Nat.not_lt.2 hc))]

end Sys2Proof.Machine

/-! SUPPORT. That every step keeps a sound state, and the extension of a short stamp. -/

namespace Sys2Proof.Machine

variable {s u : State}

/-! ## Soundness -/

/-- Soundness does not look at the commands that wait. -/
theorem State.Wf.pending (h : s.Wf) (l : List Instr) : State.Wf { s with pending := l } :=
  h.same rfl rfl rfl rfl rfl rfl rfl rfl

/-- Settles O4: what a step does, idle or the command in front, is `Kept`, and that keeps a sound state sound. -/
theorem everyStepKeepsASoundState : Obligations.EveryStepKeepsASoundState := by
  intro s t hs hstep
  cases hp : s.pending with
  | nil =>
    obtain rfl : s.idle = t := by simpa [step_of_nil hp] using hstep
    exact State.idle_kept.wf hs
  | cons c rest =>
    obtain ⟨t', hexec, hkept⟩ := exec_kept c { s with pending := rest }
    obtain rfl : t' = t := by simpa [step_of_cons hp, hexec] using hstep
    exact hkept.wf (hs.pending rest)

/-! ## Short stamps (R63) -/

/-- The rule's candidate: the stamp under the upper bits of network time. It is moved by one period of 2^40 where it lies
half a period or more before network time, or more than half a period behind it. -/
theorem extend_cases (n st : Nat) : let c := n / 2 ^ 40 * 2 ^ 40 + st
    c + 2 ^ 39 ≤ n ∧ extend n st = c + 2 ^ 40 ∨ n + 2 ^ 39 < c ∧ 2 ^ 40 ≤ c ∧ extend n st = c - 2 ^ 40 ∨
      n < c + 2 ^ 39 ∧ (c ≤ n + 2 ^ 39 ∨ c < 2 ^ 40) ∧ extend n st = c := by
  simp only [extend]
  split
  · omega
  · split <;> omega

theorem extend_mod {st : Nat} (h : st < 2 ^ 40) (n : Nat) : extend n st % 2 ^ 40 = st := by
  have := extend_cases n st
  omega

/-- A cut of an instant less than half a period away is undone. -/
theorem extend_cut {n x : Nat} (h : n < x + 2 ^ 39) (h' : x < n + 2 ^ 39) : extend n (x % 2 ^ 40) = x := by
  have := extend_cases n (x % 2 ^ 40)
  omega

/-- A stamped command that is in time waits for its extended stamp. -/
theorem State.newCmd_inTime {op : Op} {p : Packet} {q : Port} {n : Nat} (hu : u.usesStamp op q = true)
    (h : u.net + u.stampLead op ≤ extend u.net p.stamp.toNat) :
    (u.newCmd op p q n).stamp = extend u.net p.stamp.toNat ∧
      (u.newCmd op p q n).due = extend u.net p.stamp.toNat - u.stampLead op := by
  simp [State.newCmd, hu, Nat.not_lt.2 h]

/-- Settles O10: the branches of `extend` are the steps of the rule. -/
theorem aShortStampExtendsByItsRule : Obligations.AShortStampExtendsByItsRule := by
  refine ⟨fun n st hst => ?_, fun n st hst => extend_mod hst n, fun n x => extend_cut, by decide,
    fun u op p q n hu h => ⟨rfl, (State.newCmd_inTime hu h).1⟩⟩
  have := extend_cases n st
  dsimp only at this ⊢
  split
  · split <;> omega
  · split <;> omega

end Sys2Proof.Machine

/-! SUPPORT. Packets as bytes: the CRC in the words of its rule, and that a request is read as it was made. -/

namespace Sys2Proof.Machine

/-! ## The CRC-32C (R38) -/

/-- One bit into the reflected CRC register. -/
def crcLowBit (c : BitVec 32) (b : Bool) : BitVec 32 :=
  if c.getLsbD 0 != b then (c >>> 1) ^^^ 0x82f63b78#32 else c >>> 1

/-- Reflected, the rule's step of one bit is the step at the low end. -/
theorem reverse_crcRefBit (c : BitVec 32) (b : Bool) : (crcRefBit c b).reverse = crcLowBit c.reverse b := by
  have hshift : (c <<< 1).reverse = c.reverse >>> 1 := by
    apply BitVec.eq_of_getLsbD_eq
    intro i hi
    rw [BitVec.getLsbD_ushiftRight, BitVec.getLsbD_reverse, BitVec.getLsbD_reverse, BitVec.getMsbD_shiftLeft, Nat.add_comm]
  have hxor (x y : BitVec 32) : (x ^^^ y).reverse = x.reverse ^^^ y.reverse := by
    ext i hi
    simp [BitVec.getElem_reverse]
  have hpoly : (0x1edc6f41#32).reverse = 0x82f63b78#32 := by decide +kernel
  have hlow : c.reverse.getLsbD 0 = c.msb := by rw [BitVec.getLsbD_reverse, BitVec.msb]
  simp only [crcRefBit, crcLowBit, hlow, apply_ite BitVec.reverse, hxor, hpoly, hshift]

/-- The register with the bits to come put in beforehand: they are taken from the low end, one after the other. -/
theorem crcBits_xor (n : Nat) (c w : BitVec 32) :
    crcBits n (c ^^^ w) = ((List.range n).map w.getLsbD).foldl crcLowBit c ^^^ (w >>> n) := by
  induction n generalizing c w with
  | zero => simp [crcBits]
  | succ n ih =>
    have hstep : (if (c ^^^ w).getLsbD 0 then ((c ^^^ w) >>> 1) ^^^ 0x82f63b78#32 else (c ^^^ w) >>> 1) =
        crcLowBit c (w.getLsbD 0) ^^^ (w >>> 1) := by
      rw [crcLowBit, BitVec.getLsbD_xor, BitVec.ushiftRight_xor_distrib]
      split
      · rw [BitVec.xor_assoc, BitVec.xor_comm (w >>> 1), ← BitVec.xor_assoc]
      · rfl
    have hbits : (List.range n).map (w >>> 1).getLsbD = (List.range n).map (w.getLsbD ∘ Nat.succ) := by
      simp [BitVec.getLsbD_ushiftRight, Nat.add_comm, Function.comp_def]
    rw [crcBits, hstep, ih, hbits, List.range_succ_eq_map, List.map_cons, List.map_map, List.foldl_cons,
      ← BitVec.shiftRight_add, Nat.add_comm]

/-- A byte into the register is its bits, least significant first. -/
theorem crcStep_eq (c : BitVec 32) (b : Byte) : crcStep c b = (bitsOf b).foldl crcLowBit c := by
  have hbits : (List.range 8).map (b.setWidth 32).getLsbD = bitsOf b :=
    List.map_congr_left fun i hi => by
      have := List.mem_range.1 hi
      simp [BitVec.getLsbD_setWidth]
      omega
  have hrest : b.setWidth 32 >>> 8 = 0#32 := by
    apply BitVec.eq_of_getLsbD_eq
    intro i hi
    rw [BitVec.getLsbD_ushiftRight, BitVec.getLsbD_setWidth, BitVec.getLsbD_of_ge b (8 + i) (Nat.le_add_right 8 i), Bool.and_false,
      BitVec.getLsbD_zero]
  rw [crcStep, crcBits_xor, hbits, hrest, BitVec.xor_zero]

theorem crc32c_eq_crcRef (bs : List Byte) : crc32c bs = crcRef bs := by
  have hfold (l : List Bool) (c : BitVec 32) : (l.foldl crcRefBit c).reverse = l.foldl crcLowBit c.reverse := by
    induction l generalizing c with
    | nil => rfl
    | cons b l ih => rw [List.foldl_cons, ih, reverse_crcRefBit, List.foldl_cons]
  have hones : (0xffffffff#32).reverse = 0xffffffff#32 := by decide +kernel
  have hstep : crcStep = fun c b => (bitsOf b).foldl crcLowBit c := funext₂ crcStep_eq
  rw [crc32c, crcRef, hfold, hones, List.foldl_flatMap, hstep]

/-! ## Numbers as bytes (R36) -/

theorem length_bytesOf (n v : Nat) : (bytesOf n v).length = n := by
  induction n with
  | zero => rfl
  | succ n ih => rw [bytesOf, List.length_cons, ih]

theorem numOf_cons (b : Byte) (bs : List Byte) : numOf (b :: bs) = b.toNat * 256 ^ bs.length + numOf bs := by
  have h (l : List Byte) (a : Nat) : l.foldl (fun n b => n * 256 + b.toNat) a = a * 256 ^ l.length + numOf l := by
    induction l generalizing a with
    | nil => simp [numOf]
    | cons c l ih =>
      rw [numOf, List.foldl_cons, List.foldl_cons, ih, ih, List.length_cons, pow_succ]
      ring
  rw [numOf, List.foldl_cons, h, Nat.zero_mul, Nat.zero_add]

/-- The bytes of a number spell it. -/
theorem numOf_bytesOf (n v : Nat) : numOf (bytesOf n v) = v % 256 ^ n := by
  induction n with
  | zero => simp [bytesOf, numOf, Nat.mod_one]
  | succ n ih =>
    rw [bytesOf, numOf_cons, ih, length_bytesOf, BitVec.toNat_ofNat, pow_succ 256, Nat.mod_mul (a := 256 ^ n), Nat.mul_comm (256 ^ n), Nat.add_comm]

theorem numOf_bytes (w : Word) : numOf (Word.bytes w) = w.toNat := by
  simp [Word.bytes, numOf, BitVec.extractLsb'_toNat, Nat.shiftRight_eq_div_pow]
  omega

theorem length_words (ws : List Word) : (ws.flatMap Word.bytes).length = 4 * ws.length := by
  simp [List.length_flatMap, Word.bytes, Nat.mul_comm]

theorem ofBytes_bytes (w : Word) :
    Word.ofBytes (w.extractLsb' 24 8) (w.extractLsb' 16 8) (w.extractLsb' 8 8) (w.extractLsb' 0 8) = w := by
  rw [Word.ofBytes, BitVec.extractLsb'_append_extractLsb'_eq_extractLsb' (by rfl),
    BitVec.extractLsb'_append_extractLsb'_eq_extractLsb' (by rfl), BitVec.extractLsb'_append_extractLsb'_eq_extractLsb' (by rfl),
    BitVec.extractLsb'_eq_self]

theorem wordsOfBytes_bytes (ws : List Word) : wordsOfBytes (ws.flatMap Word.bytes) = ws := by
  induction ws with
  | nil => rfl
  | cons w ws ih => exact congrArg₂ List.cons (ofBytes_bytes w) ih

/-! ## Requests and replies -/

/-- VERSION and the flags of a request, as the number its first two bytes spell. -/
def flagsOf (p : Packet) : Nat :=
  0x1000 + p.stamped.toNat * 0x800 + p.wantAccept.toNat * 0x400 + p.wantStart.toNat * 0x200 +
    p.lastInBurst.toNat * 0x100 + p.lateOk.toNat * 0x80

/-- The header of a request (Tables 2-1 and 2-2). -/
def requestHeader (op : Op) (p : Packet) : List Byte :=
  bytesOf 2 (flagsOf p) ++ bytesOf 1 (opCode op) ++ bytesOf 2 p.tag.toNat ++ bytesOf 2 p.target.toNat ++
    bytesOf 1 p.words.length ++ bytesOf 5 p.stamp.toNat ++ bytesOf 3 0

/-- The header of a reply (R40). -/
def Reply.header (r : Reply) : List Byte :=
  bytesOf 1 (((1 ^^^ (r.op / 256)) % 16) * 16 + r.stamped.toNat * 8) ++ bytesOf 1 0x40 ++ bytesOf 1 r.op ++
    bytesOf 2 r.tag ++ bytesOf 2 r.target ++ bytesOf 1 r.words.length ++ bytesOf 5 r.stamp ++ bytesOf 2 r.credit ++
    bytesOf 1 r.status.code

/-- What the trailer of a request stands for: its header and payload. -/
def requestBody (op : Op) (p : Packet) : List Byte := requestHeader op p ++ p.words.flatMap Word.bytes

variable {op : Op} {p : Packet}

theorem requestBytes_eq (op : Op) (p : Packet) :
    requestBytes op p = requestBody op p ++ Word.bytes (crc32c (requestBody op p)) := rfl

theorem length_requestBody (op : Op) (p : Packet) : (requestBody op p).length = 16 + 4 * p.words.length := by
  rw [requestBody, List.length_append, length_words]
  rfl

theorem length_requestBytes (op : Op) (p : Packet) : (requestBytes op p).length = 20 + 4 * p.words.length := by
  rw [requestBytes_eq, List.length_append, length_requestBody]
  simp only [Word.bytes, List.length_cons, List.length_nil]
  omega

theorem crcHolds_iff (bs : List Byte) :
    crcHolds bs = true ↔ (crc32c (bs.take (bs.length - 4))).toNat = numAt bs (bs.length - 4) 4 := beq_iff_eq

theorem crcHolds_requestBytes (op : Op) (p : Packet) : crcHolds (requestBytes op p) = true := by
  have hlen : (requestBytes op p).length - 4 = (requestBody op p).length := by
    rw [length_requestBytes, length_requestBody]
    omega
  rw [crcHolds_iff, hlen, requestBytes_eq, List.take_left, numAt, List.drop_left, List.take_of_length_le (Nat.le_refl 4),
    numOf_bytes]

/-- Settles O15: reflected, the rule's register is the module's, and both headers are of 16 bytes. -/
theorem theTrailerIsTheStatedCrc : Obligations.TheTrailerIsTheStatedCrc := by
  refine ⟨crc32c_eq_crcRef, by decide +kernel, fun op p => ⟨requestHeader op p, rfl, ?_⟩, fun r => ⟨r.header, rfl, ?_⟩, fun bs => ?_⟩
  · rw [← crc32c_eq_crcRef]
    rfl
  · rw [← crc32c_eq_crcRef]
    rfl
  · rw [← crc32c_eq_crcRef]
    exact crcHolds_iff bs

/-! ## The fields of a request, read back (Tables 2-1 and 2-2) -/

/-- VERSION is 1, and the flags stand below it. -/
theorem flagsOf_bounds (p : Packet) : 0x1000 ≤ flagsOf p ∧ flagsOf p < 0x2000 := by
  have := Bool.toNat_le p.stamped
  have := Bool.toNat_le p.wantAccept
  have := Bool.toNat_le p.wantStart
  have := Bool.toNat_le p.lastInBurst
  have := Bool.toNat_le p.lateOk
  rw [flagsOf]
  omega

theorem numAt_flags (r : List Byte) : numAt (requestHeader op p ++ r) 0 2 = flagsOf p :=
  (numOf_bytesOf 2 (flagsOf p)).trans <| Nat.mod_eq_of_lt ((flagsOf_bounds p).2.trans (by decide))

theorem numAt_opcode (r : List Byte) : numAt (requestHeader op p ++ r) 2 1 = opCode op :=
  (numOf_bytesOf 1 (opCode op)).trans <| Nat.mod_eq_of_lt (by cases op <;> decide)

theorem numAt_tag (r : List Byte) : numAt (requestHeader op p ++ r) 3 2 = p.tag.toNat :=
  (numOf_bytesOf 2 p.tag.toNat).trans <| Nat.mod_eq_of_lt p.tag.isLt

theorem numAt_target (r : List Byte) : numAt (requestHeader op p ++ r) 5 2 = p.target.toNat :=
  (numOf_bytesOf 2 p.target.toNat).trans <| Nat.mod_eq_of_lt p.target.isLt

theorem numAt_length (h : p.words.length ≤ 255) (r : List Byte) :
    numAt (requestHeader op p ++ r) 7 1 = p.words.length :=
  (numOf_bytesOf 1 p.words.length).trans <| Nat.mod_eq_of_lt (by omega)

theorem numAt_stamp (r : List Byte) : numAt (requestHeader op p ++ r) 8 5 = p.stamp.toNat :=
  (numOf_bytesOf 5 p.stamp.toNat).trans <| Nat.mod_eq_of_lt p.stamp.isLt

theorem numAt_version (r : List Byte) : numAt (requestHeader op p ++ r) 0 1 / 16 = 1 := by
  have hbyte : numAt (requestHeader op p ++ r) 0 1 = flagsOf p / 256 % 256 := by
    simp [numAt, requestHeader, bytesOf, numOf]
  have := flagsOf_bounds p
  omega

theorem testBit_flags (p : Packet) :
    (flagsOf p).testBit 11 = p.stamped ∧ (flagsOf p).testBit 10 = p.wantAccept ∧ (flagsOf p).testBit 9 = p.wantStart ∧
      (flagsOf p).testBit 8 = p.lastInBurst ∧ (flagsOf p).testBit 7 = p.lateOk := by
  rw [flagsOf]
  generalize p.stamped = a, p.wantAccept = b, p.wantStart = c, p.lastInBurst = d, p.lateOk = e
  revert a b c d e
  decide

/-- A request with its header in front. -/
theorem requestBytes_append (op : Op) (p : Packet) (rest : List Byte) : requestBytes op p ++ rest =
    requestHeader op p ++ (p.words.flatMap Word.bytes ++ (Word.bytes (crc32c (requestBody op p)) ++ rest)) := by
  simp only [requestBytes_eq, requestBody, List.append_assoc]

theorem requestBytes_header (op : Op) (p : Packet) : requestBytes op p =
    requestHeader op p ++ (p.words.flatMap Word.bytes ++ Word.bytes (crc32c (requestBody op p))) := by
  rw [requestBytes_eq, requestBody, List.append_assoc]

theorem packetOf_requestBytes (h : p.words.length ≤ 255) :
    packetOf p.port p.src.toNat (requestBytes op p) = p := by
  obtain ⟨hstamped, haccept, hstart, hlast, hlate⟩ := testBit_flags p
  have hwords : wordsOfBytes (((requestBytes op p).drop 16).take (4 * p.words.length)) = p.words := by
    rw [requestBytes_header, List.drop_left' (i := 16) rfl, List.take_left' (length_words p.words), wordsOfBytes_bytes]
  have hlen : numAt (requestBytes op p) 7 1 = p.words.length := by rw [requestBytes_header, numAt_length h]
  simp only [packetOf, hlen, hwords]
  simp only [requestBytes_header, numAt_flags, numAt_tag, numAt_target, numAt_stamp, hstamped, haccept, hstart, hlast, hlate,
    BitVec.ofNat_toNat, BitVec.setWidth_eq]

theorem cutPacket_requestBytes (h : p.words.length ≤ 255) (rest : List Byte) :
    cutPacket (requestBytes op p ++ rest) = some (requestBytes op p, rest) := by
  have hlen : 20 + 4 * numAt (requestBytes op p ++ rest) 7 1 = (requestBytes op p).length := by
    rw [requestBytes_append, numAt_length h, length_requestBytes]
  have hfits : 8 ≤ (requestBytes op p ++ rest).length ∧ (requestBytes op p).length ≤ (requestBytes op p ++ rest).length := by
    rw [List.length_append, length_requestBytes]
    omega
  simp only [cutPacket, hlen]
  rw [if_pos hfits, List.take_left, List.drop_left]

theorem opOf_opCode (op : Op) : opOf (opCode op) = some op := by cases op <;> rfl

theorem State.receive_requestBytes (h : p.words.length ≤ 255) (s : State) :
    s.receive p.port p.src.toNat (requestBytes op p) = s.enterPacket op p := by
  have hop : numAt (requestBytes op p) 2 1 = opCode op := by rw [requestBytes_header, numAt_opcode]
  have hversion : numAt (requestBytes op p) 0 1 / 16 = 1 := by rw [requestBytes_header, numAt_version]
  simp only [State.receive, crcHolds_requestBytes, packetOf_requestBytes h, hop, hversion, opOf_opCode, Bool.not_true,
    Bool.false_eq_true, if_false, if_true]

/-- Settles O14: each field of the header is read back at its place, and the payload word by word. -/
theorem aRequestIsReadAsItWasMade : Obligations.ARequestIsReadAsItWasMade := fun op p rest s h =>
  ⟨cutPacket_requestBytes h rest, crcHolds_requestBytes op p, packetOf_requestBytes h, s.receive_requestBytes h⟩

end Sys2Proof.Machine

/-! SUPPORT. Commands as packets: the entry checks, what a reply leaves alone, and the packets that are refused or wait. -/

namespace Sys2Proof.Machine

section EntryAndReply

variable {s t u : State} {op : Op} {p : Packet} {q : Port} {n : Nat} {c : Cmd}

/-! ## The entry checks (Table 2-5) -/

/-- The packet is not STAMPED as its opcode and its port ask for (R359). -/
abbrev State.wrongOrder (u : State) (op : Op) (p : Packet) (q : Port) : Prop :=
  op = .groupStartAt ∧ p.stamped = false ∨
    op ≠ .groupStartAt ∧ op ≠ .groupHalt ∧ p.stamped ≠ u.stampedOrder q

theorem State.usesStamp_iff : u.usesStamp op q = true ↔ op = .groupStartAt ∨ u.stampedOrder q = true ∧ op ≠ .groupHalt := by
  simp [State.usesStamp]

/-- The tag is one of an open command of the same source. -/
theorem State.tagInUse_iff {tag : Nat} : (u.tags.any fun c => c.sameOrigin q n && c.tag == tag) = true ↔
    ∃ c ∈ u.tags, c.port = q ∧ c.src = n ∧ c.tag = tag := by
  simp [Cmd.sameOrigin, and_assoc]

theorem State.entryCheck_locked (hl : u.locked = true) (ho : opLocked op = false) :
    u.entryCheck op p q n = some .locked := by
  simp [State.entryCheck, hl, ho]

section Unlocked

variable (hl : u.locked = false ∨ opLocked op = true)
include hl

theorem State.entryCheck_noCredit (hc : u.fld (Reg.cmdPortcfg (portAcct q)) 0 16 ≤ u.tagsIn (portAcct q)) :
    u.entryCheck op p q n = some .noCredit := by
  have hlock : (u.locked && !opLocked op) = false := by rcases hl with h | h <;> simp [h]
  simp only [State.entryCheck, hlock, hc, Bool.false_eq_true, if_false, if_true]

variable (hc : u.tagsIn (portAcct q) < u.fld (Reg.cmdPortcfg (portAcct q)) 0 16)
include hc

theorem State.entryCheck_tagInUse (ht : ∃ c ∈ u.tags, c.port = q ∧ c.src = n ∧ c.tag = p.tag.toNat) :
    u.entryCheck op p q n = some .tagInUse := by
  have hlock : (u.locked && !opLocked op) = false := by rcases hl with h | h <;> simp [h]
  simp only [State.entryCheck, hlock, Nat.not_le.2 hc, State.tagInUse_iff.2 ht, Bool.false_eq_true, if_false, if_true]

variable (ht : ∀ c ∈ u.tags, ¬(c.port = q ∧ c.src = n ∧ c.tag = p.tag.toNat))
include ht

/-- Past the lock, the credits and the tag: the target, the length, the ordering and the stamp. -/
theorem State.entryCheck_fresh : u.entryCheck op p q n =
    if targetOk op p.target.toNat = false then some .badTarget
    else if lengthOk op p.words.length = false then some .badLength
    else if u.wrongOrder op p q then some .stateRefused
    else if u.usesStamp op q = true ∧ p.lateOk = false ∧ extend u.net p.stamp.toNat < u.net + u.stampLead op then
      some .stampPast
    else none := by
  have hlock : (u.locked && !opLocked op) = false := by rcases hl with h | h <;> simp [h]
  have htag : (u.tags.any fun c => c.sameOrigin q n && c.tag == p.tag.toNat) = false :=
    Bool.eq_false_iff.2 fun h => by
      obtain ⟨c, hmem, hc⟩ := State.tagInUse_iff.1 h
      exact ht c hmem hc
  have horder : (if op == .groupStartAt && !p.stamped then some Status.stateRefused
      else if op != .groupStartAt && op != .groupHalt && p.stamped != u.stampedOrder q then some Status.stateRefused
      else if u.usesStamp op q && !p.lateOk && decide (extend u.net p.stamp.toNat < u.net + u.stampLead op) then
        some Status.stampPast
      else none) = if u.wrongOrder op p q then some Status.stateRefused
      else if u.usesStamp op q = true ∧ p.lateOk = false ∧ extend u.net p.stamp.toNat < u.net + u.stampLead op then
        some Status.stampPast
      else none := by
    by_cases h1 : op = .groupStartAt <;> by_cases h2 : op = .groupHalt <;>
      simp [State.wrongOrder, h1, h2, and_assoc]
  simp only [State.entryCheck, hlock, Nat.not_le.2 hc, htag, horder, Bool.false_eq_true, if_false, Bool.not_eq_true']

end Unlocked

end EntryAndReply

/-- Settles O17: the lock, the credits and the tag come first, then the checks of `entryCheck_fresh`. -/
theorem entryChecksGoInTheOrderOfTheirTable : Obligations.EntryChecksGoInTheOrderOfTheirTable := by
  intro u op p q n
  refine ⟨State.entryCheck_locked, fun hl => ⟨State.entryCheck_noCredit hl, fun hc => ⟨State.entryCheck_tagInUse hl hc,
    fun ht => ?fresh⟩⟩, fun hs h3 => ?pl3, fun hs h2 => ?pl2, fun h1 hm hg => ?pl1⟩
  case fresh =>
    rw [State.entryCheck_fresh hl hc ht]
    refine ⟨fun h => if_pos h, fun h hlen => ?_, fun h hlen wrong uses late hwrong huses hlate => ?_⟩
    · rw [if_neg (by simp [h]), if_pos hlen]
    · have hused : uses ↔ u.usesStamp op q = true := huses.trans State.usesStamp_iff.symm
      rw [if_neg (by simp [h]), if_neg (by simp [hlen])]
      refine ⟨fun hw => if_pos (hwrong.1 hw), fun hw hu hla hok => ?_, fun hw hin => ?_⟩
      · rw [if_neg (mt hwrong.2 hw), if_pos ⟨hused.1 hu, hok, hlate.1 hla⟩]
      · rw [if_neg (mt hwrong.2 hw), if_neg]
        rintro ⟨hu, hok, hla⟩
        rcases hin with h | h | h
        · exact h (hused.2 hu)
        · exact h (hlate.2 hla)
        · exact absurd (hok.symm.trans h) Bool.false_ne_true
  case pl3 =>
    by_cases hg : op = .groupStartAt
    · simp [State.stampLead, hg, hs, h3]
    · simp [State.stampLead, State.commandLead, hg, hs, h3]
  case pl2 =>
    have h1 : ¬u.level ≤ 1 := by omega
    by_cases hg : op = .groupStartAt
    · simp [State.stampLead, hg, hs]
    · simp [State.stampLead, State.commandLead, hg, hs, h1]
  case pl1 => simp [State.stampLead, State.commandLead, hg, hm, h1]

section EntryAndReply

variable {s t u : State} {op : Op} {p : Packet} {q : Port} {l : List Cmd} {c d : Cmd} {a : AxisId} {st : Status}

/-! ## What entering and answering a command leaves alone -/

/-- What goes from `s` to `t` opens, changes or answers commands, and touches no axis, bank, byte or descriptor of the pool,
network or power state, cause, time, or register but the counts of lost trace items. -/
structure AnswerOnly (s t : State) : Prop where
  axes : t.axes = s.axes
  banks : t.banks = s.banks
  mem : t.mem = s.mem
  desc : t.desc = s.desc
  netw : t.netw = s.netw
  pwr : t.pwr = s.pwr
  hearth : t.hearth = s.hearth
  flue : t.flue = s.flue
  net : t.net = s.net
  reg : ∀ k, k ∉ lostKeys → t.reg k = s.reg k

theorem AnswerOnly.refl : AnswerOnly s s := ⟨rfl, rfl, rfl, rfl, rfl, rfl, rfl, rfl, rfl, fun _ _ => rfl⟩

theorem AnswerOnly.trans (h : AnswerOnly s t) (g : AnswerOnly t u) : AnswerOnly s u :=
  ⟨g.axes.trans h.axes, g.banks.trans h.banks, g.mem.trans h.mem, g.desc.trans h.desc, g.netw.trans h.netw,
    g.pwr.trans h.pwr, g.hearth.trans h.hearth, g.flue.trans h.flue, g.net.trans h.net,
    fun k hk => (g.reg k hk).trans (h.reg k hk)⟩

theorem AnswerOnly.ite {b : Prop} [Decidable b] (h : AnswerOnly s t) (g : AnswerOnly s u) :
    AnswerOnly s (if b then t else u) := by
  split
  · exact h
  · exact g

theorem AnswerOnly.table (l : List Cmd) (b : List Burst) (i : Nat) :
    AnswerOnly s { s with tags := l, bursts := b, nextId := i } :=
  ⟨rfl, rfl, rfl, rfl, rfl, rfl, rfl, rfl, rfl, fun _ _ => rfl⟩

theorem AnswerOnly.setCmd : AnswerOnly s (s.setCmd c) := .table ..

theorem AnswerOnly.endBurst (n : Nat) : AnswerOnly s (s.endBurst q n) := .table ..

theorem AnswerOnly.trace (it : TraceItem) : AnswerOnly s (s.trace it) :=
  ⟨by simp, by simp, by simp, by simp, by simp, by simp, by simp, by simp, by simp, fun _ hk => State.reg_trace it _ hk⟩

theorem AnswerOnly.reply {src o tag target n : Nat} {sd f e : Bool} {ws : List Word} :
    AnswerOnly s (s.reply q src o tag target sd st ws n f e) :=
  ⟨by simp, by simp, by simp, by simp, by simp, by simp, by simp, by simp, by simp, fun _ hk => State.reg_reply _ hk⟩

theorem AnswerOnly.promote (n : Nat) : AnswerOnly s (s.promote n) := by
  unfold State.promote
  refine .ite ?_ .refl
  split
  · exact .setCmd
  · exact .refl

theorem AnswerOnly.addCmd : AnswerOnly s (s.addCmd c) := AnswerOnly.trans (.table ..) (.trace _)

theorem AnswerOnly.sendAccepted : AnswerOnly s (s.sendAccepted c) := .ite .reply .refl

theorem AnswerOnly.finish {id n : Nat} {ws : List Word} : AnswerOnly s (s.finish id st ws n) := by
  unfold State.finish
  split
  · exact .refl
  · exact AnswerOnly.trans (AnswerOnly.trans (.table ..) .reply) (.promote _)

theorem AnswerOnly.fail {id i r n : Nat} : AnswerOnly s (s.fail id st i r n) := by
  unfold State.fail
  split
  · exact .refl
  · exact .finish

theorem AnswerOnly.entered : AnswerOnly u (u.entered op p) :=
  (AnswerOnly.addCmd.trans .sendAccepted).trans (.endBurst _)

theorem AnswerOnly.stateOf (h : AnswerOnly s t) (n : Nat) : t.stateOf n = s.stateOf n := by
  simp only [State.stateOf, State.ax, h.axes]

theorem not_mem_lostKeys {k : Nat} (h : ∀ i < 4, k ≠ Reg.poolTracePtr i) : k ∉ lostKeys := by
  simp only [lostKeys, List.mem_cons, List.not_mem_nil, or_false, not_or]
  exact ⟨h 0 (by decide), h 1 (by decide), h 2 (by decide), h 3 (by decide)⟩

/-! ## Replies -/

/-- The reply that is queued, but for its CREDIT field. -/
theorem State.replies_reply {src o tag target n : Nat} {sd f e : Bool} {ws : List Word} :
    ∃ cr, (s.reply q src o tag target sd st ws n f e).replies = s.replies ++ [{
      port := q, src := src, op := o, tag := tag, target := target, stamped := sd, stamp := n % 2 ^ 40
      credit := cr, status := st, words := ws }] :=
  ⟨(s.credit q f e).1, by simp [State.reply]⟩

/-- Its number finds an open command. -/
theorem State.cmd_of_mem (h : s.tagsOk) (hc : c ∈ s.tags) : s.cmd c.id = some c := by
  obtain ⟨d, hd⟩ := Option.isSome_iff_exists.1 <|
    (List.find?_isSome (p := fun d : Cmd => d.id == c.id)).2 ⟨c, hc, beq_self_eq_true c.id⟩
  have hid : d.id = c.id := by simpa using List.find?_some hd
  have heq : d = c := List.inj_on_of_nodup_map h.1 (List.mem_of_find?_eq_some hd) hc hid
  exact hd.trans (congrArg some heq)

theorem State.finish_eq {id n : Nat} {ws : List Word} (h : s.cmd id = some c) : s.finish id st ws n =
    (({ s with tags := s.tags.filter fun d => d.id != id } : State).reply c.port c.src (opCode c.op) c.tag c.target c.stamped
      st ws n true true).promote c.target := by
  simp only [State.finish, h]

theorem State.setCmd_ids : (s.setCmd c).tags.map Cmd.id = s.tags.map Cmd.id := by
  rw [State.setCmd, List.map_map]
  refine List.map_congr_left fun d _ => ?_
  by_cases h : d.id = c.id
  · simp [h]
  · simp [h]

theorem State.promote_ids (n : Nat) : (s.promote n).tags.map Cmd.id = s.tags.map Cmd.id := by
  unfold State.promote
  split
  · split
    · exact State.setCmd_ids
    · rfl
  · rfl

/-- The entries that are left keep their numbers. -/
theorem State.finish_ids {id n : Nat} {ws : List Word} (h : s.cmd id = some c) :
    (s.finish id st ws n).tags.map Cmd.id = (s.tags.map Cmd.id).filter fun i => i != id := by
  rw [State.finish_eq h, State.promote_ids, State.reply_tags, List.filter_map]
  rfl

/-- The final reply goes where the command came from and echoes it (R42). -/
theorem State.finish_replies {id n : Nat} {ws : List Word} (h : s.cmd id = some c) :
    ∃ cr, (s.finish id st ws n).replies = s.replies ++ [{
      port := c.port, src := c.src, op := opCode c.op, tag := c.tag, target := c.target, stamped := c.stamped
      stamp := n % 2 ^ 40, credit := cr, status := st, words := ws }] := by
  rw [State.finish_eq h, State.promote_replies]
  exact State.replies_reply

end EntryAndReply

/-- Settles O18: the reply echoes the command, and the rest is `AnswerOnly`. -/
theorem aFinalReplyClosesItsTag : Obligations.AFinalReplyClosesItsTag := by
  intro s c st ws n hs hc
  have hcmd := State.cmd_of_mem hs hc
  have honly : AnswerOnly s (s.finish c.id st ws n) := .finish
  obtain ⟨cr, hreplies⟩ := State.finish_replies (st := st) (ws := ws) (n := n) hcmd
  exact ⟨State.finish_ids hcmd, ⟨_, hreplies, rfl, rfl, rfl, rfl, rfl, rfl, rfl, rfl, rfl⟩, honly.axes, honly.banks, honly.mem,
    honly.netw, fun k hk => honly.reg k (not_mem_lostKeys hk)⟩

end Sys2Proof.Machine

/-! SUPPORT. The packets that are refused at entry or by the sequencer, and those that have been entered and wait. -/

namespace Sys2Proof.Machine

section RefusedAndWaiting

variable {s t u : State} {op : Op} {p : Packet} {q : Port} {l : List Cmd} {c d : Cmd} {a : AxisId} {st : Status} {dt : Nat}
  {i : Instr}

/-! ## A packet at entry -/

/-- The command that a packet on its port and of its source would have. -/
abbrev State.cmdFor (u : State) (op : Op) (p : Packet) : Cmd :=
  u.newCmd op p (u.entryPort p.port) (originOf p (u.entryPort p.port))

theorem State.enterPacket_notMember (h : u.notMember (some op) p.target.toNat = true) : u.enterPacket op p = u := by
  simp only [State.enterPacket, h, if_true]

theorem State.enterPacket_refused (hm : u.notMember (some op) p.target.toNat = false)
    (hc : u.entryCheck op p (u.entryPort p.port) (originOf p (u.entryPort p.port)) = some st) :
    u.enterPacket op p = u.reply (u.entryPort p.port) (originOf p (u.entryPort p.port)) (opCode op) p.tag.toNat
      p.target.toNat p.stamped st [detail (if st = .stateRefused then 0xf else u.stateOf p.target.toNat) 0 0] u.net
      true false := by
  simp only [State.enterPacket, hm, hc]
  rfl

theorem State.enterPacket_entered (hm : u.notMember (some op) p.target.toNat = false)
    (hc : u.entryCheck op p (u.entryPort p.port) (originOf p (u.entryPort p.port)) = none) :
    u.enterPacket op p = ((u.addCmd (u.cmdFor op p)).sendAccepted (u.cmdFor op p)).burstStep (u.cmdFor op p)
      p.lastInBurst := by
  simp only [State.enterPacket, hm, hc]
  rfl

theorem State.arrive_open (hp : p.port ≠ .boot) (ho : u.portOpen p.port = true) : u.arrive op p = u.enterPacket op p := by
  simp [State.arrive, hp, ho]

/-- The command for each axis opcode lets its packet arrive. -/
theorem exec_axisInstr (h : axisInstr dt p op = some i) : exec i s = .next ((s.advance dt).arrive op p) := by
  cases op <;> cases h <;> rfl

theorem opTarget_of_axisInstr (h : axisInstr dt p op = some i) : opTarget op = .axis := by
  cases op <;> cases h <;> rfl

theorem State.tagsOk.advance (h : s.tagsOk) (n : Nat) : (s.advance n).tagsOk := by
  simpa only [State.tagsOk, State.advance_tags, State.advance_nextId] using h

/-! ## The command entered last -/

/-- The open commands are `l` and, with a number of its own, `c` behind them. -/
structure State.Last (t : State) (l : List Cmd) (c : Cmd) : Prop where
  tags : t.tags = l ++ [c]
  fresh : ∀ d ∈ l, d.id ≠ c.id

theorem State.tagsOk.last (h : u.tagsOk) (ht : t.tags = u.tags ++ [c]) (hc : c.id = u.nextId) : t.Last u.tags c :=
  ⟨ht, fun d hd => by have := h.2 d hd; omega⟩

theorem State.Last.cmd (h : t.Last l c) : t.cmd c.id = some c := by
  have hl : l.find? (fun d => d.id == c.id) = none := by
    simpa [List.find?_eq_none] using h.fresh
  rw [State.cmd, h.tags, List.find?_append, hl]
  simp

theorem State.Last.setCmd (h : t.Last l c) (hd : d.id = c.id) : (t.setCmd d).tags = l ++ [d] := by
  have hl : l.map (fun e => if e.id = d.id then d else e) = l :=
    (List.map_congr_left fun e he => if_neg (hd ▸ h.fresh e he)).trans (List.map_id l)
  rw [State.setCmd, h.tags, List.map_append, hl]
  simp [hd]

/-- None waits for a place in the queue of a target: there is nothing to let in. -/
theorem State.promote_of_none {n : Nat} (h : ∀ c ∈ s.tags, c.target = n → c.place ≠ .excess) : s.promote n = s := by
  have hnone : (s.tags.find? fun c => c.target == n && c.place == Place.excess) = none := by
    simpa [List.find?_eq_none] using h
  unfold State.promote
  rw [hnone]
  exact ite_self s

/-- The command entered last is refused: its entry goes, and it is answered. -/
theorem State.Last.fail {j r n : Nat} (h : t.Last l c) (hx : ∀ d ∈ l, d.target = c.target → d.place ≠ .excess) :
    (t.fail c.id st j r n).tags = l ∧ ∃ cr, (t.fail c.id st j r n).replies = t.replies ++ [{
      port := c.port, src := c.src, op := opCode c.op, tag := c.tag, target := c.target, stamped := c.stamped
      stamp := n % 2 ^ 40, credit := cr, status := st
      words := [detail (c.checked.getD (t.stateOf c.target)) j r] }] := by
  have hrest : (t.tags.filter fun d => d.id != c.id) = l := by
    rw [h.tags, List.filter_append, List.filter_eq_self.2 (fun d hd => by simpa using h.fresh d hd)]
    simp
  have hfail : t.fail c.id st j r n = t.finish c.id st [detail (c.checked.getD (t.stateOf c.target)) j r] n := by
    simp only [State.fail, h.cmd]
  rw [hfail]
  refine ⟨?_, State.finish_replies h.cmd⟩
  rw [State.finish_eq h.cmd, State.promote_of_none, State.reply_tags, hrest]
  simpa only [State.reply_tags, hrest] using hx

/-! ## The sequencer refuses (R50, Table 2-9) -/

/-- The status of a cell of Table 2-9 that refuses. -/
def refusal (v : Verdict) (st : Status) : Prop :=
  v = .refused ∧ st = .stateRefused ∨ v = .faulted ∧ st = .axisFaulted ∨ v = .retired ∧ st = .axisRetired

theorem State.takeAxis_refused (h : refusal (s.verdict a c.op) st) : s.takeAxis a c = s.fail c.id st 0 0 s.net := by
  rcases h with ⟨h, rfl⟩ | ⟨h, rfl⟩ | ⟨h, rfl⟩ <;> simp only [State.takeAxis, h]

theorem refusal_ne_waits {v : Verdict} (h : refusal v st) : v ≠ .waits := by
  rintro rfl
  rcases h with h | h | h <;> exact nomatch h.1

/-- The sequencer refuses a packet's command as it arrives, from where it stands: `c` is the command, in `t`. -/
theorem State.Reaches.arrive_refused (h : u.Reaches op p a) (hw : u.tagsOk) (ho : opTarget op = .axis)
    (hv : refusal (u.verdict a op) st) : ∃ (t : State) (c : Cmd), u.arrive op p = t.fail c.id st 0 0 t.net ∧ t.Last u.tags c ∧
      AnswerOnly (u.entered op p) t ∧ t.replies = (u.entered op p).replies ∧ c.port = u.entryPort p.port ∧
      c.tag = p.tag.toNat ∧ c.target = p.target.toNat ∧ c.checked.getD (u.stateOf p.target.toNat) = u.stateOf p.target.toNat := by
  have hv' (t : State) (ht : AnswerOnly (u.entered op p) t) : refusal (t.verdict a op) st := by
    have hverdict : t.verdict a op = u.verdict a op := by
      have he := State.entered_verdict (u := u) (op := op) (p := p) a op
      simp only [State.verdict, State.retiring, State.retired, State.bit, State.ax, ht.axes,
        ht.reg _ (retFlag_kept a)] at he ⊢
      exact he
    rwa [hverdict]
  rcases h.arrive hw ho with ⟨_, harrive⟩ | ⟨_, _, harrive⟩ | ⟨_, hwaits, _⟩
  · exact ⟨_, _, harrive.trans (State.takeAxis_refused (hv' _ .refl)), hw.last State.entered_tags rfl, .refl, rfl, rfl, rfl, rfl,
      rfl⟩
  · exact ⟨_, _, harrive.trans (State.takeAxis_refused (hv' _ .setCmd)),
      hw.last (State.entered_setCmd_tags hw _ rfl) rfl, .setCmd, rfl, rfl, rfl, rfl, rfl⟩
  · exact absurd hwaits (refusal_ne_waits hv)

/-! ## Legality (Table 2-9) -/

/-- But for the diagnostics an axis counts as retired from the start of its retirement (R308). -/
theorem State.verdict_eq (h : op ≠ .axisDiagOffstate) (h' : op ≠ .axisSelftestCmp) : s.verdict a op =
    legal op (if s.retired a = true ∨ (s.ax a).fault.retPhase = .stopping then .retired else (s.ax a).st) := by
  have hr : s.retiring a = true ↔ (s.ax a).st = .retired ∨ s.retired a = true ∨ (s.ax a).fault.retPhase = .stopping := by
    simp [State.retiring, or_assoc]
  by_cases hx : s.retired a = true ∨ (s.ax a).fault.retPhase = .stopping
  · simp [State.verdict, hr.2 (.inr hx), h, h', hx]
  · by_cases hst : (s.ax a).st = .retired
    · simp [State.verdict, hr.2 (.inl hst), h, h', hx, hst]
    · have hn : s.retiring a = false := Bool.eq_false_iff.2 fun e => (hr.1 e).elim hst hx
      simp [State.verdict, hn, hx]

end RefusedAndWaiting

/-- Settles O16: at entry a refusal is one reply; the sequencer's refusal ends the command entered last; Table 2-9 is read
cell by cell. -/
theorem aRefusedPacketIsOnlyAnswered : Obligations.ARefusedPacketIsOnlyAnswered := by
  refine ⟨fun u op p st hm hc => ?atEntry, fun u op p => State.enterPacket_notMember, fun s u dt op p a i st hu hi hs hr hq hv => ?taken,
    fun s a op => State.verdict_eq, fun op st ho => ?table⟩
  case atEntry =>
    rw [State.enterPacket_refused hm hc]
    obtain ⟨cr, hreplies⟩ := State.replies_reply (s := u)
    exact ⟨by simp, by simp, by simp, by simp, by simp, by simp, by simp, by simp, by simp, by simp,
      fun k hk => State.reg_reply k (not_mem_lostKeys hk), _, hreplies, rfl, rfl, rfl, rfl, rfl, rfl, rfl⟩
  case taken =>
    subst hu
    obtain ⟨t, c, harrive, hlast, honly, hold, hport, htag, htarget, hchecked⟩ :=
      hr.arrive_refused (hs.advance dt) (opTarget_of_axisInstr hi) hv
    have honly' := (AnswerOnly.entered.trans honly).trans (.fail (id := c.id) (st := st) (i := 0) (r := 0) (n := t.net))
    have hx : ∀ d ∈ (s.advance dt).tags, d.target = c.target → d.place ≠ .excess := fun d hd he =>
      (hq d hd (by simp [Cmd.on, he, htarget, hr.target])).2
    obtain ⟨htags, cr, hreplies⟩ := hlast.fail (st := st) (j := 0) (r := 0) (n := t.net) hx
    refine ⟨_, _, (exec_axisInstr hi).trans (congrArg _ harrive), htags, honly'.axes, honly'.banks, honly'.mem, honly'.desc,
      honly'.netw, honly'.pwr, honly'.hearth, honly'.flue, fun k hk => honly'.reg k (not_mem_lostKeys hk),
      hold ▸ hreplies, hport, htag, htarget.trans hr.target, rfl, ?_⟩
    rw [(AnswerOnly.entered.trans honly).stateOf, htarget, hchecked, hr.target]
  case table =>
    cases op <;> simp only [opTarget, reduceCtorEq] at ho
    all_goals cases st <;> decide

section RefusedAndWaiting

variable {s t u : State} {op : Op} {p : Packet} {q : Port} {l : List Cmd} {c d : Cmd} {a : AxisId} {n : Nat}

/-! ## A packet that only waits -/

/-- The state with the packet's command open and ACCEPTED sent, its burst still open. -/
abbrev State.takenIn (u : State) (op : Op) (p : Packet) : State := (u.addCmd (u.cmdFor op p)).sendAccepted (u.cmdFor op p)

theorem AnswerOnly.takenIn : AnswerOnly u (u.takenIn op p) := AnswerOnly.addCmd.trans .sendAccepted

theorem State.takenIn_tags : (u.takenIn op p).tags = u.tags ++ [u.cmdFor op p] := State.sendAccepted_tags.trans State.addCmd_tags

theorem State.takenIn_stampedOrder : (u.takenIn op p).stampedOrder q = u.stampedOrder q :=
  (State.stampedOrder_sendAccepted q).trans (State.stampedOrder_addCmd q)

theorem State.takenIn_held : (u.takenIn op p).held? (u.entryPort p.port) (originOf p (u.entryPort p.port)) =
    u.held? (u.entryPort p.port) (originOf p (u.entryPort p.port)) ++ [u.cmdFor op p] := by
  rw [State.held?, State.takenIn_tags, List.filter_append]
  simp [State.held?, Cmd.sameOrigin, State.newCmd]

/-- In CREDIT ordering a command that does not close its burst is held in it (R56). -/
theorem State.burstStep_held (hg : c.op ≠ .groupHalt) (ho : s.stampedOrder c.port = false)
    (hn : (s.held? c.port c.src).length < 64) : (s.burstStep c false).tags = s.tags ∧ AnswerOnly s (s.burstStep c false) := by
  have hn' (b : List Burst) : ¬64 ≤ (State.held? { s with bursts := b } c.port c.src).length := Nat.not_le.2 hn
  have hstep : s.burstStep c false = if (s.bursts.any fun b => b.port == c.port && b.src == c.src) = true then s
      else { s with bursts := s.bursts ++ [⟨c.port, c.src, s.tb⟩] } := by
    simp only [State.burstStep, beq_iff_eq, hg, ho, Bool.false_eq_true, if_false]
    split
    · exact if_neg (hn' s.bursts)
    · exact if_neg (hn' _)
  rw [hstep]
  exact ⟨by split <;> rfl, .ite .refl (.table ..)⟩

/-- In STAMPED ordering a command starts on its own. -/
theorem State.burstStep_stamped (hg : c.op ≠ .groupHalt) (ho : s.stampedOrder c.port = true) (b : Bool) :
    s.burstStep c b = s.launch [c] := by
  simp only [State.burstStep, beq_iff_eq, hg, ho, if_false, if_true]

/-- The command entered last is placed, and its queue looked at. -/
theorem State.Last.launch (h : t.Last l c) : t.launch [c] = (t.place c).lookAt c := by
  simp only [State.launch, List.foldl_cons, List.foldl_nil, State.placeOpen, h.cmd, Option.isSome_some, if_true]

theorem kindOf_of_opKind (h : opKind op = .u ∨ opKind op = .x) (ws : List Word) : kindOf op ws = opKind op := by
  have hm : opMotion op = false := by cases op <;> simp_all [opKind, opMotion]
  simp [kindOf, hm]

/-- A command of kind U or X waits for its stamp (R60). -/
theorem State.Last.launch_stamped (h : t.Last l c) (hk : opKind c.op = .u ∨ opKind c.op = .x) (hs : c.op ≠ .groupStartAt)
    (hn : t.net < c.stamp) : t.launch [c] = t.setCmd { c with place := .stamped } := by
  have hkind := kindOf_of_opKind hk c.words
  have hwait : (c.op == Op.groupStartAt || decide (c.stamp ≤ t.net)) = false := by simp [hs, Nat.not_le.2 hn]
  rw [h.launch]
  rcases hk with hk | hk <;> simp [State.place, State.lookAt, hkind, hk, hwait]

/-- None of the open commands waits in the queue of an axis or for a place in it. -/
def noneWaits (l : List Cmd) (a : AxisId) : Prop := ∀ c ∈ l, c.on a = true → c.place ≠ .queued ∧ c.place ≠ .excess

theorem State.Last.queueRoom (h : t.Last l c) (hl : noneWaits l a) (ht : c.target = a.val) (hb : c.place = .burst) :
    t.queueRoom c.target = true := by
  have hnone (x : Place) (hx : x = .queued ∨ x = .excess) :
      (t.tags.filter fun d => d.target == c.target && d.place == x) = [] := by
    refine List.filter_eq_nil_iff.2 fun d hd hdx => ?_
    obtain ⟨hdt, rfl⟩ : d.target = c.target ∧ d.place = x := by simpa using hdx
    rcases List.mem_append.1 (h.tags ▸ hd) with hd | hd
    · have := hl d hd (by simp [Cmd.on, hdt, ht])
      exact hx.elim this.1 this.2
    · rw [List.mem_singleton.1 hd, hb] at hx
      exact hx.elim nofun nofun
  have hexcess := hnone .excess (.inr rfl)
  simp only [State.queueRoom, hnone .queued (.inl rfl), Bool.and_eq_true, List.all_eq_true]
  exact ⟨rfl, fun d hd => by simpa [imp_iff_not_or] using List.filter_eq_nil_iff.1 hexcess d hd⟩

theorem State.queueHead_last (ht : t.tags = l ++ [c]) (hl : noneWaits l a) (hc : c.on a = true) (hq : c.place = .queued) :
    t.queueHead a = some c := by
  have hnone : (l.filter fun d => d.on a && d.place == Place.queued) = [] :=
    List.filter_eq_nil_iff.2 fun d hd hdx => by
      obtain ⟨hon, hqd⟩ : d.on a = true ∧ d.place = .queued := by simpa using hdx
      exact (hl d hd hon).1 hqd
  rw [State.queueHead, ht, List.filter_append, hnone]
  simp [hc, hq, headOf]

theorem State.takeHead_early (h : t.queueHead a = some c) (hn : t.net < c.takeAt) : t.takeHead a = t := by
  simp [State.takeHead, h, State.mayTake, Nat.not_le.2 hn]

/-- A command of kind S or W waits in the queue of its axis until it is due (R60). -/
theorem State.Last.launch_queued (h : t.Last l c) (hk : kindOf c.op c.words = .s ∨ kindOf c.op c.words = .w)
    (hl : noneWaits l a) (ht : c.target = a.val) (hb : c.place = .burst) (hn : t.net < c.due) (hd : c.due ≤ c.stamp) :
    t.launch [c] = t.setCmd { c with place := .queued } := by
  have hroom := h.queueRoom hl ht hb
  have hplace : t.place c = t.setCmd { c with place := .queued } := by
    rcases hk with hk | hk <;> simp only [State.place, hk, hroom, if_true]
  have haxis : c.axis? = some a := by simp [Cmd.axis?, ht]
  have hlook (r : State) : r.lookAt c = r.takeHead a := by
    rcases hk with hk | hk <;> simp only [State.lookAt, hk, haxis]
  rw [h.launch, hplace, hlook]
  refine State.takeHead_early (State.queueHead_last (h.setCmd rfl) hl (by simp [Cmd.on, ht]) rfl) ?_
  show t.net < if opMotion c.op = true then c.due else c.stamp
  split
  · exact hn
  · exact hn.trans_le hd

/-- No command of kind U waits for the state of its axis. -/
theorem State.verdict_ne_waits (h : opKind op = .u) : s.verdict a op ≠ .waits := by
  have hlegal (st : AxState) : legal op st ≠ .waits := by
    cases op <;> simp only [opKind, reduceCtorEq] at h
    all_goals cases st <;> decide
  unfold State.verdict
  split
  · exact hlegal _
  · exact hlegal _

end RefusedAndWaiting

/-- Settles O19: whatever the command waits for, it is the last of the table, put at the place where it waits. -/
theorem anEnteredPacketThatMustWaitOnlyWaits : Obligations.AnEnteredPacketThatMustWaitOnlyWaits := by
  refine ⟨fun u op p hp ho hm hc hg hcr hlast hn => ?burst, fun u op p hw hp ho hm hc hg hs hk hst hin hn => ?stamp,
    fun u op p a hw hp ho hm htk ht hc hk hst hn hl => ?queue, fun s u dt op p a i hu hi hs hr hv => ?sequencer⟩
  case burst =>
    rw [State.arrive_open hp ho, State.enterPacket_entered hm hc, hlast]
    have hheld : ((u.takenIn op p).held? (u.cmdFor op p).port (u.cmdFor op p).src).length < 64 := by
      have hlen := congrArg List.length (State.takenIn_held (u := u) (op := op) (p := p))
      rw [List.length_append, List.length_singleton] at hlen
      exact hlen.trans_lt (by omega)
    obtain ⟨htags, honly⟩ := State.burstStep_held (s := u.takenIn op p) (c := u.cmdFor op p) hg
      (State.takenIn_stampedOrder.trans hcr) hheld
    have honly := AnswerOnly.takenIn.trans honly
    exact ⟨_, htags.trans State.takenIn_tags, rfl, rfl, rfl, honly.axes, honly.mem, honly.desc, honly.netw, honly.pwr⟩
  case stamp =>
    have huse : u.usesStamp op (u.entryPort p.port) = true := State.usesStamp_iff.2 (.inr ⟨hst, hg⟩)
    have hstamp : (u.cmdFor op p).stamp = _ := (State.newCmd_inTime huse hin).1
    have hlast : (u.takenIn op p).Last u.tags (u.cmdFor op p) := hw.last State.takenIn_tags rfl
    have harrive : u.arrive op p = (u.takenIn op p).setCmd { u.cmdFor op p with place := .stamped } := by
      rw [State.arrive_open hp ho, State.enterPacket_entered hm hc, State.burstStep_stamped hg (State.takenIn_stampedOrder.trans hst)]
      exact hlast.launch_stamped hk hs (by rw [AnswerOnly.takenIn.net, hstamp]; exact hn)
    have honly : AnswerOnly u (u.arrive op p) := harrive ▸ AnswerOnly.takenIn.trans .setCmd
    have htags := hlast.setCmd (d := { u.cmdFor op p with place := .stamped }) rfl
    exact ⟨_, (congrArg State.tags harrive).trans htags, rfl, rfl, hstamp, honly.axes, honly.mem, honly.desc, honly.netw, honly.pwr⟩
  case queue =>
    have hg : op ≠ .groupHalt := by rintro rfl; exact absurd htk (by decide)
    have huse : u.usesStamp op (u.entryPort p.port) = true := State.usesStamp_iff.2 (.inr ⟨hst, hg⟩)
    obtain ⟨hstamp, hdue⟩ : (u.cmdFor op p).stamp = _ ∧ (u.cmdFor op p).due = _ := State.newCmd_inTime huse hn.le
    have hlast : (u.takenIn op p).Last u.tags (u.cmdFor op p) := hw.last State.takenIn_tags rfl
    have harrive : u.arrive op p = (u.takenIn op p).setCmd { u.cmdFor op p with place := .queued } := by
      rw [State.arrive_open hp ho, State.enterPacket_entered hm hc, State.burstStep_stamped hg (State.takenIn_stampedOrder.trans hst)]
      refine hlast.launch_queued hk hl ht rfl ?_ ?_
      · rw [AnswerOnly.takenIn.net, hdue]
        omega
      · rw [hstamp, hdue]
        exact Nat.sub_le ..
    have honly : AnswerOnly u (u.arrive op p) := harrive ▸ AnswerOnly.takenIn.trans .setCmd
    have htags := hlast.setCmd (d := { u.cmdFor op p with place := .queued }) rfl
    refine ⟨_, (congrArg State.tags harrive).trans htags, rfl, rfl, hstamp, ?_, honly.axes, honly.mem, honly.desc, honly.netw, honly.pwr⟩
    show (u.cmdFor op p).due + u.stampLead op = (u.cmdFor op p).stamp
    rw [hdue, hstamp]
    omega
  case sequencer =>
    subst hu
    have hw := hs.advance dt
    rcases hr.arrive hw (opTarget_of_axisInstr hi) with ⟨hkind, _⟩ | ⟨_, hnot, _⟩ | ⟨_, _, harrive⟩
    · exact absurd hv (State.verdict_ne_waits hkind)
    · exact absurd hv hnot
    · have honly : AnswerOnly (s.advance dt) ((s.advance dt).arrive op p) := harrive ▸ AnswerOnly.entered.trans .setCmd
      refine ⟨_, _, exec_axisInstr hi, (congrArg State.tags harrive).trans (State.entered_setCmd_tags hw _ rfl), rfl, rfl, rfl,
        honly.axes, honly.banks, honly.mem, honly.desc, honly.netw, honly.pwr⟩

end Sys2Proof.Machine

/-! SUPPORT. The queries and the writes of registers by packets. -/

namespace Sys2Proof.Machine

section ModulePackets

variable {s v : State} {dt : Nat} {op : Op} {p : Packet} {c : Cmd} {addr w : Word} {n k : Nat} {i : Instr}

/-- What a module command's packet does: its opcode, on the state with the command running. -/
theorem State.Runs.exec_moduleOp (h : s.Runs dt op p c v) (hi : exec i s = .next ((s.advance dt).arrive op p)) (hk : opKind op = .x)
    (hg : op ≠ .groupHalt) : exec i s = .next (v.moduleOp c) := by
  rw [hi, h.arrive hk hg]

/-! ## Queries -/

theorem exec_nop (h : s.Runs dt .nop p c v) : exec (.nop dt p) s = .next (v.finish c.id .done [] v.net) := by
  rw [h.exec_moduleOp rfl rfl nofun, State.moduleOp, h.opEq]
  rfl

theorem exec_echo (h : s.Runs dt .echo p c v) : exec (.echo dt p) s = .next (v.finish c.id .done p.words v.net) := by
  rw [h.exec_moduleOp rfl rfl nofun, State.moduleOp, h.opEq, h.words]

theorem exec_timeQuery (h : s.Runs dt .timeQuery p c v) : exec (.timeQuery dt p) s = .next (v.finish c.id .done
    [hiWord64 v.net, loWord64 v.net, BitVec.ofNat 32 (v.hearth.sec / 2 ^ 32 % 256), BitVec.ofNat 32 v.hearth.sec,
      BitVec.ofNat 32 (v.hearth.acc / 65536 * 256 + v.timeStatus)] v.net) := by
  rw [h.exec_moduleOp rfl rfl nofun, State.moduleOp, h.opEq]
  rfl

theorem exec_regRead (h : s.Runs dt .regRead p c v) (ha : addr = wordAt p.words 0) : exec (.regRead dt p) s = .next (
    if isPool addr then v.fail c.id .outOfRange 0 0 v.net
    else if v.windowBusy addr then v
    else (v.found addr).finish c.id .done [v.readAddr addr] v.net) := by
  rw [h.exec_moduleOp rfl rfl nofun, State.moduleOp, h.opEq, ha, ← h.words]
  rfl

theorem exec_regReadMulti (h : s.Runs dt .regReadMulti p c v) (ha : addr = wordAt p.words 0)
    (hn : n = (wordAt p.words 1).fld 0 6) : exec (.regReadMulti dt p) s = .next (
      if isPool addr then v.fail c.id .outOfRange 0 0 v.net
      else if n = 0 ∨ 60 < n then v.fail c.id .outOfRange 1 0 v.net
      else if ((List.range n).map fun i => addr + BitVec.ofNat 32 (4 * i)).any isPool then v.fail c.id .outOfRange 0 0 v.net
      else if ((List.range n).map fun i => addr + BitVec.ofNat 32 (4 * i)).any v.windowBusy then v
      else (((List.range n).map fun i => addr + BitVec.ofNat 32 (4 * i)).foldl State.found v).finish c.id .done
        (((List.range n).map fun i => addr + BitVec.ofNat 32 (4 * i)).map v.readAddr) v.net) := by
  rw [h.exec_moduleOp rfl rfl nofun, State.moduleOp, h.opEq, ha, hn, ← h.words]
  rfl

/-- Some address of a run is of a kind. -/
theorem any_run {f : Word → Bool} : ((List.range n).map fun i => addr + BitVec.ofNat 32 (4 * i)).any f = true ↔
    ∃ i < n, f (addr + BitVec.ofNat 32 (4 * i)) = true := by
  simp

theorem any_run_false {f : Word → Bool} (h : ∀ i < n, f (addr + BitVec.ofNat 32 (4 * i)) = false) :
    ((List.range n).map fun i => addr + BitVec.ofNat 32 (4 * i)).any f = false := by
  simpa using h

/-- A run that does not enter the pool window does not begin in it. -/
theorem isPool_first (h1 : 1 ≤ n) (h : ∀ i < n, isPool (addr + BitVec.ofNat 32 (4 * i)) = false) : isPool addr = false := by
  simpa using h 0 h1

/-! ## What a read finds -/

theorem State.found_reg (h : decodeAddr addr = .reg k) : v.found addr =
    if triplReg (v.shownWord k) = true ∧ v.mismatch (v.shownWord k) ≠ [] then v.scrubWord (v.shownWord k) else v := by
  simp [State.found, h]

theorem State.windowBusy_reg (h : decodeAddr addr = .reg k) : v.windowBusy addr = true ↔
    k = Reg.hrtRamdata ∧ v.fld Reg.hrtRamaddr 14 2 = 2 ∧ v.hearth.writing ≠ none ∧
      v.fld Reg.hrtRamaddr 2 12 / 8 = v.hearth.next := by
  simp [State.windowBusy, State.slotBusy, h, and_assoc, Option.isSome_iff_ne_none]

theorem keyAxis_axisKey (a : AxisId) {sub slot : Nat} (h : sub * 0x200 + slot < 0x1000) :
    keyAxis (axisKey a sub slot) = a := by
  have hdiv : (axisKey a sub slot - 0x100000) / 0x1000 = a := by
    unfold axisKey
    omega
  rw [keyAxis, hdiv, axisNum, dif_pos (by omega)]
  exact Fin.ext (Nat.mod_eq_of_lt (by omega))

theorem axisKey_mod (a : Nat) {sub slot : Nat} (h : sub * 0x200 + slot < 0x1000) :
    axisKey a sub slot % 0x1000 = sub * 0x200 + slot := by
  unfold axisKey
  omega

theorem le_axisKey (a sub slot : Nat) : 0x100000 ≤ axisKey a sub slot := by
  unfold axisKey
  omega

/-- A parameter that a DATA register shows. -/
theorem State.shownWord_loopPdata (a : AxisId) :
    v.shownWord (Reg.loopPdata a) = paramKey 3 a (v.fld (Reg.loopPsel a) 0 10) := by
  have hmod : Reg.loopPdata a % 0x1000 = 0x80c := axisKey_mod a (by decide)
  have haxis : keyAxis (Reg.loopPdata a) = a := keyAxis_axisKey a (by decide)
  have hge : 0x100000 ≤ Reg.loopPdata a := le_axisKey ..
  simp only [State.shownWord, State.wordKey, State.selected, hmod, haxis, hge, if_true]
  rfl

/-- The retirement flag, which AXF.STATE shows. -/
theorem State.shownWord_axfState (a : AxisId) : v.shownWord (Reg.axfState a) = retFlag a := by
  have hmod : Reg.axfState a % 0x1000 = 0xe00 := axisKey_mod a (by decide)
  have haxis : keyAxis (Reg.axfState a) = a := keyAxis_axisKey a (by decide)
  have hge : 0x100000 ≤ Reg.axfState a := le_axisKey ..
  simp only [State.shownWord, hmod, haxis, hge]
  rfl

end ModulePackets

/-- Settles O20: each query is its opcode's meaning, read off; the clauses on a run of registers are its branches. -/
theorem queriesAnswerFromTheState : Obligations.QueriesAnswerFromTheState := by
  intro s v dt p c
  refine ⟨exec_nop, exec_echo, exec_timeQuery, fun h => exec_regRead h rfl, fun h addr n ha hn => ?run,
    fun addr k h => ⟨State.found_reg h, State.windowBusy_reg h⟩, fun a => ⟨State.shownWord_loopPdata a, State.shownWord_axfState a⟩⟩
  case run =>
    rw [exec_regReadMulti h ha hn]
    refine ⟨fun h1 h60 hp hb => ?busy, fun h1 h60 hp hb => ?read, fun h1 h60 hp => ?pool, fun hp hn => ?count, fun hp => ?inPool⟩
    case busy =>
      rw [isPool_first h1 hp, any_run_false hp, if_neg (by omega : ¬(n = 0 ∨ 60 < n)), any_run.2 hb]
      rfl
    case read =>
      rw [isPool_first h1 hp, any_run_false hp, if_neg (by omega : ¬(n = 0 ∨ 60 < n)), any_run_false hb, List.foldl_map, List.map_map]
      rfl
    case pool =>
      rw [any_run.2 hp, if_neg (by omega : ¬(n = 0 ∨ 60 < n))]
      exact congrArg _ (ite_self _)
    case count =>
      rw [hp, if_pos hn]
      rfl
    case inPool => rw [if_pos hp]

section RegisterWrites

variable {s v : State} {dt : Nat} {p : Packet} {c : Cmd} {addr w x : Word} {k : Nat}

/-! ## REG_WRITE and REG_WRITE_KEYED -/

theorem exec_regWrite (h : s.Runs dt .regWrite p c v) : exec (.regWrite dt p) s = .next (v.takeRegWrite c) := by
  rw [h.exec_moduleOp rfl rfl nofun, State.moduleOp, h.opEq]

theorem exec_regWriteKeyed (h : s.Runs dt .regWriteKeyed p c v) : exec (.regWriteKeyed dt p) s = .next (v.takeRegKeyed c) := by
  rw [h.exec_moduleOp rfl rfl nofun, State.moduleOp, h.opEq]

@[simp] theorem State.keyFail_net (q : Port) (n : Nat) : (v.keyFail q n).net = v.net := by
  simp [State.keyFail, State.flag, State.setBit, State.bump, State.setFld]

@[simp] theorem State.setPend_net (q : Port) (y : Option KeyedPend) : (v.setPend q y).net = v.net := rfl

@[simp] theorem State.expire_net (q : Port) : (v.expire q).net = v.net := by
  unfold State.expire
  split
  · split <;> simp
  · rfl

@[simp] theorem State.cancel_net (q : Port) : (v.cancel q).net = v.net := by
  unfold State.cancel
  dsimp only
  split
  · split <;> simp
  · simp

@[simp] theorem State.refusedWrite_net (q : Port) : (v.refusedWrite q).net = v.net := by simp [State.refusedWrite]

theorem isPool_iff : isPool addr = true ↔ ∃ o, decodeAddr addr = .pool o := by
  unfold isPool
  split <;> simp_all

/-- A write refuses a trip bit whose condition still holds. -/
theorem State.clearTrips_fst : (v.clearTrips x).1 = decide (v.trips.toNat &&& x.fld 0 16 ≠ 0) := by
  unfold State.clearTrips
  dsimp only
  split <;> simp_all

theorem State.takeRegWrite_pool (h : isPool (wordAt c.words 0) = true) :
    v.takeRegWrite c = v.fail c.id .outOfRange 0 0 v.net := by
  obtain ⟨o, ho⟩ := isPool_iff.1 h
  simp only [State.takeRegWrite, ho]

/-- A write of a register, or of one bit of it, once the word it puts there is known. -/
theorem State.takeRegWrite_reg (h : isPool (wordAt c.words 0) = false)
    (hw : v.wordOf (wordAt c.words 0) (wordAt c.words 1) = (k, x)) : v.takeRegWrite c =
      if keyedReg k || (complementOf k).isSome then (v.refusedWrite c.port).fail c.id .keyMismatch 0 0 (v.refusedWrite c.port).net
      else if v.stagedWrite k x then v.fail c.id .stateRefused 0 0 v.net
      else if k = Reg.fltTripstat ∧ v.trips.toNat &&& x.fld 0 16 ≠ 0 then
        (v.busWrite c.port (wordAt c.words 0) (wordAt c.words 1)).fail c.id .tripActive 0 0
          (v.busWrite c.port (wordAt c.words 0) (wordAt c.words 1)).net
      else (v.busWrite c.port (wordAt c.words 0) (wordAt c.words 1)).done c.id := by
  have hpool : ∀ o, decodeAddr (wordAt c.words 0) ≠ .pool o := fun o ho =>
    Bool.false_ne_true (h.symm.trans (isPool_iff.2 ⟨o, ho⟩))
  have hrefused : (k == Reg.fltTripstat && (v.clearTrips x).1) = true ↔
      k = Reg.fltTripstat ∧ v.trips.toNat &&& x.fld 0 16 ≠ 0 := by
    simp [State.clearTrips_fst]
  simp only [← hrefused, State.refusedWrite_net]
  unfold State.takeRegWrite
  dsimp only
  rw [hw]
  split
  · exact absurd ‹_› (hpool _)
  · rfl

theorem State.takeRegKeyed_reg (h : decodeAddr (wordAt c.words 0) = .reg k) : v.takeRegKeyed c =
    if keyedReg k = false then v.fail c.id .outOfRange 0 0 v.net
    else if wordAt c.words 2 ≠ ~~~(wordAt c.words 1) then (v.keyFail c.port 1).fail c.id .keyMismatch 2 0 (v.keyFail c.port 1).net
    else ((v.busWrite c.port (keyAddr k) (wordAt c.words 1)).busWrite c.port (keyAddr k + 0x40) (~~~(wordAt c.words 1))).done
      c.id := by
  simp only [State.takeRegKeyed, h, Bool.not_eq_true']
  rfl

theorem State.takeRegKeyed_notReg (h : ∀ k, decodeAddr (wordAt c.words 0) ≠ .reg k) :
    v.takeRegKeyed c = v.fail c.id .outOfRange 0 0 v.net := by
  unfold State.takeRegKeyed
  dsimp only
  split
  · exact absurd ‹_› (h _)
  · rfl

end RegisterWrites

/-- Settles O21: the branches of the two commands, in the order of their checks. -/
theorem registerWritePacketsWriteTheRegister : Obligations.RegisterWritePacketsWriteTheRegister := by
  intro s v dt p c addr w haddr hword
  refine ⟨fun h => ?write, fun h k hk => ?keyed, fun h hk => ?notReg, fun k hk => ?wordReg, fun k i hk => ?wordBit⟩
  case write =>
    rw [exec_regWrite h]
    rw [← h.words] at haddr hword
    refine ⟨fun k x hp hx hk hc => ?_, fun k x hp hx hk => ?_, fun hp => ?_⟩
    · have hplain : (keyedReg k || (complementOf k).isSome) = false := by simp [hk, hc]
      rw [State.takeRegWrite_reg (haddr ▸ hp) (haddr ▸ hword ▸ hx), hplain, if_neg Bool.false_ne_true, ← haddr, ← hword]
      refine ⟨fun hs => ?_, fun hs hk ht => ?_, fun hs hk => ?_⟩
      · rw [if_pos hs]
      · rw [hs, if_neg Bool.false_ne_true, if_pos ⟨hk, ht⟩]
      · rw [hs, if_neg Bool.false_ne_true, if_neg (fun hkt => hkt.2 (hk hkt.1))]
    · have hkeyed : (keyedReg k || (complementOf k).isSome) = true := by simpa using hk
      rw [State.takeRegWrite_reg (haddr ▸ hp) (haddr ▸ hword ▸ hx), hkeyed]
      rfl
    · rw [State.takeRegWrite_pool (haddr ▸ hp)]
  case keyed =>
    rw [exec_regWriteKeyed h]
    rw [← h.words] at haddr hword ⊢
    rw [State.takeRegKeyed_reg (haddr ▸ hk), hword]
    refine ⟨fun hr hc => ?_, fun hr hc => ?_, fun hr => if_pos hr ▸ rfl⟩
    · rw [if_neg (by simp [hr]), if_neg (not_not.2 hc)]
    · rw [if_neg (by simp [hr]), if_pos hc]
  case notReg =>
    rw [exec_regWriteKeyed h, State.takeRegKeyed_notReg (h.words ▸ haddr ▸ hk)]
  case wordReg => simp only [State.wordOf, hk]
  case wordBit =>
    simp only [State.wordOf, hk]
    rfl

end Sys2Proof.Machine

/-! SUPPORT. The packets that change the state of an axis. -/

namespace Sys2Proof.Machine

section AxisPackets

variable {s t v w : State} {dt id : Nat} {op : Op} {p : Packet} {a : AxisId} {c : Cmd} {i : Instr}

/-- What an axis command's packet does: its opcode, on the state with the command running. -/
theorem State.RunsOn.exec_axisOp (h : s.RunsOn dt op p a c v) (hi : axisInstr dt p op = some i) :
    exec i s = .next (v.axisOp a c) := by
  rw [exec_axisInstr hi, h.arrive (opTarget_of_axisInstr hi)]

theorem State.RunsOn.answerOnly (h : s.RunsOn dt op p a c v) : AnswerOnly (s.advance dt) v :=
  h.now ▸ AnswerOnly.entered.trans .setCmd

theorem AnswerOnly.ax (h : AnswerOnly s t) (a : AxisId) : t.ax a = s.ax a := by simp only [State.ax, h.axes]

theorem AnswerOnly.retiring (h : AnswerOnly s t) (a : AxisId) : t.retiring a = s.retiring a := by
  simp only [State.retiring, State.retired, State.bit, h.ax, h.reg _ (retFlag_kept a)]

theorem AnswerOnly.verdict (h : AnswerOnly s t) (a : AxisId) (op : Op) : t.verdict a op = s.verdict a op := by
  simp only [State.verdict, h.retiring, h.ax]

/-! ## Energising and releasing (R51, R156 to R158) -/

theorem State.takeEnergise_starts (hl : 2 ≤ v.level) (hg : v.gateShort = false) (hc : v.clockBad = false) :
    v.takeEnergise a id = (v.sendStarted id).startEnergise a id := by
  simp only [State.takeEnergise, Nat.not_le.2 hl, hg, hc, Bool.or_false, Bool.false_eq_true, if_false]

theorem State.takeEnergise_low (hl : v.level ≤ 1) : v.takeEnergise a id = v.fail id .stateRefused 0 0 v.net := if_pos hl

theorem State.takeEnergise_refused (hl : 2 ≤ v.level) (h : v.gateShort = true ∨ v.clockBad = true) :
    v.takeEnergise a id = v.failState id 0xe := by
  simp only [State.takeEnergise, Nat.not_le.2 hl, Bool.or_eq_true, h, if_false, if_true]

/-- The axis is released already: FAULTED and not energised. -/
def Axis.released (x : Axis) : Prop := x.st = .faulted ∧ x.energised = false

theorem State.takeRelease_released (h : (w.ax a).released) : w.takeRelease a id = w.done id := by
  simp [State.takeRelease, h.1, h.2]

theorem not_released {x : Axis} (h : x.st = .faulted → x.energised = true) : (x.st == .faulted && !x.energised) = false := by
  by_cases hst : x.st = .faulted
  · simp [h hst]
  · simp [hst]

theorem State.takeRelease_joins (h : (w.ax a).st = .faulted → (w.ax a).energised = true) (hr : (w.ax a).chp.ampst = .release) :
    w.takeRelease a id = w := by
  simp [State.takeRelease, not_released h, hr]

theorem State.takeRelease_begins (h : (w.ax a).st = .faulted → (w.ax a).energised = true) (hr : (w.ax a).chp.ampst ≠ .release) :
    w.takeRelease a id = w.beginRelease a id := by
  simp [State.takeRelease, not_released h, hr]

/-! ## Diagnostics (R287, R288) -/

theorem State.takeDiag_starts {self : Bool} (h : (v.ax a).st = .faulted → v.anyGate a = false) (hc : v.clockBad = false) :
    v.takeDiag a id self = (v.sendStarted id).startDiag a id self := by
  have hgate : ((v.ax a).st == .faulted && v.anyGate a) = false := by
    by_cases hst : (v.ax a).st = .faulted
    · simp [h hst]
    · simp [hst]
  simp only [State.takeDiag, hgate, hc, Bool.false_eq_true, if_false]

theorem State.takeDiag_gateOn {self : Bool} (h : (v.ax a).st = .faulted) (hg : v.anyGate a = true) :
    v.takeDiag a id self = v.fail id .axisFaulted 0 0 v.net := by
  simp [State.takeDiag, h, hg]

/-! ## Retirement and reinstatement (R308, R309) -/

/-- AXIS_RETIRE is taken only while no retirement counts. -/
theorem State.RunsOn.not_retiring (h : s.RunsOn dt .axisRetire p a c v) : v.retiring a = false := by
  rw [h.answerOnly.retiring]
  by_contra hr
  rw [Bool.not_eq_false] at hr
  have hlegal := h.takes.legal
  simp [State.verdict, hr, legal, legalRow, LegalRow.at] at hlegal

theorem State.takeReinstate_eq {k : Word} (hk : k = BitVec.ofNat 32 (0xc3a50000 + a.val)) : v.takeReinstate a c =
    if wordAt c.words 0 ≠ k then v.fail c.id .keyMismatch 0 0 v.net
    else if wordAt c.words 1 ≠ ~~~(wordAt c.words 0) then v.fail c.id .keyMismatch 1 0 v.net
    else if (v.ax a).fault.retPhase ≠ .none then v.fail c.id .stateRefused 0 0 v.net
    else v.reinstate a (some c.id) false := by
  rw [hk]
  rfl

end AxisPackets

/-- Settles O25: each command is the case of its opcode that the state meets. -/
theorem axisStateCommandsBeginTheirWork : Obligations.AxisStateCommandsBeginTheirWork := by
  intro s v w dt p a c hw
  have hax : w.ax a = v.ax a := by rw [hw, State.ax_sendStarted]
  refine ⟨fun h => ?energise, fun h => ?release, fun h hf hc => ?offstate, fun h hf hg => ?gateOn, fun h hf hc => ?selftest,
    fun h => ?retire, fun h k hk hn => ?reinstate, fun h hn h0 h1 => ?under⟩
  case energise =>
    rw [h.exec_axisOp rfl, State.axisOp, h.opEq, hw]
    exact ⟨fun hl hg hc => congrArg _ (State.takeEnergise_starts hl hg hc), fun hl => congrArg _ (State.takeEnergise_low hl),
      fun hl hx => congrArg _ (State.takeEnergise_refused hl hx)⟩
  case release =>
    rw [h.exec_axisOp rfl, State.axisOp, h.opEq, ← hw, ← hax]
    exact ⟨fun hf hr => congrArg _ (State.takeRelease_begins hf hr), fun hf hr => congrArg _ (State.takeRelease_joins hf hr),
      fun hf he => congrArg _ (State.takeRelease_released ⟨hf, he⟩)⟩
  case offstate => rw [h.exec_axisOp rfl, State.axisOp, h.opEq, hw]; exact congrArg _ (State.takeDiag_starts hf hc)
  case gateOn => rw [h.exec_axisOp rfl, State.axisOp, h.opEq]; exact congrArg _ (State.takeDiag_gateOn hf hg)
  case selftest => rw [h.exec_axisOp rfl, State.axisOp, h.opEq, hw]; exact congrArg _ (State.takeDiag_starts hf hc)
  case retire =>
    rw [h.exec_axisOp rfl, State.axisOp, h.opEq]
    exact congrArg _ (if_neg (by simp [h.not_retiring]))
  case reinstate =>
    rw [h.exec_axisOp rfl, State.axisOp, h.opEq]
    dsimp only
    rw [State.takeReinstate_eq hk, h.words]
    refine ⟨fun h0 h1 => ?_, fun h0 => ?_, fun h0 h1 => ?_⟩
    · rw [if_neg (not_not.2 h0), if_neg (by rw [h0, h1]; exact not_not.2 rfl), if_neg (not_not.2 hn)]
    · rw [if_pos h0]
    · rw [if_neg (not_not.2 h0), if_pos (by rwa [h0])]
  case under =>
    rw [h.exec_axisOp rfl, State.axisOp, h.opEq]
    dsimp only
    rw [State.takeReinstate_eq rfl, h.words, if_neg (not_not.2 h0), if_neg (not_not.2 h1), if_pos hn]

end Sys2Proof.Machine

/-! SUPPORT. What the command engine does with packets that carry no command and with commands that wait. -/

namespace Sys2Proof.Machine

section EngineEvents

variable {s u v : State} {dt : Nat} {p : Packet} {q : Port} {c : Cmd} {a : AxisId} {ver : BitVec 4} {opc : Byte} {n : BitVec 14}
  {tag : BitVec 16}

/-! ## Packets that carry no command (R39, R43) -/

theorem exec_badOpcode (hu : u = s.advance dt) (hp : p.port ≠ .boot) (ho : u.portOpen p.port = true)
    (hbad : ver ≠ 1 ∨ opOf opc.toNat = none) (hm : u.notMember none p.target.toNat = false) :
    exec (.badOpcode dt ver opc p) s = .next (u.reply (u.entryPort p.port) (originOf p (u.entryPort p.port))
      (opc.toNat + 256 * (ver.toNat ^^^ 1)) p.tag.toNat p.target.toNat p.stamped .badOpcode
      [detail (u.stateOf p.target.toNat) 0 0] u.net true false) := by
  have hguard : (p.port != .boot && u.portOpen p.port && (ver != 1 || (opOf opc.toNat).isNone)) = true := by
    simpa [hp, ho] using hbad
  simp only [exec, execBadOpcode, ← hu, hguard, State.enterBad, hm, Bool.false_eq_true, if_false, if_true]
  rfl

theorem exec_packetCrcDiscard (hu : u = s.advance dt) (ho : u.portOpen q = true) :
    exec (.packetCrcDiscard dt q) s = .next (u.bump Reg.cmdCrcerr (8 * portId q) 8) := by
  simp only [exec, execPacketCrcDiscard, ← hu, ho, if_true]
  rfl

/-- A count of `w` bits goes one up, to its largest value. -/
theorem State.fld_bump {k lo w : Nat} (h : u.Wf) (hw : lo + w ≤ 32) :
    (u.bump k lo w).fld k lo w = min (u.fld k lo w + 1) (2 ^ w - 1) := by
  rw [State.bump, State.fld_mark, State.fld_setFld h _ _ _ _ hw, satAdd_mod]
  rfl

/-! ## A burst that is open for too long (R57) -/

theorem exec_burstBroken (hu : u = s.advance dt) {b : Burst}
    (hb : (u.bursts.find? fun b => b.port == q && b.src == n.toNat) = some b) : exec (.burstBroken dt q n) s =
      .next (if b.since + 40000 ≤ u.tb ∨ 64 ≤ (u.held? q n.toNat).length then u.breakBurst q n.toNat else u) := by
  simp only [exec, execBurstBroken, ← hu, hb]

/-! ## A command at its stamp (R60) -/

theorem exec_stampedCommandDue (hu : u = s.advance dt)
    (hc : (u.tags.find? fun c => c.sameOrigin q n.toNat && c.tag == tag.toNat && c.place == Place.stamped) = some c) :
    exec (.stampedCommandDue dt q n tag) s = .next (if c.stamp ≤ u.net then u.takeNow c else u) := by
  simp only [exec, execStampedCommandDue, ← hu, hc]

theorem State.takeNow_waits (h : u.resting = true ∨ u.gatedOff c.op = true) :
    u.takeNow c = u.setCmd { c with place := .stamped } := by
  simp only [State.takeNow, Bool.or_eq_true, h, if_true]

theorem State.takeNow_module (hr : u.resting = false) (hg : u.gatedOff c.op = false) (hk : opKind c.op = .x) :
    u.takeNow c = u.runModule c := by
  simp only [State.takeNow, hr, hg, hk, Bool.or_false, Bool.false_eq_true, if_false]

theorem State.takeNow_axis (hr : u.resting = false) (hg : u.gatedOff c.op = false) (hk : opKind c.op = .u)
    (ha : c.axis? = some a) : u.takeNow c = u.takeAxis a c := by
  simp only [State.takeNow, hr, hg, hk, ha, Bool.or_false, Bool.false_eq_true, if_false]

/-! ## The head of a queue (R50) -/

theorem exec_queuedCommandTaken (hu : u = s.advance dt) : exec (.queuedCommandTaken dt a) s = .next (u.takeHead a) := by
  rw [hu]
  rfl

theorem State.takeHead_none (h : u.queueHead a = none) : u.takeHead a = u := by simp only [State.takeHead, h]

theorem State.takeHead_stays (h : u.queueHead a = some c)
    (hn : u.mayTake a c = false ∨ u.resting = true ∨ u.verdict a c.op = .waits) : u.takeHead a = u := by
  have hguard : (u.mayTake a c && !u.resting && u.verdict a c.op != .waits) = false := by
    rcases hn with hn | hn | hn <;> simp [hn]
  simp only [State.takeHead, h, hguard, Bool.false_eq_true, if_false]

/-- The head that may be taken leaves the queue, the oldest that waits for its place comes in, and the sequencer takes it. -/
theorem State.takeHead_takes (h : u.queueHead a = some c) (hv : v = (u.setCmd (u.taken c)).promote a.val)
    (hm : u.mayTake a c = true) (hr : u.resting = false) (hw : u.verdict a c.op ≠ .waits) :
    u.takeHead a = v.takeAxis a (u.taken c) := by
  have hguard : (u.mayTake a c && !u.resting && u.verdict a c.op != .waits) = true := by simp [hm, hr, hw]
  simp only [State.takeHead, h, hguard, if_true, hv]

theorem State.mayTake_of (ht : c.takeAt ≤ u.net) (hg : u.gatedOff c.op = false)
    (hk : if kindOf c.op c.words = .s then u.releasing a = false else u.busyAx a = false) : u.mayTake a c = true := by
  by_cases hs : kindOf c.op c.words = .s
  · rw [if_pos hs] at hk
    simp [State.mayTake, ht, hg, hs, hk]
  · rw [if_neg hs] at hk
    simp [State.mayTake, ht, hg, hs, hk]

theorem State.takeAxis_runs (hv : v.verdict a c.op = .ok) (hr : v.stagedRefuses a c.op = false) (hs : v.stages a c = false) :
    v.takeAxis a c = (v.setCmd (v.taken c)).axisOp a (v.taken c) := by
  simp only [State.takeAxis, hv, hr, hs, Bool.false_eq_true, if_false]
  rfl

theorem State.takeAxis_staged (hv : v.verdict a c.op = .ok) (hr : v.stagedRefuses a c.op = true) :
    v.takeAxis a c = v.fail c.id .stateRefused 0 0 v.net := by
  simp only [State.takeAxis, hv, hr, if_true]

end EngineEvents

/-- Settles O29: each clause is what one event does; the queue's head is taken from a state whose axes are as they were. -/
theorem theEngineActsOnWhatWaits : Obligations.TheEngineActsOnWhatWaits := by
  intro s u dt hu
  refine ⟨fun ver opc p hp ho hbad hm => exec_badOpcode hu hp ho hbad hm, fun q ho => ?crc, fun q n b hb => ?burst,
    fun q n tag c hc => ?stamped, fun a c v hc hv => ⟨fun ht hr hg hk => ?head, fun hn => ?stays⟩, fun a hn => ?empty⟩
  case crc =>
    have hid : portId q ≤ 3 := by cases q <;> decide
    exact ⟨_, exec_packetCrcDiscard hu ho, rfl, fun hw _ => State.fld_bump hw (by omega)⟩
  case burst =>
    rw [exec_burstBroken hu hb]
    refine ⟨fun hold => ?_, fun hnew hn => ?_⟩
    · rw [if_pos (.inl hold)]
      rfl
    · rw [if_neg (by omega)]
  case stamped =>
    rw [exec_stampedCommandDue hu hc]
    refine ⟨fun hn => ?_, fun hn hw => ?_, fun hn hr hg hk => ?_, fun a hn hr hg hk ha => ?_⟩
    · rw [if_neg (Nat.not_le.2 hn)]
    · rw [if_pos hn, State.takeNow_waits hw]
    · rw [if_pos hn, State.takeNow_module hr hg hk]
      rfl
    · rw [if_pos hn, State.takeNow_axis hr hg hk ha]
  case head =>
    have hverdict : v.verdict a c.op = u.verdict a c.op := by
      rw [hv]
      exact (AnswerOnly.setCmd.trans (.promote _)).verdict a c.op
    have htake (hw : u.verdict a c.op ≠ .waits) : exec (.queuedCommandTaken dt a) s = .next (v.takeAxis a (u.taken c)) := by
      rw [exec_queuedCommandTaken hu, State.takeHead_takes hc hv (State.mayTake_of ht hg hk) hr hw]
    have hrefuse {st : Status} (h : refusal (u.verdict a c.op) st) :
        exec (.queuedCommandTaken dt a) s = .next (v.fail c.id st 0 0 v.net) := by
      rw [htake (refusal_ne_waits h)]
      exact congrArg _ (State.takeAxis_refused (c := u.taken c) (hverdict ▸ h))
    refine ⟨fun h hst hsg => ?_, fun h hst => ?_, fun h => hrefuse (.inl ⟨h, rfl⟩), fun h => hrefuse (.inr (.inl ⟨h, rfl⟩)),
      fun h => hrefuse (.inr (.inr ⟨h, rfl⟩))⟩
    · rw [htake (by rw [h]; decide)]
      exact congrArg _ (State.takeAxis_runs (c := u.taken c) (hverdict.trans h) hst hsg)
    · rw [htake (by rw [h]; decide)]
      exact congrArg _ (State.takeAxis_staged (c := u.taken c) (hverdict.trans h) hst)
  case stays => rw [exec_queuedCommandTaken hu, State.takeHead_stays hc hn]
  case empty => rw [exec_queuedCommandTaken hu, State.takeHead_none hn]

end Sys2Proof.Machine

/-! SUPPORT. The accesses of a port to the register space, and the scrubber. -/

namespace Sys2Proof.Machine

section PortAccesses

variable {s t u w : State} {dt k r i : Nat} {q : Port} {ad x : Word}

/-! ## Write accesses (R314 to R322) -/

theorem State.busWrite_locked (h : u.locked = true) : u.busWrite q ad x = u := if_pos h

section Unlocked

variable (hl : u.locked = false)
include hl

theorem State.busWrite_keyed (hd : decodeAddr ad = .reg k) (hk : keyedReg k = true) :
    u.busWrite q ad x = u.valueWrite q k x := by
  simp only [State.busWrite, hl, hd, hk, Bool.false_eq_true, if_false, if_true]

theorem State.busWrite_complement (hd : decodeAddr ad = .reg k) (hk : keyedReg k = false) (hc : complementOf k = some r) :
    u.busWrite q ad x = u.complementWrite q r x := by
  simp only [State.busWrite, hl, hd, hk, hc, Bool.false_eq_true, if_false]

theorem State.busWrite_plain (hd : decodeAddr ad = .reg k) (hk : keyedReg k = false) (hc : complementOf k = none) :
    u.busWrite q ad x = (u.cancel q).writeKey q k x := by
  simp only [State.busWrite, hl, hd, hk, hc, Bool.false_eq_true, if_false]

theorem State.busWrite_window {o : Nat} (hd : decodeAddr ad = .pool o) :
    u.busWrite .host ad x = (u.cancel .host).windowWrite ad x := by
  simp only [State.busWrite, hl, hd, Bool.false_eq_true, if_false, if_true]

theorem State.busWrite_bit (hd : decodeAddr ad = .bit k i) : u.busWrite q ad x = u.aliasWrite q k i x := by
  simp only [State.busWrite, hl, hd, Bool.false_eq_true, if_false]

end Unlocked

section Open

variable (hu : u = s.advance dt) (ho : u.portOpen q = true)
include hu ho

theorem exec_keyedValueWrite (hd : decodeAddr ad = .reg k) (hk : keyedReg k = true) :
    exec (.keyedValueWrite dt q ad x) s = .next (u.busWrite q ad x) := by
  simp only [exec, execKeyedValueWrite, ← hu, ho, hd, hk, Bool.and_self, if_true]

theorem exec_keyedComplementWrite (hd : decodeAddr ad = .reg k) (hc : complementOf k = some r) :
    exec (.keyedComplementWrite dt q ad x) s = .next (u.busWrite q ad x) := by
  simp only [exec, execKeyedComplementWrite, ← hu, ho, hd, hc, Option.isSome_some, Bool.and_self, if_true]

theorem exec_bitAliasWrite (hb : ad.bit 29 = true) : exec (.bitAliasWrite dt q ad x) s = .next (u.busWrite q ad x) := by
  simp only [exec, execBitAliasWrite, ← hu, ho, hb, Bool.and_self, if_true]

theorem exec_registerWrite : exec (.registerWrite dt q ad x) s = .next (u.busWrite q ad x) := by
  simp only [exec, execRegisterWrite, ← hu, ho, if_true]

theorem exec_portcfgWrite (j : Fin 3) :
    exec (.portcfgWrite dt q j x) s = .next (u.busWrite q (keyAddr (Reg.cmdPortcfg j)) x) := by
  simp only [exec, execPortcfgWrite, ← hu, ho, if_true]

end Open

/-- A locked module takes no write access. -/
theorem exec_write_locked (hu : u = s.advance dt) (hl : u.locked = true) {c : Instr}
    (hc : c = .keyedValueWrite dt q ad x ∨ c = .keyedComplementWrite dt q ad x ∨ c = .keyedWriteTimeout dt q ∨
      c = .bitAliasWrite dt q ad x ∨ c = .registerWrite dt q ad x ∨ ∃ j : Fin 3, c = .portcfgWrite dt q j x) :
    exec c s = .next u := by
  have hbus (a y : Word) : u.busWrite q a y = u := State.busWrite_locked hl
  rcases hc with rfl | rfl | rfl | rfl | rfl | ⟨j, rfl⟩
  case inl =>
    simp only [exec, execKeyedValueWrite, ← hu, hbus, ite_self]
    split <;> rfl
  case inr.inl =>
    simp only [exec, execKeyedComplementWrite, ← hu, hbus, ite_self]
    split <;> rfl
  case inr.inr.inl => simp only [exec, execKeyedWriteTimeout, ← hu, hl, if_true]
  case inr.inr.inr.inl => simp only [exec, execBitAliasWrite, ← hu, hbus, ite_self]
  case inr.inr.inr.inr.inl => simp only [exec, execRegisterWrite, ← hu, hbus, ite_self]
  case inr.inr.inr.inr.inr => simp only [exec, execPortcfgWrite, ← hu, hbus, ite_self]

/-! ## The limit of a pending keyed write (R322) -/

theorem exec_keyedWriteTimeout (hu : u = s.advance dt) (hl : u.locked = false) :
    exec (.keyedWriteTimeout dt q) s = .next (u.expire q) := by
  simp only [exec, execKeyedWriteTimeout, ← hu, hl, Bool.false_eq_true, if_false]

theorem State.expire_none (h : u.keyed.get (portIx q) = none) : u.expire q = u := by simp only [State.expire, h]

theorem State.expire_some {p : KeyedPend} (h : u.keyed.get (portIx q) = some p) (he : p.expired = false) :
    u.expire q = if p.at_ + 256 < u.tb then (u.keyFail q 3).setPend q (some { p with expired := true }) else u := by
  simp only [State.expire, h, he, KeyedPend.late, Bool.not_false, Bool.true_and, decide_eq_true_eq]

/-! ## Bit aliases (R320) -/

theorem State.aliasWrite_keyed (h : keyedReg k = true ∨ complementOf k ≠ none) :
    u.aliasWrite q k i x = (u.cancel q).keyFail q 1 := by
  have hguard : (keyedReg k || (complementOf k).isSome) = true := by
    simpa [Option.isSome_iff_ne_none] using h
  simp only [State.aliasWrite, hguard, if_true]
  rfl

theorem State.aliasWrite_plain (hk : keyedReg k = false) (hc : complementOf k = none) : u.aliasWrite q k i x =
    if (u.cancel q).writeOnly k then u.cancel q
    else (u.cancel q).writeKey q k (((u.cancel q).unwound ((u.cancel q).wordKey k)).aliasWord k i x) := by
  simp only [State.aliasWrite, hk, hc, Option.isSome_none, Bool.or_false, Bool.false_eq_true, if_false]

/-! ## Credits (R54, R62) -/

theorem decodeAddr_portcfg : ∀ j : Fin 3, decodeAddr (keyAddr (Reg.cmdPortcfg j)) = .reg (Reg.cmdPortcfg j) ∧
    keyedReg (Reg.cmdPortcfg j) = false ∧ complementOf (Reg.cmdPortcfg j) = none := by decide

theorem State.writeKey_portcfg (j : Fin 3) : w.writeKey q (Reg.cmdPortcfg j) x = w.writePortcfg j x := by
  match j with
  | 0 => rfl
  | 1 => rfl
  | 2 => rfl

/-- The credits of the other accounts, with `n` for this one. -/
def State.creditTotal (w : State) (j : Fin 3) (n : Nat) : Nat :=
  n + ((List.finRange 3).filter fun l => l != j).foldl (fun (r : Nat) l => r + w.fld (Reg.cmdPortcfg l.val) 0 16) 0

/-- CREDITS of a port takes a new value, within the 32,768 tags (R54). -/
def State.setCredits (w : State) (j : Fin 3) (n : Nat) : State :=
  if n = w.fld (Reg.cmdPortcfg j) 0 16 then w
  else if 32768 < w.creditTotal j n then w.flag Reg.cmdCmdstat 1
  else { w.setFld (Reg.cmdPortcfg j) 0 16 n with
    creditBonus := w.creditBonus.set j (w.creditBonus.get j + (n - w.fld (Reg.cmdPortcfg j) 0 16))
    creditHold := w.creditHold.set j (w.creditHold.get j + (w.fld (Reg.cmdPortcfg j) 0 16 - n)) }

/-- A write of PORTCFG sets the credits, and then the ordering, unless the port has open tags (R62). -/
theorem State.writePortcfg_eq (j : Fin 3) {v : State} (hv : v = w.setCredits j (x.fld 0 16)) : w.writePortcfg j x =
    if x.bit 16 = v.bit (Reg.cmdPortcfg j) 16 then v
    else if (v.tags.any fun c => portId c.port == j.val) = true then v.flag Reg.cmdCmdstat 0
    else v.setBit (Reg.cmdPortcfg j) 16 (x.bit 16) := by
  have htotal (n : Nat) (l : List (Fin 3)) : (l.map fun j : Fin 3 => w.fld (Reg.cmdPortcfg j.val) 0 16).foldl (· + ·) n =
      n + l.foldl (fun (r : Nat) j => r + w.fld (Reg.cmdPortcfg j.val) 0 16) 0 := by
    have hassoc (m : Nat) : l.foldl (fun (r : Nat) j => r + w.fld (Reg.cmdPortcfg j.val) 0 16) (n + m) =
        n + l.foldl (fun (r : Nat) j => r + w.fld (Reg.cmdPortcfg j.val) 0 16) m := by
      induction l generalizing m with
      | nil => rfl
      | cons j l ih => rw [List.foldl_cons, List.foldl_cons, Nat.add_assoc, ih]
    rw [List.foldl_map]
    exact hassoc 0
  simp only [State.writePortcfg, htotal]
  rw [hv]
  rfl

/-! ## The scrubber (R324, R325) -/

/-- The three copies of a register are the same in two states. -/
structure SameCopies (k : Nat) (s t : State) : Prop where
  regs : storeGet regReset t.regs k = storeGet regReset s.regs k
  tmrB : storeGet regReset t.tmrB k = storeGet regReset s.tmrB k
  tmrC : storeGet regReset t.tmrC k = storeGet regReset s.tmrC k

theorem SameCopies.refl : SameCopies k s s := ⟨rfl, rfl, rfl⟩

theorem SameCopies.trans (h : SameCopies k s t) (g : SameCopies k t u) : SameCopies k s u :=
  ⟨g.regs.trans h.regs, g.tmrB.trans h.tmrB, g.tmrC.trans h.tmrC⟩

theorem SameCopies.reg (h : SameCopies k s t) : t.reg k = s.reg k := by
  simp only [State.reg, h.regs, h.tmrB, h.tmrC]

theorem SameCopies.foldl {α : Type} {f : State → α → State} (hf : ∀ s x, SameCopies k s (f s x)) (l : List α) (s : State) :
    SameCopies k s (l.foldl f s) :=
  List.foldlRecOn l f .refl fun _ h x _ => h.trans (hf _ x)

theorem SameCopies.setReg {j : Nat} (hj : k ≠ j) (v : Word) : SameCopies k s (s.setReg j v) := by
  unfold State.setReg
  split
  · exact ⟨storeGet_set_ne _ _ _ _ hj, storeGet_set_ne _ _ _ _ hj, storeGet_set_ne _ _ _ _ hj⟩
  · exact ⟨storeGet_set_ne _ _ _ _ hj, rfl, rfl⟩

/-- An item copied to the trace rings counts at most in the registers of lost items. -/
theorem SameCopies.trace (hk : k ∉ lostKeys) (it : TraceItem) : SameCopies k s (s.trace it) := by
  refine .foldl (fun t j => ?_) _ s
  have hj : k ≠ Reg.poolTracePtr j := by
    rintro rfl
    exact hk (by revert j; decide)
  dsimp only
  split
  · split
    · exact ⟨rfl, rfl, rfl⟩
    · exact (SameCopies.setReg hj _).trans ⟨rfl, rfl, rfl⟩
  · exact .refl

theorem SameCopies.raiseAt (hk : k ∉ lostKeys) (a b c d : Nat) (sc : Scope) : SameCopies k s (s.raiseAt a b c sc d) := by
  unfold State.raiseAt State.raiseItem
  dsimp only
  refine .trans ?_ (.trace hk _)
  exact ⟨rfl, rfl, rfl⟩

/-- A disagreement that is found is noted and raised. -/
theorem SameCopies.disagree (hk : k ∉ lostKeys) (j lo : Nat) : SameCopies k s (s.disagree j lo) := by
  unfold State.disagree
  dsimp only
  split
  · exact .raiseAt hk ..
  · refine .trans ?_ (.raiseAt hk ..)
    exact ⟨rfl, rfl, rfl⟩

theorem SameCopies.disagrees (hk : k ∉ lostKeys) (j : Nat) (l : List (Nat × Nat)) (s : State) :
    SameCopies k s (l.foldl (fun s f => s.disagree j f.1) s) :=
  SameCopies.foldl (fun _ f => SameCopies.disagree hk j f.1) l s

theorem not_mem_lostKeys_of_triplReg (h : triplReg k = true) : k ∉ lostKeys := by
  have hplain : ∀ j ∈ lostKeys, triplReg j = false := by decide
  exact fun hk => Bool.false_ne_true ((hplain k hk).symm.trans h)

theorem State.scrubWord_eq (h : t.justWritten k = false) :
    t.scrubWord k = (t.mismatch k).foldl (fun s f => s.disagree k f.1) (t.setReg k (t.reg k)) := by
  simp only [State.scrubWord, h, Bool.false_eq_true, if_false]

/-- The scrubber puts the vote into all three copies. -/
theorem State.scrubWord_copies (ht : triplReg k = true) (hj : t.justWritten k = false) (hw : t.Wf) :
    storeGet regReset (t.scrubWord k).regs k = t.reg k ∧ storeGet regReset (t.scrubWord k).tmrB k = t.reg k ∧
      storeGet regReset (t.scrubWord k).tmrC k = t.reg k := by
  have hsame : SameCopies k (t.setReg k (t.reg k)) (t.scrubWord k) :=
    by
    rw [State.scrubWord_eq hj]
    exact .disagrees (not_mem_lostKeys_of_triplReg ht) k _ _
  rw [hsame.regs, hsame.tmrB, hsame.tmrC]
  simp only [State.setReg, ht, if_true, storeGet_set hw.regs, storeGet_set hw.tmrB, storeGet_set hw.tmrC, and_self]

/-- It leaves every other register as it is, but for the counts of lost items. -/
theorem State.reg_scrubWord {j : Nat} (hj : t.justWritten k = false) (hne : j ≠ k) (hlost : j ∉ lostKeys) :
    (t.scrubWord k).reg j = t.reg j := by
  rw [State.scrubWord_eq hj]
  exact (SameCopies.disagrees hlost k _ _).reg.trans (State.reg_setReg_ne _ _ _ hne)

theorem State.reg_tripl (ht : triplReg k = true) : t.reg k =
    vote (storeGet regReset t.regs k) (storeGet regReset t.tmrB k) (storeGet regReset t.tmrC k) := if_pos ht

end PortAccesses

/-- Settles O48: each access is the write that its address and the lock call for; the scrubber's copies are the vote. -/
theorem registerWritesActAsTheirSpaceSays : Obligations.RegisterWritesActAsTheirSpaceSays := by
  intro s u w dt q ad x hu ho hw
  refine ⟨fun hl => ⟨fun k hd hk => ?value, fun k r hd hk hc => ?complement, fun p hp he => ?pending, fun hp => ?nothing,
    fun k i y hb hd hy => ?bitAlias, fun k hd hk hc => ?plain, fun o hd hq => ?window, fun j n m v hn hm hsame hchange => ?credits⟩,
    fun hl i hi => exec_write_locked hu hl hi, fun l t ht => ⟨?upsets, ?pass, fun k htr hj htw v hv r hr => ?scrub⟩⟩
  case value =>
    rw [exec_keyedValueWrite hu ho hd hk, State.busWrite_keyed hl hd hk, hw]
    rfl
  case complement => rw [exec_keyedComplementWrite hu ho hd hc, State.busWrite_complement hl hd hk hc]
  case pending =>
    rw [exec_keyedWriteTimeout hu hl, State.expire_some hp he]
    exact ⟨fun h => by rw [if_pos h], fun h => by rw [if_neg (Nat.not_lt.2 h)]⟩
  case nothing => rw [exec_keyedWriteTimeout hu hl, State.expire_none hp]
  case bitAlias =>
    rw [exec_bitAliasWrite hu ho hb, State.busWrite_bit hl hd, hw]
    refine ⟨fun hk => by rw [State.aliasWrite_keyed hk], fun hk hc hwo => ?_, fun hk hc hwo => ?_⟩
    · rw [State.aliasWrite_plain hk hc, if_pos hwo]
    · rw [State.aliasWrite_plain hk hc, hwo, hy, hw]
      rfl
  case plain => rw [exec_registerWrite hu ho, State.busWrite_plain hl hd hk hc, hw]
  case window =>
    subst hq
    rw [exec_registerWrite hu ho, State.busWrite_window hl hd, hw]
  case credits =>
    obtain ⟨hd, hk, hc⟩ := decodeAddr_portcfg j
    have hv : v = w.setCredits j (x.fld 0 16) := by
      subst hn hm
      by_cases heq : x.fld 0 16 = w.fld (Reg.cmdPortcfg j) 0 16
      · rw [State.setCredits, if_pos heq, hsame heq]
      · obtain ⟨hover, hfits⟩ := hchange heq _ rfl
        by_cases h : 32768 < w.creditTotal j (x.fld 0 16)
        · rw [State.setCredits, if_neg heq, if_pos h, hover h]
        · rw [State.setCredits, if_neg heq, if_neg h, hfits (Nat.not_lt.1 h)]
    rw [exec_portcfgWrite hu ho, State.busWrite_plain hl hd hk hc, ← hw, State.writeKey_portcfg, State.writePortcfg_eq j hv]
    refine ⟨fun h => by rw [if_pos h], fun h => ⟨fun hopen => ?_, fun hnone => ?_⟩⟩
    · rw [if_neg h, if_pos (by simpa using hopen)]
    · rw [if_neg h, if_neg (by simpa using hnone)]
  case upsets =>
    rw [ht, hu]
    rfl
  case pass =>
    rw [ht, hu]
    rfl
  case scrub =>
    have hvote : t.reg k = v := (State.reg_tripl htr).trans hv.symm
    obtain ⟨ha, hb, hc⟩ := State.scrubWord_copies htr hj htw
    have hreg : (t.scrubWord k).reg k = t.reg k := by rw [State.reg_tripl htr, ha, hb, hc, vote_self]
    rw [hr, ha, hb, hc]
    exact ⟨hvote, hvote, hvote, hreg, fun i hi hlost => State.reg_scrubWord hj hi (not_mem_lostKeys hlost)⟩

end Sys2Proof.Machine

/-! SUPPORT. The motion packets: the plan that each asks for, and its refusals. -/

namespace Sys2Proof.Machine

section MotionPackets

variable {s v y z w : State} {dt id ts commit b : Nat} {op : Op} {p : Packet} {a : AxisId} {c : Cmd} {p0 v0 vm vt acc dec : Rat}
  {x : Int} {rel nr : Bool} {ws : List Word} {i : Instr}

/-! ## The opcodes, with a splice instant that no stamp gives -/

theorem exec_moveAbs (h : s.RunsOn dt .moveAbs p a c v) : exec (.moveAbs dt p) s = .next (v.takeMove a c.id false p.words none) := by
  rw [h.exec_axisOp rfl, State.axisOp, h.opEq, h.words, h.startAt nofun]

theorem exec_moveRel (h : s.RunsOn dt .moveRel p a c v) : exec (.moveRel dt p) s = .next (v.takeMove a c.id true p.words none) := by
  rw [h.exec_axisOp rfl, State.axisOp, h.opEq, h.words, h.startAt nofun]

theorem exec_moveVel (h : s.RunsOn dt .moveVel p a c v) : exec (.moveVel dt p) s = .next (v.takeVel a c.id p.words none) := by
  rw [h.exec_axisOp rfl, State.axisOp, h.opEq, h.words, h.startAt nofun]

theorem exec_segRun (h : s.RunsOn dt .segRun p a c v) : exec (.segRun dt p) s = .next (v.takeRun a c.id p.words none) := by
  rw [h.exec_axisOp rfl, State.axisOp, h.opEq, h.words, h.startAt nofun]

/-! ## The splice instant (R91, Table 4-4) -/

theorem State.spliceAt_now (h : v.spliceAt a none = (ts, commit, y)) : v.net ≤ commit ∧
    commit ≤ v.net + (if v.slowLevel = true then 2400 else 1200) ∧ ts = commit + v.lead ∧ y = v.drawn.reach a ts := by
  simp only [State.spliceAt, Prod.mk.injEq] at h
  obtain ⟨hts, hcommit, hy⟩ := h
  refine ⟨by omega, ?_, by omega, hts ▸ hy.symm⟩
  rw [← hcommit]
  split
  · have := Nat.mod_lt (Config.commitDelay v.draws) (by decide : 0 < 2401)
    omega
  · have := Nat.mod_lt (Config.commitDelay v.draws) (by decide : 0 < 1201)
    omega

/-! ## What a command asks of PRO -/

section Splice

variable (hsp : v.spliceAt a none = (ts, commit, y)) (hat : (y.ax a).pro.at ts = (p0, v0))
include hsp hat

theorem State.askMotion_move : v.askMotion a (.move x vm acc dec nr) id none =
    if (nr && needsReversal p0 v0 x dec) = true then v.drawn.fail id .outOfRange 8 0 v.net
    else ((y.beginMotion a id).setPro a { ((y.beginMotion a id).ax a).pro with target := x }).putPlan a ts
      (.move id x vm acc dec) (y.cmdHdr (some id)) (planMove p0 v0 x vm acc dec) 0 := by
  simp only [State.askMotion, hsp, hat]
  rfl

theorem State.askMotion_vel : v.askMotion a (.vel vt acc dec nr) id none =
    if (nr && decide (v0 * vt < 0)) = true then v.drawn.fail id .outOfRange 6 0 v.net
    else (y.beginMotion a id).putPlan a ts (.vel id vt acc dec) (y.cmdHdr (some id)) (planVel p0 v0 vt acc dec).1
      (planVel p0 v0 vt acc dec).2 := by
  simp only [State.askMotion, hsp, hat]
  rfl

theorem State.askMotion_table (f : Option Nat) :
    v.askMotion a (.table b f) id none = v.drawn.planTable a ts p0 v0 b f id := by
  simp only [State.askMotion, hsp, hat]

end Splice

/-! ## Moves (R45, R93 to R99) -/

theorem State.takeMove_outOfRange {j : Nat} (h : v.moveValues a rel ws = .inl j) :
    v.takeMove a id rel ws none = v.fail id .outOfRange j 0 v.net := by
  simp only [State.takeMove, h]

theorem State.takeMove_move (h : v.moveValues a rel ws = .inr (.move x vm acc dec nr))
    (hsp : v.spliceAt a none = (ts, commit, y)) : v.takeMove a id rel ws none =
      if (v.restsUntil a ts && (v.traj a).1 == (x : Rat)) = true then v.moveNowhere a id x
      else v.askMotion a (.move x vm acc dec nr) id none := by
  simp only [State.takeMove, h, hsp]

theorem State.takeVel_outOfRange {j : Nat} (h : v.velValues a ws = .inl j) :
    v.takeVel a id ws none = v.fail id .outOfRange j 0 v.net := by
  simp only [State.takeVel, h]

theorem State.takeVel_vel {q : PlanReq} (h : v.velValues a ws = .inr q) :
    v.takeVel a id ws none = v.askMotion a q id none := by
  simp only [State.takeVel, h]

/-! ## Runs of a segment table (R101, R103) -/

theorem State.takeRun_slBad (h : v.slBad a = true) : v.takeRun a id ws none = v.fail id .outOfRange 0 0 v.net := by
  simp only [State.takeRun, h, if_true]

theorem State.takeRun_notOwner (h : v.slBad a = false) (ho : (v.blk ((wordAt ws 0).fld 0 15)).owner ≠ axisOwner a) :
    v.takeRun a id ws none = v.fail id .notOwner 0 0 v.net := by
  simp only [State.takeRun, h, ho, Bool.false_eq_true, if_false, ne_eq, not_false_eq_true, if_true]

theorem State.takeRun_owner (h : v.slBad a = false) (ho : (v.blk ((wordAt ws 0).fld 0 15)).owner = axisOwner a) :
    v.takeRun a id ws none = v.askMotion a (.table ((wordAt ws 0).fld 0 15)
      (if (wordAt ws 1).bit 16 then some ((wordAt ws 1).fld 0 16) else none)) id none := by
  simp only [State.takeRun, h, ho, Bool.false_eq_true, if_false, ne_eq, not_true_eq_false]

/-- A run as SEG_RUN plans it, from the state (p0, v0) at `ts`: `first` its block, `next` the entry it begins with. -/
def State.newRun (s : State) (a : AxisId) (id ts first : Nat) (next : Nat × Nat) (p0 v0 : Rat) : Run :=
  { cmd := id, hdr := s.cmdHdr (some id), first := first, next := some next, lastAt := none, loops := [], controls := 0
    fetched := [], endP := p0, endV := v0, endT := ts, wait := [], cur := none, bad := false, awaits := false
    blocks := s.chainOf a 32768 [] first, rejoining := false, rejoinAt := none, rejoinP := 0, rejoinLoops := [] }

/-- What the checks of a run's first entries come to. -/
def State.checkedRun (a : AxisId) (ts id : Nat) : FetchRes × State → State
  | (.ok r ns, s) => (s.reach a ts).beginRun a ts id r ns
  | (.ecc, s) => s.tableUe a id
  | (_, s) => s.fail id .outOfRange 0 0 s.net

theorem State.planTable_none : z.planTable a ts p0 v0 b none id =
    State.checkedRun a ts id (State.precheck a 16 (z.newRun a id ts b (b, 0) p0 v0) [] z) := by
  unfold State.planTable State.checkedRun
  rfl

theorem State.planTable_at {f : Nat} {pos : Nat × Nat} (h : z.findSeg (z.cmdHdr (some id)) a f (b, 0) = (.at_ pos, w)) :
    z.planTable a ts p0 v0 b (some f) id =
      State.checkedRun a ts id (State.precheck a 16 (w.newRun a id ts b pos p0 v0) [] w) := by
  simp only [State.planTable, h]
  unfold State.checkedRun
  rfl

theorem State.planTable_missing {f : Nat} (h : z.findSeg (z.cmdHdr (some id)) a f (b, 0) = (.missing, w)) :
    z.planTable a ts p0 v0 b (some f) id = w.fail id .outOfRange 0 0 w.net := by
  simp only [State.planTable, h]

theorem State.planTable_ecc {f : Nat} (h : z.findSeg (z.cmdHdr (some id)) a f (b, 0) = (.ecc, w)) :
    z.planTable a ts p0 v0 b (some f) id = w.tableUe a id := by
  simp only [State.planTable, h]

end MotionPackets

/-- Settles O26: each packet asks for its plan at the splice instant; a SEG_RUN's clauses are what the search and the checks of
its entries come to. -/
theorem motionCommandsAskForTheirPlan : Obligations.MotionCommandsAskForTheirPlan := by
  intro s v y dt p a c ts commit p0 v0 hsp hat
  refine ⟨State.spliceAt_now hsp, fun i op rel hi h => ?move, fun h => ?vel, fun h b r0 hb hr => ?run⟩
  case move =>
    have hexec : exec i s = .next (v.takeMove a c.id rel p.words none) := by
      rcases hi with ⟨rfl, rfl, rfl⟩ | ⟨rfl, rfl, rfl⟩
      · exact exec_moveAbs h
      · exact exec_moveRel h
    rw [hexec]
    refine ⟨fun j hj => by rw [State.takeMove_outOfRange hj], fun x vm acc dec nr hx here hhere => ?_⟩
    rw [State.takeMove_move hx hsp, ← hhere, State.askMotion_move hsp hat]
    refine ⟨fun hn hr w hw => ?_, fun hn hnr hrev => ?_, fun hn w hw => ?_⟩
    · rw [hn, if_neg Bool.false_ne_true, if_neg (by rcases hr with hr | hr <;> simp [hr]), hw]
    · rw [hn, if_neg Bool.false_ne_true, hnr, hrev, Bool.and_self, if_pos rfl]
    · rw [if_pos hn, hw]
      rfl
  case vel =>
    rw [exec_moveVel h]
    refine ⟨fun j hj => by rw [State.takeVel_outOfRange hj], fun vt acc dec nr hx => ?_⟩
    rw [State.takeVel_vel hx, State.askMotion_vel hsp hat]
    refine ⟨fun hr => ?_, fun hnr hrev => ?_⟩
    · rw [if_neg]
      rcases hr with hr | hr
      · simp [hr]
      · simp [not_lt.2 hr]
    · rw [if_pos (by simp [hnr, hrev])]
  case run =>
    subst hb
    have hrun : r0 = v.drawn.newRun a c.id ts ((wordAt p.words 0).fld 0 15) ((wordAt p.words 0).fld 0 15, 0) p0 v0 := hr
    rw [exec_segRun h]
    refine ⟨fun hbad => by rw [State.takeRun_slBad hbad], fun hbad ho => by rw [State.takeRun_notOwner hbad ho], fun hbad ho => ?_⟩
    rw [State.takeRun_owner hbad ho, State.askMotion_table hsp hat, hrun]
    refine ⟨fun r ns z hbit hp => ?whole, fun pos r ns z z' hbit hf hp => ?from_, fun f z hbit hp hf => ?bad, fun z hbit hf => ?missing,
      fun z hbit hp => ?ecc, fun z hbit hf => ?searchEcc⟩
    case whole =>
      rw [hbit, if_neg Bool.false_ne_true, State.planTable_none, hp]
      rfl
    case from_ =>
      rw [hbit, if_pos rfl, State.planTable_at hf]
      have hp' : State.precheck a 16 (z.newRun a c.id ts ((wordAt p.words 0).fld 0 15) pos p0 v0) [] z = (.ok r ns, z') := hp
      rw [hp']
      rfl
    case bad =>
      rw [hbit, if_neg Bool.false_ne_true, State.planTable_none, hp]
      rcases hf with ⟨j, k, rfl⟩ | ⟨k, rfl⟩ <;> rfl
    case missing => rw [hbit, if_pos rfl, State.planTable_missing hf]
    case ecc =>
      rw [hbit, if_neg Bool.false_ne_true, State.planTable_none, hp]
      rfl
    case searchEcc => rw [hbit, if_pos rfl, State.planTable_ecc hf]

end Sys2Proof.Machine

/-! SUPPORT. STOP, HOLD, RESUME and ABORT on the motion of an axis. -/

namespace Sys2Proof.Machine

section MotionEnders

variable {s v w y : State} {dt id j ts commit : Nat} {p : Packet} {a : AxisId} {c : Cmd} {p0 v0 : Rat} {e : Bool}

/-! ## The opcodes, with a splice instant that no stamp gives -/

theorem exec_stop (h : s.RunsOn dt .stop p a c v) :
    exec (.stop dt p) s = .next ((v.sendStarted c.id).takeStop a c.id ((wordAt p.words 0).bit 0) none) := by
  rw [h.exec_axisOp rfl, State.axisOp, h.opEq, h.words, h.startAt nofun]

theorem exec_hold (h : s.RunsOn dt .hold p a c v) :
    exec (.hold dt p) s = .next ((v.sendStarted c.id).takeHold a c.id none) := by
  rw [h.exec_axisOp rfl, State.axisOp, h.opEq, h.startAt nofun]

theorem exec_resume (h : s.RunsOn dt .resume p a c v) : exec (.resume dt p) s = .next (v.takeResume a c.id none) := by
  rw [h.exec_axisOp rfl, State.axisOp, h.opEq, h.startAt nofun]

theorem exec_abort (h : s.RunsOn dt .abort p a c v) : exec (.abort dt p) s = .next (v.takeAbort a c) := by
  rw [h.exec_axisOp rfl, State.axisOp, h.opEq]

/-! ## Stops (R111, R112, R137, R138) -/

theorem State.takeStop_following (h : (w.ax a).stp.follow.isSome = true) : w.takeStop a id e none =
    (((if e then w.purgeFollow a else w.stopCounting a).addEnder a id).setSt a .stopping).followEnd a := if_pos h

theorem State.takeStop_joins (hf : (w.ax a).stp.follow = none) (hst : (w.ax a).st = .stopping)
    (h : e = false ∨ (w.ax a).pro.motion.emergency = true) : w.takeStop a id e none = w.addAtRest a [(id, .done)] := by
  have hne : (e && !(w.ax a).pro.motion.emergency) = false := by rcases h with rfl | h <;> simp [*]
  simp [State.takeStop, hf, hst, hne]

theorem State.takeStop_replaces (hf : (w.ax a).stp.follow = none) (hst : (w.ax a).st = .stopping)
    (h : (w.ax a).pro.motion.emergency = false) : w.takeStop a id true none =
      (w.addAtRest a ((w.ax a).pro.failing ++ [(id, .done)])).askStop a true (some id) none := by
  simp [State.takeStop, hf, hst, h]

theorem State.takeStop_begins (hf : (w.ax a).stp.follow = none) (hst : (w.ax a).st ≠ .stopping) :
    w.takeStop a id e none = ((w.supersede a id).addAtRest a [(id, .done)]).askStop a e (some id) none := by
  simp [State.takeStop, hf, hst]

theorem State.askStop_now (hsp : v.spliceAt a none = (ts, commit, y)) : v.askStop a e (some id) none = y.stopAt a ts e (some id) := by
  simp only [State.askStop, hsp]

theorem State.stopAt_resting (h : y.restsUntil a ts = true) : y.stopAt a ts e (some id) = y.stopHere a := if_pos h

/-- The deceleration of a stop from `ts` on: EDEC, or D_s (R111). -/
def State.stopRate (s : State) (a : AxisId) (ts : Nat) (emergency : Bool) : Rat :=
  if emergency then s.edec a else stopDecel (s.stopLimit a) ((s.ax a).pro.slowing ts) (s.edec a)

theorem State.ax_setSt_self (st : AxState) : (s.setSt a st).ax a = { s.ax a with st := st } := State.ax_setAx_self ..

theorem State.stopRate_setSt (st : AxState) : (s.setSt a st).stopRate a ts e = s.stopRate a ts e := by
  simp only [State.stopRate, State.stopLimit, State.ax_setSt_self]
  rfl

theorem State.stopAt_moving (hat : (y.ax a).pro.at ts = (p0, v0)) (h : y.restsUntil a ts = false) :
    y.stopAt a ts e (some id) = (y.setSt a .stopping).putPlan a ts (.stop e) (y.cmdHdr (some id))
      (planStop p0 v0 (y.stopRate a ts e) (if e then .estop else .stop)) 0 := by
  have hpro : ((y.setSt a .stopping).ax a).pro = (y.ax a).pro := by rw [State.ax_setSt_self]
  have hplan : (y.setSt a .stopping).planStopAt a ts e (y.cmdHdr (some id)) =
      (y.setSt a .stopping).putPlan a ts (.stop e) (y.cmdHdr (some id)) (planStop p0 v0
        ((y.setSt a .stopping).stopRate a ts e) (if e then .estop else .stop)) 0 := by
    simp only [State.planStopAt, hpro, hat, State.stopRate]
  rw [State.stopAt, h, if_neg Bool.false_ne_true, hplan, State.stopRate_setSt]

/-! ## Suspending (R113) -/

/-- A run of a table that dwells or waits is suspended at once (Table 4-6). -/
def State.holdsNow (s : State) (a : AxisId) : Bool :=
  (match (s.ax a).pro.motion with | .table _ => true | _ => false) && s.restsUntil a (s.net + 1)

theorem State.holdsNow_iff :
    y.holdsNow a = true ↔ (∃ j, (y.ax a).pro.motion = .table j) ∧ y.restsUntil a (y.net + 1) = true := by
  rw [State.holdsNow, Bool.and_eq_true]
  cases (y.ax a).pro.motion <;> simp

/-- The state with the motion of the axis suspended as `susp`, its run as `run`; the HOLD completes at rest. -/
def State.suspend (s : State) (a : AxisId) (id : Nat) (susp : Suspended) (run : Option Run) : State :=
  (s.setPro a { (s.ax a).pro with susp := susp, run := run }).addAtRest a [(id, .done)]

/-- The command that a HOLD suspends is marked so, if it is still open. -/
def State.markSuspended (s : State) : Option Cmd → State
  | some c => s.setCmd { c with place := .suspended }
  | none => s

theorem State.takeHold_eq {o : Option Cmd} {m : Pro} (hsp : w.spliceAt a none = (ts, commit, y)) (hm : (y.ax a).pro = m)
    (ho : m.motion.suspends.cmd?.bind y.cmd = o) : w.takeHold a id none =
      if y.holdsNow a then ((y.markSuspended o).suspend a id (if o.isSome then m.motion.suspends else .none)
        (m.interrupted (if y.holdsNow a then y.net else ts))).stopHere a
      else ((y.markSuspended o).suspend a id (if o.isSome then m.motion.suspends else .none)
        (m.interrupted (if y.holdsNow a then y.net else ts))).stopAt a (if y.holdsNow a then y.net else ts) false (some id) := by
  subst ho hm
  rw [State.takeHold, hsp]
  rfl

theorem State.takeHold_now {o : Option Cmd} {m : Pro} (hsp : w.spliceAt a none = (ts, commit, y)) (hm : (y.ax a).pro = m)
    (ho : m.motion.suspends.cmd?.bind y.cmd = o) (hn : y.holdsNow a = true) : w.takeHold a id none =
      ((y.markSuspended o).suspend a id (if o.isSome then m.motion.suspends else .none) (m.interrupted y.net)).stopHere a := by
  simp only [State.takeHold_eq hsp hm ho, hn, if_true]

theorem State.takeHold_later {o : Option Cmd} {m : Pro} (hsp : w.spliceAt a none = (ts, commit, y)) (hm : (y.ax a).pro = m)
    (ho : m.motion.suspends.cmd?.bind y.cmd = o) (hn : y.holdsNow a = false) : w.takeHold a id none =
      ((y.markSuspended o).suspend a id (if o.isSome then m.motion.suspends else .none) (m.interrupted ts)).stopAt a ts false
        (some id) := by
  simp only [State.takeHold_eq hsp hm ho, hn, Bool.false_eq_true, if_false]

/-! ## Resuming (R114, R115) -/

theorem State.takeResume_none (h : (v.ax a).pro.susp = .none) : v.takeResume a id none = v.fail id .stateRefused 0 0 v.net := by
  simp only [State.takeResume, h]

section Splice

variable (hsp : v.spliceAt a none = (ts, commit, y)) (hat : (y.ax a).pro.at ts = (p0, v0))
include hsp hat

theorem State.takeResume_move {x : Int} {vm acc dec : Rat} (h : (v.ax a).pro.susp = .move j x vm acc dec) :
    v.takeResume a id none = (y.resumeWith a id j commit).putPlan a ts (.move j x vm acc dec) (y.cmdHdr (some j))
      (planMove p0 v0 x vm acc dec) 0 := by
  simp only [State.takeResume, h, hsp, hat]

theorem State.takeResume_vel {vt acc dec : Rat} (h : (v.ax a).pro.susp = .vel j vt acc dec) :
    v.takeResume a id none = (y.resumeWith a id j commit).putPlan a ts (.vel j vt acc dec) (y.cmdHdr (some j))
      (planVel p0 v0 vt acc dec).1 (planVel p0 v0 vt acc dec).2 := by
  simp only [State.takeResume, h, hsp, hat]

end Splice

/-- What a suspended run does once its rejoin entry has been looked for. -/
def State.rejoined (a : AxisId) (id c : Nat) (r : Run) : Rejoin × State → State
  | (.missing, s) => s.fail id .outOfRange 0 0 s.net
  | (.ecc, s) => s.tableUe a id
  | (.at_ next pos loops, s) => s.resumeRun a id c r next pos loops none

section Table

variable {r : Run} (h : (v.ax a).pro.susp = .table j) (hr : (v.ax a).pro.run = some r)
include h hr

theorem State.takeResume_outOfRange (hq : v.proQ a 0 ≤ 0 ∨ v.proQ a 2 ≤ 0 ∨ v.proQ a 4 ≤ 0) :
    v.takeResume a id none = v.fail id .outOfRange 0 0 v.net := by
  simp only [State.takeResume, h, hr, hq, if_true]

theorem State.takeResume_table (hv : 0 < v.proQ a 0) (ha : 0 < v.proQ a 2) (hd : 0 < v.proQ a 4) :
    v.takeResume a id none = State.rejoined a id j r (v.rejoinPoint a r) := by
  simp only [State.takeResume, h, hr, not_le.2 hv, not_le.2 ha, not_le.2 hd, or_self, if_false]
  rfl

end Table

/-! ## Aborting (R65, R116) -/

/-- The commands that an ABORT means and that it can end. -/
def State.abortHits (s : State) (a : AxisId) (c : Cmd) (k : Word) : List Cmd :=
  s.tags.filter fun d => (d.id != c.id && d.on a && d.sameOrigin c.port c.src && (k.bit 16 || d.tag == k.fld 0 16)) &&
    (d.waiting || d.place == .staged || d.stoppable)

theorem State.RunsOn.takeAbort {k : Word} {hit : List Cmd} (h : s.RunsOn dt .abort p a c v) (hk : k = wordAt p.words 0)
    (hhit : hit = v.abortHits a c k) : v.takeAbort a c =
      if hit.isEmpty then v.fail c.id .nothingToAbort 0 (if k.bit 16 then 0 else k.fld 0 16) v.net
      else if hit.any fun d => d.stoppable then hit.foldl (fun t d => t.abortOne a c.id none d) (v.sendStarted c.id)
      else (hit.foldl (fun t d => t.abortOne a c.id none d) (v.sendStarted c.id)).done c.id := by
  subst hk hhit
  simp only [State.takeAbort, State.abortHits, h.words, h.startAt nofun, List.filter_filter, Bool.and_comm]

end MotionEnders

/-- Settles O28: what each packet does is what its command comes to on the motion in force; the ABORT's by what it hits. -/
theorem stopsAndSuspensionsActOnTheMotion : Obligations.StopsAndSuspensionsActOnTheMotion := by
  intro s v w dt p a c hw
  have hax : w.ax a = v.ax a := by rw [hw, State.ax_sendStarted]
  refine ⟨fun h e he => ?stop, fun h ts commit y q now hsp hq hnow => ?hold, fun h ts commit y p0 v0 hsp hat => ?resume,
    fun h hit k hk hhit => ?abort⟩
  case stop =>
    rw [exec_stop h, ← hw, ← he, ← hax]
    refine ⟨fun hf => by rw [State.takeStop_following hf], fun hf hst => ⟨fun hj => by rw [State.takeStop_joins hf hst hj],
      fun ht hm => by rw [ht, State.takeStop_replaces hf hst hm]⟩, fun hf hst u ts commit y p0 v0 d hu hsp hat hd => ?_⟩
    rw [State.takeStop_begins hf hst, ← hu, State.askStop_now hsp]
    exact ⟨fun hr => by rw [State.stopAt_resting hr], fun hr => by rw [State.stopAt_moving hat hr, hd]; rfl⟩
  case hold =>
    have hnow' : y.holdsNow a = now := Bool.eq_iff_iff.2 (State.holdsNow_iff.trans (hq ▸ hnow.symm))
    rw [exec_hold h, ← hw]
    refine ⟨fun d u hd hu => ⟨fun hn => ?_, fun hn => ?_⟩, fun hd hn => ?_⟩
    · rw [State.takeHold_later hsp hq.symm hd (hnow'.trans hn), hu, hq]
      rfl
    · rw [State.takeHold_now hsp hq.symm hd (hnow'.trans hn), hu, hq]
      rfl
    · rw [State.takeHold_later hsp hq.symm hd (hnow'.trans hn), hq]
      rfl
  case resume =>
    rw [exec_resume h]
    refine ⟨fun hs => by rw [State.takeResume_none hs], fun j x vm acc dec hs => by rw [State.takeResume_move hsp hat hs],
      fun j vt acc dec hs => by rw [State.takeResume_vel hsp hat hs], fun j r hs hr =>
      ⟨fun hq => by rw [State.takeResume_outOfRange hs hr hq], fun hv ha hd => ?_⟩⟩
    rw [State.takeResume_table hs hr hv ha hd]
    exact ⟨fun next pos loops z hz => by rw [hz]; rfl, fun z hz => by rw [hz]; rfl, fun z hz => by rw [hz]; rfl⟩
  case abort =>
    rw [exec_abort h, h.takeAbort hk hhit, ← hw]
    refine ⟨fun hn => by rw [hn]; rfl, fun hn hs => ?_, fun ⟨d, hd, hs⟩ => ?_⟩
    · have hnone : (hit.any fun d => d.stoppable) = false := List.any_eq_false.2 fun d hd => by simp [hs d hd]
      simp [hn, hnone]
    · simp [List.ne_nil_of_mem hd, List.any_eq_true.2 ⟨d, hd, hs⟩]

end Sys2Proof.Machine

/-! SUPPORT. That only the commands which may write the pool change a byte of it. -/

namespace Sys2Proof.Machine

/-- What a command outside `mayWritePool` does keeps the pool memory: each is made of operations that keep it. -/
theorem exec_keepsPool {c : Instr} {s : State} (h : mayWritePool c = false) : KeptNext true false s (exec c s) := by
  cases c with
  | packetCrcDiscard => exact execPacketCrcDiscard_kept
  | badOpcode => exact execBadOpcode_kept
  | burstBroken => exact execBurstBroken_kept
  | entryFetch => exact execEntryFetch_kept
  | segmentCommit => exact execSegmentCommit_kept
  | splice => exact execSplice_kept
  | segmentEnd => exact execSegmentEnd_kept
  | waitStampReached => exact execWaitStampReached_kept
  | edgeSolve => exact execEdgeSolve_kept
  | edgeRelease => exact execEdgeRelease_kept
  | setpointEffect => exact execSetpointEffect_kept
  | followPulse => exact execFollowPulse_kept
  | gridInstant => exact execGridInstant_kept
  | brakeWaitEnd => exact execBrakeWaitEnd_kept
  | releaseBrakeWaitEnd => exact execReleaseBrakeWaitEnd_kept
  | releaseEnd => exact execReleaseEnd_kept
  | holdTimerExpiry => exact execHoldTimerExpiry_kept
  | tableLoad => exact execTableLoad_kept
  | tableLoadDone => exact execTableLoadDone_kept
  | tableSwap => exact execTableSwap_kept
  | chopperCrossing => exact execChopperCrossing_kept
  | blankingEnd => exact execBlankingEnd_kept
  | offTimeEnd => exact execOffTimeEnd_kept
  | carrierBoundary => exact execCarrierBoundary_kept
  | legEdge => exact execLegEdge_kept
  | dutyArrival => exact execDutyArrival_kept
  | halfWrite => exact execHalfWrite_kept
  | sampleStrobe => exact execSampleStrobe_kept
  | sampleArrival => exact execSampleArrival_kept
  | icoilBlind => exact execIcoilBlind_kept
  | stall => exact execStall_kept
  | rtrackDone => exact execRtrackDone_kept
  | frozenWindowClose => exact execFrozenWindowClose_kept
  | followErr => exact execFollowErr_kept
  | freezeWrite => exact execFreezeWrite_kept
  | freezeEnd => exact execFreezeEnd_kept
  | modecfgWrite => exact execModecfgWrite_kept
  | fbEdge => exact execFbEdge_kept
  | speedWindowEnd => exact execSpeedWindowEnd_kept
  | standstillTimeout => exact execStandstillTimeout_kept
  | latchTrigger => exact execLatchTrigger_kept
  | lattrig => exact execLattrig_kept
  | echoPulse => exact execEchoPulse_kept
  | fbkCfgWrite => exact execFbkCfgWrite_kept
  | slotcfgWrite => exact execSlotcfgWrite_kept
  | echoConfigWrite => exact execEchoConfigWrite_kept
  | stpCfgWrite => exact execStpCfgWrite_kept
  | chpCfgWrite => exact execChpCfgWrite_kept
  | proParamWrite => exact execProParamWrite_kept
  | scSense => exact execScSense_kept
  | shuntOc => exact execShuntOc_kept
  | vgUvlo => exact execVgUvlo_kept
  | vgRecovery => exact execVgRecovery_kept
  | bootUvlo => exact execBootUvlo_kept
  | bootstrapRefresh => exact execBootstrapRefresh_kept
  | prechargeDone => exact execPrechargeDone_kept
  | senseDisagree => exact execSenseDisagree_kept
  | noCurrent => exact execNoCurrent_kept
  | autoDiagDone => exact execAutoDiagDone_kept
  | shrefLost => exact execShrefLost_kept
  | busOv => exact execBusOv_kept
  | busUv => exact execBusUv_kept
  | linkCrc => exact execLinkCrc_kept
  | linkLost => exact execLinkLost_kept
  | killMaskChange => exact execKillMaskChange_kept
  | drvenLow => exact execDrvenLow_kept
  | drvenClearing => exact execDrvenClearing_kept
  | tileWarm => exact execTileWarm_kept
  | tileOt => exact execTileOt_kept
  | offstateDiagDone => exact execOffstateDiagDone_kept
  | selftestDone => exact execSelftestDone_kept
  | axisReadyChange => exact execAxisReadyChange_kept
  | tilePowerOn => exact execTilePowerOn_kept
  | tripActive => exact execTripActive_kept
  | tripClear => exact execTripClear_kept
  | delayLineSwap => exact execDelayLineSwap_kept
  | guyHeadPulse => exact execGuyHeadPulse_kept
  | guyPulseAccepted => exact execGuyPulseAccepted_kept
  | guyLost => exact execGuyLost_kept
  | causeRaised => exact execCauseRaised_kept
  | flueWire => exact execFlueWire_kept
  | flueStuck => exact execFlueStuck_kept
  | ss1StopEnd => exact execSs1StopEnd_kept
  | retryRelease => exact execRetryRelease_kept
  | retirementRecordWritten => exact execRetirementRecordWritten_kept
  | emberWriteDone => exact execEmberWriteDone_kept
  | errpinWrite => exact execErrpinWrite_kept
  | errPulseEnd => exact execErrPulseEnd_kept
  | tmrScrub => exact execTmrScrub_kept
  | keyedWriteTimeout => exact execKeyedWriteTimeout_kept
  | hostWindowRead => exact execHostWindowRead_kept
  | poolLinkWrite => exact execPoolLinkWrite_kept
  | traceEnable => exact execTraceEnable_kept
  | poolScrub => exact execPoolScrub_kept
  | portLinkChange => exact execPortLinkChange_kept
  | nodeAddrWrite => exact execNodeAddrWrite_kept
  | ptpMessage => exact execPtpMessage_kept
  | ptpTransparentForward => exact execPtpTransparentForward_kept
  | ptpLost => exact execPtpLost_kept
  | ptpRequalified => exact execPtpRequalified_kept
  | sourceCommit => exact execSourceCommit_kept
  | epochWrite => exact execEpochWrite_kept
  | groupStartInstant => exact execGroupStartInstant_kept
  | groupWithdraw => exact execGroupWithdraw_kept
  | refclkMeasure => exact execRefclkMeasure_kept
  | pllLock => exact execPllLock_kept
  | clockSwitchStep => exact execClockSwitchStep_kept
  | rcperMeasure => exact execRcperMeasure_kept
  | rcBad => exact execRcBad_kept
  | clockLost => exact execClockLost_kept
  | clockReturn => exact execClockReturn_kept
  | calRoundDone => exact execCalRoundDone_kept
  | gateWrite => exact execGateWrite_kept
  | nresetLow => exact execNresetLow_kept
  | kindlingStep5 => exact execKindlingStep5_kept
  | bootImageRead => exact execBootImageRead_kept
  | kindlingEnd => exact execKindlingEnd_kept
  | powerFail => exact execPowerFail_kept
  | vioFail => exact execVioFail_kept
  | shutdownEnd => exact execShutdownEnd_kept
  | vcoreUv => exact execVcoreUv_kept
  | pwrReqGo => exact execPwrReqGo_kept
  | vcoreOk => exact execVcoreOk_kept
  | plRampStep => exact execPlRampStep_kept
  | plChangeDone => exact execPlChangeDone_kept
  | pl0VcoreRemoval => exact execPl0VcoreRemoval_kept
  | hearthSwitchover => exact execHearthSwitchover_kept
  | calendarCycle => exact execCalendarCycle_kept
  | calendarMeasure => exact execCalendarMeasure_kept
  | ramdataAccess => exact execRamdataAccess_kept
  | fastDecayEnd => exact execFastDecayEnd_kept
  | tripInputHigh => exact execTripInputHigh_kept
  | extest => exact execExtest_kept
  | vioRise => exact execVioRise_kept
  | hearthContentsLost => exact execHearthContentsLost_kept
  | fluePairRestored => exact execFluePairRestored_kept
  | syncInterval => exact execSyncInterval_kept
  | reinstatementEnded => exact execReinstatementEnded_kept
  | _ => nomatch h

/-- Settles O7: such a command goes on to one state, and that has the same pool memory. -/
theorem otherCommandsLeaveThePoolAlone : Obligations.OtherCommandsLeaveThePoolAlone := by
  intro c s t hc hexec o
  obtain ⟨t', hexec', hkept⟩ := exec_keepsPool (s := s) hc
  obtain rfl : t' = t := by simpa [hexec'] using hexec
  exact congrArg (storeGet memDefault · o) (hkept.mem rfl)

end Sys2Proof.Machine

/-! SUPPORT. The pool's packets: which blocks an allocation takes, which bytes a write changes, and what each packet does. -/

namespace Sys2Proof.Machine

section PoolMemory

variable {s t : State} {o j dw ax : Nat} {bs : List Byte} {ws : List Word} {x : Word} {h : Hdr}

/-! ## What the POOL item of a request leaves alone (Table 1-3) -/

@[simp] theorem State.poolItem_mem : (s.poolItem h ax).mem = s.mem := State.trace_mem
@[simp] theorem State.poolItem_ecc : (s.poolItem h ax).ecc = s.ecc := State.trace_ecc
@[simp] theorem State.poolItem_desc : (s.poolItem h ax).desc = s.desc := State.trace_desc
@[simp] theorem State.poolItem_zeroing : (s.poolItem h ax).zeroing = s.zeroing := State.trace_zeroing
@[simp] theorem State.poolItem_axes : (s.poolItem h ax).axes = s.axes := State.trace_axes
@[simp] theorem State.poolItem_tags : (s.poolItem h ax).tags = s.tags := State.trace_tags

theorem State.Wf.poolItem (hs : s.Wf) : (s.poolItem h ax).Wf := (State.poolItem_kept (mq := true) (lk := true) .refl).wf hs

/-! ## Bytes and words (R67, R68) -/

theorem State.byte_congr (hm : t.mem = s.mem) (o : Nat) : t.byte o = s.byte o := by rw [State.byte, State.byte, hm]

theorem State.word_congr (hm : t.mem = s.mem) (o : Nat) : t.word o = s.word o := by simp only [State.word, State.byte_congr hm]

theorem State.blk_congr (hd : t.desc = s.desc) (k : Nat) : t.blk k = s.blk k := by rw [State.blk, State.blk, hd]

/-- Writing bytes changes nothing but the memory. -/
theorem State.setBytes_eq : s.setBytes o bs = { s with mem := (s.setBytes o bs).mem } := by
  induction bs generalizing s o with
  | nil => rfl
  | cons b bs ih => exact ih (s := s.setByte o b)

theorem State.setBytes_memWf (hs : Memory.wf s.mem = true) : Memory.wf (s.setBytes o bs).mem = true := by
  induction bs generalizing s o with
  | nil => exact hs
  | cons b bs ih => exact ih (storeSet_wf hs o b)

theorem State.setBytes_append (as : List Byte) : s.setBytes o (as ++ bs) = (s.setBytes o as).setBytes (o + as.length) bs := by
  induction as generalizing s o with
  | nil => rfl
  | cons a as ih => exact ih.trans (by rw [List.length_cons, Nat.add_right_comm, Nat.add_assoc]; rfl)

/-- The bytes written read as written, every other as before. -/
theorem State.byte_setBytes (hs : Memory.wf s.mem = true) : (s.setBytes o bs).byte j =
    if o ≤ j ∧ j < o + bs.length then bs.getD (j - o) 0 else s.byte j := by
  induction bs generalizing s o with
  | nil => exact (if_neg fun h => absurd h.2 (Nat.not_lt.2 h.1)).symm
  | cons b bs ih =>
    have hbyte : (s.setByte o b).byte j = if j = o then b else s.byte j := storeGet_set hs o b j
    refine (ih (s := s.setByte o b) (storeSet_wf hs o b)).trans ?_
    rw [hbyte, List.length_cons]
    rcases Nat.lt_trichotomy j o with hlt | rfl | hgt
    · rw [if_neg (by omega), if_neg (by omega), if_neg (by omega)]
    · rw [if_neg (by omega), if_pos rfl, if_pos (by omega), Nat.sub_self, List.getD_cons_zero]
    · obtain ⟨d, rfl⟩ : ∃ d, j = o + 1 + d := ⟨j - (o + 1), by omega⟩
      have hd : o + 1 + d - o = d + 1 := by omega
      rw [if_neg (by omega : o + 1 + d ≠ o), hd, List.getD_cons_succ, Nat.add_sub_cancel_left, ← Nat.add_assoc,
        Nat.add_right_comm o]
      congr 1
      simp only [eq_iff_iff]
      omega

theorem State.byte_setBytes_apart (hs : Memory.wf s.mem = true) (hj : j < o ∨ o + bs.length ≤ j) :
    (s.setBytes o bs).byte j = s.byte j := by
  rw [State.byte_setBytes hs, if_neg (by omega)]

theorem State.byte_setBytes_at (hs : Memory.wf s.mem = true) (hj : j < bs.length) :
    (s.setBytes o bs).byte (o + j) = bs.getD j 0 := by
  rw [State.byte_setBytes hs, if_pos (by omega), Nat.add_sub_cancel_left]

theorem State.setWord_eq : s.setWord o x = s.setBytes o x.bytes := rfl

theorem State.setWord_ecc : (s.setWord o x).ecc = s.ecc := by rw [State.setWord_eq, State.setBytes_eq]
theorem State.setWord_regs : (s.setWord o x).regs = s.regs := by rw [State.setWord_eq, State.setBytes_eq]
theorem State.setWord_desc : (s.setWord o x).desc = s.desc := by rw [State.setWord_eq, State.setBytes_eq]
theorem State.setWord_axes : (s.setWord o x).axes = s.axes := by rw [State.setWord_eq, State.setBytes_eq]
theorem State.setWord_tags : (s.setWord o x).tags = s.tags := by rw [State.setWord_eq, State.setBytes_eq]

/-- Words whose bytes are the same are the same. -/
theorem State.word_ext {b : Nat} (hb : ∀ i < 4, t.byte (o + i) = s.byte (b + i)) : t.word o = s.word b := by
  have h0 : t.byte o = s.byte b := hb 0 (by decide)
  rw [State.word, State.word, h0, hb 1 (by decide), hb 2 (by decide), hb 3 (by decide)]

theorem State.word_setWord (hs : Memory.wf s.mem = true) : (s.setWord o x).word o = x := by
  have hbyte (i : Nat) (hi : i < 4) : (s.setWord o x).byte (o + i) = x.bytes.getD i 0 := by
    rw [State.setWord_eq, State.byte_setBytes_at hs (by exact hi)]
  have h0 : (s.setWord o x).byte o = x.bytes.getD 0 0 := hbyte 0 (by decide)
  rw [State.word, h0, hbyte 1 (by decide), hbyte 2 (by decide), hbyte 3 (by decide)]
  exact ofBytes_bytes x

theorem State.setBytes_words (w : Word) :
    s.setBytes o ((w :: ws).flatMap Word.bytes) = (s.setWord o w).setBytes (o + 4) (ws.flatMap Word.bytes) :=
  State.setBytes_append w.bytes

/-- Of words written one behind the other each reads as written. -/
theorem State.word_setBytes (hs : Memory.wf s.mem = true) {i : Nat} (hi : i < ws.length) :
    (s.setBytes o (ws.flatMap Word.bytes)).word (o + 4 * i) = wordAt ws i := by
  induction ws generalizing s o i with
  | nil => exact absurd hi (Nat.not_lt_zero i)
  | cons w ws ih =>
    have hw : Memory.wf (s.setWord o w).mem = true := State.setWord_eq ▸ State.setBytes_memWf hs
    rw [State.setBytes_words]
    cases i with
    | zero =>
      refine (State.word_ext (b := o) fun j hj => ?_).trans (State.word_setWord hs)
      exact State.byte_setBytes_apart hw (.inl (by omega))
    | succ i =>
      have ho : o + 4 * (i + 1) = o + 4 + 4 * i := by omega
      rw [ho]
      exact ih hw (by simpa using hi)

/-! ## Error correction (R80, R81) -/

theorem State.eccRead_of_nil (he : s.ecc = []) : s.eccRead dw = (false, s) := by rw [State.eccRead, he]; rfl

theorem State.eccReads_of_nil (he : s.ecc = []) {n : Nat} : s.eccReads n dw = (false, s) := by
  induction n generalizing dw with
  | zero => rfl
  | succ n ih => rw [State.eccReads, State.eccRead_of_nil he]; dsimp only; rw [ih]; rfl

/-- A doubleword with a double-bit error is counted, and poisons its block. -/
theorem State.eccRead_double {i : Nat} (he : (s.ecc.find? fun e => e.1 == dw) = some (i, true))
    (ht : t = s.bump Reg.poolEccstat 16 8) : s.eccRead dw = (true, t.setBlk (dw / 32) { t.blk (dw / 32) with poison := true }) := by
  rw [ht, State.eccRead, he]

theorem State.poolPut_of_nil (he : s.ecc = []) : s.poolPut o x = (false, s.setWord o x) := by
  rw [State.poolPut, State.eccRead_of_nil he]; rfl

/-- Without an error in the pool, words are put one behind the other. -/
theorem State.poolPuts_of_nil (he : s.ecc = []) : s.poolPuts ws o = (false, s.setBytes o (ws.flatMap Word.bytes)) := by
  induction ws generalizing s o with
  | nil => rfl
  | cons w ws ih =>
    rw [State.poolPuts, State.poolPut_of_nil he, State.setBytes_words]
    dsimp only
    rw [ih (State.setWord_ecc.trans he)]
    rfl

end PoolMemory

section Allocation

variable {s t u : State} {l ks : List Nat} {j k m n owner lender : Nat} {d : Desc}

/-! ## The blocks that cannot be allocated, in rising order -/

@[simp] theorem mem_insertNat : j ∈ insertNat k l ↔ j = k ∨ j ∈ l := by
  induction l with
  | nil => exact List.mem_cons
  | cons i l ih =>
    unfold insertNat
    split_ifs with h1 h2
    · exact List.mem_cons
    · simp [h2]
    · simp only [List.mem_cons, ih]
      exact or_left_comm

theorem length_insertNat (hk : k ∉ l) : (insertNat k l).length = l.length + 1 := by
  induction l with
  | nil => rfl
  | cons i l ih =>
    obtain ⟨hne, hl⟩ := not_or.1 (mt List.mem_cons.2 hk)
    unfold insertNat
    split_ifs
    · rfl
    · exact congrArg Nat.succ (ih hl)

theorem insertNat_comm : insertNat j (insertNat k l) = insertNat k (insertNat j l) := by
  induction l with
  | nil => grind [insertNat]
  | cons i l ih => grind [insertNat]

theorem pairwise_insertNat (hl : l.Pairwise (· < ·)) : (insertNat k l).Pairwise (· < ·) := by
  induction l with
  | nil => exact List.pairwise_singleton _ k
  | cons i l ih =>
    obtain ⟨hi, hrest⟩ := List.pairwise_cons.1 hl
    unfold insertNat
    split_ifs with h1 h2
    · exact List.pairwise_cons.2 ⟨List.forall_mem_cons.2 ⟨h1, fun j hj => h1.trans (hi j hj)⟩, hl⟩
    · exact hl
    · refine List.pairwise_cons.2 ⟨fun j hj => ?_, ih hrest⟩
      rcases mem_insertNat.1 hj with rfl | hj
      · omega
      · exact hi j hj

/-- A number put into sparse contents takes its place among those listed. -/
theorem map_fst_storePut {β : Type} (c : Store β) (k : Nat) (v : β) :
    (storePut c k v).map Prod.fst = insertNat k (c.map Prod.fst) := by
  induction c with
  | nil => rfl
  | cons e c ih =>
    simp only [storePut, List.map_cons, insertNat]
    split_ifs with h1 h2
    · rfl
    · rw [h2]; rfl
    · exact congrArg _ ih

theorem storeGet_of_not_listed {β : Type} {d : Nat → β} {c : Store β} (hk : k ∉ c.map Prod.fst) : storeGet d c k = d k := by
  induction c with
  | nil => rfl
  | cons e c ih =>
    obtain ⟨hne, hc⟩ := not_or.1 (mt List.mem_cons.2 hk)
    exact (if_neg hne).trans (ih hc)

theorem storeWfFrom_pairwise {β : Type} [DecidableEq β] {d : Nat → β} {lo : Nat} {c : Store β} (h : storeWfFrom d lo c = true) :
    (c.map Prod.fst).Pairwise (· < ·) ∧ ∀ k ∈ c.map Prod.fst, lo ≤ k := by
  induction c generalizing lo with
  | nil => exact ⟨.nil, nofun⟩
  | cons e c ih =>
    simp only [storeWfFrom, Bool.and_eq_true, decide_eq_true_eq] at h
    obtain ⟨⟨hlo, -⟩, hc⟩ := h
    obtain ⟨hsorted, hlow⟩ := ih hc
    exact ⟨List.pairwise_cons.2 ⟨hlow, hsorted⟩, List.forall_mem_cons.2 ⟨hlo, fun k hk => (hlow k hk).trans' (by omega)⟩⟩

theorem State.mem_takenBlocks : k ∈ s.takenBlocks ↔ k ∈ s.zeroing ∨ k ∈ s.desc.map Prod.fst := by
  unfold State.takenBlocks
  induction s.zeroing with
  | nil => simp
  | cons z zs ih => rw [List.foldr_cons, mem_insertNat, ih, List.mem_cons, or_assoc]

theorem State.takenBlocks_pairwise (h : s.Wf) : s.takenBlocks.Pairwise (· < ·) := by
  unfold State.takenBlocks
  induction s.zeroing with
  | nil => exact (storeWfFrom_pairwise h.desc).1
  | cons z zs ih => exact pairwise_insertNat ih

/-- A block that is not taken is free, and its zeroing is complete (R76). -/
theorem State.free_of_not_taken (hk : k ∉ s.takenBlocks) : s.blk k = Desc.free ∧ k ∉ s.zeroing := by
  obtain ⟨hz, hd⟩ := not_or.1 (mt State.mem_takenBlocks.2 hk)
  exact ⟨storeGet_of_not_listed hd, hz⟩

theorem State.takenBlocks_setBlk (hd : d ≠ Desc.free) : (s.setBlk k d).takenBlocks = insertNat k s.takenBlocks := by
  have hput : (s.setBlk k d).desc.map Prod.fst = insertNat k (s.desc.map Prod.fst) :=
    (congrArg _ (if_neg hd)).trans (map_fst_storePut ..)
  unfold State.takenBlocks
  rw [State.setBlk_zeroing, hput]
  induction s.zeroing with
  | nil => rfl
  | cons z zs ih => rw [List.foldr_cons, ih, insertNat_comm, List.foldr_cons]

theorem State.freeCount_setBlk (hd : d ≠ Desc.free) (hk : k ∉ s.takenBlocks) : (s.setBlk k d).freeCount = s.freeCount - 1 := by
  rw [State.freeCount, State.takenBlocks_setBlk hd, length_insertNat hk, State.freeCount, Nat.sub_sub]

/-! ## Allocation (R76) -/

theorem nthFree_le : nthFree l m ≤ m + l.length := by
  induction l generalizing m with
  | nil => exact Nat.le_refl m
  | cons i l ih =>
    unfold nthFree
    split_ifs
    · exact ih.trans (by rw [List.length_cons]; omega)
    · exact Nat.le_add_right ..

theorem le_nthFree : m ≤ nthFree l m := by
  induction l generalizing m with
  | nil => exact Nat.le_refl m
  | cons i l ih =>
    unfold nthFree
    split_ifs
    · exact (Nat.le_succ m).trans ih
    · exact Nat.le_refl m

theorem nthFree_not_mem (hl : l.Pairwise (· < ·)) : nthFree l m ∉ l := by
  induction l generalizing m with
  | nil => exact List.not_mem_nil
  | cons i l ih =>
    obtain ⟨hi, hrest⟩ := List.pairwise_cons.1 hl
    unfold nthFree
    split_ifs with h
    · have := le_nthFree (l := l) (m := m + 1)
      exact List.not_mem_cons_of_ne_of_not_mem (by omega) (ih hrest)
    · exact List.not_mem_cons_of_ne_of_not_mem (by omega) fun hm => absurd (hi m hm) (by omega)

/-- The block picked is one of the module's that is not taken; all that changes is how many free values have been drawn. -/
theorem State.pickFree_spec (h : s.Wf) (hf : 0 < s.freeCount) (hp : s.pickFree = (k, t)) :
    k < 32768 ∧ k ∉ s.takenBlocks ∧ t = { s with draws := t.draws } := by
  have hpick (m : Nat) (hm : m < s.freeCount) : nthFree s.takenBlocks m < 32768 ∧ nthFree s.takenBlocks m ∉ s.takenBlocks := by
    have := nthFree_le (l := s.takenBlocks) (m := m)
    unfold State.freeCount at hm
    exact ⟨by omega, nthFree_not_mem (State.takenBlocks_pairwise h)⟩
  unfold State.pickFree at hp
  split at hp
  · obtain ⟨rfl, rfl⟩ := Prod.mk.inj hp
    obtain ⟨hlt, hfree⟩ := hpick _ (Nat.mod_lt _ hf)
    exact ⟨hlt, hfree, rfl⟩
  · obtain ⟨rfl, rfl⟩ := Prod.mk.inj hp
    obtain ⟨hlt, hfree⟩ := hpick 0 hf
    exact ⟨hlt, hfree, rfl⟩

/-- What allocating goes from `s` to `t` with: blocks told apart, none of them taken before, each with the descriptor
given, and no other descriptor changed. -/
structure State.Allocates (s t : State) (d : Desc) (ks : List Nat) : Prop where
  nodup : ks.Nodup
  free : ∀ k ∈ ks, k < 32768 ∧ k ∉ s.takenBlocks
  given : ∀ k ∈ ks, t.blk k = d
  rest : ∀ k, k ∉ ks → t.blk k = s.blk k

theorem State.length_allocBlocks : (State.allocBlocks n owner lender s).1.length = n := by
  induction n generalizing s with
  | zero => rfl
  | succ n ih => exact congrArg Nat.succ ih

/-- The block picked, with its descriptor given. -/
theorem State.Allocates.one (h : s.Wf) (hf : 0 < s.freeCount) (hp : s.pickFree = (k, t)) : s.Allocates (t.setBlk k d) d [k] := by
  obtain ⟨hlt, hfree, ht⟩ := State.pickFree_spec h hf hp
  have hwf : t.Wf := (State.pickFree_kept (mq := true) (lk := true) hp .refl).wf h
  have hblk (j : Nat) : (t.setBlk k d).blk j = if j = k then d else s.blk j := by
    rw [State.blk_setBlk hwf, State.blk_congr (s := s) (by rw [ht])]
  refine ⟨List.nodup_singleton k, List.forall_mem_singleton.2 ⟨hlt, hfree⟩, List.forall_mem_singleton.2 ?_, fun j hj => ?_⟩
  · rw [hblk, if_pos rfl]
  · rw [hblk, if_neg (mt List.mem_singleton.2 hj)]

/-- Blocks allocated behind a first one, which is taken by then. -/
theorem State.Allocates.cons (h : s.Allocates t d [k]) (ht : t.takenBlocks = insertNat k s.takenBlocks) (g : t.Allocates u d ks) :
    s.Allocates u d (k :: ks) := by
  have hnew (j : Nat) (hj : j ∈ ks) : j ≠ k ∧ j ∉ s.takenBlocks := not_or.1 (mt mem_insertNat.2 (ht ▸ (g.free j hj).2))
  have hk : k ∉ ks := fun hk => (hnew k hk).1 rfl
  refine ⟨List.nodup_cons.2 ⟨hk, g.nodup⟩, List.forall_mem_cons.2 ⟨h.free k (List.mem_singleton_self k), fun j hj => ?_⟩,
    List.forall_mem_cons.2 ⟨?_, g.given⟩, fun j hj => ?_⟩
  · exact ⟨(g.free j hj).1, (hnew j hj).2⟩
  · exact (g.rest k hk).trans (h.given k (List.mem_singleton_self k))
  · obtain ⟨hjk, hj⟩ := not_or.1 (mt List.mem_cons.2 hj)
    exact (g.rest j hj).trans (h.rest j (mt List.mem_singleton.1 hjk))

theorem State.allocBlocks_spec (h : s.Wf) (hn : n ≤ s.freeCount) (ho : owner ≠ 0xff) :
    s.Allocates (State.allocBlocks n owner lender s).2 { Desc.free with owner := owner, lender := lender }
      (State.allocBlocks n owner lender s).1 := by
  induction n generalizing s with
  | zero => exact ⟨.nil, nofun, nofun, fun _ _ => rfl⟩
  | succ n ih =>
    rcases hp : s.pickFree with ⟨k, t⟩
    have hfirst := State.Allocates.one (d := { Desc.free with owner := owner, lender := lender }) h (by omega) hp
    have hne : { Desc.free with owner := owner, lender := lender } ≠ Desc.free := fun e => ho (congrArg Desc.owner e)
    obtain ⟨-, hfree, ht⟩ := State.pickFree_spec h (by omega) hp
    have htaken : t.takenBlocks = s.takenBlocks := by rw [ht]; rfl
    have hcount : t.freeCount = s.freeCount := by rw [State.freeCount, htaken, State.freeCount]
    have hwf : t.Wf := (State.pickFree_kept (mq := true) (lk := true) hp .refl).wf h
    rw [State.allocBlocks, hp]
    refine hfirst.cons (by rw [State.takenBlocks_setBlk hne, htaken]) (ih ?_ ?_)
    · exact (State.setBlk_kept (mq := true) (lk := true) .refl).wf hwf
    · rw [State.freeCount_setBlk hne (htaken ▸ hfree), hcount]
      omega

end Allocation

section PoolPackets

variable {s t v y z : State} {dt n o i b : Nat} {p : Packet} {c : Cmd} {st : Status} {ws : List Word}

/-! ## The opcodes of the pool, behind the POOL item of the request (log 56) -/

theorem exec_poolAlloc (h : s.Runs dt .poolAlloc p c v) :
    exec (.poolAlloc dt p) s = .next ((v.poolItem c.hdr 127).takeAlloc c) := by
  rw [h.exec_moduleOp rfl rfl nofun, State.moduleOp, h.opEq]

theorem exec_poolFree (h : s.Runs dt .poolFree p c v) : exec (.poolFree dt p) s = .next ((v.poolItem c.hdr 127).takeFree c) := by
  rw [h.exec_moduleOp rfl rfl nofun, State.moduleOp, h.opEq]

theorem exec_poolGive (h : s.Runs dt .poolGive p c v) : exec (.poolGive dt p) s = .next ((v.poolItem c.hdr 127).takeGive c) := by
  rw [h.exec_moduleOp rfl rfl nofun, State.moduleOp, h.opEq]

theorem exec_poolWrite (h : s.Runs dt .poolWrite p c v) :
    exec (.poolWrite dt p) s = .next ((v.poolItem c.hdr 127).takePoolWrite c) := by
  rw [h.exec_moduleOp rfl rfl nofun, State.moduleOp, h.opEq]

theorem exec_poolRead (h : s.Runs dt .poolRead p c v) :
    exec (.poolRead dt p) s = .next ((v.poolItem c.hdr 127).takePoolRead c) := by
  rw [h.exec_moduleOp rfl rfl nofun, State.moduleOp, h.opEq]

/-! ## POOL_ALLOC (R74, R76) -/

theorem callerId_ne_free (q : Port) : callerId q ≠ 0xff := by cases q <;> decide

theorem State.takeAlloc_outOfRange (hn : n = (wordAt c.words 0).fld 0 6) (h : n = 0 ∨ 60 < n) :
    y.takeAlloc c = y.fail c.id .outOfRange 0 0 y.net := by
  rw [State.takeAlloc, ← hn]
  exact if_pos h

theorem State.takeAlloc_poolEmpty (hn : n = (wordAt c.words 0).fld 0 6) (h : ¬(n = 0 ∨ 60 < n)) (hf : y.freeCount < n) :
    y.takeAlloc c = y.fail c.id .poolEmpty 0 0 y.net := by
  rw [State.takeAlloc, ← hn]
  dsimp only
  rw [if_neg h, if_pos hf]

theorem State.takeAlloc_takes {ks : List Nat} (hn : n = (wordAt c.words 0).fld 0 6) (h : ¬(n = 0 ∨ 60 < n)) (hf : n ≤ y.freeCount)
    (ht : State.allocBlocks n (callerId c.port) 3 y = (ks, t)) :
    y.takeAlloc c = t.finish c.id .done (ks.map fun k => BitVec.ofNat 32 k) t.net := by
  rw [State.takeAlloc, ← hn]
  dsimp only
  rw [if_neg h, if_neg (Nat.not_lt.2 hf), ht]

/-! ## POOL_FREE and POOL_GIVE (R74, R75) -/

theorem State.poolRefuse_notOwner :
    y.poolRefuse c i .notOwner b = (y.violation (callerId c.port) b).fail c.id .notOwner i 0 y.net := by
  rw [State.poolRefuse, if_pos rfl]

theorem State.poolRefuse_other (h : st ≠ .notOwner) : y.poolRefuse c i st b = y.fail c.id st i 0 y.net := by
  rw [State.poolRefuse, if_neg h]

theorem State.takeFree_passed (h : firstBad (y.freeCheck c.port) 0 c.words = none) :
    y.takeFree c = (c.words.foldl (fun t w => t.portFree (w.fld 0 15)) y).done c.id := by simp only [State.takeFree, h]

theorem State.takeFree_refused (h : firstBad (y.freeCheck c.port) 0 c.words = some (i, st)) :
    y.takeFree c = y.poolRefuse c i st ((wordAt c.words i).fld 0 15) := by simp only [State.takeFree, h]

theorem State.takeGive_passed (h : firstBad (y.giveCheck c.port) 0 c.words = none) : y.takeGive c =
    (c.words.foldl (fun t w => t.giveBlock (callerId c.port) (w.fld 24 8) (w.fld 0 15)) y).done c.id := by
  simp only [State.takeGive, h]

theorem State.takeGive_refused (h : firstBad (y.giveCheck c.port) 0 c.words = some (i, st)) :
    y.takeGive c = y.poolRefuse c i st ((wordAt c.words i).fld 0 15) := by simp only [State.takeGive, h]

/-! ## POOL_WRITE and POOL_READ (R69, R73, R81) -/

theorem State.takePoolWrite_outOfRange (ho : o = (wordAt c.words 0).fld 0 23)
    (h : o % 4 ≠ 0 ∨ 0x800000 < o + 4 * (c.words.length - 1)) : y.takePoolWrite c = y.fail c.id .outOfRange 0 0 y.net := by
  rw [State.takePoolWrite, ← ho, List.length_drop]
  exact if_pos h

/-- Within the pool, a write is made where its check finds every block the caller's. -/
theorem State.takePoolWrite_inRange (ho : o = (wordAt c.words 0).fld 0 23)
    (h : ¬(o % 4 ≠ 0 ∨ 0x800000 < o + 4 * (c.words.length - 1))) :
    (∀ i b, y.writeCheck c.port o (c.words.length - 1) = some (i, b) → y.takePoolWrite c = y.poolRefuse c (1 + i) .notOwner b) ∧
    (y.writeCheck c.port o (c.words.length - 1) = none → ∀ bad, y.poolPuts (c.words.drop 1) o = (bad, t) →
      y.takePoolWrite c = if bad then t.fail c.id .internalError 0 0 t.net else t.done c.id) := by
  refine ⟨fun i b hcheck => ?_, fun hcheck bad hput => ?_⟩
  · rw [State.takePoolWrite, ← ho, List.length_drop]
    dsimp only
    rw [if_neg h, hcheck]
  · rw [State.takePoolWrite, ← ho, List.length_drop]
    dsimp only
    rw [if_neg h, hcheck]
    dsimp only
    rw [hput]

theorem State.takePoolRead_outOfRange (ho : o = (wordAt c.words 0).fld 0 23) (hn : n = (wordAt c.words 1).fld 0 6)
    (h : o % 4 ≠ 0 ∨ 0x800000 < o + 4 * n) : y.takePoolRead c = y.fail c.id .outOfRange 0 0 y.net := by
  rw [State.takePoolRead, ← ho, ← hn]
  exact if_pos h

theorem State.takePoolRead_badCount (ho : o = (wordAt c.words 0).fld 0 23) (hn : n = (wordAt c.words 1).fld 0 6)
    (h : ¬(o % 4 ≠ 0 ∨ 0x800000 < o + 4 * n)) (hc : n = 0 ∨ 60 < n) : y.takePoolRead c = y.fail c.id .outOfRange 1 0 y.net := by
  rw [State.takePoolRead, ← ho, ← hn]
  dsimp only
  rw [if_neg h, if_pos hc]

theorem State.takePoolRead_inRange {bad : Bool} (ho : o = (wordAt c.words 0).fld 0 23) (hn : n = (wordAt c.words 1).fld 0 6)
    (h : ¬(o % 4 ≠ 0 ∨ 0x800000 < o + 4 * n)) (hc : ¬(n = 0 ∨ 60 < n))
    (ht : y.eccReads ((o + 4 * n + 7) / 8 - o / 8) (o / 8) = (bad, t)) : y.takePoolRead c =
      if bad then (t.raiseC0 9 0x1b .module).fail c.id .internalError 0 0 t.net
      else t.finish c.id .done ((List.range n).map fun i => t.word (o + 4 * i)) t.net := by
  rw [State.takePoolRead, ← ho, ← hn]
  dsimp only
  rw [if_neg h, if_neg hc, ht]

/-- What a write of words comes to in a pool without an error. -/
theorem State.poolPuts_written (he : y.ecc = []) (hm : Memory.wf y.mem = true) (ht : t = y.setBytes o (ws.flatMap Word.bytes)) :
    y.poolPuts ws o = (false, t) ∧ t = { y with mem := t.mem } ∧ (∀ j < ws.length, t.word (o + 4 * j) = wordAt ws j) ∧
      ∀ b, (b < o ∨ o + 4 * ws.length ≤ b) → t.byte b = y.byte b := by
  subst ht
  refine ⟨State.poolPuts_of_nil he, State.setBytes_eq, fun j hj => State.word_setBytes hm hj, fun b hb => ?_⟩
  exact State.byte_setBytes_apart hm (length_words ws ▸ hb)

/-- A word is not put into a doubleword with a double-bit error (R81). -/
theorem State.poolPuts_double {w : Word} {d : Nat} (he : (y.ecc.find? fun e => e.1 == o / 8) = some (d, true))
    (ht : t = y.bump Reg.poolEccstat 16 8) :
    y.poolPuts [w] o = (true, t.setBlk (o / 8 / 32) { t.blk (o / 8 / 32) with poison := true }) := by
  rw [State.poolPuts, State.poolPut, State.eccRead_double he ht]
  rfl

@[simp] theorem State.bump_net (k lo w : Nat) : (y.bump k lo w).net = y.net := by simp [State.bump, State.setFld]

end PoolPackets

/-- Settles O23: each packet is its opcode behind the POOL item; the clauses are the branches in the order of the checks. -/
theorem poolPacketsActOnTheirBlocks : Obligations.PoolPacketsActOnTheirBlocks := by
  intro s v y dt p c w hw hy
  refine ⟨fun h n hn => ?alloc, fun h => ?free, fun h => ?give, fun h o ho => ?write, fun h o n ho hn => ?read⟩
  case alloc =>
    rw [exec_poolAlloc h, ← hy]
    have hn' : n = (wordAt c.words 0).fld 0 6 := by rw [h.words, ← hw, hn]
    refine ⟨fun h1 h60 hf => ?takes, fun h1 h60 hf => ?empty, fun hrange => ?count⟩
    case takes =>
      refine ⟨_, _, rfl, State.length_allocBlocks, congrArg _ (State.takeAlloc_takes hn' (by omega) hf rfl), fun hv => ?_⟩
      have hywf : y.Wf := hy ▸ hv.poolItem
      obtain ⟨hnodup, hfree, hgiven, -⟩ := State.allocBlocks_spec (lender := 3) hywf hf (callerId_ne_free c.port)
      refine ⟨hnodup, fun k hk => ?_⟩
      obtain ⟨hlt, htaken⟩ := hfree k hk
      obtain ⟨hblk, hzero⟩ := State.free_of_not_taken htaken
      refine ⟨hlt, ?_, ?_, hgiven k hk⟩
      · rw [← hblk, hy, State.blk_congr State.poolItem_desc]
      · rwa [hy, State.poolItem_zeroing] at hzero
    case empty => rw [State.takeAlloc_poolEmpty hn' (by omega) hf]
    case count => rw [State.takeAlloc_outOfRange hn' hrange]
  case free =>
    rw [exec_poolFree h, ← hy, ← h.words]
    refine ⟨fun hc => ?passed, fun i hc => ?alreadyFree, fun i hc => ?notOwner⟩
    case passed => rw [State.takeFree_passed hc]
    case alreadyFree => rw [State.takeFree_refused hc, State.poolRefuse_other (st := .alreadyFree) (by decide)]
    case notOwner => rw [State.takeFree_refused hc, State.poolRefuse_notOwner]
  case give =>
    rw [exec_poolGive h, ← hy, ← h.words]
    refine ⟨fun hc => ?passed, fun i st hc hst => ?other, fun i hc => ?notOwner⟩
    case passed => rw [State.takeGive_passed hc]
    case other => rw [State.takeGive_refused hc, State.poolRefuse_other hst]
    case notOwner => rw [State.takeGive_refused hc, State.poolRefuse_notOwner]
  case write =>
    rw [exec_poolWrite h, ← hy, ← h.words]
    rw [← h.words] at hw
    have ho' : o = (wordAt c.words 0).fld 0 23 := hw ▸ ho
    refine ⟨fun hrange => ?range, fun hal hend => ?inRange⟩
    case range => rw [State.takePoolWrite_outOfRange ho' hrange]
    case inRange =>
      have hin {t : State} := State.takePoolWrite_inRange (y := y) (t := t) ho' (by omega)
      refine ⟨fun i b hcheck => ?foreign, fun hcheck he hm => ?written, fun hcheck hl he t ht => ?double⟩
      case foreign => rw [(hin (t := y)).1 i b hcheck, State.poolRefuse_notOwner]
      case written =>
        have hlen : (c.words.drop 1).length = c.words.length - 1 := List.length_drop
        have hecc : y.ecc = [] := by rw [hy, State.poolItem_ecc, he]
        have hmem : Memory.wf y.mem = true := by rw [hy, State.poolItem_mem, hm]
        obtain ⟨hput, ht, hword, hbyte⟩ := State.poolPuts_written (o := o) (ws := c.words.drop 1) hecc hmem rfl
        refine ⟨_, congrArg _ (hin.2 hcheck false hput), ?_, ?_, ?_, fun j h1 hj => ?_, fun b hb => ?_⟩
        · rw [ht, hy]; exact State.poolItem_tags
        · rw [ht, hy]; exact State.poolItem_axes
        · rw [ht, hy]; exact State.poolItem_desc
        · obtain ⟨i, rfl⟩ : ∃ i, j = i + 1 := ⟨j - 1, by omega⟩
          rw [Nat.add_sub_cancel, hword i (by omega), wordAt, wordAt, List.getD_eq_getElem?_getD, List.getElem?_drop,
            Nat.add_comm 1 i, ← List.getD_eq_getElem?_getD]
        · rw [hbyte b (hlen ▸ hb), hy, State.byte_congr State.poolItem_mem]
      case double =>
        obtain ⟨w1, hw1⟩ : ∃ w1, c.words.drop 1 = [w1] := List.length_eq_one_iff.1 (by rw [List.length_drop, hl])
        have hput := State.poolPuts_double (y := y) (w := w1) (o := o) (by rw [hy]; simpa using he) ht
        rw [hin.2 hcheck true (hw1 ▸ hput), if_pos rfl, State.setBlk_net, ht, State.bump_net]
  case read =>
    rw [exec_poolRead h, ← hy]
    rw [← h.words] at hw hn
    have ho' : o = (wordAt c.words 0).fld 0 23 := hw ▸ ho
    refine ⟨fun hrange => ?range, fun hal hend hc => ?count, fun hal h1 h60 hend he => ?words, fun hal h1 h60 hend t ht => ?double⟩
    case range => rw [State.takePoolRead_outOfRange ho' hn hrange]
    case count => rw [State.takePoolRead_badCount ho' hn (by omega) hc]
    case words =>
      have he' : y.ecc = [] := by rw [hy]; simpa using he
      have hword (o : Nat) : y.word o = v.word o := State.word_congr (by rw [hy, State.poolItem_mem]) o
      rw [State.takePoolRead_inRange ho' hn (by omega) (by omega) (State.eccReads_of_nil he'), if_neg Bool.false_ne_true]
      simp only [hword]
    case double => rw [State.takePoolRead_inRange ho' hn (by omega) (by omega) ht, if_pos rfl]

end Sys2Proof.Machine

/-! SUPPORT. The pool window, links, zeroing, the trace rings and the scrubber: what each access and event does. -/

namespace Sys2Proof.Machine

section PoolEvents

variable {s t u v w : State} {dt k o : Nat} {q : Port} {ad x : Word} {h : Hdr} {ax : Nat}

/-! ## The host window (R69, R73, R75) -/

theorem exec_hostWindowWrite_outside (hu : u = s.advance dt) (ha : inWindow ad = false) :
    exec (.hostWindowWrite dt ad x) s = .next u := by
  subst hu
  exact congrArg _ (if_neg (by simp [ha]))

theorem exec_hostWindowRead_outside (hu : u = s.advance dt) (ha : inWindow ad = false) :
    exec (.hostWindowRead dt ad) s = .next u := by
  subst hu
  exact congrArg _ (if_neg (by simp [ha]))

theorem exec_hostWindowWrite_inside (hu : u = s.advance dt) (ha : inWindow ad = true) (hp : u.portOpen .host = true)
    (hl : u.locked = false) : exec (.hostWindowWrite dt ad x) s = .next ((u.cancel .host).windowWrite ad x) := by
  subst hu
  exact congrArg _ ((if_pos ha).trans (State.portWrite_open hp hl))

theorem exec_hostWindowRead_inside (hu : u = s.advance dt) (ha : inWindow ad = true) (hp : u.portOpen .host = true)
    (ho : o = ad.fld 0 23 / 4 * 4) (he : u.ecc = []) :
    exec (.hostWindowRead dt ad) s = .next { u.poolItem ⟨0, 0, 0, false⟩ 127 with hostOut := [u.word o] } := by
  have hread : u.windowRead ad = (u.word o, u.poolItem ⟨0, 0, 0, false⟩ 127) := by
    have hecc : (u.poolItem ⟨0, 0, 0, false⟩ 127).ecc = [] := by rw [State.poolItem_ecc, he]
    rw [State.windowRead, State.eccRead_of_nil hecc, ← ho]
    dsimp only
    rw [if_neg Bool.false_ne_true, State.word_congr State.poolItem_mem]
  subst hu
  refine congrArg _ ((if_pos (by rw [hp, ha]; rfl)).trans ?_)
  rw [hread]

/-- Into a block that is not the host's no word goes, and the violation is recorded. -/
theorem State.windowWrite_foreign (ho : o = ad.fld 0 23 / 4 * 4) (hk : (w.blk (o / 256)).owner ≠ 0) : w.windowWrite ad x =
    ((w.poolItem ⟨0, 0, 0, false⟩ 127).flag Reg.poolStat 1).violation 0 (o / 256) := by
  rw [State.windowWrite, ← ho]
  exact if_neg (by rwa [State.blk_congr State.poolItem_desc])

theorem State.windowWrite_owned (ho : o = ad.fld 0 23 / 4 * 4) (hk : (w.blk (o / 256)).owner = 0) (he : w.ecc = []) :
    w.windowWrite ad x = (w.poolItem ⟨0, 0, 0, false⟩ 127).setWord o x := by
  have hecc : (w.poolItem ⟨0, 0, 0, false⟩ 127).ecc = [] := by rw [State.poolItem_ecc, he]
  rw [State.windowWrite, ← ho]
  refine (if_pos (by rwa [State.blk_congr State.poolItem_desc])).trans ?_
  rw [State.poolPut_of_nil hecc]

/-! ## Links and zeroing (R76, R78) -/

theorem isAxisOwner_iff {n : Nat} : isAxisOwner n = true ↔ 0x10 ≤ n ∧ n ≤ 0x6f := by simp [isAxisOwner]

theorem exec_poolLinkWrite (hu : u = s.advance dt) (hp : u.portOpen q = true) (hl : u.locked = false) :
    exec (.poolLinkWrite dt q x) s = .next ((u.cancel q).writeLink q x) := by
  subst hu
  exact congrArg _ (State.portWrite_open hp hl)

/-- A link is the caller's to write where it controls the block, no axis owns it, and it is not in use. -/
def State.linkOpen (w : State) (q : Port) (k : Nat) : Prop :=
  w.controls (portId q) k = true ∧ ¬(0x10 ≤ (w.blk k).owner ∧ (w.blk k).owner ≤ 0x6f) ∧ (w.blk k).inuse = false

theorem State.linkOpen_iff : w.linkOpen q k ↔
    (w.controls (portId q) k && !isAxisOwner (w.blk k).owner && !(w.blk k).inuse) = true := by
  simp only [State.linkOpen, ← isAxisOwner_iff, Bool.and_eq_true, Bool.not_eq_true', Bool.not_eq_true, and_assoc]

theorem State.writeLink_open (hk : k = x.fld 0 15) (h : w.linkOpen q k) :
    w.writeLink q x = w.setBlk k { w.blk k with next := x.fld 16 15, nextv := x.bit 15 } := by
  subst hk
  exact if_pos (State.linkOpen_iff.1 h)

theorem State.writeLink_refused (hk : k = x.fld 0 15) (h : ¬w.linkOpen q k) :
    w.writeLink q x = (w.flag Reg.poolStat 0).violation (portId q) k := by
  subst hk
  exact if_neg (mt State.linkOpen_iff.2 h)

theorem exec_blockZeroingDone_ignored (hu : u = s.advance dt) {b : BitVec 15} (h : b.toNat ∉ u.zeroing) :
    exec (.blockZeroingDone dt b) s = .next u := by
  subst hu
  exact congrArg _ (if_neg (by simpa using h))

theorem exec_blockZeroingDone (hu : u = s.advance dt) {b : BitVec 15} (h : b.toNat ∈ u.zeroing) :
    exec (.blockZeroingDone dt b) s =
      .next (State.zeroBlock { u with zeroing := u.zeroing.filter fun k => k != b.toNat } b.toNat) := by
  subst hu
  exact congrArg _ (if_pos (by simpa using h))

theorem storeGet_filter {β : Type} {d : Nat → β} (m : Store β) (p : Nat → Bool) (j : Nat) :
    storeGet d (m.filter fun c => p c.1) j = if p j then storeGet d m j else d j := by
  induction m with
  | nil => exact (ite_self _).symm
  | cons c m ih =>
    rw [List.filter_cons]
    by_cases hj : j = c.1
    · subst hj
      split <;> simp_all [storeGet]
    · split <;> simp [storeGet, hj, ih]

theorem State.byte_zeroBlock (j : Nat) : (u.zeroBlock k).byte j = if j / 256 = k then 0 else u.byte j := by
  refine (storeGet_filter u.mem (fun i => decide (i / 256 ≠ k)) j).trans ?_
  by_cases hj : j / 256 = k
  · rw [if_neg (by simp [hj]), if_pos hj]; rfl
  · rw [if_pos (by simp [hj]), if_neg hj]; rfl

end PoolEvents

section Rings

variable {s u v w y : State} {dt k : Nat} {q : Port} {x : Word} {t : Fin 4} {r : TraceRing} {ks : List Nat} {i : TraceItem}
  {rest : List TraceItem}

/-! ## Setting up and taking down a ring (R83, R84) -/

/-- Marking blocks as in use, or not, changes nothing but descriptors. -/
theorem State.setInuse_eq (b : Bool) : s.setInuse ks b = { s with desc := (s.setInuse ks b).desc } := by
  unfold State.setInuse
  induction ks generalizing s with
  | nil => rfl
  | cons k ks ih => exact ih (s := s.setBlk k { s.blk k with inuse := b })

theorem State.setInuse_desc_congr {b : Bool} (h : u.desc = s.desc) : (u.setInuse ks b).desc = (s.setInuse ks b).desc := by
  unfold State.setInuse
  induction ks generalizing s u with
  | nil => exact h
  | cons k ks ih => exact ih (by simp only [State.setBlk, State.blk_congr h, h])

theorem rings_get_set (l : Vector TraceRing 4) : (l.set t r).get t = r := by simp [Vector.get_eq_getElem]

theorem State.dropRing_ring : (u.dropRing t).rings.get t = .empty := rings_get_set _

theorem State.dropRing_eq : u.dropRing t =
    { u with desc := (u.setInuse (u.rings.get t).chain false).desc, rings := (u.dropRing t).rings } := by
  rw [State.dropRing, State.setInuse_eq]

theorem exec_traceEnable (hu : u = s.advance dt) (hp : u.portOpen q = true) (hl : u.locked = false) :
    exec (.traceEnable dt q t x) s = .next ((u.cancel q).writeTrace q t x) := by
  subst hu
  exact congrArg _ (State.portWrite_open hp hl)

theorem State.writeTrace_off (hv : v = w.setReg (Reg.poolTraceCfg t.val) (x &&& 0x07ff7fff)) (hr : r = w.rings.get t)
    (hx : x.bit 15 = false) : w.writeTrace q t x =
      if r.buf.isEmpty then v.dropRing t else { v with rings := v.rings.set t { r with closing := true } } := by
  subst hv hr
  rw [State.writeTrace, hx]
  rfl

theorem State.writeTrace_open (hy : y = (w.setReg (Reg.poolTraceCfg t.val) (x &&& 0x07ff7fff)).dropRing t) (hx : x.bit 15 = true)
    (hk : k = x.fld 0 15) (hc : y.ringChain k 256 k = none) : w.writeTrace q t x = y.flag Reg.poolStat 3 := by
  rw [State.writeTrace, hx, ← hk, ← hy]
  dsimp only
  rw [if_neg (by simp), hc]

/-- A ring may lie on blocks of the caller's that no other ring has. -/
def State.ringFree (y : State) (q : Port) (t : Fin 4) (ks : List Nat) : Prop :=
  ∀ b ∈ ks, (y.blk b).owner = portId q ∧ ∀ j : Fin 4, j ≠ t → b ∉ (y.rings.get j).chain

theorem State.mem_otherChains : k ∈ ((List.finRange 4).flatMap fun j => if j = t then [] else (y.rings.get j).chain) ↔
    ∃ j : Fin 4, j ≠ t ∧ k ∈ (y.rings.get j).chain := by
  simp only [List.mem_flatMap, List.mem_finRange, true_and]
  refine exists_congr fun j => ?_
  by_cases hj : j = t <;> simp [hj]

theorem State.ringFree_iff : y.ringFree q t ks ↔ (ks.all fun k => (y.blk k).owner == callerId q &&
    !((List.finRange 4).flatMap fun j => if j = t then [] else (y.rings.get j).chain).contains k) = true := by
  simp only [State.ringFree, List.all_eq_true, Bool.and_eq_true, beq_iff_eq, Bool.not_eq_true', List.contains_eq_mem,
    decide_eq_false_iff_not, State.mem_otherChains, not_exists, not_and]
  rfl

theorem State.writeTrace_closed (hy : y = (w.setReg (Reg.poolTraceCfg t.val) (x &&& 0x07ff7fff)).dropRing t) (hx : x.bit 15 = true)
    (hk : k = x.fld 0 15) (hc : y.ringChain k 256 k = some ks)
    (hv : v = ((y.setInuse ks true).setBit (Reg.poolTraceCfg t.val) 15 true).setFld (Reg.poolTracePtr t.val) 0 16 0) :
    (y.ringFree q t ks → w.writeTrace q t x = { v with rings := v.rings.set t ⟨ks, [], 0, 0, false⟩ }) ∧
    (¬y.ringFree q t ks → w.writeTrace q t x = y.flag Reg.poolStat 3) := by
  rw [State.ringFree_iff]
  refine ⟨fun hfree => ?_, fun hfree => ?_⟩
  · rw [State.writeTrace, hx, ← hk, ← hy]
    dsimp only
    rw [if_neg (by simp), hc]
    dsimp only
    rw [if_pos hfree, hv]
  · rw [State.writeTrace, hx, ← hk, ← hy]
    dsimp only
    rw [if_neg (by simp), hc]
    dsimp only
    rw [if_neg hfree]

/-! ## Copying an item to its ring (R84, Table 3-6) -/

/-- Where the ring's next entry goes. -/
def TraceRing.place (r : TraceRing) : Nat := r.chain.getD (r.slot / 8) 0 * 256 + r.slot % 8 * 32

/-- The ring once its oldest item is copied: `rest` is still buffered. -/
def TraceRing.copied (r : TraceRing) (rest : List TraceItem) : TraceRing :=
  { r with buf := rest, written := (r.written + 1) % 65536, slot := (r.slot + 1) % (8 * r.chain.length) }

/-- The state with a ring's oldest item copied, before a ring that closes is taken down. -/
def State.copied (u : State) (t : Fin 4) (r : TraceRing) (i : TraceItem) (rest : List TraceItem) : State :=
  let v := ({ u with ecc := u.ecc.filter fun e => e.1 / 4 != r.place / 32 }.setBytes r.place (i.bytes r.written)).bumpMod
    (Reg.poolTracePtr t.val) 0 16
  { v with rings := v.rings.set t (r.copied rest) }

theorem exec_traceCopy_none (hu : u = s.advance dt) (hb : (u.rings.get t).buf = []) : exec (.traceCopy dt t) s = .next u := by
  subst hu
  simp only [exec, execTraceCopy, hb]

theorem exec_traceCopy (hu : u = s.advance dt) (hr : r = u.rings.get t) (hb : r.buf = i :: rest) :
    exec (.traceCopy dt t) s = .next (if rest = [] ∧ r.closing = true then (u.copied t r i rest).dropRing t
      else u.copied t r i rest) := by
  subst hu hr
  simp only [exec, execTraceCopy, hb, Bool.and_eq_true, List.isEmpty_iff]
  rfl

theorem TraceItem.length_bytes (i : TraceItem) (seq : Nat) : (i.bytes seq).length = 32 := by
  simp [TraceItem.bytes, length_bytesOf]

theorem State.copied_axes : (u.copied t r i rest).axes = u.axes := by
  rw [State.copied, State.setBytes_eq]
  simp [State.bumpMod, State.setFld]

theorem State.copied_desc : (u.copied t r i rest).desc = u.desc := by
  rw [State.copied, State.setBytes_eq]
  simp [State.bumpMod, State.setFld]

theorem State.copied_ring : (u.copied t r i rest).rings.get t = r.copied rest := rings_get_set _

theorem State.copied_byte (j : Nat) : (u.copied t r i rest).byte j =
    ({ u with ecc := u.ecc.filter fun e => e.1 / 4 != r.place / 32 }.setBytes r.place (i.bytes r.written)).byte j :=
  State.byte_congr (by simp [State.copied, State.bumpMod, State.setFld]) j

theorem State.copied_byte_at (hm : u.Wf) {j : Nat} (hj : j < 32) :
    (u.copied t r i rest).byte (r.place + j) = (i.bytes r.written).getD j 0 :=
  (State.copied_byte _).trans (State.byte_setBytes_at hm.mem (by rwa [TraceItem.length_bytes]))

theorem State.copied_byte_apart (hm : u.Wf) {j : Nat} (hj : j < r.place ∨ r.place + 32 ≤ j) :
    (u.copied t r i rest).byte j = u.byte j :=
  (State.copied_byte _).trans (State.byte_setBytes_apart hm.mem (by rwa [TraceItem.length_bytes]))

end Rings

section Scrubber

variable {s u v : State} {dt d : Nat}

/-! ## A pass of the scrubber (R80, R81) -/

theorem exec_poolScrub_clean (hu : u = s.advance dt) (he : u.ecc = []) :
    exec (.poolScrub dt []) s = .next { u with ceNoted := [] } := by
  subst hu
  simp only [exec, execPoolScrub, he, List.foldl_nil]

theorem exec_poolScrub_upset (hu : u = s.advance dt) (he : u.ecc = []) (e : BitVec 20) (b : Bool) :
    exec (.poolScrub dt [(e, b)]) s = .next { u with ceNoted := [], ecc := [(e.toNat, b)] } := by
  subst hu
  simp only [exec, execPoolScrub, he, List.foldl_nil, List.foldl_cons, List.filter_nil, List.nil_append, List.contains_nil,
    Bool.or_false]

/-- One doubleword of a pass: a double-bit error in it is recorded against the module. -/
def State.scrubbed (s : State) (dw : Nat) : State :=
  if (s.eccRead dw).1 then (s.eccRead dw).2.raiseC0 9 0x1b .module else (s.eccRead dw).2

theorem exec_poolScrub_pass (hu : u = s.advance dt) {l : List (Nat × Bool)} (he : u.ecc = l) : exec (.poolScrub dt []) s =
    .next (l.foldl (fun t e => t.scrubbed e.1) { u with ceNoted := [] }) := he ▸ hu ▸ rfl

theorem exec_poolScrub_one (hu : u = s.advance dt) {e bad : Bool} (he : u.ecc = [(d, e)])
    (hread : State.eccRead { u with ceNoted := [] } d = (bad, v)) :
    exec (.poolScrub dt []) s = .next (if bad then v.raiseC0 9 0x1b .module else v) := by
  rw [exec_poolScrub_pass hu he, List.foldl_cons, List.foldl_nil, State.scrubbed, hread]

/-- The first single-bit error that a pass finds in a block is corrected, counted and noticed. -/
theorem State.eccRead_single {i : Nat} (he : (s.ecc.find? fun e => e.1 == d) = some (i, false))
    (hn : s.ceNoted.contains (d / 32) = false) (hv : v = State.bump { s with ecc := s.ecc.filter fun e => e.1 != d } Reg.poolEccstat 0 16) :
    s.eccRead d = (false, { v with ceNoted := v.ceNoted ++ [d / 32] }.raiseC0 9 0x2d .module) := by
  have hnoted : v.ceNoted = s.ceNoted := by simp [hv, State.bump, State.setFld]
  rw [State.eccRead, he]
  dsimp only
  rw [← hv, hnoted, hn]
  rfl

theorem State.bump_setCeNoted (l : List Nat) (k lo w : Nat) :
    State.bump { s with ceNoted := l } k lo w = { s.bump k lo w with ceNoted := l } := by
  unfold State.bump State.setFld State.setReg
  split <;> rfl

/-- The same for the only error of the pool, at the start of a pass. -/
theorem State.eccRead_onlySingle (he : u.ecc = [(d, false)]) : State.eccRead { u with ceNoted := [] } d =
    (false, { State.bump { u with ecc := [] } Reg.poolEccstat 0 16 with ceNoted := [d / 32] }.raiseC0 9 0x2d .module) := by
  have hfind : (u.ecc.find? fun e => e.1 == d) = some (d, false) := by simp [he]
  have hfilter : (u.ecc.filter fun e => e.1 != d) = [] := by simp [he]
  rw [State.eccRead_single (s := { u with ceNoted := [] }) hfind rfl rfl]
  dsimp only
  rw [hfilter, State.bump_setCeNoted (s := { u with ecc := [] }) []]
  rfl

end Scrubber

/-- Settles O50: each access, write or event is one of the operations above, in the branch that its clause names. -/
theorem poolWindowLinksAndTraceRings : Obligations.PoolWindowLinksAndTraceRings := by
  intro s u w dt q ad x hu hs hl hw
  have huwf : u.Wf := hu ▸ (State.advance_kept (mq := true) (lk := true) .refl).wf hs
  have hwwf : w.Wf := hw ▸ (State.cancel_kept (mq := true) (lk := true) .refl).wf huwf
  refine ⟨fun o ho ha hp hq item hitem => ?window, fun ha => ⟨exec_hostWindowWrite_outside hu ha, exec_hostWindowRead_outside hu ha⟩,
    fun k d hk hd hp may hmay => ?link, fun k => ⟨exec_blockZeroingDone_ignored hu, fun hk => ?zeroing⟩,
    fun t v r hp hv hr => ?enable, fun t r hr => ⟨fun hb => exec_traceCopy_none hu (hr ▸ hb), fun i rest hb => ?copy⟩,
    fun he => ⟨exec_poolScrub_clean hu he, exec_poolScrub_upset hu he⟩, fun d he => ?single, fun d he v hv => ?double⟩
  case window =>
    subst hq
    rw [exec_hostWindowWrite_inside hu ha hp hl, ← hw, hitem, hitem]
    refine ⟨fun hk => ?foreign, fun hk he => ?owned, exec_hostWindowRead_inside hu ha hp ho⟩
    case foreign => rw [State.windowWrite_foreign ho hk]
    case owned =>
      have hm : Memory.wf (w.poolItem ⟨0, 0, 0, false⟩ 127).mem = true := hwwf.poolItem.mem
      refine ⟨_, congrArg _ (State.windowWrite_owned ho hk he), State.word_setWord hm, fun j hj => ?_, State.setWord_regs,
        State.setWord_desc.trans State.poolItem_desc, State.setWord_axes.trans State.poolItem_axes,
        State.setWord_tags.trans State.poolItem_tags⟩
      rw [State.setWord_eq, State.byte_setBytes_apart hm hj, State.byte_congr State.poolItem_mem]
  case link =>
    rw [exec_poolLinkWrite hu hp hl, ← hw, hmay, hd]
    exact ⟨fun h => congrArg _ (State.writeLink_open hk h), fun h => congrArg _ (State.writeLink_refused hk h)⟩
  case zeroing =>
    exact ⟨_, exec_blockZeroingDone hu hk, fun h => by simpa using (List.mem_filter.1 h).2, State.byte_zeroBlock, rfl, rfl, rfl, rfl⟩
  case enable =>
    rw [exec_traceEnable hu hp hl, ← hw]
    refine ⟨fun hx hb => ?drop, fun hx hb => ?close, fun hx k y hk hy => ?on⟩
    case drop => rw [State.writeTrace_off hv hr hx, if_pos (List.isEmpty_iff.2 hb)]
    case close => rw [State.writeTrace_off hv hr hx, if_neg (mt List.isEmpty_iff.1 hb)]
    case on =>
      rw [hv] at hy
      refine ⟨fun hc => congrArg _ (State.writeTrace_open hy hx hk hc), fun ks hc ok hok => ?_⟩
      obtain ⟨hfree, htaken⟩ := State.writeTrace_closed (q := q) hy hx hk hc rfl
      exact ⟨fun h => ⟨_, congrArg _ (hfree (hok.1 h)), rings_get_set _, rfl⟩, fun h => congrArg _ (htaken (mt hok.2 h))⟩
  case copy =>
    refine ⟨_, r.place, exec_traceCopy hu hr hb, rfl, ?_⟩
    by_cases hlast : rest = [] ∧ r.closing = true
    · have hmem : ((u.copied t r i rest).dropRing t).mem = (u.copied t r i rest).mem := by rw [State.dropRing_eq]
      simp only [if_pos hlast, State.byte_congr hmem]
      refine ⟨State.dropRing_ring, fun j => State.copied_byte_apart huwf, fun j => State.copied_byte_at huwf, ?_, ?_⟩
      · rw [State.dropRing_eq]; exact State.copied_axes (rest := rest)
      · rw [State.dropRing_eq, State.copied_ring]; exact State.setInuse_desc_congr State.copied_desc
    · simp only [if_neg hlast]
      exact ⟨State.copied_ring, fun j => State.copied_byte_apart huwf, fun j => State.copied_byte_at huwf, State.copied_axes,
        State.copied_desc⟩
  case single => rw [exec_poolScrub_one hu he (State.eccRead_onlySingle he), if_neg Bool.false_ne_true]
  case double =>
    have hfind : (u.ecc.find? fun e => e.1 == d) = some (d, true) := by simp [he]
    rw [exec_poolScrub_one hu he (State.eccRead_double (s := { u with ceNoted := [] }) hfind hv), if_pos rfl]

end Sys2Proof.Machine

/-! SUPPORT. SEG_APPEND, FOLLOW_START, FOLLOW_END and SET_POSITION on an axis. -/

namespace Sys2Proof.Machine

section TableAndFollow

variable {s t u v w z : State} {dt id b i first : Nat} {p : Packet} {a j : AxisId} {c : Cmd} {ws : List Word}
  {es : List (List Word)} {r r' : Run} {res : AppendRes} {q : Pro} {last : Nat × Nat}

theorem exec_segAppend (h : s.RunsOn dt .segAppend p a c v) : exec (.segAppend dt p) s = .next (v.takeAppend a c.id p.words) := by
  rw [h.exec_axisOp rfl, State.axisOp, h.opEq, ← h.words]

theorem exec_followStart (h : s.RunsOn dt .followStart p a c v) : exec (.followStart dt p) s = .next (v.takeFollow a c.id p.words) := by
  rw [h.exec_axisOp rfl, State.axisOp, h.opEq, ← h.words]

theorem exec_followEnd (h : s.RunsOn dt .followEnd p a c v) : exec (.followEnd dt p) s = .next (v.takeFollowEnd a c.id) := by
  rw [h.exec_axisOp rfl, State.axisOp, h.opEq]

theorem exec_setPosition (h : s.RunsOn dt .setPosition p a c v) :
    exec (.setPosition dt p) s = .next (v.takeSetPosition a c.id p.words) := by
  rw [h.exec_axisOp rfl, State.axisOp, h.opEq, ← h.words]

/-! ## The run whose chain has been lengthened (R72, Table 4-5) -/

@[simp] theorem State.ax_setPro_self : (s.setPro a q).ax a = { s.ax a with pro := q } := State.ax_setAx_self ..

theorem State.setPro_setPro (q' : Pro) : (s.setPro a q).setPro a q' = s.setPro a q' := by
  rw [State.setPro, State.modAx, State.ax_setPro_self]
  exact State.setAx_setAx

theorem State.ax_setInuse (ks : List Nat) (x : Bool) : (s.setInuse ks x).ax a = s.ax a := by rw [State.setInuse_eq]; rfl

theorem State.rechain_none (h : (u.ax a).pro.run = none) : u.rechain a = u := by simp only [State.rechain, h]

theorem State.runOn_none (h : (u.ax a).pro.run = none) : u.runOn a last = u := by simp only [State.runOn, h]

theorem State.rechain_some (h : (u.ax a).pro.run = some r) (hr : r' = { r with blocks := u.chainOf a 32768 [] r.first })
    (hw : w = u.setInuse r'.blocks true) : u.rechain a = w.setPro a { (w.ax a).pro with run := some r' } := by
  simp only [State.rechain, h, hw, hr, State.ax_setInuse]

theorem State.runOn_setPro (hq : q.run = some r) : (w.setPro a q).runOn a (b, i) = w.setPro a { q with
    run := some (if r.lastAt = some (b, i) ∧ r.next = none ∧ r.bad = false
      then { r with next := some (b, i + 1), lastAt := none } else r) } := by
  simp only [State.runOn, State.ax_setPro_self, hq]
  split
  · exact State.setPro_setPro _
  · rw [← hq]

/-! ## SEG_APPEND (R77, R110) -/

/-- An append where the last entry of the table is `l`, with LAST moved to the end, and the run going on. -/
def State.appendDone (t : State) (a : AxisId) (id b i : Nat) : State :=
  let u := t.setWord (b * 256 + i * 32) ((t.word (b * 256 + i * 32)).setBit 0 false)
  ((u.rechain a).runOn a (b, i)).done id

/-- What an append comes to that found its last entry, from what the writing of its entries came to. -/
def State.appendEnd (z : State) (a : AxisId) (id b i : Nat) : AppendRes × State → State
  | (.ok, t) => t.appendDone a id b i
  | (.foreign, _) => z.fail id .outOfRange 0 0 z.net
  | (.full, _) => z.fail id .poolEmpty 0 0 z.net

section Owned

variable (hfirst : first = (wordAt ws 0).fld 0 15) (hes : es = chunk8 ((ws.length - 1) / 8) (ws.drop 1))
include hfirst

theorem State.takeAppend_notOwner (ho : (v.blk first).owner ≠ axisOwner a) :
    v.takeAppend a id ws = v.fail id .notOwner 0 0 v.net := by
  subst hfirst
  exact if_pos ho

include hes
variable (ho : (v.blk first).owner = axisOwner a)
include ho

theorem State.takeAppend_badEntry {k : Nat} (hb : badAppend 0 es = some k) :
    v.takeAppend a id ws = v.fail id .outOfRange (1 + 8 * k) 0 v.net := by
  subst hfirst hes
  simp only [State.takeAppend, ho, hb, ne_eq, not_true_eq_false, if_false]

variable (hb : badAppend 0 es = none)
include hb

theorem State.takeAppend_missing (hz : v.findLast (v.cmdHdr (some id)) a first = (.missing, z)) :
    v.takeAppend a id ws = z.fail id .outOfRange 0 0 z.net := by
  subst hfirst hes
  simp only [State.takeAppend, ho, hb, hz, ne_eq, not_true_eq_false, if_false]

theorem State.takeAppend_ecc (hz : v.findLast (v.cmdHdr (some id)) a first = (.ecc, z)) :
    v.takeAppend a id ws = z.tableUe a id := by
  subst hfirst hes
  simp only [State.takeAppend, ho, hb, hz, ne_eq, not_true_eq_false, if_false]

theorem State.takeAppend_found (hz : v.findLast (v.cmdHdr (some id)) a first = (.at_ (b, i), z)) : v.takeAppend a id ws =
    z.appendEnd a id b i (State.appendFrom (v.cmdHdr (some id)) a (z.blk first).lender es b (i + 1) z) := by
  subst hfirst hes
  simp only [State.takeAppend, ho, hb, hz, ne_eq, not_true_eq_false, if_false]
  rfl

end Owned

/-! ## FOLLOW_START (R135) -/

theorem axisNum_val (j : AxisId) : axisNum j.val = j := by
  have h : j.val % 128 = j.val := Nat.mod_eq_of_lt (by omega)
  simp only [axisNum, h, j.isLt, dite_true]

/-- What FOLLOW_START puts in force. -/
def State.followOf (v : State) (id : Nat) (j : AxisId) (ws : List Word) : Follow :=
  { chan := j, upDown := (wordAt ws 0).bit 8, num := (wordAt ws 1).fld 16 16, den := (wordAt ws 1).fld 0 16, counting := true
    since := v.net, until_ := none, lastPulse := none, inbox := [], derived := [], hdr := v.cmdHdr (some id), overLag := false
    enders := [] }

/-- The axis as it begins to follow. -/
def State.follows (v : State) (a : AxisId) (f : Follow) : State :=
  (v.setStp a { (v.ax a).stp with follow := some f, rem := 0, pulses := 0, segs := [], solvedTo := 0, prevEdge := none }).setSt a
    .following

theorem State.takeFollow_follows (hj : (wordAt ws 0).fld 0 7 = j.val)
    (hdec : v.fld (fbkPar j 0) 0 3 = if (wordAt ws 0).bit 8 then 4 else 3)
    (hratio : ¬((wordAt ws 1).fld 16 16 = 0 ∨ (wordAt ws 1).fld 0 16 = 0 ∨
      16 * (wordAt ws 1).fld 0 16 < (wordAt ws 1).fld 16 16)) :
    v.takeFollow a id ws = ((v.follows a (v.followOf id j ws)).syncLoops a).done id := by
  simp only [State.takeFollow, hj, axisNum_val, hdec, ne_eq, not_true_eq_false, or_self, if_false, if_neg hratio]
  rfl

theorem State.ax_follows (f : Follow) : (v.follows a f).ax a = { v.ax a with
    st := .following
    stp := { (v.ax a).stp with follow := some f, rem := 0, pulses := 0, segs := [], solvedTo := 0, prevEdge := none } } := by
  rw [State.follows, State.ax_setSt_self, State.ax_setStp_self]

theorem State.ax_follows_ne {f : Follow} {k : AxisId} (h : k ≠ a) : (v.follows a f).ax k = v.ax k :=
  (State.ax_setAx_ne h).trans (State.ax_setStp_ne _ h)

/-! ## SET_POSITION (R102, R123, R209) -/

/-- An axis with its position shifted by `d` to `x`. -/
def Axis.shifted (y : Axis) (x d : Int) (encoder : Bool) : Axis :=
  { y with
    pro := { y.pro with pos := x }
    stp := { y.stp with q := y.stp.q + d, qRel := y.stp.qRel + d }
    loop := if encoder then { y.loop with ofs := y.loop.ofs + d, pMeas := y.loop.pMeas + d } else y.loop
    sample := y.sample.map fun m => { m with cpos := m.cpos + d } }

theorem State.takeSetPosition_shifts {x d : Int} (hx : x = s48 (wordAt ws 0) (wordAt ws 1))
    (hd : d = x - roundAway (v.ax a).pro.pos) (hb : v.slBad a = false) (hl : v.inLimits a x = true) :
    v.takeSetPosition a id ws = (v.setAx a ((v.ax a).shifted x d (v.loopCfg a).encoder)).done id := by
  subst hx hd
  simp only [State.takeSetPosition, hb, hl, Bool.not_true, Bool.or_self, Bool.false_eq_true, if_false]
  rfl

theorem State.takeSetPosition_refused {x : Int} (hx : x = s48 (wordAt ws 0) (wordAt ws 1))
    (h : v.slBad a = true ∨ v.inLimits a x = false) : v.takeSetPosition a id ws = v.fail id .outOfRange 0 0 v.net := by
  subst hx
  exact if_pos (by simpa using h)

end TableAndFollow

/-- Settles O27: each packet is its opcode on the axis; an append's clauses are what the search for LAST and the writing of
its entries came to. -/
theorem tableFollowAndPositionCommandsAct : Obligations.TableFollowAndPositionCommandsAct := by
  intro s v dt p a c
  refine ⟨fun h first es hf he => ?append, fun h ch hch hdec hn hm hle => ?follow, exec_followEnd, fun h x d hx hd => ?position⟩
  case append =>
    rw [exec_segAppend h]
    refine ⟨fun ho => congrArg _ (State.takeAppend_notOwner hf ho), fun ho =>
      ⟨fun k hk => congrArg _ (State.takeAppend_badEntry hf he ho hk), fun hb hd hhd => ?_⟩⟩
    subst hhd
    refine ⟨fun z hz => congrArg _ (State.takeAppend_missing hf he ho hb hz),
      fun z hz => congrArg _ (State.takeAppend_ecc hf he ho hb hz), fun b i z hz res t u ht hu => ?_⟩
    rw [State.takeAppend_found hf he ho hb hz, ht]
    refine ⟨fun hres => hres ▸ rfl, fun hres => hres ▸ rfl, fun hres hrun => ?noRun, fun r r' w hres hrun hr' hw => ?run⟩
    case noRun => rw [hres, State.appendEnd, State.appendDone, ← hu, State.rechain_none hrun, State.runOn_none hrun]
    case run => rw [hres, State.appendEnd, State.appendDone, ← hu, State.rechain_some hrun hr' hw, State.runOn_setPro rfl]
  case follow =>
    rw [exec_followStart h, State.takeFollow_follows hch hdec (by omega)]
    obtain ⟨⟨l, m, hax⟩, hothers, htags, hbanks, hmem⟩ :=
      State.syncLoops_only (s := v.follows a (v.followOf c.id ch p.words)) (a := a)
    rw [State.ax_follows] at hax
    refine ⟨_, v.followOf c.id ch p.words, rfl, htags, ?_, ?_, rfl, rfl, rfl, rfl, rfl, rfl, rfl, ?_, ?_,
      fun k hk => (hothers k hk).trans (State.ax_follows_ne hk), hbanks, hmem⟩
    all_goals rw [hax]
  case position =>
    rw [exec_setPosition h]
    refine ⟨fun hb hl => ?_, fun hr => congrArg _ (State.takeSetPosition_refused hx hr)⟩
    rw [State.takeSetPosition_shifts hx hd hb hl]
    refine ⟨_, rfl, ?_, ?_, ?_, ?_, ?_, fun k hk => State.ax_setAx_ne hk, rfl, rfl, rfl⟩
    all_goals rw [State.ax_setAx_self, Axis.shifted]
    · split <;> simp
    · split <;> simp
    · simp [Option.map_map, Function.comp_def]

end Sys2Proof.Machine

/-! SUPPORT. The profile engine's events: what PRO commits, and what happens at the boundaries of segments. -/

namespace Sys2Proof.Machine

section ProfileEvents

variable {s u t : State} {dt : Nat} {a : AxisId} {g h : Seg} {rest : List Seg} {r : Run}

/-! ## Fetching (R88, R103) -/

/-- With look-ahead left, the next entry of a run in force is fetched (R88). -/
theorem exec_entryFetch (hu : u = s.advance dt) {j : Nat} {f : FetchRes} (hm : (u.ax a).pro.motion = .table j)
    (hr : (u.ax a).pro.run = some r) (hbad : r.bad = false) (hnext : r.next ≠ none)
    (hroom : r.fetched.length + ((u.ax a).pro.segs.filter fun g => !g.entered && g.hdr.segv).length < 16)
    (hf : u.fetchOne a r = (f, t)) : exec (.entryFetch dt a) s = .next (((t.fetched a f r).passWait a).settle a) := by
  have hsome : r.next.isNone = false := Option.isNone_eq_false_iff.2 (Option.isSome_iff_ne_none.2 hnext)
  simp only [exec, execEntryFetch, ← hu, hm, hr, hbad, hsome, Nat.not_le.2 hroom, decide_false, Bool.or_false,
    Bool.false_eq_true, if_false, hf]

/-! ## Committing (R90, R99, R109) -/

theorem exec_segmentCommit_gated (hu : u = s.advance dt) (hg : u.gateOn 3 = false) :
    exec (.segmentCommit dt a) s = .next u := by
  simp only [exec, execSegmentCommit, ← hu, hg, Bool.false_eq_true, if_false]

theorem exec_segmentCommit (hu : u = s.advance dt) (hg : u.gateOn 3 = true) :
    exec (.segmentCommit dt a) s = .next (u.commitStep a) := by
  simp only [exec, execSegmentCommit, ← hu, hg, if_true]

theorem State.nextStart_of_last (hl : (u.ax a).pro.segs.getLast? = some g) : u.nextStart a = g.endTick := by
  simp only [State.nextStart, hl]

theorem State.nextStart_of_nil (hs : (u.ax a).pro.segs = []) : u.nextStart a = u.net + u.lead := by
  simp only [State.nextStart, hs, List.getLast?_nil]

theorem State.commitStep_full (hroom : (u.ax a).room = false) : u.commitStep a = u := by
  simp only [State.commitStep, hroom, Bool.not_false, if_true]

/-- A phase of the plan follows what is committed. -/
theorem State.commitStep_phase (hroom : (u.ax a).room = true) (hp : (u.ax a).pro.plan ≠ [])
    (hl : (u.ax a).pro.segs.getLast? = some g) : u.commitStep a = u.commitPhase a g.endTick false g.hdr := by
  have hplan : (u.ax a).pro.plan.isEmpty = false := List.isEmpty_eq_false_iff.2 hp
  have hsegs : (u.ax a).pro.segs.isEmpty = false := List.isEmpty_eq_false_iff.2 fun h => by simp [h] at hl
  simp only [State.commitStep, hroom, hplan, hsegs, hl, State.nextStart_of_last hl, Bool.not_true, Bool.not_false,
    Bool.false_eq_true, if_false, if_true]

/-- With nothing committed a phase of the plan starts a planning lead from now. -/
theorem State.commitStep_firstPhase (hroom : (u.ax a).room = true) (hp : (u.ax a).pro.plan ≠ [])
    (hs : (u.ax a).pro.segs = []) : u.commitStep a = u.commitPhase a (u.net + u.lead) true (u.axisHdr a) := by
  have hplan : (u.ax a).pro.plan.isEmpty = false := List.isEmpty_eq_false_iff.2 hp
  simp only [State.commitStep, hroom, hplan, State.nextStart_of_nil hs, Bool.not_true, Bool.not_false,
    Bool.false_eq_true, if_false, if_true]
  simp only [hs, List.getLast?_nil, List.isEmpty_nil]

section NoPlan

variable (hroom : (u.ax a).room = true) (hp : (u.ax a).pro.plan = [])
include hroom hp

theorem State.commitStep_entry {j : Nat} {f : Fetched} {fs : List Fetched} (hm : (u.ax a).pro.motion = .table j)
    (hr : (u.ax a).pro.run = some r) (hf : r.fetched = f :: fs) : u.commitStep a = u.commitEntry a r f fs none := by
  simp only [State.commitStep, hroom, hp, hm, hr, hf, Bool.not_true, List.isEmpty_nil, Bool.false_eq_true, if_false]

/-- Behind the last good entry of a run that ended in motion comes a stop (R109). -/
theorem State.commitStep_stop {j : Nat} (hm : (u.ax a).pro.motion = .table j) (hr : (u.ax a).pro.run = some r)
    (hf : r.fetched = []) (hbad : r.bad = true) (haw : r.awaits = false) (hv : r.endV ≠ 0) (hs : (u.ax a).pro.segs ≠ []) :
    u.commitStep a = u.appendStop a r := by
  have hsegs : (u.ax a).pro.segs.isEmpty = false := List.isEmpty_eq_false_iff.2 hs
  simp only [State.commitStep, hroom, hp, hm, hr, hf, hbad, haw, hsegs, bne_iff_ne.2 hv, Bool.not_true, Bool.not_false,
    Bool.and_true, List.isEmpty_nil, Bool.false_eq_true, if_false, if_true]

/-- A velocity that is not 0 goes on in cruise segments until a stop onto a soft limit is committed (R99, R100). -/
theorem State.commitStep_cruise {vt d : Rat} (hl : (u.ax a).pro.segs.getLast? = some g) (hsoft : g.soft = false)
    (hm : (∃ j acc, (u.ax a).pro.motion = .vel j vt acc d) ∨ (u.ax a).pro.motion = .cruise vt d) (hv : vt ≠ 0) :
    u.commitStep a = u.commitCruise a g.endTick false g.hdr vt d := by
  obtain ⟨j, acc, hm⟩ | hm := hm
  all_goals
    simp only [State.commitStep, hroom, hp, hm, hl, hsoft, hv, State.nextStart_of_last hl, Bool.not_true, List.isEmpty_nil,
      Option.map_some, Option.getD_some, decide_false, Bool.or_false, Bool.false_eq_true, if_false]

end NoPlan

/-! ## The start of a new plan (R91) -/

theorem exec_splice_head (hu : u = s.advance dt) (hs : (u.ax a).pro.segs = g :: rest) (hsp : g.splice = true)
    (he : g.entered = false) : exec (.splice dt a) s = .next (u.enter a) := by
  simp only [exec, execSplice, ← hu, hs, hsp, he, Bool.not_false, Bool.and_true, if_true]

/-- The segment in force gives way to the first one of a new plan, once that has begun. -/
theorem exec_splice_next (hu : u = s.advance dt) (hs : (u.ax a).pro.segs = g :: h :: rest) (hg : g.entered = true)
    (hsp : h.splice = true) (he : h.entered = false) (hend : g.endTick ≤ h.start) (hdue : h.start ≤ u.net) :
    exec (.splice dt a) s = .next ((u.popSeg a g).enter a) := by
  simp only [exec, execSplice, ← hu, hs, hg, hsp, he, hend, hdue, decide_true, Bool.not_true, Bool.not_false,
    Bool.and_true, Bool.and_false, Bool.false_eq_true, if_false, if_true]

/-! ## The end of a segment (R108, R118) -/

/-- A run of which nothing is committed waits for a class action to end it, or for a stamp that is still ahead. -/
def Pro.waits (p : Pro) (now : Nat) : Bool :=
  match p.motion, p.run with
  | .table _, some q => q.awaits || decide (now < waitEnd ((q.fetched.head?.map Fetched.wait).getD q.wait))
  | _, _ => false

theorem Pro.waits_of_not_table {p : Pro} (hm : ∀ j, p.motion ≠ .table j) (now : Nat) : p.waits now = false := by
  unfold Pro.waits
  split
  · exact absurd ‹_› (hm _)
  · rfl

theorem Pro.waits_of_run {p : Pro} {now j : Nat} (hm : p.motion = .table j) (hr : p.run = some r)
    (hw : r.awaits = true ∨ (r.fetched = [] ∧ now < waitEnd r.wait) ∨ ∃ f l, r.fetched = f :: l ∧ now < waitEnd f.wait) :
    p.waits now = true := by
  simp only [Pro.waits, hm, hr, Bool.or_eq_true, decide_eq_true_eq]
  refine hw.imp_right fun hw => ?_
  obtain ⟨hf, hn⟩ | ⟨f, l, hf, hn⟩ := hw
  · rw [hf]; exact hn
  · rw [hf]; exact hn

section Ended

variable (hu : u = s.advance dt) (he : g.entered = true) (hend : g.endTick ≤ u.net)
include hu he hend

theorem exec_segmentEnd_abutting (hs : (u.ax a).pro.segs = g :: h :: rest) (hst : h.start = g.endTick)
    (hsp : h.splice = false) : exec (.segmentEnd dt a) s = .next (((u.popSeg a g).syncHold a).enter a) := by
  simp only [exec, execSegmentEnd, ← hu, hs, he, Nat.not_lt.2 hend, hst, hsp, decide_false, Bool.not_true, Bool.or_false,
    Bool.false_and, Bool.false_eq_true, if_false, if_true]

/-- The start of a new plan at that tick is the splice's to act on. -/
theorem exec_segmentEnd_splice (hs : (u.ax a).pro.segs = g :: h :: rest) (hst : h.start = g.endTick) (hsp : h.splice = true) :
    exec (.segmentEnd dt a) s = .next u := by
  simp only [exec, execSegmentEnd, ← hu, hs, he, Nat.not_lt.2 hend, hst, hsp, decide_false, Bool.not_true, Bool.or_false,
    beq_self_eq_true, Bool.and_true, Bool.false_eq_true, if_false, if_true]

theorem exec_segmentEnd_apart (hs : (u.ax a).pro.segs = g :: h :: rest) (hst : h.start ≠ g.endTick) :
    exec (.segmentEnd dt a) s = .next ((u.popSeg a g).syncHold a) := by
  simp only [exec, execSegmentEnd, ← hu, hs, he, Nat.not_lt.2 hend, hst, beq_eq_false_iff_ne.2 hst, decide_false,
    Bool.not_true, Bool.or_false, Bool.and_false, Bool.false_eq_true, if_false]

/-- Behind the last segment committed the motion is over, its run waits, or PRO has fallen behind. -/
theorem exec_segmentEnd_last (hs : (u.ax a).pro.segs = [g]) (ht : t = (u.popSeg a g).passWait a) :
    exec (.segmentEnd dt a) s = .next (if (t.ax a).pro.finished then t.settle a
      else if (t.ax a).pro.waits t.net && g.endState.2 == 0 then t.syncHold a else t.starved a g) := by
  simp only [exec, execSegmentEnd, ← hu, hs, he, Nat.not_lt.2 hend, decide_false, Bool.not_true, Bool.or_false,
    Bool.false_eq_true, if_false, ← ht]
  rfl

end Ended

/-! ## The end of a wait (R105, R108) -/

theorem exec_waitStampReached_entry (hu : u = s.advance dt) (hs : (u.ax a).pro.segs = g :: rest) (hw : g.wait ≠ []) :
    exec (.waitStampReached dt a) s = .next (u.enter a) := by
  simp only [exec, execWaitStampReached, ← hu, hs, List.isEmpty_eq_false_iff.2 hw, Bool.false_eq_true, if_false]

/-- The waits that end a run are over once all their stamps have passed. -/
theorem State.passWait_passed (hr : (u.ax a).pro.run = some r) (hn : r.next = none) (hf : r.fetched = [])
    (hw : ∀ w ∈ r.wait, w.at_ ≤ u.net) :
    u.passWait a = u.setPro a { (u.ax a).pro with run := some { r with wait := [] } } := by
  have hall : (r.wait.all fun w => decide (w.at_ ≤ u.net)) = true := List.all_eq_true.2 fun w h => decide_eq_true (hw w h)
  simp only [State.passWait, hr, hn, hf, hall, Option.isNone_none, List.isEmpty_nil, Bool.and_self, if_true]

theorem State.passWait_ahead (hr : (u.ax a).pro.run = some r) (hw : ∃ w ∈ r.wait, u.net < w.at_) : u.passWait a = u := by
  obtain ⟨w, hmem, hlt⟩ := hw
  have hall : (r.wait.all fun w => decide (w.at_ ≤ u.net)) = false :=
    List.all_eq_false.2 ⟨w, hmem, by simpa using hlt⟩
  simp only [State.passWait, hr, hall, Bool.and_false, Bool.false_eq_true, if_false]

/-- With nothing committed of a run, it ends where it waits no longer. -/
theorem exec_waitStampReached_runEnd (hu : u = s.advance dt) {j : Nat} (hs : (u.ax a).pro.segs = [])
    (hm : (u.ax a).pro.motion = .table j) (hr : (u.ax a).pro.run = some r) (ht : t = u.passWait a) :
    exec (.waitStampReached dt a) s =
      .next (if ((t.ax a).pro.run.map Run.wait).getD [] == [] then t.settle a else t) := by
  simp only [exec, execWaitStampReached, ← hu, hs, hm, hr, ← ht]

end ProfileEvents

/-- Settles O30: each clause is what one event does in the branch that its hypotheses name. -/
theorem profileEventsAdvanceTheTrajectory : Obligations.ProfileEventsAdvanceTheTrajectory := by
  intro s u dt a p hu hp
  subst hp
  refine ⟨fun j r f t hm hr hbad hnext hroom hf => exec_entryFetch hu hm hr hbad hnext hroom hf, ?idle,
    fun hg hroom hplan => ?phase, fun hg hroom hplan j r hm hr => ?run, fun hg hroom hplan g hl hsoft vt d hm hv => ?cruise,
    fun g rest hs hsp he => exec_splice_head hu hs hsp he,
    fun g h rest hs hg hsp he hend hdue => exec_splice_next hu hs hg hsp he hend hdue,
    fun g h rest hs he hend => ⟨exec_segmentEnd_abutting hu he hend hs, exec_segmentEnd_splice hu he hend hs,
      exec_segmentEnd_apart hu he hend hs⟩,
    fun g hs he hend t ht => ?last, fun g rest hs hw => exec_waitStampReached_entry hu hs hw,
    fun j r hs hm hr hn hf => ?wait⟩
  case idle =>
    rintro (hroom | hg)
    · cases hg : u.gateOn 3
      · exact exec_segmentCommit_gated hu hg
      · rw [exec_segmentCommit hu hg, State.commitStep_full hroom]
    · exact exec_segmentCommit_gated hu hg
  case phase =>
    rw [exec_segmentCommit hu hg]
    exact ⟨fun g hl => by rw [State.commitStep_phase hroom hplan hl],
      fun hs => by rw [State.commitStep_firstPhase hroom hplan hs]⟩
  case run =>
    rw [exec_segmentCommit hu hg]
    exact ⟨fun f rest hf => by rw [State.commitStep_entry hroom hplan hm hr hf],
      fun hf hbad haw hv hs => by rw [State.commitStep_stop hroom hplan hm hr hf hbad haw hv hs]⟩
  case cruise => rw [exec_segmentCommit hu hg, State.commitStep_cruise hroom hplan hl hsoft hm hv]
  case last =>
    rw [exec_segmentEnd_last hu he hend hs ht]
    refine ⟨fun hfin => ?_, fun hfin hm => ?_, fun j r hfin hm hr hw hv => ?_⟩
    · rw [if_pos hfin]
    · simp only [hfin, Pro.waits_of_not_table hm, Bool.false_and, Bool.false_eq_true, if_false]
    · simp only [hfin, Pro.waits_of_run hm hr hw, hv, beq_self_eq_true, Bool.and_self, Bool.false_eq_true, if_false, if_true]
  case wait =>
    rw [exec_waitStampReached_runEnd hu hs hm hr rfl]
    refine ⟨fun hw => ?_, fun hw => ?_⟩
    · have hrun : ((u.setPro a { (u.ax a).pro with run := some { r with wait := [] } }).ax a).pro.run =
          some { r with wait := [] } := by rw [State.ax_setPro_self]
      rw [State.passWait_passed hr hn hf hw, hrun]
      rfl
    · have hwait : r.wait ≠ [] := fun h => by simp [h] at hw
      rw [State.passWait_ahead hr hw, hr, if_neg (by simpa using hwait)]

end Sys2Proof.Machine

/-! SUPPORT. The writes of an axis's configuration: what each register makes of a value. -/

namespace Sys2Proof.Machine

section AxisConfiguration

variable {s u v w y : State} {dt : Nat} {q : Port} {a : AxisId} {x : Word}

/-! ## The writes, once they reach their registers -/

section Writes

variable (hu : u = s.advance dt) (hq : u.portOpen q = true) (hl : u.locked = false)
include hu hq hl

theorem exec_stpCfgWrite : exec (.stpCfgWrite dt q a x) s = .next ((u.cancel q).writeStpCfg a x) := by
  simp only [exec, execStpCfgWrite, ← hu, State.portWrite_open hq hl]

theorem exec_chpCfgWrite : exec (.chpCfgWrite dt q a x) s = .next ((u.cancel q).writeChpCfg a x) := by
  simp only [exec, execChpCfgWrite, ← hu, State.portWrite_open hq hl]

theorem exec_halfWrite : exec (.halfWrite dt q a x) s = .next ((u.cancel q).writePwmCfg a x) := by
  simp only [exec, execHalfWrite, ← hu, State.portWrite_open hq hl]

theorem exec_freezeWrite : exec (.freezeWrite dt q a x) s = .next ((u.cancel q).writeFreeze a x) := by
  simp only [exec, execFreezeWrite, ← hu, State.portWrite_open hq hl]

theorem exec_proParamWrite (i : BitVec 5) :
    exec (.proParamWrite dt q a i x) s = .next ((u.cancel q).writePro a i.toNat x) := by
  simp only [exec, execProParamWrite, ← hu, State.portWrite_open hq hl]

end Writes

/-! ## STP.CFG (R124, R141, R358) -/

/-- MSIZE may change in OFF, READY, HOLDING with nothing committed, and FAULTED at rest (R124). -/
def State.msizeFree (s : State) (a : AxisId) : Bool :=
  match (s.ax a).st with
  | .off | .ready => true
  | .holding => (s.ax a).pro.segs.isEmpty
  | .faulted => decide ((s.traj a).2 = 0)
  | _ => false

theorem State.msizeFree_iff : w.msizeFree a = true ↔ (w.ax a).st = .off ∨ (w.ax a).st = .ready ∨
    ((w.ax a).st = .holding ∧ (w.ax a).pro.segs = []) ∨ ((w.ax a).st = .faulted ∧ (w.traj a).2 = 0) := by
  unfold State.msizeFree
  cases (w.ax a).st <;> simp

theorem State.writeStpCfg_eq : w.writeStpCfg a x =
    if x.fld 0 4 != w.fld (Reg.stpCfg a) 0 4 && w.staged a then w
    else (if x.fld 0 4 = w.fld (Reg.stpCfg a) 0 4 ∨ w.msizeFree a = true ∧ x.fld 0 4 ≤ 10 then w.plainWrite (Reg.stpCfg a) x
      else ((w.plainWrite (Reg.stpCfg a) x).setFld (Reg.stpCfg a) 0 4 (w.fld (Reg.stpCfg a) 0 4)).flag (Reg.stpStat a) 9).lagCheck
        a := by
  have hcond : (decide (x.fld 0 4 = w.fld (Reg.stpCfg a) 0 4) || w.msizeFree a && decide (x.fld 0 4 ≤ 10)) = true ↔
      x.fld 0 4 = w.fld (Reg.stpCfg a) 0 4 ∨ w.msizeFree a = true ∧ x.fld 0 4 ≤ 10 := by simp
  simp only [← hcond]
  rfl

theorem State.writeStpCfg_takes
    (h : x.fld 0 4 = w.fld (Reg.stpCfg a) 0 4 ∨ w.staged a = false ∧ w.msizeFree a = true ∧ x.fld 0 4 ≤ 10) :
    w.writeStpCfg a x = (w.plainWrite (Reg.stpCfg a) x).lagCheck a := by
  rw [State.writeStpCfg_eq, if_neg, if_pos (h.imp_right And.right)]
  rcases h with h | ⟨h, _⟩ <;> simp [h]

theorem State.writeStpCfg_staged (hne : x.fld 0 4 ≠ w.fld (Reg.stpCfg a) 0 4) (hst : w.staged a = true) :
    w.writeStpCfg a x = w := by
  rw [State.writeStpCfg_eq, if_pos (by simp [hne, hst])]

theorem State.writeStpCfg_refused (hne : x.fld 0 4 ≠ w.fld (Reg.stpCfg a) 0 4) (hst : w.staged a = false)
    (h : ¬w.msizeFree a = true ∨ 10 < x.fld 0 4) : w.writeStpCfg a x =
      (((w.plainWrite (Reg.stpCfg a) x).setFld (Reg.stpCfg a) 0 4 (w.fld (Reg.stpCfg a) 0 4)).flag (Reg.stpStat a) 9).lagCheck
        a := by
  have hrefused : ¬(x.fld 0 4 = w.fld (Reg.stpCfg a) 0 4 ∨ w.msizeFree a = true ∧ x.fld 0 4 ≤ 10) := by
    rintro (heq | ⟨hfree, hle⟩)
    · exact hne heq
    · exact h.elim (· hfree) (Nat.not_lt.2 hle)
  rw [State.writeStpCfg_eq, if_neg (by simp [hst]), if_neg hrefused]

/-! ## CHP.CFG (R147, R165) -/

theorem State.writeChpCfg_staged (hy : y = w.gridRelease a) (hst : y.staged a = true)
    (hne : x.fld 11 2 ≠ y.fld (Reg.chpCfg a) 11 2) : w.writeChpCfg a x = y := by
  subst hy
  exact if_pos ⟨hst, hne⟩

section Chp

variable (hy : y = w.gridRelease a) (hst : y.staged a = false ∨ x.fld 11 2 = y.fld (Reg.chpCfg a) 11 2)
include hy hst

theorem State.writeChpCfg_unstaged : w.writeChpCfg a x =
    if x.bit 13 != w.bit (Reg.chpCfg a) 13 && !((w.ax a).st == .off || (w.ax a).st == .ready)
    then ((y.plainWrite (Reg.chpCfg a) x).setBit (Reg.chpCfg a) 13 (w.bit (Reg.chpCfg a) 13)).flag (Reg.chpStat a) 8
    else y.plainWrite (Reg.chpCfg a) x := by
  subst hy
  refine if_neg fun ⟨hs, hne⟩ => hst.elim (fun h => ?_) hne
  exact Bool.false_ne_true (h.symm.trans hs)

theorem State.writeChpCfg_takes (h : x.bit 13 = w.bit (Reg.chpCfg a) 13 ∨ (w.ax a).st = .off ∨ (w.ax a).st = .ready) :
    w.writeChpCfg a x = y.plainWrite (Reg.chpCfg a) x := by
  rw [State.writeChpCfg_unstaged hy hst, if_neg]
  rcases h with h | h | h <;> simp [h]

theorem State.writeChpCfg_refused (hne : x.bit 13 ≠ w.bit (Reg.chpCfg a) 13) (hoff : (w.ax a).st ≠ .off)
    (hready : (w.ax a).st ≠ .ready) : w.writeChpCfg a x =
      ((y.plainWrite (Reg.chpCfg a) x).setBit (Reg.chpCfg a) 13 (w.bit (Reg.chpCfg a) 13)).flag (Reg.chpStat a) 8 := by
  rw [State.writeChpCfg_unstaged hy hst, if_pos (by simp [hne, hoff, hready])]

end Chp

/-! ## PWM.CFG (R173, R181, R186) -/

/-- What a write of PWM.CFG stores, with the flags it sets. -/
def State.storePwmCfg (w : State) (a : AxisId) (x : Word) : State :=
  let v := if x.fld 0 16 < 2000 ∨ 32787 < x.fld 0 16 then (w.plainWrite (Reg.pwmCfg a) x).flag (Reg.pwmStat a) 6
    else w.plainWrite (Reg.pwmCfg a) x
  if x.bit 26 ∧ x.fld 24 2 ≠ 0 then v.flag (Reg.pwmStat a) 2 else v

/-- The carrier as it is after a write, its strobe moved with the centre unless it is committed (R186). -/
def State.moveStrobe (v : State) (a : AxisId) (p : Pwm) : State :=
  v.setPwm a { p with strobeAt := if p.strobeAt < v.net + 112 then p.strobeAt else max (v.net + 112) (v.strobeOf a p.c) }

@[simp] theorem Pwm.started_note (p : Pwm) (now half : Nat) : (p.note now half).started = p.started := rfl

@[simp] theorem Pwm.started_newHalf (p : Pwm) (now half : Nat) : (p.newHalf now half).started = p.started := by
  unfold Pwm.newHalf
  split <;> rfl

/-- What a carrier that runs makes of a write of PWM.CFG; `old` was the half before it. -/
def State.seeHalf (v : State) (a : AxisId) (old : Nat) : State :=
  let p := if v.half a = old then (v.ax a).pwm else (v.ax a).pwm.note v.net old
  let p := if v.half a = old || !p.started then p else p.newHalf v.net (v.half a)
  let t := v.moveStrobe a p
  if v.half a = old || !p.started then t else (t.replanCoil a 0).replanCoil a 1

theorem State.writePwmCfg_eq : w.writePwmCfg a x = if !((w.storePwmCfg a x).ax a).pwm.run then w.storePwmCfg a x
    else (w.storePwmCfg a x).seeHalf a (w.half a) := rfl

theorem State.writePwmCfg_stopped (hv : v = w.storePwmCfg a x) (hr : (v.ax a).pwm.run = false) : w.writePwmCfg a x = v := by
  rw [State.writePwmCfg_eq, ← hv, hr]
  rfl

theorem State.writePwmCfg_running (hv : v = w.storePwmCfg a x) (hr : (v.ax a).pwm.run = true) :
    w.writePwmCfg a x = v.seeHalf a (w.half a) := by
  rw [State.writePwmCfg_eq, ← hv, hr]
  rfl

/-- A half that stays, or of a carrier that has not started, moves only the strobe. -/
theorem State.seeHalf_kept {old : Nat} {p : Pwm} (hp : p = if v.half a = old then (v.ax a).pwm else (v.ax a).pwm.note v.net old)
    (h : v.half a = old ∨ (v.ax a).pwm.started = false) : v.seeHalf a old = v.moveStrobe a p := by
  have hstarted : p.started = (v.ax a).pwm.started := by rw [hp]; split <;> rfl
  have hkept : (decide (v.half a = old) || !p.started) = true := by rw [hstarted]; simpa using h
  simp only [State.seeHalf, ← hp, hkept, if_true]

/-- The half in progress takes another length, and what is planned of its edges is planned again (R181). -/
theorem State.seeHalf_changed {old : Nat} {p : Pwm} (hp : p = (v.ax a).pwm.note v.net old) (hne : v.half a ≠ old)
    (hs : (v.ax a).pwm.started = true) : v.seeHalf a old =
      ((v.moveStrobe a (p.newHalf v.net (v.half a))).replanCoil a 0).replanCoil a 1 := by
  simp only [State.seeHalf, hp, hne, hs, Pwm.started_note, Pwm.started_newHalf, decide_false, Bool.not_true, Bool.or_false,
    Bool.false_eq_true, if_false]

/-! ## PRO parameters (R101, R119) -/

theorem State.writePro_limits : w.writePro a 14 x = (w.plainWrite (proPar a 14) x).slCheck a := rfl

theorem State.writePro_reserved {i : Nat} (h : 14 < i) : w.writePro a i x = w := by
  rw [State.writePro, if_neg (by omega), if_pos h]

/-- A _LO word is held until its _HI word is written. -/
theorem State.writePro_low {i : Nat} (h : i < 14) (he : i % 2 = 0) : w.writePro a i x = w.hold (proPar a i) x := by
  rw [State.writePro, if_neg (by omega), if_neg (by omega), if_pos he]

/-- A _HI word loads with the word held for it; an EDEC that is not positive is refused. -/
theorem State.writePro_high {i : Nat} {lo : Word} (h : i < 14) (he : i % 2 = 1) (hlo : lo = w.heldWord (proPar a i - 1))
    (hv : v = (w.setReg (proPar a i - 1) lo).setReg (proPar a i) (hiWord48 (s48 x lo))) :
    w.writePro a i x = if i = 7 ∧ s48 x lo ≤ 0 then w.flag (Reg.proStat a) 22
      else if 10 ≤ i then v.slCheck a else v := by
  subst hlo hv
  rw [State.writePro, if_neg (by omega), if_neg (by omega), if_neg (by omega)]

end AxisConfiguration

/-- Settles O37: each write is its register's operation, in the branch that the clause's hypotheses name. -/
theorem axisConfigurationWritesActOrAreRefused : Obligations.AxisConfigurationWritesActOrAreRefused := by
  intro s u w dt q a x hu hq hl hw
  subst hw
  refine ⟨fun old hold free hfree => ?stp, fun old y hold hy => ?chp, fun v1 v hv1 hv p hp => ?half, fun v hv => ?freeze,
    fun i hi he => ?low, fun i hi he lo v hlo hv => ?high, fun i hi => ?reserved, ?limits⟩
  case stp =>
    subst hold
    rw [exec_stpCfgWrite hu hq hl, hfree, ← State.msizeFree_iff]
    exact ⟨fun h => by rw [State.writeStpCfg_takes h], fun hne hst => by rw [State.writeStpCfg_staged hne hst],
      fun hne hst h => by rw [State.writeStpCfg_refused hne hst h]⟩
  case chp =>
    subst hold
    rw [exec_chpCfgWrite hu hq hl]
    exact ⟨fun hst hne => by rw [State.writeChpCfg_staged hy hst hne], fun hst =>
      ⟨fun h => by rw [State.writeChpCfg_takes hy hst h],
        fun hne hoff hready => by rw [State.writeChpCfg_refused hy hst hne hoff hready]⟩⟩
  case half =>
    have hstored : v = (u.cancel q).storePwmCfg a x := by rw [hv, hv1]; rfl
    subst hp
    rw [exec_halfWrite hu hq hl]
    refine ⟨fun hr => by rw [State.writePwmCfg_stopped hstored hr], fun hr p1 hz t hp1 hhz => ?_⟩
    subst hhz
    rw [State.writePwmCfg_running hstored hr]
    refine ⟨fun h ht => ?_, fun hne hs p2 hp2 ht => ?_⟩
    · rw [State.seeHalf_kept hp1 h, ht]
      rfl
    · rw [State.seeHalf_changed (hp1.trans (if_neg hne)) hne hs, ht, hp2]
      rfl
  case freeze =>
    rw [exec_freezeWrite hu hq hl, hv]
    rfl
  case low => rw [exec_proParamWrite hu hq hl, State.writePro_low hi he]
  case high =>
    rw [exec_proParamWrite hu hq hl, State.writePro_high hi he hlo hv]
    refine ⟨fun hlt hpos => ?_, fun h7 hneg => ?_, fun hge => ?_⟩
    · rw [if_neg fun h => absurd (hpos h.1) (not_lt.2 h.2), if_neg (Nat.not_le.2 hlt)]
    · rw [if_pos ⟨h7, hneg⟩]
    · rw [if_neg fun h => absurd h.1 (by omega), if_pos hge]
  case reserved => rw [exec_proParamWrite hu hq hl, State.writePro_reserved hi]
  case limits => exact (exec_proParamWrite hu hq hl 14).trans (congrArg _ State.writePro_limits)

end Sys2Proof.Machine

/-! SUPPORT. The current engine's instants: what each of them does, and the statement on the amplitude. -/

namespace Sys2Proof.Machine

section GridInstants

variable {s t u w v : State} {dt g : Nat} {a : AxisId}

/-! ## What leaves the marks of the grid alone (R148) -/

/-- The marks of the grid on an axis: the last instant whose setpoint has been released, and the last that has come. -/
def State.gridMarks (s : State) (a : AxisId) : Nat × Nat := ((s.ax a).chp.gridSent, (s.ax a).chp.lastGrid)

theorem State.gridMarks_eq_iff {m n : Nat} :
    s.gridMarks a = (m, n) ↔ (s.ax a).chp.gridSent = m ∧ (s.ax a).chp.lastGrid = n := Prod.mk_inj

@[simp] theorem State.ax_setChp_self (c : Chp) : (s.setChp a c).ax a = { s.ax a with chp := c } := State.ax_setAx_self ..

@[simp] theorem State.gridMarks_setChp (c : Chp) : (s.setChp a c).gridMarks a = (c.gridSent, c.lastGrid) := by
  simp [State.gridMarks]

@[simp] theorem State.gridMarks_setStp (p : Stp) : (s.setStp a p).gridMarks a = s.gridMarks a := by simp [State.gridMarks]

theorem State.gridMarks_of_axes (h : t.axes = s.axes) : t.gridMarks a = s.gridMarks a := by
  simp only [State.gridMarks, State.ax, h]

theorem State.gridMarks_sendSetpoint (i ep amp : Nat) (e : Bool) (zc : Vector Bool 2) (m : Vector (Option Bool) 2) (h : Hdr) :
    (s.sendSetpoint a i ep amp e zc m h).gridMarks a = s.gridMarks a :=
  (State.gridMarks_of_axes State.trace_axes).trans (State.gridMarks_setChp _)

@[simp] theorem State.gridMarks_flushGrid : (s.flushGrid a).gridMarks a = s.gridMarks a := by
  unfold State.flushGrid
  dsimp only
  split
  · rfl
  · exact (State.gridMarks_sendSetpoint ..).trans (State.gridMarks_setChp _)

theorem LoopOnly.gridMarks (h : LoopOnly a s t) : t.gridMarks a = s.gridMarks a := by
  obtain ⟨l, m, hown⟩ := h.own
  simp only [State.gridMarks, hown]

theorem State.gridMarks_energiseDone : (s.energiseDone a).gridMarks a = s.gridMarks a := by
  have hsync (c : Chp) : (((s.setChp a c).setSt a .holding).syncLoops a).gridMarks a = (c.gridSent, c.lastGrid) := by
    rw [State.syncLoops_only.gridMarks, State.gridMarks, State.ax_setSt_self, State.ax_setChp_self]
  unfold State.energiseDone
  dsimp only
  split
  · exact (State.gridMarks_of_axes State.finish_axes).trans (hsync _)
  · exact hsync _

@[simp] theorem State.gridMarks_gridStage : (s.gridStage a).gridMarks a = s.gridMarks a := by
  have hset (f : Chp) (hs : f.gridSent = (s.ax a).chp.gridSent) (hl : f.lastGrid = (s.ax a).chp.lastGrid) :
      (s.setChp a f).gridMarks a = s.gridMarks a := by rw [State.gridMarks_setChp, hs, hl, State.gridMarks]
  unfold State.gridStage
  dsimp only
  split
  · rfl
  · split
    · exact hset _ rfl rfl
    · split
      · exact hset _ rfl rfl
      · split
        · rfl
        · split
          · exact State.gridMarks_energiseDone
          · exact hset _ rfl rfl
      · exact hset _ rfl rfl
      · rfl

@[simp] theorem State.gridMarks_flag (k i : Nat) : (s.flag k i).gridMarks a = s.gridMarks a :=
  State.gridMarks_of_axes State.setReg_axes

@[simp] theorem State.gridMarks_bump (k lo w : Nat) : (s.bump k lo w).gridMarks a = s.gridMarks a :=
  State.gridMarks_of_axes State.setReg_axes

@[simp] theorem State.gridMarks_raiseAt (source cause sub : Nat) (sc : Scope) (cls : Nat) :
    (s.raiseAt source cause sub sc cls).gridMarks a = s.gridMarks a := State.gridMarks_of_axes State.raiseItem_axes

@[simp] theorem State.gridMarks_lagCheck : (s.lagCheck a).gridMarks a = s.gridMarks a := by
  unfold State.lagCheck
  cases (s.ax a).stp.follow with
  | none => rfl
  | some f =>
    simp only [State.raiseAx, apply_ite (State.gridMarks · a), State.gridMarks_raiseAt, State.gridMarks_flag,
      State.gridMarks_setStp, ite_self]

@[simp] theorem State.gridMarks_droopCheck : (s.droopCheck a).gridMarks a = s.gridMarks a := by
  unfold State.droopCheck
  simp only [State.raiseC0, apply_ite (State.gridMarks · a), State.gridMarks_raiseAt, State.gridMarks_bump,
    State.gridMarks_flag, State.gridMarks_setChp]
  exact ite_self _

/-! ## A grid instant (R148, R154 to R158) -/

/-- A released grid instant has come, or is still ahead: nothing to do. -/
theorem State.gridArrive_idle (h : (u.ax a).chp.gridSent ≤ (u.ax a).chp.lastGrid ∨ u.net < (u.ax a).chp.gridSent) :
    u.gridArrive a = u := if_pos (by simpa using h)

/-- What a released grid instant brings as it comes. -/
def State.gridComes (u : State) (a : AxisId) (g : Nat) : State :=
  ((((u.flushGrid a).setChp a { ((u.flushGrid a).ax a).chp with lastGrid := g }).gridStage a).lagCheck a).droopCheck a

theorem State.gridArrive_comes (hl : (u.ax a).chp.lastGrid < (u.ax a).chp.gridSent) (hn : (u.ax a).chp.gridSent ≤ u.net) :
    u.gridArrive a = u.gridComes a (u.ax a).chp.gridSent := if_neg (by simpa using ⟨hl, hn⟩)

theorem State.gridMarks_gridComes : (u.gridComes a g).gridMarks a = ((u.ax a).chp.gridSent, g) := by
  have hflush : ((u.flushGrid a).gridMarks a).1 = (u.gridMarks a).1 := by rw [State.gridMarks_flushGrid]
  simp only [State.gridComes, State.gridMarks_droopCheck, State.gridMarks_lagCheck, State.gridMarks_gridStage,
    State.gridMarks_setChp]
  exact congrArg (·, g) hflush

/-- The setpoint of a grid instant that has been released already is not released again. -/
theorem State.releaseGrid_sent {due : Option Nat} (h : g ≤ ((u.gridArrive a).ax a).chp.gridSent) :
    u.releaseGrid a g due = u.gridArrive a := if_pos h

theorem State.releaseGrid_sends {due : Option Nat} {c : Chp} (hc : c = (w.ax a).chp) (hl : c.gridSent ≤ c.lastGrid)
    (hg : c.gridSent < g) {amp : Nat} {mode : Vector (Option Bool) 2}
    (hv : (w.setChp a { c with gridSent := g }).gridAmp a g = (amp, mode, v)) :
    w.releaseGrid a g due = v.gridSetpoint a g amp mode (w.rampStep a) due := by
  subst hc
  simp only [State.releaseGrid, State.gridArrive_idle (.inl hl), Nat.not_le.2 hg, if_false, hv]

section Events

variable (hu : u = s.advance dt)
include hu

theorem exec_gridInstant_gated (hg : u.gateOn 5 = false) : exec (.gridInstant dt a) s = .next u := by
  simp only [exec, execGridInstant, ← hu, hg, Bool.false_eq_true, if_false]

theorem exec_gridInstant (hg : u.gateOn 5 = true) :
    exec (.gridInstant dt a) s = .next ((u.releaseGrid a (gridAt 20000 u.net) none).gridArrive a) := by
  simp only [exec, execGridInstant, ← hu, hg, if_true]

/-- A grid instant whose setpoint has been released comes: after it there is nothing more to release. -/
theorem exec_gridInstant_comes (hg : u.gateOn 5 = true) (hgrid : g = gridAt 20000 u.net)
    (hl : (u.ax a).chp.lastGrid < g) (hs : (u.ax a).chp.gridSent = g) :
    exec (.gridInstant dt a) s = .next (u.gridComes a g) := by
  have hnet : g ≤ u.net := hgrid ▸ Nat.div_mul_le_self ..
  have harrive : u.gridArrive a = u.gridComes a g := hs ▸ State.gridArrive_comes (hs ▸ hl) (hs ▸ hnet)
  have hmarks : (u.gridComes a g).gridMarks a = (g, g) := by rw [State.gridMarks_gridComes, hs]
  obtain ⟨hsent, hlast⟩ := State.gridMarks_eq_iff.1 hmarks
  have hrelease : u.releaseGrid a g none = u.gridComes a g := by
    rw [State.releaseGrid_sent (by rw [harrive, hsent]), harrive]
  rw [exec_gridInstant hu hg, ← hgrid, hrelease, State.gridArrive_idle (.inl (hsent.trans hlast.symm).le)]

/-! ## The brake waits, the end of a release, the hold timer (Tables 6-1 and 6-2, R153, R155) -/

theorem exec_brakeWaitEnd_due {n : Nat} (hb : (u.ax a).chp.brakeEnd = some n) : exec (.brakeWaitEnd dt a) s =
    .next (if (u.ax a).st = .energising ∧ (u.ax a).chp.ampst = .brakeWait ∧ n ≤ u.tb then u.energiseDone a else u) := by
  simp only [exec, execBrakeWaitEnd, ← hu, hb]

theorem exec_releaseBrakeWaitEnd_due {n : Nat} (hb : (u.ax a).chp.brakeEnd = some n) :
    exec (.releaseBrakeWaitEnd dt a) s =
      .next (if (u.ax a).chp.ampst = .release ∧ n ≤ u.tb then u.releaseRamp a else u) := by
  simp only [exec, execReleaseBrakeWaitEnd, ← hu, hb]

/-- The releases of an axis that complete together (log 42). -/
def State.joined (u : State) (a : AxisId) : List Nat :=
  (u.tags.filter fun d => d.on a && d.op == .axisRelease && d.place == .running).map Cmd.id

theorem exec_releaseEnd_due {n : Nat} (hr : (u.ax a).chp.releasedAt = some n) (hn : n + 20000 ≤ u.net) :
    exec (.releaseEnd dt a) s = .next ((u.joined a).foldl (fun v i => v.done i) ((u.killAxis a).setSt a
      (if (u.ax a).chp.releaseFaulted || (u.ax a).st == .faulted then .faulted else .ready))) := by
  simp only [exec, execReleaseEnd, ← hu, hr, Nat.not_lt.2 hn, if_false, State.joined]

theorem exec_holdTimerExpiry_due {b : Chp} {n : Nat} (hw : w = u.gridRelease a) (hb : b = (w.ax a).chp)
    (hh : b.holdFrom = some n)
    (hdue : b.ampst = .run ∧ (w.loopCfg a).mode = 0 ∧ b.holdDelay ≠ 0 ∧ n + b.holdDelay * 4000000 ≤ w.tb) :
    exec (.holdTimerExpiry dt a) s =
      .next (w.setChp a { b with ampst := .hramp, ramp := some ⟨b.amp, w.ihold a, w.hrampK a, 0⟩ }) := by
  subst hb
  simp only [exec, execHoldTimerExpiry, ← hu, ← hw, hh]
  exact congrArg _ (if_pos hdue)

end Events

end GridInstants

/-- Settles O32: a grid instant comes (`exec_gridInstant_comes`), or its setpoint is still to be released
(`releaseGrid_sends`), as `gridRelease` does ahead of it; each other event is what it does when it is due. -/
theorem currentEngineInstantsMoveTheAmplitude : Obligations.CurrentEngineInstantsMoveTheAmplitude := by
  intro s u dt a c hu hc
  subst hc
  refine ⟨exec_gridInstant_gated hu, fun g hgrid hg => ⟨fun hl hs => ?comes,
    fun hl hlt amp mode v hv => ?sends, fun hle h => ?idle⟩, fun g w b hgrid hw hb hl => ?release,
    fun t ht hn => ⟨fun ha hst => ?lifted, fun hst => ?otherwise, fun ha z b hz hb => ?brake⟩,
    fun t hr hn => ?released,
    fun z b t hz hb hh ha hm hd hn => ?hold⟩
  case comes => exact exec_gridInstant_comes hu hg hgrid hl hs
  case released => exact exec_releaseEnd_due hu hr hn
  case hold => exact exec_holdTimerExpiry_due hu hz hb hh ⟨ha, hm, hd, hn⟩
  case sends =>
    have hrelease := State.releaseGrid_sends (due := none) rfl hl hlt hv
    rw [exec_gridInstant hu hg, gridAt, ← hgrid, hrelease]
  case idle =>
    have harrive : u.gridArrive a = u := State.gridArrive_idle h
    rw [exec_gridInstant hu hg, gridAt, ← hgrid, State.releaseGrid_sent (by rwa [harrive]), harrive, harrive]
  case release =>
    have hdef : u.gridRelease a = w.releaseGrid a g (u.edgeDue a) := by rw [hgrid, hw]; rfl
    have harrive : w.gridArrive a = w := State.gridArrive_idle (.inl (hb ▸ hl))
    rw [hdef]
    refine ⟨fun hle => ?_, fun hlt amp mode v hv => State.releaseGrid_sends hb hl hlt hv⟩
    subst hb
    rw [State.releaseGrid_sent (by rwa [harrive]), harrive]
  case lifted => rw [exec_brakeWaitEnd_due hu ht, if_pos ⟨hst, ha, hn⟩]
  case otherwise => rw [exec_brakeWaitEnd_due hu ht, if_neg fun h => hst h.1]
  case brake =>
    subst hz hb
    rw [exec_releaseBrakeWaitEnd_due hu ht, if_pos ⟨ha, hn⟩]
    rfl

end Sys2Proof.Machine

/-! SUPPORT. The current tables: what a write of TABCTL and the end of a load do, and the statement on them. -/

namespace Sys2Proof.Machine

section CurrentTables

variable {s t u v w z : State} {dt k n : Nat} {q : Port} {a : AxisId} {x : Word} {h : Hdr} {c : Chp}

/-! ## A parameter is no register of the gating (R369) -/

theorem le_chpPar (n idx : Nat) : 0x100000000 ≤ chpPar n idx := by
  unfold chpPar paramKey
  omega

theorem State.gateOn_setReg_param {y : Word} {i : Nat} (hk : 0x100000000 ≤ k) : (s.setReg k y).gateOn i = s.gateOn i := by
  have hne (j : Nat) (hj : j < 0x100000000) : (s.setReg k y).reg j = s.reg j := State.reg_setReg_ne k y j (by omega)
  have hlevel : (s.setReg k y).level = s.level := congrArg (Word.fld · 0 2) (hne Reg.pwrLevel (by decide))
  have hclock : (s.setReg k y).clockLevel = s.clockLevel := by
    unfold State.clockLevel
    rw [State.setReg_pwr, hlevel]
  have hsleep : (s.setReg k y).bit Reg.clkGateSleep i = s.bit Reg.clkGateSleep i :=
    congrArg (Word.bit · i) (hne Reg.clkGateSleep (by decide))
  have hrun : (s.setReg k y).bit Reg.clkGateRun i = s.bit Reg.clkGateRun i :=
    congrArg (Word.bit · i) (hne Reg.clkGateRun (by decide))
  unfold State.gateOn
  rw [State.setReg_pwr, hclock, hsleep, hrun]

@[simp] theorem State.writerHdr_setReg (y : Word) : (s.setReg k y).writerHdr = s.writerHdr := by
  simp only [State.writerHdr, State.setReg_tags]

/-! ## LOAD and SWAP (R21, R149, R172) -/

theorem State.swapWaiting_none (hs : (t.ax a).chp.swapAfter = none) : t.swapWaiting a = t := by
  simp only [State.swapWaiting, hs]

theorem State.swapWaiting_some (hs : (t.ax a).chp.swapAfter = some h) : t.swapWaiting a = t.swapTables a h := by
  simp only [State.swapWaiting, hs]

/-- A block that holds nothing to load: free, quarantined or poisoned. -/
@[reducible] def Desc.unloadable (d : Desc) : Prop := d.owner = 0xff ∨ d.owner = 0xf0 ∨ d.poison = true

theorem Desc.not_unloadable {d : Desc} (hfree : d.owner ≠ 0xff) (hquar : d.owner ≠ 0xf0) (hp : d.poison = false) :
    ¬d.unloadable := by
  rintro (ho | ho | ho)
  · exact hfree ho
  · exact hquar ho
  · exact Bool.false_ne_true (hp.symm.trans ho)

/-- A load of block `k` starts. -/
def State.startLoad (v : State) (a : AxisId) (k : Nat) (h : Hdr) : State :=
  (v.poolItem h a).setChp a { (v.ax a).chp with load := some k }

/-- A load is refused: TABERR is set, and one that runs ends. -/
def State.refuseLoad (v : State) (a : AxisId) : State :=
  (v.setChp a { (v.ax a).chp with load := none }).flag (Reg.chpStat a) 10

theorem State.chp_startLoad : ((v.startLoad a k h).ax a).chp = { (v.ax a).chp with load := some k } :=
  congrArg Axis.chp (State.ax_setChp_self _)

@[simp] theorem State.ax_flag (k i : Nat) : (s.flag k i).ax a = s.ax a := (State.ax_mark ..).trans (State.ax_setReg ..)

theorem State.chp_refuseLoad : ((v.refuseLoad a).ax a).chp = { (v.ax a).chp with load := none } := by
  rw [State.refuseLoad, State.ax_flag, State.ax_setChp_self]

/-- A SWAP is made at once, or waits for the load that runs. -/
def State.askSwap (v : State) (a : AxisId) (h : Hdr) : State :=
  if (v.ax a).chp.load.isSome then v.setChp a { (v.ax a).chp with swapAfter := some h } else v.swapTables a h

theorem State.askSwap_now (hl : (v.ax a).chp.load = none) : v.askSwap a h = v.swapTables a h :=
  if_neg (by simp [hl])

theorem State.askSwap_waits (hl : (v.ax a).chp.load ≠ none) :
    v.askSwap a h = v.setChp a { (v.ax a).chp with swapAfter := some h } := if_pos (Option.isSome_iff_ne_none.2 hl)

/-- A LOAD is asked for. -/
def State.askLoad (v : State) (a : AxisId) (k : Nat) (h : Hdr) : State :=
  if (v.blk k).unloadable then (v.refuseLoad a).swapWaiting a else v.startLoad a k h

theorem State.tableAct_loads {y : State} (hv : v = z.gridRelease a) (hx : x.bit 16 = true)
    (hy : y = v.askLoad a (x.fld 0 15) h) : z.tableAct a x h = if x.bit 17 then y.askSwap a h else y := by
  subst hv hy
  unfold State.tableAct
  rw [hx]
  rfl

theorem State.tableAct_swaps (hv : v = z.gridRelease a) (hx : x.bit 16 = false) (hs : x.bit 17 = true) :
    z.tableAct a x h = v.askSwap a h := by
  subst hv
  unfold State.tableAct
  rw [hx, hs]
  rfl

/-! ## A write of TABCTL (R172, R369) -/

section Writes

variable (hz : z = w.setFld (chpPar a 0x0a) 0 15 (x.fld 0 15))
include hz

theorem State.writeTabctl_clocked (hg : w.gateOn 5 = true) : w.writeTabctl a x = z.tableAct a x z.writerHdr := by
  have hgate : z.gateOn 5 = true := by rw [hz, State.setFld, State.gateOn_setReg_param (le_chpPar ..), hg]
  rw [State.writeTabctl, ← hz]
  exact if_pos hgate

theorem State.writeTabctl_gated (hg : w.gateOn 5 = false) :
    w.writeTabctl a x = { z with deferred := z.deferred ++ [.table a x z.writerHdr] } := by
  have hgate : ¬z.gateOn 5 = true := by rw [hz, State.setFld, State.gateOn_setReg_param (le_chpPar ..), hg]; decide
  have hhdr : z.writerHdr = w.writerHdr := by rw [hz, State.setFld, State.writerHdr_setReg]
  rw [State.writeTabctl, ← hz, hhdr]
  exact if_neg hgate

end Writes

section Port

variable (hu : u = s.advance dt) (hq : u.portOpen q = true) (hl : u.locked = false)
include hu hq hl

theorem exec_tableLoad (hx : x.bit 16 = true) : exec (.tableLoad dt q a x) s = .next ((u.cancel q).writeTabctl a x) := by
  simp only [exec, execTableLoad, ← hu, hx, if_true, State.portWrite_open hq hl]

theorem exec_tableSwap (hx : x.bit 17 = true) : exec (.tableSwap dt q a x) s = .next ((u.cancel q).writeTabctl a x) := by
  simp only [exec, execTableSwap, ← hu, hx, if_true, State.portWrite_open hq hl]

end Port

/-! ## The end of a load (R81, R172) -/

section Done

variable (hu : u = s.advance dt)
include hu

theorem exec_tableLoadDone_gated (hg : u.gateOn 5 = false) : exec (.tableLoadDone dt a) s = .next u := by
  simp only [exec, execTableLoadDone, ← hu, hg, Bool.not_false, if_true]

theorem exec_tableLoadDone_reads {bad : Bool} {y : State} (hg : u.gateOn 5 = true) (hk : (u.ax a).chp.load = some k)
    (he : State.eccReads 32 (k * 32) u = (bad, y)) : exec (.tableLoadDone dt a) s =
      .next (((if bad then (y.refuseLoad a).raiseC0 9 0x1b .module
        else y.setChp a { (y.ax a).chp with load := none, shadow := y.tableOf (k * 256) (y.ax a).chp.shadow }).gridRelease
          a).swapWaiting a) := by
  simp only [exec, execTableLoadDone, ← hu, hg, hk, he, Bool.not_true, Bool.false_eq_true, if_false]
  rfl

end Done

end CurrentTables

/-- Settles O33: a write of TABCTL reaches `tableAct`, which loads or refuses and then asks for the swap; the end of a load
is `exec_tableLoadDone_reads` with what the error correction found. -/
theorem currentTablesLoadAndSwap : Obligations.CurrentTablesLoadAndSwap := by
  intro s u w z v dt q a x h hu hq hl hw hz hv hh
  subst hw hh
  have hload (hx : x.bit 16 = true) := exec_tableLoad (a := a) hu hq hl hx
  have hswap (hx : x.bit 17 = true) := exec_tableSwap (a := a) hu hq hl hx
  refine ⟨fun hg hx hs => ?load, fun hg hx hs i hi => ?both, fun hg hx hs => ?swap, fun hg i hi => ?gated,
    fun t => State.swapWaiting_none, fun t g => State.swapWaiting_some, exec_tableLoadDone_gated hu,
    fun k hg hk he t ht => ?done, fun k y t hg hk he ht => ?doubleBit⟩
  case load =>
    rw [hload hx, State.writeTabctl_clocked hz hg, State.tableAct_loads hv hx rfl, hs, if_neg Bool.false_ne_true,
      State.askLoad]
    refine ⟨fun hfree hquar hp => ?_, fun hd => ?_⟩
    · rw [if_neg (Desc.not_unloadable hfree hquar hp), State.startLoad]
    · rw [if_pos hd, State.refuseLoad]
  case both =>
    have hwrite : exec i s = .next ((u.cancel q).writeTabctl a x) := by
      rcases hi with rfl | rfl
      · exact hload hx
      · exact hswap hs
    rw [hwrite, State.writeTabctl_clocked hz hg, State.tableAct_loads hv hx rfl, if_pos hs, State.askLoad]
    refine ⟨fun hfree hquar hp y hy => ?_, fun hd y hy hafter => ?_⟩
    · have hy : y = v.startLoad a (x.fld 0 15) z.writerHdr := hy
      have hruns : (y.ax a).chp.load ≠ none := by simp [hy, State.chp_startLoad]
      rw [if_neg (Desc.not_unloadable hfree hquar hp), ← hy, State.askSwap_waits hruns]
    · have hy : y = v.refuseLoad a := hy
      have hchp : (y.ax a).chp = { (v.ax a).chp with load := none } := hy ▸ State.chp_refuseLoad
      have hnone : (y.ax a).chp.swapAfter = none := hchp ▸ hafter
      have hend : (y.ax a).chp.load = none := by rw [hchp]
      rw [if_pos hd, ← hy, State.swapWaiting_none hnone, State.askSwap_now hend]
  case swap =>
    rw [hswap hs, State.writeTabctl_clocked hz hg, State.tableAct_swaps hv hx hs]
    exact ⟨fun hn => by rw [State.askSwap_now hn]; rfl, fun hn => by rw [State.askSwap_waits hn]⟩
  case gated =>
    rw [← State.writeTabctl_gated hz hg]
    rcases hi with ⟨rfl, hx⟩ | ⟨rfl, hs⟩
    · exact hload hx
    · exact hswap hs
  case done =>
    have hread := exec_tableLoadDone_reads hu hg hk (State.eccReads_of_nil he)
    rw [hread, ht]
    rfl
  case doubleBit =>
    rw [exec_tableLoadDone_reads hu hg hk he, ht]
    rfl

end Sys2Proof.Machine

/-! SUPPORT. The chopper: what each event of a coil's bridge does, and the statement on them. -/

namespace Sys2Proof.Machine

section Chopper

variable {s u v : State} {dt tf : Nat} {a : AxisId} {k : CoilId} {q : Coil}

/-! ## The on-time and the off-time (R160, R162) -/

theorem State.startOff_eq (hq : q = u.coil a k) (htf : tf = q.frac * u.offTicks a / 16) : u.startOff a k =
    u.bridge a k { q with
      bridge := if tf = 0 then .slow else .fast, since := u.tb, toff := u.offTicks a, tfast := tf, armed := false } := by
  subst hq htf
  rfl

theorem State.startOn_drives (hq : q = u.coil a k) (hc : dacCode q.s ≠ 0) : u.startOn a k =
    u.bridge a k { q with bridge := .drive, since := u.tb, blank := u.blankTicks a, armed := false } := by
  subst hq
  exact if_neg hc

theorem State.startOn_stays (hq : q = u.coil a k) (hc : dacCode q.s = 0) : u.startOn a k =
    u.bridge a k { q with bridge := .slow, since := u.tb, toff := 0, armed := false } := by
  subst hq
  exact if_pos hc

/-! ## The events -/

section Events

variable (hu : u = s.advance dt) (hq : q = u.coil a k)
include hu hq

theorem exec_chopperCrossing : exec (.chopperCrossing dt a k) s =
    .next (if q.bridge = .drive ∧ q.armed = true then u.startOff a k else u) := by
  subst hu hq
  rfl

theorem exec_blankingEnd_due (h : q.bridge = .drive ∧ q.armed = false ∧ q.since + q.blank ≤ u.tb) (above : Bool) :
    exec (.blankingEnd dt a k above) s =
      .next (if above then u.startOff a k else u.setCoil a k { q with armed := true }) := by
  subst hu hq
  exact congrArg _ (if_pos h)

theorem exec_fastDecayEnd : exec (.fastDecayEnd dt a k) s =
    .next (if q.bridge = .fast then u.bridge a k { q with bridge := .slow } else u) := by
  subst hu hq
  rfl

theorem exec_offTimeEnd : exec (.offTimeEnd dt a k) s =
    .next (if (q.bridge = .fast ∨ q.bridge = .slow) ∧ q.volt = false ∧ 0 < q.toff ∧ q.since + q.toff ≤ u.tb then
      u.startOn a k else u) := by
  subst hu hq
  rfl

end Events

end Chopper

/-- Settles O34: each event is one change of the bridge, made where its guard holds; the changes are the off-time
`startOff_eq` and the on-time `startOn_drives` or, at code 0, `startOn_stays`. -/
theorem chopperGoesOnOffAndDecays : Obligations.ChopperGoesOnOffAndDecays := by
  intro s u dt a k q hu hq
  refine ⟨fun tf htf v hv => ?off, fun h => ?noCrossing, fun h => ?fast, fun h => ?notFast, fun hb hv ht hn => ?offTime⟩
  case off =>
    have hoff : u.startOff a k = v := hv ▸ State.startOff_eq hq htf
    rw [← hoff]
    refine ⟨fun hb ha => ?_, fun hb ha hn => ?_⟩
    · rw [exec_chopperCrossing hu hq, if_pos ⟨hb, ha⟩]
    · have hdue := exec_blankingEnd_due hu hq ⟨hb, ha, hn⟩
      exact ⟨hdue true, hdue false⟩
  case noCrossing =>
    rw [exec_chopperCrossing hu hq, if_neg]
    rintro ⟨hb, ha⟩
    exact h.elim (· hb) fun h => Bool.false_ne_true (h.symm.trans ha)
  case fast => rw [exec_fastDecayEnd hu hq, if_pos h]
  case notFast => rw [exec_fastDecayEnd hu hq, if_neg h]
  case offTime =>
    rw [exec_offTimeEnd hu hq, if_pos ⟨hb, hv, ht, hn⟩]
    exact ⟨fun hc => congrArg _ (State.startOn_drives hq hc), fun hc => congrArg _ (State.startOn_stays hq hc)⟩

end Sys2Proof.Machine

/-! SUPPORT. The TRIP inputs and the Guyline: what each event of theirs does, and the statement on them. -/

namespace Sys2Proof.Machine

section TripsAndGuyline

variable {s u v w : State} {dt t p : Nat} {q : Port} {x : Word} {k : Fin 16} {f : Fin 16}

/-! ## TRIP inputs (R187 to R189) -/

/-- The input is active. -/
def State.holdTrip (u : State) (k : Fin 16) : State := { u with trips := u.trips ||| (1#16 <<< k.val) }

/-- The latch of an input is set, shown in HIF.IRQSTAT and counted. -/
def State.countTrip (v : State) (k : Fin 16) : State := ((v.flag Reg.fltTripstat k.val).irq 4).bump Reg.fltTripev 16 8

theorem State.mapped_eq_nil_iff : v.mapped k = [] ↔ ∀ a : AxisId, v.bit (Reg.pwmTripmap a) k.val = false := by
  simp [State.mapped, List.filter_eq_nil_iff]

/-- An input that is mapped to no axis raises its notice on the module. -/
theorem State.latchTrip_unmapped (hw : w = v.countTrip k) (h : ∀ a : AxisId, w.bit (Reg.pwmTripmap a) k.val = false) :
    v.latchTrip k = w.raiseC0 13 0x18 .module := by
  have hnil : (v.countTrip k).mapped k = [] := State.mapped_eq_nil_iff.2 (hw ▸ h)
  rw [State.countTrip] at hnil
  rw [hw, State.latchTrip, hnil, State.countTrip]

theorem State.latchTrip_mapped (hw : w = v.countTrip k) (h : ∃ a : AxisId, w.bit (Reg.pwmTripmap a) k.val = true) :
    v.latchTrip k = (w.mapped k).foldl (fun r a => r.extTrip a) w := by
  obtain ⟨a, ha⟩ := h
  have hne : w.mapped k ≠ [] := fun hnil => Bool.false_ne_true ((State.mapped_eq_nil_iff.1 hnil a).symm.trans ha)
  obtain ⟨b, l, hl⟩ := List.exists_cons_of_ne_nil hne
  subst hw
  rw [State.countTrip] at hl
  rw [State.latchTrip, State.countTrip, hl]

theorem State.clearTrips_takes (h : w.trips.toNat &&& x.fld 0 16 = 0) : (w.clearTrips x).2 =
    (w.setReg Reg.fltTripstat (w.reg Reg.fltTripstat &&& ~~~(x &&& 0xffff))).landed Reg.fltTripstat x :=
  congrArg Prod.snd (if_neg (not_not.2 h))

/-- A clear that names the latch of an active input is refused, with every bit it named in CLRREF. -/
theorem State.clearTrips_refused (h : w.trips.toNat &&& x.fld 0 16 ≠ 0) : (w.clearTrips x).2 =
    (List.range 16).foldl (fun r i => if x.bit i then r.flag Reg.fltTripev i else r) w := congrArg Prod.snd (if_pos h)

section Events

variable (hu : u = s.advance dt)
include hu

theorem exec_tripActive : exec (.tripActive dt k) s = .next (if u.trips.getLsbD k.val then u else
    if u.up then (u.holdTrip k).latchTrip k else u.holdTrip k) := by
  subst hu
  rfl

theorem exec_tripInputHigh :
    exec (.tripInputHigh dt k) s = .next { u with trips := u.trips &&& ~~~(1#16 <<< k.val) } := by
  subst hu
  rfl

theorem exec_tripClear (hq : u.portOpen q = true) (hl : u.locked = false) :
    exec (.tripClear dt q x) s = .next ((u.cancel q).clearTrips x).2 := by
  simp only [exec, execTripClear, ← hu, State.portWrite_open hq hl]

end Events

/-! ## The Guyline (R191, R192) -/

/-- An edge at fine tick `t` comes within half a period of the pulse accepted last. -/
def State.guyEarly (v : State) (t : Nat) : Bool :=
  match v.netw.guyAcc with
  | some (x, _) => decide (t < x + v.guyPeriod / 2 * 16)
  | none => false

theorem State.guyEarly_true {n m : Nat} (ha : v.netw.guyAcc = some (n, m)) (h : t < n + v.guyPeriod / 2 * 16) :
    v.guyEarly t = true := by simp only [State.guyEarly, ha, decide_eq_true h]

theorem State.guyEarly_false (h : ∀ n m, v.netw.guyAcc = some (n, m) → n + v.guyPeriod / 2 * 16 ≤ t) :
    v.guyEarly t = false := by
  unfold State.guyEarly
  split
  next n m ha => exact decide_eq_false (Nat.not_lt.2 (h n m ha))
  next => rfl

/-- A follower takes the pulse whose edge is at fine tick `t`, with reference `r` and offset `ofs`: it is passed on, and
shown. -/
def State.followPulse (v : State) (t r : Nat) (ofs : Int) (off : Bool) : State :=
  ({ v with netw := { v.netw with
      guyAcc := some (t, v.tb), guyRef := r, guySince := v.tb, guyOff := off, guyMissed := false
      syncOut := some (v.outAt (t + 240 * 16)) } }.setReg Reg.timeGuyofs (loWord ofs)).setBit Reg.timeGuyflag 0 true
    |>.bumpMod Reg.timeGuyflag 8 8

/-- A pulse off by more than the tolerance is flagged, and raises GUY_OFFSET unless the one before it was off too. -/
def State.judgePulse (w : State) (off was : Bool) : State :=
  if off then (if was then w.flag Reg.timeGuyflag 2 else (w.flag Reg.timeGuyflag 2).raiseC0 17 0x29 .module) else w

/-- No pulse has come in time. -/
def State.missPulse (v : State) : State :=
  ({ v with netw := { v.netw with guyMissed := true } }.setBit Reg.timeGuyflag 0 false).flag Reg.timeGuyflag 1
    |>.raiseC0 17 0x2a .module

section Events

variable (hu : u = s.advance dt) (hv : v = u.guySync)
include hu hv

theorem exec_guyHeadPulse : exec (.guyHeadPulse dt) s = .next
    (if v.netw.guyRole = 1 ∧ v.netw.guyHead < gridAt v.guyPeriod v.net ∧ v.up = true then
      { v with netw := { v.netw with
          guyHead := gridAt v.guyPeriod v.net, syncOut := some (v.outAt (gridAt v.guyPeriod v.net * 16)) } }
    else v) := by
  subst hu hv
  rfl

theorem exec_guyLost : exec (.guyLost dt) s = .next
    (if v.netw.guyRole = 2 ∧ v.netw.guySince + 2 * v.guyPeriod ≤ v.tb ∧ v.up = true ∧ v.netw.guyMissed = false then
      v.missPulse else v) := by
  subst hu hv
  rfl

theorem exec_guyPulseAccepted_early (ht : t = (v.net - 200) * 16 + f.val) (he : v.guyEarly t = true) :
    exec (.guyPulseAccepted dt f) s = .next v := by
  subst hu hv ht
  exact congrArg _ (if_pos (.inr (.inl he)))

theorem exec_guyPulseAccepted_follows {r : Nat} {ofs : Int} {off : Bool} (ht : t = (v.net - 200) * 16 + f.val)
    (hrole : v.netw.guyRole = 2) (hup : v.up = true) (he : v.guyEarly t = false) (hp : p = v.guyPeriod)
    (hr : r = t - v.fld Reg.timeGuycfg 16 16)
    (hofs : ofs = if p * 16 < 2 * (r % (p * 16)) then ((r % (p * 16) : Nat) : Int) - (p * 16 : Nat)
      else (r % (p * 16) : Nat))
    (hoff : off = (decide (v.fld Reg.timeGuycfg 2 6 ≠ 0) && decide (v.fld Reg.timeGuycfg 2 6 * 640 < ofs.natAbs))) :
    exec (.guyPulseAccepted dt f) s = .next ((v.followPulse t r ofs off).judgePulse off v.netw.guyOff) := by
  subst hu hv ht hp hr hofs hoff
  refine congrArg _ (if_neg ?_)
  rintro (h | h | h)
  · exact h hrole
  · exact Bool.false_ne_true (he.symm.trans h)
  · exact Bool.false_ne_true (h.symm.trans hup)

end Events

end TripsAndGuyline

/-- Settles O44: a trip latches as the mapped axes have it (`latchTrip_unmapped`, `latchTrip_mapped`), its clear is taken or
refused, and each event of the Guyline is one change, made where its guard holds. -/
theorem tripsLatchAndTheGuylineFollows : Obligations.TripsLatchAndTheGuylineFollows := by
  intro s u dt hu
  refine ⟨fun k => ⟨fun ht hup v hv => ?latches, fun ht => ?latched, fun ht hup => ?held, exec_tripInputHigh hu⟩,
    fun q x w hq hl hw => ?clear, fun v p hv hp => ⟨fun hrole hup hlt => ?head, fun hrole => ?noHead,
      fun f t ht hrole hup => ⟨fun x n ha hlt => ?early, fun ha r ofs off w hr hofs hoff hw => ?follows⟩,
      fun hrole hup hm => ?lost⟩⟩
  case latches =>
    rw [exec_tripActive hu, if_neg (Bool.eq_false_iff.1 ht), if_pos hup]
    exact ⟨fun h => congrArg _ (State.latchTrip_unmapped hv h), fun h => congrArg _ (State.latchTrip_mapped hv h)⟩
  case latched => rw [exec_tripActive hu, if_pos ht]
  case held =>
    rw [exec_tripActive hu, if_neg (Bool.eq_false_iff.1 ht), if_neg (Bool.eq_false_iff.1 hup)]
    rfl
  case clear =>
    rw [exec_tripClear hu hq hl, ← hw]
    exact ⟨fun h => congrArg _ (State.clearTrips_takes h), fun h => congrArg _ (State.clearTrips_refused h)⟩
  case head =>
    subst hp
    rw [exec_guyHeadPulse hu hv, if_pos ⟨hrole, hlt, hup⟩]
    rfl
  case noHead => rw [exec_guyHeadPulse hu hv, if_neg fun h => hrole h.1]
  case early => exact exec_guyPulseAccepted_early hu hv ht (State.guyEarly_true ha (hp ▸ hlt))
  case follows =>
    rw [exec_guyPulseAccepted_follows hu hv ht hrole hup (State.guyEarly_false (hp ▸ ha)) hp hr hofs hoff, hw]
    rfl
  case lost =>
    rw [exec_guyLost hu hv, ← hp]
    refine ⟨fun hle => ?_, fun hlt => ?_⟩
    · rw [if_pos ⟨hrole, hle, hup, hm⟩]
      rfl
    · rw [if_neg fun h => absurd h.2.1 (Nat.not_le.2 hlt)]

end Sys2Proof.Machine

/-! SUPPORT. The PWM: what planning edges leaves alone, what each event of a carrier and its legs does, and the statement on
them. -/

namespace Sys2Proof.Machine

section PwmEvents

variable {s t u v w y : State} {dt h : Nat} {a : AxisId} {k : CoilId} {p : Pwm}

theorem State.setAx_ax : s.setAx a (s.ax a) = s := by simp [State.setAx, State.ax, Vector.get_eq_getElem]

/-! ## Planning edges (R175 to R177) -/

/-- The edges of the legs of an axis are planned: its coils, its legs and what became of their pulses are new. -/
def State.planned (s : State) (a : AxisId) (c : Chp) (l : Vector LegPlan 4) (x y : Bool) : State :=
  s.setAx a { s.ax a with chp := c, pwm := { (s.ax a).pwm with legs := l, stretched := x, dropped := y } }

/-- Planning edges changes nothing else. -/
def EdgesOnly (a : AxisId) (s t : State) : Prop := ∃ c l x y, t = s.planned a c l x y

theorem EdgesOnly.refl : EdgesOnly a s s := ⟨_, _, _, _, State.setAx_ax.symm⟩

theorem EdgesOnly.trans (h : EdgesOnly a s t) (g : EdgesOnly a t u) : EdgesOnly a s u := by
  obtain ⟨c, l, x, y, rfl⟩ := h
  obtain ⟨c', l', x', y', rfl⟩ := g
  exact ⟨c', l', x', y', by simp [State.planned]⟩

theorem EdgesOnly.setCoil (q : Coil) : EdgesOnly a s (s.setCoil a k q) := ⟨_, _, _, _, rfl⟩

theorem EdgesOnly.setLegs (l : Vector LegPlan 4) (x y : Bool) :
    EdgesOnly a s (s.setPwm a { (s.ax a).pwm with legs := l, stretched := x, dropped := y }) := ⟨_, _, _, _, rfl⟩

theorem State.planCoil_edges : EdgesOnly a s (s.planCoil a k) := by
  unfold State.planCoil
  dsimp only
  split
  · exact .refl
  · refine EdgesOnly.trans (.trans ?_ (.setLegs _ _ _)) (.setLegs _ _ _)
    split
    · exact .setCoil _
    · exact .refl

/-! ## A flag that is set on a condition -/

/-- A status flag is set where `c` holds. -/
def State.flagIf (t : State) (k i : Nat) (c : Bool) : State := if c then t.flag k i else t

theorem RegOnly.flagIf (j i : Nat) (c : Bool) : RegOnly j t (t.flagIf j i c) := by
  cases c
  · exact .refl
  · exact .setFld_mark ..

theorem State.Wf.flagIf (hs : t.Wf) (j i : Nat) (c : Bool) : (t.flagIf j i c).Wf := by
  cases c
  · exact hs
  · exact (hs.setReg ..).mark ..

theorem State.bit_flagIf (hs : t.Wf) (k i : Nat) (c : Bool) {j : Nat} (hj : j < 32) :
    (t.flagIf k i c).bit k j = (c && decide (j = i) || t.bit k j) := by
  cases c
  · rfl
  · exact State.bit_flag hs k i j hj

/-! ## A carrier boundary (R174, R183, R195) -/

/-- A change of the Guyline's role changes the network state and registers, and nothing else. -/
theorem State.guySync_rest : s.guySync =
    { s with netw := s.guySync.netw, regs := s.guySync.regs, tmrB := s.guySync.tmrB, tmrC := s.guySync.tmrC } := by
  unfold State.guySync
  split
  · split
    · unfold State.setBit State.setReg
      split <;> rfl
    · rfl
  · rfl

@[simp] theorem State.ax_guySync : s.guySync.ax a = s.ax a := by rw [State.guySync_rest]; rfl
@[simp] theorem State.net_guySync : s.guySync.net = s.net := by rw [State.guySync_rest]
@[simp] theorem State.banks_guySync : s.guySync.banks = s.banks := by rw [State.guySync_rest]
@[simp] theorem State.tags_guySync : s.guySync.tags = s.tags := by rw [State.guySync_rest]
@[simp] theorem State.mem_guySync : s.guySync.mem = s.mem := by rw [State.guySync_rest]

/-- The loop state as a period begins: the outer loops' turn is counted. -/
def State.nextLoop (w : State) (a : AxisId) : LoopAxis :=
  let l := (w.ax a).loop
  { l with
    odiv := (w.loopCfg a).odiv
    periods := if l.periods = 0 ∨ (w.loopCfg a).odiv ≤ l.periods then 1 else l.periods + 1 }

/-- The period that begins at tick `b`, with the edges of both coils. -/
def State.beginPeriod (w : State) (a : AxisId) (b : Nat) : State :=
  (((w.setPwm a (w.nextPeriod a b)).setLoop a (w.nextLoop a)).planCoil a 0).planCoil a 1

/-- Stretched and dropped pulses of the period are flagged. -/
def State.flagPulses (t : State) (a : AxisId) : State :=
  (t.flagIf (Reg.pwmStat a) 3 (t.ax a).pwm.stretched).flagIf (Reg.pwmStat a) 4 (t.ax a).pwm.dropped

theorem State.beginPeriod_eq (b : Nat) : ∃ c l x y, w.beginPeriod a b = w.setAx a { w.ax a with
    chp := c, loop := w.nextLoop a, pwm := { w.nextPeriod a b with legs := l, stretched := x, dropped := y } } := by
  obtain ⟨c, l, x, y, h⟩ := (State.planCoil_edges (k := 0)).trans (State.planCoil_edges (k := 1)) (a := a)
    (s := (w.setPwm a (w.nextPeriod a b)).setLoop a (w.nextLoop a))
  refine ⟨c, l, x, y, h.trans ?_⟩
  simp [State.planned, State.setPwm, State.setLoop, State.modAx]

theorem State.flagPulses_only : RegOnly (Reg.pwmStat a) t (t.flagPulses a) := (RegOnly.flagIf ..).trans (.flagIf ..)

theorem State.ax_flagPulses (c : AxisId) : (t.flagPulses a).ax c = t.ax c :=
  congrArg (Vector.get · c) State.flagPulses_only.axes

/-- The period that has begun, its pulses flagged: the carrier's instants follow from its boundary and half. -/
theorem State.pwm_begun {b : Nat} {x : Int} (hp : p = (w.ax a).pwm)
    (hh : h = halfEff (w.half a) w.pwr.div8 (w.spreadAt a b))
    (hx : x = if w.phases a then phaseOf (w.carrierRef b) (b + h) (2 * h) else 0) : ∃ l xs xd,
    (((w.beginPeriod a b).flagPulses a).ax a).pwm = { p with
      started := true, b := b, c := b + h, e := ((b + 2 * h : Nat) + x.sign * (min x.natAbs 16 : Nat) : Int).toNat
      halfEff := h, div8 := w.pwr.div8, spread := w.spreadAt a b, phaseErr := x, phased := w.phases a && x == 0
      strobeAt := w.strobeOf a (b + h), strobed := false, legs := l, stretched := xs, dropped := xd } := by
  obtain ⟨c, l, xs, xd, h⟩ := State.beginPeriod_eq (w := w) (a := a) b
  subst hx hh hp
  exact ⟨l, xs, xd, by rw [State.ax_flagPulses, h, State.ax_setAx_self]; rfl⟩

theorem State.loop_begun (b : Nat) : (((w.beginPeriod a b).flagPulses a).ax a).loop = w.nextLoop a := by
  obtain ⟨c, l, x, y, h⟩ := State.beginPeriod_eq (w := w) (a := a) b
  rw [State.ax_flagPulses, h, State.ax_setAx_self]

/-- A period that begins leaves the other axes, the banks, the open commands and the pool memory alone. -/
theorem State.begun_rest (b : Nat) {v : State} (hv : v = (w.beginPeriod a b).flagPulses a) :
    (∀ c, c ≠ a → v.ax c = w.ax c) ∧ v.banks = w.banks ∧ v.tags = w.tags ∧ v.mem = w.mem := by
  obtain ⟨c, l, x, y, h⟩ := State.beginPeriod_eq (w := w) (a := a) b
  have hrest := State.flagPulses_only (t := w.beginPeriod a b) (a := a) |>.rest
  rw [← hv, h] at hrest
  refine ⟨fun d hd => ?_, ?_, ?_, ?_⟩
  · rw [hv, State.ax_flagPulses, h, State.ax_setAx_ne hd]
  all_goals rw [hrest]; rfl

theorem State.Wf.beginPeriod (hw : w.Wf) (b : Nat) : (w.beginPeriod a b).Wf :=
  (State.planCoil_kept (State.planCoil_kept (State.setLoop_kept (State.setPwm_kept
    (Kept.refl (mq := true) (lk := true)))))).wf hw

theorem State.flagPulses_flags (hs : t.Wf) :
    ((t.ax a).pwm.stretched = true → (t.flagPulses a).bit (Reg.pwmStat a) 3 = true) ∧
    ((t.ax a).pwm.dropped = true → (t.flagPulses a).bit (Reg.pwmStat a) 4 = true) := by
  simp only [State.flagPulses, State.bit_flagIf (hs.flagIf ..) _ _ _ (by decide : 3 < 32),
    State.bit_flagIf (hs.flagIf ..) _ _ _ (by decide : 4 < 32), State.bit_flagIf hs _ _ _ (by decide : 3 < 32)]
  exact ⟨fun hc => by simp [hc], fun hc => by simp [hc]⟩

/-- The tick at which the axis's next period begins: the end of the one in progress, or the first boundary. -/
def Pwm.boundary (p : Pwm) : Nat := if p.started then p.e else p.b

/-- A period begins at its boundary, where the PWM runs and is clocked. -/
def State.boundary (w : State) (a : AxisId) : State :=
  let p := (w.ax a).pwm
  if !p.run || !w.gateOn 6 || w.net < p.boundary then w else (w.beginPeriod a p.boundary).flagPulses a

theorem exec_carrierBoundary (hu : u = s.advance dt) : exec (.carrierBoundary dt a) s = .next (u.guySync.boundary a) := by
  simp only [exec, execCarrierBoundary, ← hu, State.boundary, State.flagPulses, State.flagIf, State.beginPeriod,
    State.nextLoop, Pwm.boundary]
  rfl

theorem State.boundary_waits (hp : p = (w.ax a).pwm) (h : p.run = false ∨ w.gateOn 6 = false ∨ w.net < p.boundary) :
    w.boundary a = w := by
  subst hp
  exact if_pos (by rcases h with h | h | h <;> simp [h])

theorem State.boundary_begins (hp : p = (w.ax a).pwm) (hr : p.run = true) (hg : w.gateOn 6 = true)
    (hn : p.boundary ≤ w.net) : w.boundary a = (w.beginPeriod a p.boundary).flagPulses a := by
  subst hp
  exact if_neg (by simp [hr, hg, hn])

/-! ## A coil duty (R180, R213, R214) -/

/-- The latency of a coil duty is recorded, with the largest one since it was read. -/
def State.showLatency (v : State) (a : AxisId) (n : Nat) : State :=
  (v.setFld (loopPar a 7) 0 16 n).peak (loopPar a 7) 16 16 n

/-- A coil duty takes effect: its latency is recorded, U is written, and the legs' edges are planned again. -/
def State.takeDuty (v : State) (a : AxisId) (k : CoilId) (d : Duty) : State :=
  let t := v.showLatency a (min 65535 (v.net - d.stamp))
  let q := (t.ax a).pwm.note t.net (t.half a)
  let r := ((t.setPwm a { q with u := q.u.set k d.u }).startLegs a k).replanCoil a k
  r.trace ⟨d.stamp, d.hdr, a.val, 4, false, dutyPayload (r.ax a).pwm #v[(r.coil a 0).volt, (r.coil a 1).volt]⟩

theorem State.takeDuty_eq {d : Duty} {n : Nat} {q : Pwm} {r : State} (hn : n = min 65535 (v.net - d.stamp))
    (ht : t = v.showLatency a n) (hq : q = (t.ax a).pwm.note t.net (t.half a))
    (hr : r = ((t.setPwm a { q with u := q.u.set k d.u }).startLegs a k).replanCoil a k) : v.takeDuty a k d =
      r.trace ⟨d.stamp, d.hdr, a.val, 4, false, dutyPayload (r.ax a).pwm #v[(r.coil a 0).volt, (r.coil a 1).volt]⟩ := by
  subst hr hq ht hn
  rfl

theorem State.fld_showLatency (hs : v.Wf) {n : Nat} (hn : n < 2 ^ 16) :
    (v.showLatency a n).fld (loopPar a 7) 0 16 = n ∧
      (v.showLatency a n).fld (loopPar a 7) 16 16 = max n (v.fld (loopPar a 7) 16 16) := by
  have hset : (v.setFld (loopPar a 7) 0 16 n).Wf := hs.setReg ..
  have hmax : max n (v.fld (loopPar a 7) 16 16) < 2 ^ 16 := Nat.max_lt.2 ⟨hn, Nat.mod_lt _ (by decide)⟩
  simp only [State.showLatency, State.peak, State.fld_mark]
  rw [State.fld_setFld_apart hset _ _ _ _ _ _ (.inl (by decide)) (by decide), State.fld_setFld hset _ _ _ _ (by decide),
    State.fld_setFld hs _ _ _ _ (by decide), State.fld_setFld_apart hs _ _ _ _ _ _ (.inr (by decide)) (by decide),
    Nat.mod_eq_of_lt hn, Nat.mod_eq_of_lt hmax]
  exact ⟨rfl, rfl⟩

/-- What becomes of the coil duty on its way to a coil: it takes effect at its arrival, unless the coil has left voltage
mode. -/
def State.dutyArrives (u : State) (a : AxisId) (k : CoilId) : State :=
  let p := (u.ax a).pwm
  match p.duty.get k with
  | none => u
  | some d =>
    if u.net < d.arrival then u
    else
      let v := u.setPwm a { p with duty := p.duty.set k none }
      if !(v.coil a k).volt then v else v.takeDuty a k d

theorem exec_dutyArrival (hu : u = s.advance dt) : exec (.dutyArrival dt a k) s = .next (u.dutyArrives a k) := by
  subst hu
  rfl

theorem State.dutyArrives_some {d : Duty} (hp : p = (u.ax a).pwm) (hd : p.duty.get k = some d) (hn : d.arrival ≤ u.net)
    (hv : v = u.setPwm a { p with duty := p.duty.set k none }) :
    u.dutyArrives a k = if (v.coil a k).volt then v.takeDuty a k d else v := by
  subst hv hp
  simp only [State.dutyArrives, hd, Nat.not_lt.2 hn, if_false]
  cases ((u.setPwm a _).coil a k).volt <;> rfl

/-! ## A leg's edge (R177, R179) -/

theorem exec_legEdge_none {l : LegId} (hu : u = s.advance dt) (he : ((u.ax a).pwm.legs.get l).edges = []) :
    exec (.legEdge dt a l) s = .next u := by
  simp only [exec, execLegEdge, ← hu, he]

theorem exec_legEdge_next {l : LegId} {n due : Nat} {x : Bool} {rest : List (Nat × Bool)} (hu : u = s.advance dt)
    (hp : p = (u.ax a).pwm) (he : (p.legs.get l).edges = (n, x) :: rest) {c : CoilId} (hc : c = ⟨l.val / 2, by omega⟩)
    (hdue : due = if u.legCoarse a l then n / 16 * 16 else n)
    (hv : v = u.setPwm a { p with
      legs := p.legs.set l { p.legs.get l with edges := rest, last := some due, high := x } }) :
    exec (.legEdge dt a l) s =
      .next (if !(u.coil a c).volt || (u.coil a c).bridge != .pwm || p.e * 16 ≤ n || u.fine < due then u
        else v.setTile a ((v.tile a).commandLeg l x (!x) (v.tbFine - (v.fine - due)))) := by
  subst hv hdue hc hp
  simp only [exec, execLegEdge, ← hu, he]

/-! ## The sample strobe (R186, R280) -/

/-- The coils that are in voltage mode are settled at the strobe, so the strobe is used (R223). -/
def State.strobeUsed (u : State) (a : AxisId) (n : Nat) : Bool :=
  (!(u.coil a 0).volt || u.settledAt a 0 n) && (!(u.coil a 1).volt || u.settledAt a 1 n)

/-- The sample of the strobe at tick `n`. -/
def State.strobeSample (u : State) (a : AxisId) (m : Strobe) (n : Nat) : Sample :=
  let ch := axisNum (u.loopCfg a).fbch
  { stamp := n, hdr := u.axisHdr a
    i := #v[u.coilValue a 0 (u.coilCode a 0 m.a), u.coilValue a 1 (u.coilCode a 1 m.b)]
    vbus := m.vbus.toNat * 8, settled := #v[u.settledAt a 0 n, u.settledAt a 1 n]
    chop := #v[!(u.coil a 0).volt, !(u.coil a 1).volt]
    dn := #v[(m.a1.toNat : Int) - m.a2.toNat, (m.b1.toNat : Int) - m.b2.toNat]
    interval := ((u.ax a).pwm.lastStrobe.map fun l => n - l).getD 0
    sp := #v[u.setpointAt a 0 n, u.setpointAt a 1 n], volt := #v[(u.coil a 0).volt, (u.coil a 1).volt]
    lowOn := #v[u.gateLevel a (u.lowSide a 0), u.gateLevel a (u.lowSide a 1)]
    cpos := u.cposAt a n, vcmd := u.vcmdAt a n, fbCount := (u.chan ch).countAt (n * 16)
    fbSpeed := u.speedAt ch (n * 16), outer := (u.ax a).loop.periods == 1 }

/-- What an axis holds of a sample taken at tick `n`: it waits for the loops, and the strobe of the period is taken. -/
def State.sampled (u : State) (a : AxisId) (n : Nat) (i : Sample) : State :=
  u.modAx a fun x => { x with
    sample := some i
    pwm := { (u.ax a).pwm with
      strobed := true, lastStrobe := if u.strobeUsed a n then some n else (u.ax a).pwm.lastStrobe } }

/-- The registers show the bus and the currents of a sample, and its item is copied to the trace rings. -/
def State.showSample (v : State) (a : AxisId) (n : Nat) (i : Sample) (bus : Nat) : State :=
  ((v.busCode (bankOf a) bus).setReg (Reg.gdbSamp (bankOf a) (locOf a))
    (((0 : Word).put 0 16 (unsigned 16 (i.i.get 0))).put 16 16 (unsigned 16 (i.i.get 1)))).trace
      ⟨n, i.hdr, a.val, 5, false, i.payload⟩

theorem exec_sampleStrobe {m : Strobe} (hu : u = s.advance dt) (hp : p = (u.ax a).pwm) :
    exec (.sampleStrobe dt a m) s = .next (
      if !(u.ax a).energised || !p.run || !p.started || p.strobed || u.net < p.strobeAt then u
      else (u.sampled a p.strobeAt (u.strobeSample a m p.strobeAt)).showSample a p.strobeAt
        (u.strobeSample a m p.strobeAt) m.vbus.toNat) := by
  subst hp hu
  rfl

section Sample

variable {n bus : Nat} {i : Sample}

theorem State.ax_sampled_self : (u.sampled a n i).ax a = { u.ax a with
    sample := some i
    pwm := { (u.ax a).pwm with
      strobed := true, lastStrobe := if u.strobeUsed a n then some n else (u.ax a).pwm.lastStrobe } } :=
  State.ax_setAx_self ..

theorem RegOnly.busCode {b : BankId} : RegOnly (Reg.gdbVbus b) v (v.busCode b bus) :=
  (RegOnly.setReg _).trans (.setFld_mark ..)

theorem State.axes_showSample : (v.showSample a n i bus).axes = v.axes :=
  State.trace_axes.trans (State.setReg_axes.trans RegOnly.busCode.axes)

theorem State.banks_showSample : (v.showSample a n i bus).banks = v.banks :=
  State.trace_banks.trans (State.setReg_banks.trans (by rw [RegOnly.busCode.rest]))

theorem State.tags_showSample : (v.showSample a n i bus).tags = v.tags :=
  State.trace_tags.trans (State.setReg_tags.trans (by rw [RegOnly.busCode.rest]))

theorem State.mem_showSample : (v.showSample a n i bus).mem = v.mem :=
  State.trace_mem.trans (State.setReg_mem.trans RegOnly.busCode.mem)

theorem State.ax_showSample (c : AxisId) : (v.showSample a n i bus).ax c = v.ax c :=
  congrArg (Vector.get · c) State.axes_showSample

theorem State.fld_busCode {b : BankId} (hv : v.Wf) : (v.busCode b bus).fld (Reg.gdbVbus b) 0 12 = bus % 2 ^ 12 := by
  have hset : (v.setFld (Reg.gdbVbus b) 0 12 bus).Wf := hv.setReg ..
  rw [State.busCode, State.peak, State.fld_mark, State.fld_setFld_apart hset _ _ _ _ _ _ (.inl (by decide)) (by decide),
    State.fld_setFld hv _ _ _ _ (by decide)]

theorem gdbVbus_not_mem_lostKeys : ∀ b : BankId, Reg.gdbVbus b ∉ lostKeys := by decide

theorem gdbVbus_ne_gdbSamp (b : BankId) (j : Fin 12) : Reg.gdbVbus b ≠ Reg.gdbSamp b j := by
  simp only [Reg.gdbVbus, Reg.gdbSamp, bankKey]
  omega

theorem State.fld_showSample (hv : v.Wf) : (v.showSample a n i bus).fld (Reg.gdbVbus (bankOf a)) 0 12 = bus % 2 ^ 12 := by
  rw [← State.fld_busCode (b := bankOf a) hv, State.fld, State.showSample,
    State.reg_trace _ _ (gdbVbus_not_mem_lostKeys _), State.reg_setReg_ne _ _ _ (gdbVbus_ne_gdbSamp _ _), State.fld]

end Sample

/-! ## The delay lines (R178, R179) -/

/-- A delay line has been calibrated: unless the swap came too late it takes its place, and the line that left is the next
spare; a line that could not be trimmed is withdrawn. -/
def Bank.swapLine (k : Bank) (g : Nat) (late ok : Bool) : Bank :=
  { k with
    lastSwap := g, swapAt := k.swapAt + 1, swaps := if k.swaps = 60 then 0 else k.swaps + 1
    serve := if late then k.serve else k.serve.set k.swapAt k.spare
    spare := if late then k.spare else k.serve.get k.swapAt
    withdrawn := if ok then k.withdrawn.filter fun l => l != k.spare
      else (k.withdrawn.filter fun l => l != k.spare) ++ [k.spare]
    calibrated := k.calibrated ||| (1#61 <<< k.spare) }

/-- A swap, or one that came too late, is counted, and each round of swaps. -/
def State.countSwap (v : State) (turn : Nat) (late : Bool) : State :=
  let w := if turn = 0 then v.bumpMod Reg.clkDlev 0 16 else v
  if late then w.bump Reg.clkDlev 24 8 else w

/-- The swap of a bank's delay lines at the 1 ms boundary `g`; the loss of a line is reported. -/
def State.swapLines (u : State) (b : BankId) (g : Nat) (late ok : Bool) : State :=
  let k := u.bank b
  let y := (u.setBank b (k.swapLine g late ok)).countSwap (if k.swaps = 60 then 0 else k.swaps + 1) late
  if ok || k.withdrawn.contains k.spare then y
  else (y.bump Reg.clkDlev 16 8).raiseC0 17 0x28 (if late then .module else .axis (lineAxis b k.swapAt))

theorem State.swapLines_eq {b : BankId} {g turn : Nat} {late ok : Bool} {l : Bank} (hl : l = u.bank b)
    (hturn : turn = if l.swaps = 60 then 0 else l.swaps + 1) (hv : v = u.setBank b (l.swapLine g late ok))
    (hw : w = if turn = 0 then v.bumpMod Reg.clkDlev 0 16 else v) (hy : y = if late then w.bump Reg.clkDlev 24 8 else w) :
    u.swapLines b g late ok = if ok = true ∨ l.spare ∈ l.withdrawn then y
      else (y.bump Reg.clkDlev 16 8).raiseC0 17 0x28 (if late then .module else .axis (lineAxis b l.swapAt)) := by
  subst hy hw hv hturn hl
  exact if_congr (by simp) rfl rfl

theorem exec_delayLineSwap {b : BankId} {trim error : Int} {g : Nat} {late ok : Bool} (hu : u = s.advance dt)
    (hg : g = gridAt 400000 u.net) (hlate : late = decide (g + 40000 ≤ u.net))
    (hok : ok = (decide (trim.natAbs ≤ 25) && decide (error.natAbs ≤ 10))) :
    exec (.delayLineSwap dt b trim error) s = .next (
      if !u.onPll || u.resting || g ≤ (u.bank b).lastSwap || (u.lineBusy b (u.bank b).swapAt && !late) then u
      else u.swapLines b g late ok) := by
  subst hok hlate hg hu
  rfl

end PwmEvents

/-- Settles O35: a period begins with what `beginPeriod_eq` leaves, its pulses flagged; each other event is one change, made
where its guard holds. -/
theorem pwmEventsFollowTheCarrier : Obligations.PwmEventsFollowTheCarrier := by
  intro s u dt a p hu hp
  have hwf (hs : s.Wf) : u.Wf := hu ▸ (State.advance_kept (mq := true) (lk := true) .refl).wf hs
  refine ⟨fun w b h x hw hb hr hg hn hh hx => ?begins, fun h => ?waits,
    fun l n x rest due he hdue => ⟨fun hvolt hpwm hlt hle v hv => ?edge, fun h => ?noEdge⟩,
    fun l he => exec_legEdge_none hu (hp ▸ he),
    fun k d v hd hn hv => ⟨fun hvolt => ?dropped, fun hvolt t n q r hnn ht hq hrr => ?duty⟩,
    fun m he hr hst hsd hn hs n used hnn hused => ?strobe, fun m h => ?noStrobe,
    fun b trim error k g turn late ok v w y hk hpll hrest hg hlt hlate hturn hok hv hw hy => ⟨fun hfree => ?swaps,
      fun hbusy hl => ?busy⟩⟩
  case begins =>
    have hax (c : AxisId) : w.ax c = u.ax c := hw ▸ State.ax_guySync
    have hpw : p = (w.ax a).pwm := hp.trans (congrArg Axis.pwm (hax a).symm)
    have hnet : w.net = u.net := hw ▸ State.net_guySync
    have hb : b = p.boundary := hb
    have hexec : exec (.carrierBoundary dt a) s = .next ((w.beginPeriod a b).flagPulses a) := by
      rw [exec_carrierBoundary hu, ← hw, State.boundary_begins hpw hr hg (by rw [← hb, hnet]; exact hn), hb]
    obtain ⟨hothers, hbanks, htags, hmem⟩ := State.begun_rest (w := w) (a := a) b rfl
    obtain ⟨l, xs, xd, hpwm⟩ := State.pwm_begun hpw hh hx
    refine ⟨_, hexec, ?_, ?_, ?_, ?_, ?_, ?_, ?_, ?_, ?loop, fun hs => ?flags, fun c hc => (hothers c hc).trans (hax c),
      hbanks.trans (hw ▸ State.banks_guySync), htags.trans (hw ▸ State.tags_guySync),
      hmem.trans (hw ▸ State.mem_guySync)⟩
    case loop => rw [State.loop_begun, ← hax a]; rfl
    case flags =>
      have hwwf : w.Wf := hw ▸ (State.guySync_kept (mq := true) (lk := true) .refl).wf (hwf hs)
      rw [State.ax_flagPulses]
      exact State.flagPulses_flags (hwwf.beginPeriod b)
    all_goals rw [hpwm]
    rfl
  case waits =>
    have hpw : p = (u.guySync.ax a).pwm := hp.trans (congrArg Axis.pwm State.ax_guySync.symm)
    rw [← State.net_guySync] at h
    rw [exec_carrierBoundary hu, State.boundary_waits hpw h]
  case edge =>
    rw [exec_legEdge_next hu hp he rfl hdue hv, if_neg (by simp [hvolt, hpwm, hlt, hle])]
  case noEdge =>
    rw [exec_legEdge_next hu hp he rfl hdue rfl, if_pos (by rcases h with h | h <;> simp [h])]
  case dropped => rw [exec_dutyArrival hu, State.dutyArrives_some hp hd hn hv, if_neg (by simp [hvolt])]
  case duty =>
    have hnet : n = min 65535 (v.net - d.stamp) := hnn.trans (by rw [hv]; rfl)
    have hshow : t = v.showLatency a n := ht
    rw [exec_dutyArrival hu, State.dutyArrives_some hp hd hn hv, if_pos hvolt, State.takeDuty_eq hnet hshow hq hrr]
    refine ⟨rfl, fun hs => ?_⟩
    have hfld : v.fld (loopPar a 7) 16 16 = u.fld (loopPar a 7) 16 16 := by rw [hv]; rfl
    have hvwf : v.Wf := hv ▸ (State.setPwm_kept (mq := true) (lk := true) .refl).wf (hwf hs)
    have hlt : n < 2 ^ 16 := by omega
    rw [hshow, ← hfld]
    exact State.fld_showLatency hvwf hlt
  case strobe =>
    have hused : used = u.strobeUsed a n := hused
    have hswf : (u.sampled a n (u.strobeSample a m n)).Wf := (State.modAx_kept (mq := true) (lk := true) .refl).wf (hwf hs)
    have hexec : exec (.sampleStrobe dt a m) s =
        .next ((u.sampled a n (u.strobeSample a m n)).showSample a n (u.strobeSample a m n) m.vbus.toNat) := by
      rw [exec_sampleStrobe hu hp, if_neg (by simp [he, hr, hst, hsd, hn]), ← hnn]
    refine ⟨_, u.strobeSample a m n, hexec, ?_, rfl, rfl, rfl, rfl, rfl, rfl, rfl, ?_, ?_, fun c hc => ?_, ?_, ?_, ?_⟩
    · rw [State.ax_showSample, State.ax_sampled_self]
    · rw [State.ax_showSample, State.ax_sampled_self, hused, hp]
    · rw [State.fld_showSample hswf, Nat.mod_eq_of_lt m.vbus.isLt]
    · rw [State.ax_showSample, State.sampled, State.modAx, State.ax_setAx_ne hc]
    · exact State.banks_showSample
    · exact State.tags_showSample
    · exact State.mem_showSample
  case noStrobe =>
    rw [exec_sampleStrobe hu hp, if_pos (by rcases h with h | h | h <;> simp [h])]
  case swaps =>
    have hok : ok = (decide (trim.natAbs ≤ 25) && decide (error.natAbs ≤ 10)) := Bool.eq_iff_iff.2 (by simpa using hok)
    have hvl : v = u.setBank b (k.swapLine g late ok) := by rw [hv, hturn]; rfl
    rw [exec_delayLineSwap hu hg hlate hok, ← hk, if_neg (by rcases hfree with h | h <;> simp [hpll, hrest, hlt, h]),
      State.swapLines_eq hk hturn hvl hw hy]
  case busy =>
    have hok : ok = (decide (trim.natAbs ≤ 25) && decide (error.natAbs ≤ 10)) := Bool.eq_iff_iff.2 (by simpa using hok)
    rw [exec_delayLineSwap hu hg hlate hok, ← hk, if_pos (by simp [hbusy, hl])]

end Sys2Proof.Machine

/-! SUPPORT. The lock of the module (R299), and what a Kindling makes of it. -/

namespace Sys2Proof.Machine

-- One proof at a time: the text as a whole compiles close to the memory that the check allows.
set_option Elab.async false

section Lock

variable {s t u v : State} {dt kind : Nat} {straps : Straps}

@[simp] theorem State.setFld_locked {k lo w n : Nat} : (s.setFld k lo w n).locked = s.locked := State.setReg_locked

@[simp] theorem State.setBit_locked {k i : Nat} {b : Bool} : (s.setBit k i b).locked = s.locked := State.setReg_locked

@[simp] theorem State.keepFlags_locked : (t.keepFlags s).locked = t.locked :=
  foldl_field State.locked (fun _ _ => State.setReg_locked) _ t

/-- A Kindling that is not COLD takes the lock from the snapshot: it falls where the snapshot, or its item of the lock, is
lost (R382). -/
theorem State.kindle_locked :
    (s.kindle kind straps).locked = (kind != 0 && s.pwr.snapOk && !straps.snapLost.contains lockItem && s.locked) := by
  have hset (keys : List Nat) (v : State) : (keys.foldl (fun t k => t.setReg k (s.reg k)) v).locked = v.locked :=
    foldl_field State.locked (fun _ _ => State.setReg_locked) keys v
  have hkeep (has : Nat → Bool) (keys : List Nat) (v : State) :
      (keys.foldl (fun t k => if has k then t.setReg k (s.reg k) else t) v).locked = v.locked :=
    foldl_field State.locked (fun _ _ => by split <;> simp only [State.setReg_locked]) keys v
  have hite (c : Bool) (v w : State) (h : v.locked = w.locked) : (if c then v else w).locked = w.locked := by
    split <;> simp only [h]
  unfold State.kindle
  simp only [State.setBit_locked, State.setFld_locked, State.setReg_locked]
  rw [hite _ _ _ State.setFld_locked, hkeep, State.keepFlags_locked, State.setBit_locked, hset,
    hite _ _ _ State.setBit_locked]
  rfl

theorem exec_nresetRise (hu : u = s.advance dt) (hv : v = u.modPwr fun p => { p with nresetLow := false }) :
    exec (.nresetRise dt straps) s = .next (if u.pwr.phase ≠ .held then v
      else if u.pwr.vinOk then v.kindle 1 straps
      else v.modPwr fun p => { p with phase := .waiting, since := u.tb }) := by
  subst hv hu
  rfl

end Lock

/-- Refutes O6: the rise of nRESET kindles from the snapshot, and where only its item of the lock fails its check (R382),
the module comes up unlocked. -/
theorem not_onlyASupplyReturnEndsALock : ¬ Obligations.OnlyASupplyReturnEndsALock := by
  intro h
  let s : State := { State.reset with
    locked := true, pwr := { Pwr.reset with phase := .held, nresetLow := true, snapOk := true } }
  let straps : Straps := ⟨0, 0, false, [lockItem]⟩
  have hexec : exec (.nresetRise 0 straps) s =
      .next (((s.advance 0).modPwr fun p => { p with nresetLow := false }).kindle 1 straps) := by
    rw [exec_nresetRise rfl rfl, State.advance_pwr]
    rfl
  have hlocked := h s _ _ rfl hexec (fun _ _ => nofun) (fun _ _ => nofun) (fun _ _ _ => nofun)
  rw [State.kindle_locked] at hlocked
  simp [straps] at hlocked

end Sys2Proof.Machine

/-! SUPPORT. Retirements, Ember writes and the nERR pin: what ends their work, and what it leaves. -/

namespace Sys2Proof.Machine

set_option Elab.async false

section RetirementEmberErrPin

variable {s u v d t w : State} {dt c k n : Nat} {a : AxisId} {x : Axis} {q : Port} {y : Word} {z : Bool}

/-! ## Retirements (R307, R309, Table 17-4) -/

/-- The command that asked for a retirement or a reinstatement, where one did, ends. -/
def State.endCmd (v : State) (cmd : Option Nat) : State :=
  match cmd with
  | some id => v.done id
  | none => v

theorem State.endCmd_eq {cmd : Option Nat} (hsome : ∀ id, cmd = some id → d = v.done id) (hnone : cmd = none → d = v) :
    d = v.endCmd cmd := by
  cases cmd with
  | none => exact hnone rfl
  | some id => exact hsome id rfl

/-- The retirement record of an axis has been written, and nothing waits for it any more. -/
def State.recordWritten (u : State) (a : AxisId) : State :=
  let r := (u.ax a).rec?
  let words := retireWords a ((r.map Rec.first).getD 0x1a) ((r.map Rec.cls).getD 2) u.hearth.sec 0 false
  State.modAx { u with hearth := { u.hearth with retire := putWords u.hearth.retire (4 * a.val) words } } a fun y =>
    { y with fault := { y.fault with
      retPhase := if r.isSome then .closing else .none, retCmd := none, retCtl := false } }

theorem State.recordWritten_eq (hx : x = u.ax a)
    (hck : (c, k) = (x.rec?.map fun r => (r.first, r.cls)).getD (0x1a, 2)) :
    u.recordWritten a = State.setFault { u with hearth := { u.hearth with
        retire := putWords u.hearth.retire (4 * a.val) (retireWords a c k u.hearth.sec 0 false) } } a { x.fault with
      retPhase := if x.hasRec then .closing else .none, retCmd := none, retCtl := false } := by
  obtain ⟨rfl, rfl⟩ : c = (x.rec?.map Rec.first).getD 0x1a ∧ k = (x.rec?.map Rec.cls).getD 2 := by
    cases hr : x.rec? <;> simp_all
  subst hx
  have hax (h : Hearth) : State.ax { u with hearth := h } a = u.ax a := rfl
  simp only [State.recordWritten, State.setFault, State.modAx, hax]
  rfl

section Retirement

variable (hu : u = s.advance dt) (hx : x = u.ax a)
include hu hx

theorem exec_retirementRecordWritten : exec (.retirementRecordWritten dt a) s =
    .next (if x.fault.retPhase ≠ .writing ∨ u.emberWrites = false then u
      else State.closeRec (if x.fault.retCtl then ((u.recordWritten a).endCmd x.fault.retCmd).axctlResult 0
        else (u.recordWritten a).endCmd x.fault.retCmd) a true) := by
  subst hx hu
  rfl

theorem exec_reinstatementEnded_waits (h : x.fault.retPhase ≠ .erasing ∨ u.emberWrites = false) :
    exec (.reinstatementEnded dt a) s = .next u := by
  subst hx hu
  exact congrArg _ (if_pos h)

theorem exec_reinstatementEnded_erases {y : Axis} (hphase : x.fault.retPhase = .erasing) (hw : u.emberWrites = true)
    (ht : t = u.setReg (retFlag a) 0)
    (hwv : w = { t with hearth := { t.hearth with retire := putWords t.hearth.retire (4 * a.val) [0, 0, 0, 0] } })
    (hy : y = w.ax a) (hv : v = w.setAx a { y with
      st := .off, fault := { y.fault with retPhase := .none, retCmd := none, retCtl := false, retries := [] } })
    (hd : d = v.endCmd x.fault.retCmd) :
    exec (.reinstatementEnded dt a) s = .next (if x.fault.retCtl = true then d.axctlResult 0 else d) := by
  have hg : ¬(x.fault.retPhase ≠ .erasing ∨ u.emberWrites = false) := by simp [hphase, hw]
  subst hd hv hy hwv ht hx hu
  refine congrArg _ ((if_neg hg).trans ?_)
  unfold State.endCmd
  cases ((s.advance dt).ax a).fault.retCmd <;> rfl

end Retirement

/-! ## Entries of the Ember log (R303, R407, R410) -/

/-- What waited for an entry of the Ember log goes on, by why it was written and the slot it took, if it took one. -/
def State.entryEnded (t : State) (why : EmberWhy) (slot : Option Nat) : State :=
  match why with
  | .opening a n => t.openedEntry a n slot
  | .closing a r => t.closedEntry a r slot
  | .mark id => match slot with
    | some i => t.finish id .done [BitVec.ofNat 32 i] t.net
    | none => t.fail id .internalError 0 0 t.net
  | .notice | .kindling | .calset => t

theorem State.entryEnded_eq {why : EmberWhy} {slot : Option Nat}
    (ho : ∀ a n, why = .opening a n → w = t.openedEntry a n slot)
    (hc : ∀ a r, why = .closing a r → w = t.closedEntry a r slot)
    (hm : ∀ id, why = .mark id → w = t.entryEnded (.mark id) slot)
    (hn : why = .notice ∨ why = .kindling ∨ why = .calset → w = t) : w = t.entryEnded why slot := by
  cases why with
  | opening a n => exact ho a n rfl
  | closing a r => exact hc a r rfl
  | mark id => exact hm id rfl
  | notice | kindling | calset => exact hn (by simp)

/-- The state in which the next entry is in its slot. -/
def State.entryIn (v : State) (ws : List Word) : State :=
  { v with hearth := { v.hearth with
      ember := putWords v.hearth.ember (8 * v.hearth.next) ws, next := (v.hearth.next + 1) % 512
      written := (v.hearth.written + 1) % 65536 } }

/-- The state in which the next entry's slot holds what a failed write leaves. -/
def State.entryLost (v : State) (zeroed : Bool) : State :=
  { v with draws := v.draws + 7, hearth := { v.hearth with
      ember := putWords v.hearth.ember (8 * v.hearth.next) (0 :: (List.range 7).map fun j =>
        if zeroed then (0 : Word) else Config.emberGarbage (v.draws + j)) } }

theorem State.emberDone_written {q : EmberReq} {ws : List Word} :
    v.emberDone q ws true z = ((v.entryIn ws).entryEnded q.why (some v.hearth.next)).logReads.emberBegin := by
  obtain ⟨why, words⟩ := q
  cases why <;> rfl

theorem State.emberDone_failed {q : EmberReq} {ws : List Word} :
    v.emberDone q ws false z =
      ((v.entryLost z).entryEnded q.why none).logReads.emberBegin.raiseSc 19 0x35 .module := by
  obtain ⟨why, words⟩ := q
  cases why <;> rfl

section Ember

variable {ok : Bool} (hu : u = s.advance dt)
include hu

theorem exec_emberWriteDone_waits (h : u.emberWrites = false ∨ u.hearth.queue = [] ∨ u.hearth.writing = none) :
    exec (.emberWriteDone dt ok z) s = .next u := by
  change execEmberWriteDone dt ok z s = .next u
  simp only [execEmberWriteDone, ← hu]
  rcases h with h | h | h
  · simp [h]
  · simp [h]
  · cases u.hearth.queue <;> simp [h]

theorem exec_emberWriteDone {r : EmberReq} {rest : List EmberReq} {ws : List Word} (hw : u.emberWrites = true)
    (hq : u.hearth.queue = r :: rest) (hws : u.hearth.writing = some ws) : exec (.emberWriteDone dt ok z) s =
      .next (State.emberDone { u with hearth := { u.hearth with queue := rest, writing := none } } r ws ok z) := by
  change execEmberWriteDone dt ok z s = _
  simp [execEmberWriteDone, ← hu, hw, hq, hws]

end Ember

/-! ## The nERR pin (R310, R311) -/

theorem State.errLevel_eq {b : Bool} : v.errLevel b =
    { v.setBit Reg.fltErrpin 0 b with errPulse := if b then some (v.tb + 400000) else none } := by
  simp [State.errLevel, State.setBit]

theorem State.writeErrpin_eq (hv : v = (w.setFld Reg.fltErrpin 16 8 (y.fld 16 8)).landed Reg.fltErrpin y)
    (hl : v.locked = false) : w.writeErrpin y =
      if v.errPulse.isSome then v.setFld Reg.fltErrpin 1 2 (1 + 2 * (y.bit 0).toNat)
      else if v.pwr.phase = .running then v.errLevel (y.bit 0) else v := by
  subst hv
  exact if_neg (by simp [hl])

section ErrPin

variable (hu : u = s.advance dt)
include hu

theorem exec_errpinWrite_ignored (h : u.portOpen q = false ∨ u.locked = true) : exec (.errpinWrite dt q y) s = .next u := by
  have hg : ¬((u.portOpen q && !u.locked) = true) := by rcases h with h | h <;> simp [h]
  subst hu
  exact congrArg _ (if_neg hg)

theorem exec_errpinWrite (hq : u.portOpen q = true) (hl : u.locked = false) :
    exec (.errpinWrite dt q y) s = .next ((u.cancel q).writeErrpin y) := by
  subst hu
  exact congrArg _ (State.portWrite_open hq hl)

theorem exec_errPulseEnd_none (h : u.errPulse = none) : exec (.errPulseEnd dt) s = .next u := by
  change execErrPulseEnd dt s = _
  simp only [execErrPulseEnd, ← hu, h]

theorem exec_errPulseEnd_early (h : u.errPulse = some n) (hn : u.tb < n) : exec (.errPulseEnd dt) s = .next u := by
  change execErrPulseEnd dt s = _
  simp only [execErrPulseEnd, ← hu, h, if_pos hn]

/-- At the end of a pulse a write that waited for it acts, where the module runs and is not locked. -/
theorem exec_errPulseEnd_ends (h : u.errPulse = some n) (hn : n ≤ u.tb)
    (hv : v = { u with errPulse := none }.setFld Reg.fltErrpin 1 2 0) : exec (.errPulseEnd dt) s =
      .next (if u.bit Reg.fltErrpin 1 = true ∧ v.locked = false ∧ v.pwr.phase = .running then
        v.errLevel (u.bit Reg.fltErrpin 2) else v) := by
  subst hv
  change execErrPulseEnd dt s = _
  simp only [execErrPulseEnd, ← hu, h, if_neg (Nat.not_lt.2 hn)]
  refine congrArg _ (if_congr ?_ rfl rfl)
  simp [State.bit, and_assoc]

end ErrPin

end RetirementEmberErrPin

/-- Settles O46: each event waits where its guard says so; else it is what the operation above leaves, and what asked for
the work, or waited for it, ends. -/
theorem retirementEmberAndErrPinEnd : Obligations.RetirementEmberAndErrPinEnd := by
  intro s u dt hu
  refine ⟨fun a x hx => ⟨fun h => (exec_retirementRecordWritten hu hx).trans (congrArg _ (if_pos h)), ?retired, exec_reinstatementEnded_waits hu hx,
      ?reinstated⟩,
    fun k z h => exec_emberWriteDone_waits hu h,
    fun z q rest ws v h hw hq hws hh hv => ⟨fun t w ht ho hc hm hn => ?written, fun t w ht ho hc hm hn => ?failed⟩,
    fun q x h => exec_errpinWrite_ignored hu h,
    fun q x w v hq hl hw hv hvl => ⟨fun t ht => ?inPulse, fun hp hrun => ?acts, fun hp hrun => ?keeps⟩,
    exec_errPulseEnd_none hu,
    fun t ht => ⟨exec_errPulseEnd_early hu ht, fun hle v hv => ⟨fun h => ?ends, fun hbit hvl hrun => ?stored⟩⟩⟩
  case retired =>
    intro hphase hw c k v hck hv d hsome hnone
    have hd : d = (u.recordWritten a).endCmd x.fault.retCmd := by
      rw [State.recordWritten_eq hx hck, ← hv]
      exact State.endCmd_eq hsome hnone
    rw [exec_retirementRecordWritten hu hx, if_neg (by simp [hphase, hw]), ← hd]
  case reinstated =>
    intro hphase hw t w y v ht hwv hy hv d hsome hnone
    exact exec_reinstatementEnded_erases hu hx hphase hw ht hwv hy hv (State.endCmd_eq hsome hnone)
  case written =>
    subst hv hh ht
    rw [exec_emberWriteDone hu hw hq hws, State.emberDone_written, State.entryEnded_eq ho hc hm hn]
    rfl
  case failed =>
    subst hv hh ht
    rw [exec_emberWriteDone hu hw hq hws, State.emberDone_failed, State.entryEnded_eq ho hc hm hn]
    rfl
  case inPulse => rw [exec_errpinWrite hu hq hl, ← hw, State.writeErrpin_eq hv hvl, ht, if_pos Option.isSome_some]
  case acts =>
    rw [exec_errpinWrite hu hq hl, ← hw, State.writeErrpin_eq hv hvl, hp, if_neg nofun, if_pos hrun, State.errLevel_eq]
  case keeps => rw [exec_errpinWrite hu hq hl, ← hw, State.writeErrpin_eq hv hvl, hp, if_neg nofun, if_neg hrun]
  case ends =>
    rw [exec_errPulseEnd_ends hu ht hle hv, if_neg]
    rintro ⟨hbit, hvl, hrun⟩
    rcases h with h | h | h
    · simp [h] at hbit
    · simp [h] at hvl
    · exact h hrun
  case stored => rw [exec_errPulseEnd_ends hu ht hle hv, if_pos ⟨hbit, hvl, hrun⟩, State.errLevel_eq]

end Sys2Proof.Machine
